-- ==== Sys2Proof/Word.lean ====
section
/-! DEFINITION. The word types of the model and their plainest arithmetic.

The module's own conventions (00_scope, Notation and units): bit 0 is the least significant bit and multi-byte
values are little-endian. -/

namespace Sys2Proof

/-- One byte. -/
abbrev Byte := BitVec 8
/-- A 32-bit word: an accumulator, an instruction, an FP32 pattern. -/
abbrev W32 := BitVec 32
/-- A 64-bit word: a scalar register, a dictionary U64, a guard word. -/
abbrev W64 := BitVec 64
/-- Bits [hi:lo] of a natural number, as a natural number. -/
def bitsOf (w hi lo : Nat) : Nat := (w >>> lo) % 2 ^ (hi + 1 - lo)

/-- Bit `k` of a natural number. -/
def bitOf (w k : Nat) : Bool := (w >>> k) % 2 == 1

/-- Ceiling division. -/
def ceilDiv (a b : Nat) : Nat := (a + b - 1) / b

end Sys2Proof
end

