-- ==== Sys2Proof/Syntax.lean ====
section
/-! DEFINITION. The commands of the module: one constructor of `Instr` for each row of spec/opcode_table.json,
in the table's order, with the row's operands.

Three kinds of row stand in the table: the instructions of a Room's Foreman and the micro-operations of its
Bricks (each names the Room that runs it), the accesses of hosts, dictionary clients and wires, and the events
that the module's own engines and its surroundings bring about.  Where an event carries a physical fact (a sensor
reading, the result of a self-test, whether a link check failed) the fact is an operand. -/

namespace Sys2Proof

/-- The guard of a Foreman instruction, bits [25:22] (R79). -/
structure Guard where
  pn : Bool
  pg : BitVec 3
deriving DecidableEq, Repr

/-- The channel that carries a dictionary request; it settles the requester's identity (10, Requesters and
rights).  `own` is a request of the module itself (the boot script, R414). -/
inductive Chan where
  | window (hall n : Nat)
  | can (hall node : Nat)
  | tunnel (plane node household : Nat)
  | own
deriving DecidableEq, Repr

/-- A USDO frame of CiA 1301 as the dictionary server reads it (R296, R299).  The byte layout of the frame is
that standard's and is not repeated by the manual. -/
inductive Frame where
  | empty
  | download (index sub : Nat) (data : List Byte)
  | downloadInit (index sub total : Nat)
  | downloadSegment (data : List Byte) (last : Bool)
  | upload (index sub : Nat)
  | uploadSegment
  | reply (data : List Byte)
  | abort (code : Nat)
  | broadcast
  | routed
deriving DecidableEq, Repr, Inhabited

/-- What REGISTER_WRITE names: a dictionary object, a register of BAR0 (R196, R197, R299), a doorbell page of BAR2 (R208), the
request frame of a window channel, written whole, or the size of BAR4 in its Resizable BAR capability (R195).  The table has no row
for a host's read of BAR0 or BAR2, which travels with this one and ignores its data (log entry 87). -/
inductive Target where
  | object (index sub : Nat)
  | bar0 (hall offset : Nat)
  | frame (hall n : Nat) (f : Frame)
  | bar2 (hall ctx offset : Nat)
  | bar4Size (hall log2 : Nat)
  | bar0Read (hall offset len : Nat)
  | bar2Read (hall ctx offset len : Nat)
deriving DecidableEq, Repr

/-- The kind of an access that arrives from outside, or of an uncached access at a home (R186, R244). -/
inductive AccKind where
  | read
  | write (data : List Byte)
  | atomic (op : BitVec 4) (operand compare : W64)
  | signal (value : W64)
  | await (value : W64)
  | event (value : W64)
deriving DecidableEq, Repr

/-- An access that arrives through Mortar (R246). -/
structure RemoteAccess where
  port : Nat
  plane : Nat
  node : Nat
  household : Nat
  addr : Nat
  len : Nat
  kind : AccKind
deriving DecidableEq, Repr

/-- The announcement of a Mortar peer at training (R430), and the lanes that came up (R429). -/
structure MortarPeer where
  version : Nat
  plane : Nat
  node : Nat
  direction : Nat
  epoch : Nat
  lanes : Nat
deriving DecidableEq, Repr

/-- A Room's result of a Course: its digest, a program fault, or a hardware fault (R102, R117, R334). -/
inductive CourseResult where
  | digest (d : W64)
  | faulted
  | failed
deriving DecidableEq, Repr

/-- What a Mortar flit carries, as far as the manual gives it (R142, R242, R302, R348, R431, R442).  The `status`
of a response is 0 done, 1 refused, 2 poisoned. -/
inductive FlitBody where
  | gutter (suite tree round node piece : Nat) (data : List Byte)
  | gutterEdge (suite tree round node fmt op bytes : Nat) (overflow : List Nat)
  | gutterFail (suite tree round : Nat)
  | parity (data : List Byte)
  | pairSettings (epoch suite : Nat) (digest : List Byte)
  | pairHead (epoch suite queue count : Nat) (digest : List Byte)
  | pairDigests (epoch suite course : Nat) (results : List (Nat × CourseResult))
  | pairMessage (epoch : Nat)
  | response (fabric status : Nat) (data : List Byte)
  | tunnelAnswer (hall n : Nat) (f : Frame)
  | transit (fabric len household : Nat) (kind : AccKind)
  | fault
  | other
deriving DecidableEq, Repr

/-- A Mortar flit: whether its CRC-32 link check holds, and its body (R431). -/
structure Flit where
  good : Bool
  body : FlitBody
deriving DecidableEq, Repr

/-- An AVTP frame on an ingest port (R435, R436). -/
structure AvtpFrame where
  stream : W64
  presentation : Option Nat
  payload : List Byte
deriving DecidableEq, Repr

/-- A temperature sensor of R325. -/
inductive Sensor where
  | junction (floor k : Nat)
  | hallJunction (hall k : Nat)
  | stack (k : Nat)
  | inlet
deriving DecidableEq, Repr

/-- A unit named by a fault, a fence or a self-test (R333, R354, R368). -/
inductive UnitRef where
  | brick (g : Nat)
  | room (r : Nat)
  | router (r : Nat)
  | pc (p : Nat)
  | floorBlock (f : Nat)
  | link (l : Nat)
  | steward (h : Nat)
  | copyEngine (h : Nat)
  | wing (h : Nat)
  | suiteCopy (suite copy : Nat)
  | clock (floor : Nat)
deriving DecidableEq, Repr

/-- A physical upset of an on-die memory, of a MAC array or of a Mortar lane (R72, R336, R431): none is a command of its own.
`address` is a Pantry offset, or lane × 2^16 + Hod offset (R358).  An upset MAC array adds num × 2^exp to one chunk term of the next
MMA of its lane. -/
inductive Upset where
  | corrected (room address : Nat)
  | double (room address : Nat)
  | mac (room lane chunk row column : Nat) (num exp : Int)
  | fec (port count : Nat)
deriving DecidableEq, Repr

/-- One record of a boot script (R413). -/
structure ScriptRecord where
  index : Nat
  sub : Nat
  kind : Nat
  data : List Byte
deriving DecidableEq, Repr

/-- One copy of the boot script as read from flash (R411, R412); `signature` is its 96 bytes. -/
structure ScriptCopy where
  version : Nat
  kind : Nat
  sequence : Nat
  serial : List Byte
  records : List ScriptRecord
  signature : List Byte
deriving DecidableEq, Repr

/-- What a bring-up stage found (R415, R418): a failure code with its detail, or success with the facts that the
stage measured.  `badLanes` lists the data lanes, and then the command/address lanes, that failed at a pseudo-channel; `lostPcs`
those that did not train for another cause (R155). -/
structure StageReport where
  failure : Nat := 0
  detail : Nat := 0
  fuses : List Nat := []
  copyA : Option ScriptCopy := none
  copyB : Option ScriptCopy := none
  lintelUp : Bool := true
  lostRooms : List Nat := []
  lostParts : List (Nat × Nat) := []
  lostBricks : List Nat := []
  lostRouters : List Nat := []
  lostPcs : List Nat := []
  badLanes : List (Nat × List Nat × List Nat) := []
  badDirectories : List Nat := []
  offsets : List (Nat × Nat) := []
deriving DecidableEq, Repr

/-- How an HBM access ended (R149 to R154). -/
inductive HbmResult where
  | ok
  | corrected (lane : Nat)
  | uncorrectable
  | parityCommand
  | parityWrite
  | parityRead
  | commandFailed
deriving DecidableEq, Repr

/-- The carrier of an SPDM request (R395). -/
inductive SpdmVia where
  | doe (hall : Nat)
  | dict (q : Chan) (household : Nat)
deriving DecidableEq, Repr

/-- The state of a CAN controller (R442). -/
inductive CanState where
  | active | passive | busOff
deriving DecidableEq, Repr

/-- An NMT state (R296). -/
inductive NmtState where
  | preOperational | operational | stopped
deriving DecidableEq, Repr

/-- The answer to a host read (R243). -/
inductive Completion where
  | data (bytes : List Byte) | unsupported | abort
deriving DecidableEq, Repr

/-- The commands of the module, one constructor per row of the opcode table. -/
inductive Instr where
  | add (r : Nat) (g : Guard) (rd ra rb : BitVec 5)
  | sub (r : Nat) (g : Guard) (rd ra rb : BitVec 5)
  | mul (r : Nat) (g : Guard) (rd ra rb : BitVec 5)
  | and (r : Nat) (g : Guard) (rd ra rb : BitVec 5)
  | or (r : Nat) (g : Guard) (rd ra rb : BitVec 5)
  | xor (r : Nat) (g : Guard) (rd ra rb : BitVec 5)
  | shl (r : Nat) (g : Guard) (rd ra rb : BitVec 5)
  | shr (r : Nat) (g : Guard) (rd ra rb : BitVec 5)
  | sra (r : Nat) (g : Guard) (rd ra rb : BitVec 5)
  | addi (r : Nat) (g : Guard) (rd ra : BitVec 5) (imm : BitVec 12)
  | ori (r : Nat) (g : Guard) (rd ra : BitVec 5) (imm : BitVec 12)
  | shli (r : Nat) (g : Guard) (rd ra : BitVec 5) (imm : BitVec 12)
  | movi (r : Nat) (g : Guard) (rd : BitVec 5) (imm : BitVec 16)
  | cmp (r : Nat) (g : Guard) (rd ra rb : BitVec 5) (fn : BitVec 7)
  | cmpi (r : Nat) (g : Guard) (rd ra : BitVec 5) (imm : BitVec 12)
  | plog (r : Nat) (g : Guard) (rd ra rb : BitVec 5) (fn : BitVec 7)
  | br (r : Nat) (g : Guard) (off : BitVec 22)
  | loop (r : Nat) (g : Guard) (ra : BitVec 5) (len : BitVec 12)
  | lds (r : Nat) (g : Guard) (rd ra : BitVec 5) (fn : BitVec 7)
  | sts (r : Nat) (g : Guard) (ra rb : BitVec 5) (fn : BitVec 7)
  | atomAdd (r : Nat) (g : Guard) (rd ra rb : BitVec 5)
  | atomMax (r : Nat) (g : Guard) (rd ra rb : BitVec 5)
  | atomMin (r : Nat) (g : Guard) (rd ra rb : BitVec 5)
  | atomOr (r : Nat) (g : Guard) (rd ra rb : BitVec 5)
  | atomAnd (r : Nat) (g : Guard) (rd ra rb : BitVec 5)
  | atomSwap (r : Nat) (g : Guard) (rd ra rb : BitVec 5)
  | atomCas (r : Nat) (g : Guard) (rd ra rb : BitVec 5)
  | atomFadd (r : Nat) (g : Guard) (rd ra rb : BitVec 5)
  | rdsr (r : Nat) (g : Guard) (rd : BitVec 5) (sel : BitVec 12)
  | rung (r : Nat) (g : Guard) (rd ra : BitVec 5) (imm : BitVec 12)
  | guard (r : Nat) (g : Guard) (td : BitVec 4) (rs : BitVec 5)
  | tdld (r : Nat) (g : Guard) (td : BitVec 4) (rs : BitVec 5)
  | tdset (r : Nat) (g : Guard) (td : BitVec 4) (rs : BitVec 5) (mode : BitVec 5)
  | tdadv (r : Nat) (g : Guard) (td : BitVec 4) (rs : BitVec 5) (mode : BitVec 5)
  | tload (r : Nat) (g : Guard) (td ta : BitVec 4) (rs : BitVec 5) (mode : BitVec 5)
  | tstore (r : Nat) (g : Guard) (td ta : BitVec 4) (rs : BitVec 5) (mode : BitVec 5)
  | dmaget (r : Nat) (g : Guard) (td ta : BitVec 4) (mode : BitVec 5)
  | dmaput (r : Nat) (g : Guard) (td ta : BitVec 4) (mode : BitVec 5)
  | dmawait (r : Nat) (g : Guard) (imm : BitVec 16)
  | dmaTransferComplete (r k : Nat)
  | mma (r : Nat) (g : Guard) (td ta tb : BitVec 4) (mode : BitVec 5)
  | fold (r : Nat) (g : Guard) (td : BitVec 4)
  | vec (r : Nat) (g : Guard) (rs : BitVec 5)
  | upld (r : Nat) (g : Guard) (ta : BitVec 4) (rs : BitVec 5)
  | conva (r : Nat) (g : Guard) (td ta tb : BitVec 4) (mode : BitVec 5)
  | convt (r : Nat) (g : Guard) (td ta : BitVec 4) (mode : BitVec 5)
  | gsend (r : Nat) (g : Guard) (ta : BitVec 4) (rs : BitVec 5) (mode : BitVec 5)
  | grecv (r : Nat) (g : Guard) (td : BitVec 4) (rs : BitVec 5) (mode : BitVec 5)
  | gwait (r : Nat) (g : Guard) (imm : BitVec 16)
  | signal (r : Nat) (g : Guard) (ra rb : BitVec 5)
  | wait (r : Nat) (g : Guard) (ra rb : BitVec 5)
  | barrier (r : Nat) (g : Guard) (imm : BitVec 12)
  | barrierRelease (suite copy n : Nat)
  | course (r : Nat) (g : Guard) (imm : BitVec 16)
  | digest (r : Nat) (g : Guard) (ra : BitVec 5)
  | commit (r : Nat) (g : Guard)
  | plumb (r : Nat) (g : Guard) (td ta tb : BitVec 4)
  | uopNop (r : Nat)
  | uopFma (r : Nat) (d a b c : BitVec 6) (mod : BitVec 4) (count : BitVec 8)
  | uopAdd (r : Nat) (d a b : BitVec 6) (mod : BitVec 4) (count : BitVec 8)
  | uopMul (r : Nat) (d a b : BitVec 6) (mod : BitVec 4) (count : BitVec 8)
  | uopMax (r : Nat) (d a b : BitVec 6) (mod : BitVec 4) (count : BitVec 8)
  | uopMin (r : Nat) (d a b : BitVec 6) (mod : BitVec 4) (count : BitVec 8)
  | uopFunc (r : Nat) (d a : BitVec 6) (mod : BitVec 4) (count : BitVec 8)
  | uopIadd (r : Nat) (d a b : BitVec 6) (mod : BitVec 4) (count : BitVec 8)
  | uopImul (r : Nat) (d a b : BitVec 6) (mod : BitVec 4) (count : BitVec 8)
  | uopIcvt (r : Nat) (d a : BitVec 6) (mod : BitVec 4) (count : BitVec 8)
  | uopLd (r : Nat) (d a : BitVec 6) (mod : BitVec 4) (haddr : BitVec 14) (count : BitVec 8)
  | uopSt (r : Nat) (d a : BitVec 6) (mod : BitVec 4) (haddr : BitVec 14) (count : BitVec 8)
  | uopSel (r : Nat) (d a b c : BitVec 6) (mod : BitVec 4) (count : BitVec 8)
  | uopLane (r : Nat) (d : BitVec 6) (mod : BitVec 4)
  | uopLoop (r : Nat) (count target : BitVec 8)
  | uopEnd (r : Nat)
  | gutterPieceReduce (suite copy tree round node piece : Nat)
  | descriptorFetch (ctx queue : Nat)
  | waitRecheck (ctx queue : Nat)
  | configurationLanding (suite : Nat)
  | roomWhitewashComplete (r : Nat) (pass : Bool)
  | dispatchLanding (suite : Nat)
  | pairedSettingsWait (suite : Nat)
  | commitLanding (suite : Nat)
  | markerPublish (ctx queue : Nat)
  | sliceExpiry (suite : Nat)
  | kill (q : Chan) (suite : Nat)
  | ctxRequest (q : Chan) (hh : Nat) (w : W64)
  | retry (q : Chan) (ctx : Nat)
  | skip (q : Chan) (ctx : Nat)
  | queueOpen (q : Chan) (ctx : Nat) (w : W64)
  | queueClose (q : Chan) (ctx : Nat) (queue : Byte)
  | close (q : Chan) (ctx : Nat)
  | tailDoorbell (hall ctx queue size : Nat) (v : W32)
  | replay (hall ctx size : Nat) (version : Byte) (seq : W32)
  | abort (hall ctx size : Nat) (version : Byte) (seq : W32)
  | vectorUnmask (hall vec : Nat)
  | bar4Access (hall off len : Nat) (data : Option (List Byte))
  | ptRoot (q : Chan) (hh : Nat) (w : W64)
  | tlbInval (q : Chan) (hh : Nat) (w : W64)
  | pageWalk (port ctx va : Nat) (write : Bool)
  | faultRecordWrite (hh : Nat)
  | faultqBase (q : Chan) (hh : Nat) (w : W64)
  | faultTimeout (port : Nat)
  | windowAdd (q : Chan) (hh : Nat) (data : List Byte)
  | windowRemove (q : Chan) (hh : Nat) (idx : BitVec 16)
  | remoteAccessArrival (acc : RemoteAccess)
  | windowRefusal (k : Nat)
  | activate (q : Chan) (hh : Nat)
  | deactivate (q : Chan) (hh : Nat)
  | grant (q : Chan) (hh : Nat) (w : W64)
  | withdraw (q : Chan) (hh : Nat) (w : W64)
  | washPage (stack : Nat)
  | suiteRequest (q : Chan) (hh : Nat) (w : W32)
  | suiteRelease (q : Chan) (hh : Nat) (suite : Byte)
  | roomAdd (q : Chan) (suite : Nat) (data : List Byte)
  | roomRemove (q : Chan) (suite : Nat) (v : BitVec 16)
  | roomMove (q : Chan) (suite : Nat) (w : W32)
  | groupBind (q : Chan) (suite : Nat) (v : BitVec 16)
  | groupUnbind (q : Chan) (suite : Nat) (v : BitVec 16)
  | portBind (q : Chan) (suite : Nat) (port : BitVec 5)
  | portUnbind (q : Chan) (suite : Nat) (port : BitVec 5)
  | atFreezePoint (q : Chan) (hh : Nat)
  | atNextBoundary (q : Chan) (hh : Nat)
  | thaw (q : Chan) (hh : Nat)
  | save (q : Chan) (hh : Nat) (w : W64)
  | restore (q : Chan) (hh : Nat) (w : W64)
  | release (q : Chan) (suite : Nat)
  | registerWrite (q : Chan) (target : Target) (data : List Byte)
  | upload (q : Chan) (index sub : Nat)
  | wholeIndexUpload (q : Chan) (index : Nat)
  | windowGo (hall n : Nat)
  | usdoFrame (hall node : Nat) (f : Frame)
  | tunnelRequest (version plane node household : Nat) (f : Frame)
  | tunnelTimeout (hall n : Nat)
  | segmentTimeout (q : Chan)
  | notPermittedAnswer (k : Nat)
  | nmtResetApplication (hall : Nat)
  | nmtResetCommunication (hall : Nat)
  | heartbeat (hall : Nat)
  | sleepRequest (q : Chan)
  | wakePin
  | canWakeFrame (hall : Nat)
  | pcieWake (hall : Nat)
  | hearthAlarm
  | thermalWake
  | powerUpStep (good : Bool)
  | roomSwitchGroup (floor : Nat) (failed : List Nat)
  | powerSample (hall mV mA : Nat)
  | capTick
  | powerBrakeAssert
  | powerBrakeRelease
  | currentSample (floor peak mean : Nat)
  | phaseLoss (floor : Nat)
  | droopDetect (r : Nat)
  | droopRelease (r : Nat)
  | thermalSensorChange (sensor : Sensor) (half : Int)
  | thermalShutdown
  | settlementMeasure (floor worst : Nat) (short : Bool)
  | roomDozeEntry (r : Nat)
  | roomClockGate (r : Nat)
  | courseDigestCompare (suite : Nat) (larger : List Bool)
  | courseOverrun (r : Nat)
  | spareLoadComplete (r : Nat)
  | hallLease (hall : Nat)
  | hallLeaseTimeout (hall : Nat)
  | hallRejoin
  | pairLease (port epoch : Nat)
  | pairLeaseTimeout
  | arbiterGrant
  | arbiterWithdraw
  | islandModeEntry
  | pairRejoin
  | linkDown (link : Nat)
  | reintegrationSelfTest (u : UnitRef) (pass : Bool) (dead : List Nat)
  | ledgerRecord (hall : Nat)
  | stormEnd (hall : Nat)
  | tallyFire (kind : Nat) (u : UnitRef)
  | rungComplete (rung : Nat) (u : UnitRef)
  | rungTimeout (rung : Nat) (u : UnitRef)
  | moduleReset (q : Chan)
  | wardenMismatch (hall : Nat)
  | wardenRungOverdue (hall : Nat)
  | failSilent (hall : Nat)
  | lcAdvance (q : Chan) (data : List Byte)
  | lcAdvanceReset
  | openHouseChallenge (q : Chan)
  | challengeExpiry
  | openHouseResponse (q : Chan) (data : List Byte)
  | getVersion (via : SpdmVia) (version : Byte)
  | getCapabilities (via : SpdmVia) (version : Byte)
  | negotiateAlgorithms (via : SpdmVia) (version : Byte)
  | getDigests (via : SpdmVia) (version : Byte)
  | getCertificate (via : SpdmVia) (version : Byte) (slot offset len : Nat)
  | challenge (via : SpdmVia) (version : Byte) (slot : Nat) (nonce : List Byte)
  | getMeasurements (via : SpdmVia) (version : Byte) (index slot : Nat) (nonce : List Byte)
  | latchOpen (q : Chan) (hh : Nat) (data : List Byte)
  | latchRelease (q : Chan) (hh : Nat) (data : List Byte)
  | slotClear (q : Chan) (hh : Nat) (slot : Byte)
  | blobDecrypt (q : Chan) (hh : Nat) (data : List Byte)
  | blobDecryptDone (hh : Nat)
  | tamperEvent (hall sensor : Nat)
  | bringupStage (hall : Nat) (report : StageReport)
  | stageTimeout (hall : Nat)
  | svcEn (hall : Nat) (low : Bool)
  | inputSwitchOpen
  | inputRestore
  | brownOut (enter : Bool)
  | presenceLoss
  | perstAssert (hall : Nat)
  | perstDeassert (hall : Nat)
  | mortarLinkTrain (port : Nat) (peer : MortarPeer)
  | mortarFlitReceive (port : Nat) (flit : Flit)
  | nodePlaneWrite (q : Chan) (plane : Bool) (v : BitVec 16)
  | ingestFrame (port : Nat) (frame : AvtpFrame)
  | timeMessage
  | timeSourceLost
  | timePps
  | portRegulatorIssue (port : Nat)
  | congestionPublish (stack : Nat)
  | pcSchedule (pc : Nat)
  | hbmRefresh (pc : Nat)
  | hbmAccessComplete (pc : Nat) (result : HbmResult)
  | patrolScrub (stack : Nat)
  | gets (r line : Nat)
  | getm (r line : Nat)
  | putm (r line : Nat)
  | pute (r line : Nat)
  | puts (r line : Nat)
  | done (r line : Nat)
  | fwdGets (r line : Nat)
  | fwdGetm (r line : Nat)
  | recall (r line : Nat)
  | inv (r line : Nat)
  | data (r line : Nat)
  | invAck (r line : Nat)
  | fwdAck (r line : Nat)
  | nack (r line : Nat)
  | nackRetry (r line : Nat)
  | putAck (r line : Nat)
  | uncachedAccess (lpa len : Nat) (kind : AccKind)
  | linkUp (link rate width : Nat)
  | lineDown
  | floorPowerGoodLoss (floor : Nat)
  | phaseRestore (floor : Nat)
  | canErrorState (hall : Nat) (st : CanState)
  | nmtStateCommand (hall : Nat) (st : NmtState)
  | pcieCompletion (hall addr len : Nat) (c : Completion)
  | pcieCompletionTimeout (hall addr : Nat)
  | remoteResponseTimeout (k : Nat)
  | saveDone (hh cause : Nat)
  | restoreDone (hh cause : Nat)
  | timeSyncExchange (source : Nat) (offset : Int)
deriving DecidableEq, Repr

end Sys2Proof
end

