-- ==== Sys2Proof/Config.lean ====
section
/-! DEFINITION. What the manual leaves open and what other standards fix: constants with no body, so that nothing
can be proved of their values.

A statement of this model holds for every value of these constants. -/

namespace Sys2Proof.Config

/-- A fresh free value: the n-th draw of a value that the manual does not state (log entry 2). -/
opaque free : Nat → Nat

/-- The upset that strikes the module at a reference tick, if any: physics, not the manual, decides (R72, R336, R431, log
entry 69). -/
opaque upset : Nat → Option Upset

/-- What RUNG reads for a layer tag without a Ladder entry: one value for every copy and every run of a step (log entry 6). -/
opaque openRung : Nat → BitVec 64

/-- Which of the FP32 values within two units in the last place the elementary functions 0, 1 and 3 to 5 of R108 give, by function
code and operand (log entry 12). -/
opaque funcUlp : Nat → BitVec 32 → Fin 5

/-- The result of an elementary function for an operand at which R107 and R108 state none (log entry 12). -/
opaque funcOpen : Nat → BitVec 32 → BitVec 32

/-- The element code written for a NaN element of an MX block, whose block scale is then 0xFF (R45); by format code
(log entry 13). -/
opaque mxNan : Nat → Nat

/-- Byte k of what a vote spare loads from the other module of a pair, at the n-th such load; the other module's Rooms are
no state of this one (log entry 43). -/
opaque partnerByte : Nat → Nat → Byte

/-- Hardware indications that the other module of a pair counts in a re-run (log entry 43). -/
opaque partnerMarks : Nat → Nat

/-- Whether the other module of a pair held the arbiter's grant when its leases resumed (log entry 43). -/
opaque partnerGranted : Nat → Bool

/-- The core rail of clock step n, in mV above 550; R318 gives the first step 0.55 V and the last 0.75 V only (log entry
44). -/
opaque railStep : Nat → Fin 201

/-- Whether the clock of step n, which is no whole number of MHz for most steps, is reported rounded up (R332, log entry
44). -/
opaque clockRoundsUp : Nat → Bool

/-- Bits [4:2] of 0x2950.01, the WAKE pin and the two open-pair indications, which no command sets, at a device time (log
entry 49). -/
opaque pins : Nat → Fin 8

/-- The longest download, in bytes, that a USDO frame carries as an expedited one; the frame is that of CiA 1301 (log entry
50). -/
opaque expedited : Fin 64

/-- The request frame of a window channel after bytes are written at an offset of it: the bytes of a USDO frame are those of
CiA 1301 (R299, log entry 50). -/
opaque frameOf : Frame → Nat → List Byte → Frame

/-- A DETAIL word made of two parts whose places R358 does not give (log entry 48). -/
opaque detail : Nat → Nat → Nat

/-- The refreshes that JESD238 lets a pseudo-channel postpone, and the bank that the n-th refresh of a pseudo-channel closes
(R157, log entry 56). -/
opaque refreshLimit : Nat
opaque refreshBank : Nat → Fin 48

/-- SHA-384 of FIPS 180-4, as 48 bytes (log entry 30). -/
opaque sha384 : List Byte → List Byte

/-- ECDSA P-384 verification: public key, message, signature (log entry 30). -/
opaque ecdsaVerify : List Byte → List Byte → List Byte → Bool

/-- ECDSA P-384 signature by a private key named by its role: message, fresh number (log entry 30). -/
opaque ecdsaSign : Nat → List Byte → Nat → List Byte

/-- The vendor test key (0) and the test root (1) in the Hall's read-only memory (R383). -/
opaque romKey : Nat → List Byte

/-- The production root public key whose SHA-384 is PROD_ROOT_HASH, recovered from the hash (R383). -/
opaque rootKey : List Byte → List Byte

/-- The device identity public key that DEVICE_SECRET yields under R384. -/
opaque identityOf : List Byte → List Byte

/-- The true random source of the security engine: n-th draw of a number of bytes (R380, R385, R398). -/
opaque random : Nat → Nat → List Byte

/-- ML-KEM-1024 encapsulation key of the n-th session key pair (R398). -/
opaque kemPublic : Nat → List Byte

/-- ECDH P-384 public key of the n-th session key pair (R398). -/
opaque ecdhPublic : Nat → List Byte

/-- KEK of R399 from the session's number, the offer, the ML-KEM ciphertext, the owner's ECDH key and the info;
none when decapsulation fails. -/
opaque latchKek : Nat → List Byte → List Byte → List Byte → List Byte → Option (List Byte)

/-- AES-256-GCM opening: key, nonce, additional data, ciphertext, tag; none when the tag fails (R399, R401). -/
opaque gcmOpen : List Byte → List Byte → List Byte → List Byte → List Byte → Option (List Byte)

/-- AES-256-GCM sealing: key, nonce, additional data, plaintext; ciphertext and tag (R279). -/
opaque gcmSeal : List Byte → List Byte → List Byte → List Byte → List Byte × List Byte

/-- The public key of the leaf of a certificate chain (R384). -/
opaque leafKey : List Byte → List Byte

/-- The test certificate chain of SPDM slot 1, from the serial number (R384). -/
opaque testChain : List Byte → List Byte

/-- The body of an SPDM response of DMTF DSP0274: message kind, version and parameters (R395). -/
opaque spdmBody : Nat → Nat → List Byte → List Byte

/-- The 64 bytes of a USDO frame of CiA 1301 in a window channel (R299, log entry 50). -/
opaque frameBytes : Frame → Vector Byte 64

/-- log2 of the BAR4 size that this part shows before the host resizes it, 28 to 38, when BAR4 is present (R195, R197). -/
opaque bar4Log2 : Fin 11

end Sys2Proof.Config
end

