-- ==== Sys2Proof/Machine/Store.lean ====
section
/-! DEFINITION. Sparse storage: a list of (key, value) pairs in one canonical form.

Every memory, register file and table of the model is a `Store`: keys strictly rising, and no entry equal to what
an unlisted key reads as.  Equal contents are therefore equal data. -/

namespace Sys2Proof.Machine

/-- A tile descriptor: four 64-bit words, word 0 lowest (R83). -/
structure Desc where
  bits : BitVec 256 := 0
deriving DecidableEq, Repr

/-- A table by natural-number key, kept in canonical form by `Store.set`. -/
abbrev Store (α : Type) := List (Nat × α)

/-- What the key reads as; `d` is what an unlisted key reads as. -/
def Store.get {α : Type} (d : α) : Store α → Nat → α
  | [], _ => d
  | (k, v) :: m, a => if a = k then v else Store.get d m a

/-- Write one key. Writing `d` removes the entry. -/
def Store.set {α : Type} [DecidableEq α] (d : α) : Store α → Nat → α → Store α
  | [], a, x => if x = d then [] else [(a, x)]
  | (k, v) :: m, a, x =>
    if a < k then (if x = d then (k, v) :: m else (a, x) :: (k, v) :: m)
    else if a = k then (if x = d then m else (a, x) :: m)
    else (k, v) :: Store.set d m a x

/-- Change the value at one key. -/
def Store.modify {α : Type} [DecidableEq α] (d : α) (m : Store α) (a : Nat) (f : α → α) : Store α :=
  Store.set d m a (f (Store.get d m a))

/-- Change every listed value; a value that becomes `d` leaves the list. -/
def Store.mapValues {α : Type} [DecidableEq α] (d : α) (f : α → α) : Store α → Store α
  | [] => []
  | (k, v) :: m => if f v = d then Store.mapValues d f m else (k, f v) :: Store.mapValues d f m

/-- The canonical form: every key above `lo`, keys strictly rising, no entry equal to `d`. -/
def Store.wfFrom {α : Type} [DecidableEq α] (d : α) : Nat → Store α → Bool
  | _, [] => true
  | lo, (k, v) :: m => decide (lo ≤ k) && decide (v ≠ d) && Store.wfFrom d (k + 1) m

/-- The canonical form of a whole store. -/
def Store.wf {α : Type} [DecidableEq α] (d : α) (m : Store α) : Bool := Store.wfFrom d 0 m

/-- `n` consecutive keys from `a`. -/
def Store.range {α : Type} (d : α) (m : Store α) (a : Nat) : Nat → List α
  | 0 => []
  | n + 1 => Store.get d m a :: Store.range d m (a + 1) n

/-- Write a list to consecutive keys from `a`. -/
def Store.setRange {α : Type} [DecidableEq α] (d : α) (m : Store α) (a : Nat) : List α → Store α
  | [] => m
  | x :: xs => Store.setRange d (Store.set d m a x) (a + 1) xs

/-- A byte of a memory; bytes that nothing has written read as 0. -/
abbrev Memory := Store Byte

/-- The canonical form of a memory. -/
def Memory.wf (m : Memory) : Bool := Store.wf 0 m

/-- The little-endian number that a list of bytes spells (00_scope, Notation and units). -/
def leNat : List Byte → Nat
  | [] => 0
  | b :: bs => b.toNat + 256 * leNat bs

/-- The `n` little-endian bytes of a number. -/
def leBytes : Nat → Nat → List Byte
  | 0, _ => []
  | n + 1, w => BitVec.ofNat 8 w :: leBytes n (w / 256)

/-- Read `n` bytes as a little-endian number. -/
def Memory.readNat (m : Memory) (a n : Nat) : Nat := leNat (Store.range 0 m a n)

/-- Write the `n` little-endian bytes of a number. -/
def Memory.writeNat (m : Memory) (a n w : Nat) : Memory := Store.setRange 0 m a (leBytes n w)

/-- `f` applied to 0, 1, …, n − 1 in ascending order, each on the last result. -/
def iterate {σ : Type} (f : Nat → σ → σ) : Nat → σ → σ
  | 0, s => s
  | n + 1, s => f n (iterate f n s)

/-- Replace the element at a position; a position beyond the end changes nothing. -/
def listSet {α : Type} : List α → Nat → α → List α
  | [], _, _ => []
  | _ :: xs, 0, y => y :: xs
  | x :: xs, n + 1, y => x :: listSet xs n y

/-- Change the first element that satisfies `p`. -/
def modifyFirst {α : Type} (p : α → Bool) (f : α → α) : List α → List α
  | [] => []
  | x :: xs => if p x then f x :: xs else x :: modifyFirst p f xs

/-- Remove the first element that satisfies `p`. -/
def removeFirst {α : Type} (p : α → Bool) : List α → List α
  | [] => []
  | x :: xs => if p x then xs else x :: removeFirst p xs

end Sys2Proof.Machine
end

