-- ==== Sys2Proof/Machine/Float.lean ====
section
/-! DEFINITION. Exact binary arithmetic and its roundings: the values of floating-point codes (R31, R32), IEEE 754
binary32 arithmetic under round to nearest even (R42), and the elementary functions of R107 and R108. -/

namespace Sys2Proof.Machine

/-- The value of a floating-point code: a NaN, an infinity, or ±m × 2^e. -/
inductive FVal where
  | nan
  | inf (neg : Bool)
  | fin (neg : Bool) (m : Nat) (e : Int)
deriving DecidableEq, Repr

/-- A dyadic number i × 2^e. -/
structure Dyadic where
  i : Int
  e : Int
deriving DecidableEq, Repr

/-- A signed magnitude as an integer. -/
def signed (neg : Bool) (m : Nat) : Int := if neg then -(m : Int) else (m : Int)

def Dyadic.add (a b : Dyadic) : Dyadic :=
  let e := min a.e b.e
  { i := a.i * 2 ^ (a.e - e).toNat + b.i * 2 ^ (b.e - e).toNat, e := e }
def Dyadic.mul (a b : Dyadic) : Dyadic := { i := a.i * b.i, e := a.e + b.e }
def Dyadic.neg (a : Dyadic) : Dyadic := { a with i := -a.i }
def Dyadic.abs (a : Dyadic) : Dyadic := { a with i := (a.i.natAbs : Int) }
/-- a ≤ b as numbers. -/
def Dyadic.le (a b : Dyadic) : Bool :=
  let e := min a.e b.e
  decide (a.i * 2 ^ (a.e - e).toNat ≤ b.i * 2 ^ (b.e - e).toNat)
def Dyadic.lt (a b : Dyadic) : Bool := !b.le a

/-- Bits of a natural number. -/
def bitLength (m : Nat) : Nat := if m = 0 then 0 else Nat.log2 m + 1

/-- A floating-point layout: mantissa bits, the exponent of the smallest subnormal, and the code of the largest
finite magnitude (R31). -/
structure FloatShape where
  mb : Nat
  qmin : Int
  top : Nat
deriving DecidableEq, Repr

def fp32Shape : FloatShape := { mb := 23, qmin := -149, top := 0x7F7FFFFF }

/-- The value of a finite magnitude code. -/
def FloatShape.decode (f : FloatShape) (neg : Bool) (c : Nat) : FVal :=
  let ex := c / 2 ^ f.mb
  if ex = 0 then .fin neg c f.qmin else .fin neg (2 ^ f.mb + c % 2 ^ f.mb) (f.qmin + ex - 1)

/-- The exponent of the last place of m × 2^e in a layout, as if its exponent range had no upper bound (R45). -/
def FloatShape.quantum (f : FloatShape) (m : Nat) (e : Int) : Int := max (e + bitLength m - (f.mb + 1 : Nat)) f.qmin

/-- The rounding modes of R44; stochastic rounding carries its draw. -/
inductive Rounding where
  | rne
  | rtz
  | sr (draw : Nat)
deriving DecidableEq, Repr

/-- m / 2^k rounded to an integer (R44, R48). -/
def roundShift (mode : Rounding) (m k : Nat) : Nat :=
  let lo := m / 2 ^ k
  let rest := m % 2 ^ k
  match mode with
  | .rtz => lo
  | .rne => if 2 * rest < 2 ^ k then lo else if 2 ^ k < 2 * rest then lo + 1 else lo + lo % 2
  | .sr r => if rest = 0 then lo else if r < 65536 * rest / 2 ^ k then lo + 1 else lo

/-- m × 2^e rounded to a multiple of 2^q, as that multiple. -/
def roundTo (mode : Rounding) (m : Nat) (e q : Int) : Nat :=
  if q ≤ e then m * 2 ^ (e - q).toNat else roundShift mode m (q - e).toNat

/-- The magnitude code that m × 2^e rounds to, as if the exponent range had no upper bound: codes above `top` stand
for magnitudes beyond the largest finite (R45). -/
def FloatShape.round (f : FloatShape) (mode : Rounding) (m : Nat) (e : Int) : Nat :=
  if m = 0 then 0
  else
    let q := f.quantum m e
    (q - f.qmin).toNat * 2 ^ f.mb + roundTo mode m e q

/-- Whether m × 2^e is exactly representable, so that R48 takes no draw. -/
def FloatShape.exact (f : FloatShape) (m : Nat) (e : Int) : Bool :=
  m = 0 || decide (f.quantum m e ≤ e) || m % 2 ^ (f.quantum m e - e).toNat = 0

/-! ### FP32 (R32, R42) -/

def fp32Nan : W32 := 0x7FC00000#32
def fp32Inf (neg : Bool) : W32 := if neg then 0xFF800000#32 else 0x7F800000#32
def fp32Sign (neg : Bool) : Nat := if neg then 0x80000000 else 0

/-- The value of an FP32 pattern. -/
def fp32 (w : W32) : FVal :=
  let c := w.toNat % 0x80000000
  let neg := decide (0x80000000 ≤ w.toNat)
  if 0x7F800000 < c then .nan else if c = 0x7F800000 then .inf neg else fp32Shape.decode neg c

def fp32IsNan (w : W32) : Bool := decide (0x7F800000 < w.toNat % 0x80000000)
def fp32IsInf (w : W32) : Bool := decide (w.toNat % 0x80000000 = 0x7F800000)
def fp32IsFinite (w : W32) : Bool := decide (w.toNat % 0x80000000 < 0x7F800000)

/-- ±m × 2^e rounded to FP32 under RNE; beyond the range it becomes an infinity (R42). -/
def fp32Round (neg : Bool) (m : Nat) (e : Int) : W32 :=
  let c := fp32Shape.round .rne m e
  if fp32Shape.top < c then fp32Inf neg else BitVec.ofNat 32 (fp32Sign neg + c)

/-- An exact dyadic number rounded to FP32; zero becomes +0. -/
def Dyadic.toFp32 (d : Dyadic) : W32 := fp32Round (decide (d.i < 0)) d.i.natAbs d.e

/-- FP32 addition (R32, R42). -/
def fp32Add (a b : W32) : W32 :=
  match fp32 a, fp32 b with
  | .nan, _ => fp32Nan
  | _, .nan => fp32Nan
  | .inf x, .inf y => if x = y then fp32Inf x else fp32Nan
  | .inf x, _ => fp32Inf x
  | _, .inf y => fp32Inf y
  | .fin na ma ea, .fin nb mb eb =>
    let d := Dyadic.add ⟨signed na ma, ea⟩ ⟨signed nb mb, eb⟩
    if d.i = 0 then BitVec.ofNat 32 (fp32Sign (na && nb)) else d.toFp32

/-- FP32 multiplication. -/
def fp32Mul (a b : W32) : W32 :=
  match fp32 a, fp32 b with
  | .nan, _ => fp32Nan
  | _, .nan => fp32Nan
  | .inf x, .inf y => fp32Inf (x != y)
  | .inf x, .fin y m _ => if m = 0 then fp32Nan else fp32Inf (x != y)
  | .fin x m _, .inf y => if m = 0 then fp32Nan else fp32Inf (x != y)
  | .fin x m e, .fin y n f => fp32Round (x != y) (m * n) (e + f)

/-- Fused FP32 multiply-add: a × b + c with one rounding (R107). -/
def fp32Fma (a b c : W32) : W32 :=
  match fp32 a, fp32 b with
  | .fin x m e, .fin y n f =>
    match fp32 c with
    | .nan => fp32Nan
    | .inf z => fp32Inf z
    | .fin z k g =>
      let d := Dyadic.add ⟨signed (x != y) (m * n), e + f⟩ ⟨signed z k, g⟩
      if d.i = 0 then BitVec.ofNat 32 (fp32Sign ((x != y) && z)) else d.toFp32
  | _, _ => fp32Add (fp32Mul a b) c

/-- A total order key of FP32 numbers: −0 lies just below +0 (R138). -/
def fp32Key (w : W32) : Int := if 0x80000000 ≤ w.toNat then -((w.toNat - 0x80000000 : Nat) : Int) - 1 else (w.toNat : Int)

/-- Maximum; NaN if either is NaN (R107, R138). -/
def fp32Max (a b : W32) : W32 :=
  if fp32IsNan a || fp32IsNan b then fp32Nan else if fp32Key a ≤ fp32Key b then b else a
/-- Minimum; NaN if either is NaN (R107, R138). -/
def fp32Min (a b : W32) : W32 :=
  if fp32IsNan a || fp32IsNan b then fp32Nan else if fp32Key a ≤ fp32Key b then a else b

/-- −x: the sign bit inverted; a NaN is written canonically (R32). -/
def fp32Neg (a : W32) : W32 := if fp32IsNan a then fp32Nan else a ^^^ 0x80000000#32
/-- |x|. -/
def fp32Abs (a : W32) : W32 := if fp32IsNan a then fp32Nan else a &&& 0x7FFFFFFF#32

/-! ### Quotients and roots -/

/-- n × 2^e / d (d > 0) to 160 bits below the leading bit, with a last bit that says whether anything is left over:
every rounding of it is the rounding of the exact quotient. -/
def quotient (n : Nat) (e : Int) (d : Nat) : Nat × Int :=
  let k := 160 + bitLength d
  let q := n * 2 ^ k / d
  (2 * q + (if n * 2 ^ k % d = 0 then 0 else 1), e - k - 1)

/-- The integer square root, one bit of the result per step from bit k − 1 down. -/
def isqrtFrom (m : Nat) : Nat → Nat → Nat
  | 0, acc => acc
  | k + 1, acc => let t := acc + 2 ^ k; isqrtFrom m k (if t * t ≤ m then t else acc)

/-- √(m × 2^e) in the same manner as `quotient`. -/
def root (m : Nat) (e : Int) : Nat × Int :=
  let e' := if e % 2 = 0 then e else e - 1
  let m' := if e % 2 = 0 then m else 2 * m
  let x := m' * 2 ^ 128
  let s := isqrtFrom x (bitLength x / 2 + 1) 0
  (2 * s + (if s * s = x then 0 else 1), e' / 2 - 64 - 1)

/-- √ of a non-negative FP32 quotient a / b, rounded to FP32; an infinite a over a finite b gives infinity (R59). -/
def fp32SqrtQuot (a b : W32) : W32 :=
  match fp32 a, fp32 b with
  | .fin _ m e, .fin _ n f =>
    if n = 0 then fp32Nan
    else
      let (q, eq) := quotient m (e - f) n
      let (s, es) := root q eq
      fp32Round false s es
  | .inf false, .fin _ n _ => if n = 0 then fp32Nan else fp32Inf false
  | _, _ => fp32Nan

/-- floor of a finite number, as an FP32 pattern. -/
def fp32Floor (a : W32) : W32 :=
  match fp32 a with
  | .nan => fp32Nan
  | .inf x => fp32Inf x
  | .fin n m e =>
    if 0 ≤ e then a
    else
      let k := 2 ^ (-e).toNat
      if m = 0 then a
      else if n then fp32Round true ((m + k - 1) / k) 0 else fp32Round false (m / k) 0

def fp32Recip (a : W32) : W32 :=
  match fp32 a with
  | .nan => fp32Nan
  | .inf x => BitVec.ofNat 32 (fp32Sign x)
  | .fin n m e => if m = 0 then fp32Inf n else let (q, f) := quotient 1 (-e) m; fp32Round n q f

def fp32Sqrt (a : W32) : W32 :=
  match fp32 a with
  | .nan => fp32Nan
  | .inf x => if x then fp32Nan else fp32Inf false
  | .fin n m e => if m = 0 then a else if n then fp32Nan else let (s, f) := root m e; fp32Round false s f

/-! ### Elementary functions (R107, R108)

Each is computed to far more than FP32 precision in fixed point with 128 fraction bits. -/

/-- 2^128, the unit of the fixed-point computations. -/
def unit128 : Nat := 2 ^ 128
/-- ln 2 in units of 2^−128. -/
def ln2 : Nat := 235865763225513294137944142764154484399

/-- exp of t / 2^128 for 0 ≤ t ≤ 2^128: the terms k, k − 1, …, 1 of its series in Horner form. -/
def expSeries (t : Nat) : Nat → Nat → Nat
  | 0, acc => acc
  | k + 1, acc => expSeries t k (unit128 + t * acc / (unit128 * (k + 1)))

/-- 2^(f / 2^128) for a fraction 0 ≤ f < 2^128, in units of 2^−128. -/
def exp2Frac (f : Nat) : Nat := expSeries (f * ln2 / unit128) 40 unit128

/-- A dyadic number as a whole part and a fraction in units of 2^−128. -/
def splitDyadic (d : Dyadic) : Int × Nat :=
  let x := if 0 ≤ d.e + 128 then d.i * 2 ^ (d.e + 128).toNat else d.i / 2 ^ (-(d.e + 128)).toNat
  (x / (unit128 : Int), (x % (unit128 : Int)).toNat)

/-- 2^d as a magnitude. -/
def exp2Dyadic (d : Dyadic) : Nat × Int := let (n, f) := splitDyadic d; (exp2Frac f, n - 128)

/-- The binary digits of log2 of x / 2^128, 1 ≤ x / 2^128 < 2. -/
def log2Digits (x : Nat) : Nat → Nat → Nat
  | 0, acc => acc
  | k + 1, acc =>
    let y := x * x / unit128
    if 2 * unit128 ≤ y then log2Digits (y / 2) k (2 * acc + 1) else log2Digits y k (2 * acc)

/-- log2 of m × 2^e as a dyadic number with 96 fraction bits. -/
def log2Of (m : Nat) (e : Int) : Dyadic :=
  let l := bitLength m - 1
  { i := (e + l) * 2 ^ 96 + (log2Digits (m * 2 ^ (128 - l)) 96 0 : Nat), e := -96 }

/-- log2(e), in units of 2^−128. -/
def log2e : Nat := 490923683258796565746369346286093237521

/-- e^d as a magnitude. -/
def expDyadic (d : Dyadic) : Nat × Int := exp2Dyadic ⟨d.i * (log2e : Int), d.e - 128⟩

/-- tanh of a positive m × 2^e as a magnitude: (E − 1) / (E + 1) with E = e^(2x). -/
def tanhMag (m : Nat) (e : Int) : Nat × Int :=
  if e + bitLength m < -12 then
    -- x − x³ / 3
    let d := Dyadic.add ⟨3 * m, e⟩ ⟨-((m * m * m : Nat) : Int), 3 * e⟩
    quotient d.i.natAbs d.e 3
  else if 6 ≤ e + bitLength m then (unit128, -128)
  else
    let (x, f) := expDyadic ⟨m, e + 1⟩
    let big := x * 2 ^ (f + 160).toNat
    let one := 2 ^ 160
    quotient (big - one) 0 (big + one)

/-- sigmoid of a finite number as a magnitude: 1 / (1 + e^(−x)). -/
def sigmoidMag (d : Dyadic) : Nat × Int :=
  if Dyadic.le d ⟨-200, 0⟩ then (0, 0)
  else if Dyadic.le ⟨200, 0⟩ d then (1, 0)
  else
    let (x, f) := expDyadic d.neg
    -- 1 / (1 + x 2^f) = 2^512 / (2^512 + x 2^(f + 512))
    quotient (2 ^ 512) 0 (2 ^ 512 + x * 2 ^ (f + 512).toNat)

/-- An FP32 value within two units in the last place of the exact result, which of them is left open (R108, log entry 12): the
exact result itself and two values on each side when it is an FP32 value, else one of the two values below it and the two above
it. -/
def nearResult (fn : Nat) (a : W32) (neg : Bool) (me : Nat × Int) : W32 :=
  let c := fp32Shape.round .rtz me.1 me.2
  let k := (Config.funcUlp fn a).val
  let c' := min (if fp32Shape.exact me.1 me.2 then c + k - 2 else c + k % 4 - 1) fp32Shape.top
  BitVec.ofNat 32 (fp32Sign neg + c')

/-- UOP_FUNC: the function that MOD selects (R107, R108); a code from 10 on is not assigned. -/
def elementary (fn : Nat) (a : W32) : W32 :=
  match fn with
  | 0 => match fp32 a with
    | .nan => fp32Nan
    | .inf _ => Config.funcOpen fn a
    | .fin n m e =>
      if !n && Dyadic.le ⟨128, 0⟩ ⟨m, e⟩ then Config.funcOpen fn a
      else if n && Dyadic.le ⟨300, 0⟩ ⟨m, e⟩ then nearResult fn a false (0, 0)
      else nearResult fn a false (exp2Dyadic ⟨signed n m, e⟩)
  | 1 => match fp32 a with
    | .nan => fp32Nan
    | .inf _ => Config.funcOpen fn a
    | .fin n m e =>
      if n || m = 0 then Config.funcOpen fn a
      else let d := log2Of m e; nearResult fn a (decide (d.i < 0)) (d.i.natAbs, d.e)
  | 2 => fp32Recip a
  | 3 => match fp32 a with
    | .nan => fp32Nan
    | .inf _ => Config.funcOpen fn a
    | .fin n m e =>
      if n || m = 0 then Config.funcOpen fn a
      else
        let (q, f) := quotient 1 (-e) m
        nearResult fn a false (root q f)
  | 4 => match fp32 a with
    | .nan => fp32Nan
    | .inf _ => Config.funcOpen fn a
    | .fin n m e => if m = 0 then a else nearResult fn a n (tanhMag m e)
  | 5 => match fp32 a with
    | .nan => fp32Nan
    | .inf _ => Config.funcOpen fn a
    | .fin n m e => nearResult fn a false (sigmoidMag ⟨signed n m, e⟩)
  | 6 => fp32Sqrt a
  | 7 => fp32Abs a
  | 8 => fp32Neg a
  | _ => fp32Floor a

/-! ### INT32 (R30, R43, R107) -/

def int32Min : Int := -2147483648
def int32Max : Int := 2147483647
/-- A number clamped to INT32 (R43). -/
def clamp32 (i : Int) : Int := max int32Min (min int32Max i)

/-- FP32 to INT32, saturating; a NaN gives 0 (R45, R107). -/
def fp32ToInt (mode : Rounding) (a : W32) : W32 :=
  match fp32 a with
  | .nan => 0
  | .inf x => BitVec.ofInt 32 (if x then int32Min else int32Max)
  | .fin n m e => BitVec.ofInt 32 (clamp32 (signed n (roundTo mode m e 0)))

/-- INT32 to FP32 under RNE. -/
def intToFp32 (a : W32) : W32 := Dyadic.toFp32 ⟨a.toInt, 0⟩

end Sys2Proof.Machine
end

