-- ==== Sys2Proof/Machine/Formats.lean ====
section
/-! DEFINITION. The operand formats of R26 to R38 and the conversions of R44 to R51. -/

namespace Sys2Proof.Machine

/-! ### Format codes (R26) -/

/-- A format code that is not reserved. -/
def fmtOk (f : Nat) : Bool := decide (f ≤ 0x11) && f != 0x0F
/-- Element bits. -/
def fmtWidth (f : Nat) : Nat :=
  if f = 0x00 || f = 0x11 then 2
  else if f = 0x01 || f = 0x09 || f = 0x10 then 4
  else if f = 0x0A || f = 0x0B then 6
  else if f = 0x05 || f = 0x06 then 16
  else if f = 0x07 || f = 0x08 then 32
  else 8
/-- Block length; 0 for a format without scales. -/
def fmtBlock (f : Nat) : Nat := if f = 0x10 then 16 else if f = 0x11 then 32 else if 0x09 ≤ f && f ≤ 0x0E then 32 else 0
def isShingle (f : Nat) : Bool := f = 0x10 || f = 0x11
def isMx (f : Nat) : Bool := decide (0x09 ≤ f) && decide (f ≤ 0x0E)
def isInt (f : Nat) : Bool := decide (f ≤ 0x02) || f = 0x08
/-- The floating-point layout of an element, where it has one (R31). -/
def fmtShape (f : Nat) : Option FloatShape :=
  if f = 0x03 || f = 0x0C then some { mb := 3, qmin := -9, top := 0x7E }
  else if f = 0x04 || f = 0x0D then some { mb := 2, qmin := -16, top := 0x7B }
  else if f = 0x05 then some { mb := 10, qmin := -24, top := 0x7BFF }
  else if f = 0x06 then some { mb := 7, qmin := -133, top := 0x7F7F }
  else if f = 0x07 then some fp32Shape
  else if f = 0x09 then some { mb := 1, qmin := -1, top := 7 }
  else if f = 0x0A then some { mb := 3, qmin := -3, top := 31 }
  else if f = 0x0B then some { mb := 2, qmin := -4, top := 31 }
  else none

/-- Two's complement value of a code of w bits (R30). -/
def twos (w c : Nat) : Int := if c < 2 ^ (w - 1) then (c : Int) else (c : Int) - 2 ^ w

/-! ### Decoding an element -/

/-- What an element code reads as before its scales: a value, or poison (R31, R35 to R38). -/
inductive Elem where
  | val (v : FVal)
  | poison
deriving DecidableEq, Repr

def intVal (i : Int) : FVal := .fin (decide (i < 0)) i.natAbs 0

/-- The element code c of format f, unscaled. -/
def decodeElem (f c : Nat) : Elem :=
  let w := fmtWidth f
  let neg := decide (2 ^ (w - 1) ≤ c)
  let mag := c % 2 ^ (w - 1)
  if f = 0x10 then (if c = 8 then .poison else .val (intVal (twos 4 c)))
  else if f = 0x11 then (if c = 2 then .poison else .val (intVal (twos 2 c)))
  else if f = 0x0E then .val (.fin neg (twos 8 c).natAbs (-6))
  else match fmtShape f with
    | none => .val (intVal (twos w c))
    | some sh =>
      if f = 0x03 || f = 0x0C then (if mag = 0x7F then .val .nan else .val (sh.decode neg mag))
      else if f = 0x09 || f = 0x0A || f = 0x0B then .val (sh.decode neg mag)
      else if mag ≤ sh.top then .val (sh.decode neg mag)
      else if mag = sh.top + 1 then .val (.inf neg)
      else .val .nan

/-- A block scale as read: a number m × 2^e, a NaN, or a poisoned block (R33, R34, R38). -/
inductive Scale where
  | num (m : Nat) (e : Int)
  | nan
  | poisoned
deriving DecidableEq, Repr

def Scale.one : Scale := .num 1 0

/-- The scale of a block of format f with scale code c under top scale t. -/
def decodeScale (f t c : Nat) : Scale :=
  if isShingle f then
    if t = 0xFF || 0x7F ≤ c then .poisoned
    else match ({ mb := 3, qmin := -9, top := 0x7E } : FloatShape).decode false c with
      | .fin _ m e => .num m (e + (t : Int) - 127)
      | _ => .poisoned
  else if isMx f then (if c = 0xFF then .nan else .num 1 ((c : Int) - 127))
  else .one

/-- An element under its block's scale: the value used in arithmetic, and whether it counts as poison.  Two points are the
model's reading (DEDUCED, log entry 82): a negative element under a scale of zero reads as −0 (R34 says 0), and an infinite E5M2
element under the scale code 0xFF reads as NaN (R35 says both that every element does and that an infinite one keeps its
meaning). -/
def scaledElem (el : Elem) (sc : Scale) : FVal × Bool :=
  match sc with
  | .poisoned => (.fin false 0 0, true)
  | .nan =>
    match el with
    | .poison => (.nan, true)
    | .val _ => (.nan, false)
  | .num m e =>
    match el with
    | .poison => (.fin false 0 0, true)
    | .val (.fin n k g) => (.fin n (k * m) (g + e), false)
    | .val v => (v, false)

/-! ### Generators (R48 to R50) -/

/-- One xorshift step (R49). -/
def xorshift (s : W64) : W64 :=
  let s := s ^^^ (s <<< 13)
  let s := s ^^^ (s >>> 7)
  s ^^^ (s <<< 17)

/-- The number that a state returns after its step (R49). -/
def drawOf (s : W64) : Nat := s.toNat / 2 ^ 48

/-- n xorshift steps. -/
def xorshifts : Nat → W64 → W64
  | 0, s => s
  | n + 1, s => xorshifts n (xorshift s)

/-- The state of a lane's generator at the start of a Course (R50). -/
def laneSeed (seed : W64) (course ordinal lane : Nat) : W64 :=
  let k := seed ^^^ (BitVec.ofNat 64 course * 0xD1B54A32D192ED03#64)
  let s := k ^^^ (BitVec.ofNat 64 (ordinal * 256 + lane + 1) * 0x9E3779B97F4A7C15#64)
  xorshifts 8 (if s = 0 then 1 else s)

/-! ### Conversion of elements (R44, R45) -/

/-- What a conversion counts (R45 to R47). -/
structure Counts where
  sat : Nat := 0
  ufl : Nat := 0
  nan : Nat := 0
deriving DecidableEq, Repr

def Counts.add (a b : Counts) : Counts := { sat := a.sat + b.sat, ufl := a.ufl + b.ufl, nan := a.nan + b.nan }

/-- The rounding of one element under the 2-bit field: stochastic rounding advances the generator, but only for a
value that is not exactly representable (R44, R48). -/
def takeRounding (mode : Nat) (exact : Bool) (g : W64) : Rounding × W64 :=
  if mode = 1 then (.rtz, g)
  else if mode = 2 then (if exact then (.rtz, g) else let g' := xorshift g; (.sr (drawOf g'), g'))
  else (.rne, g)

/-- A magnitude in a floating-point element: the code, saturated at the largest finite (R45). -/
def toShape (sh : FloatShape) (mode : Nat) (m : Nat) (e : Int) (g : W64) : Nat × Bool × W64 :=
  let (r, g) := takeRounding mode (sh.exact m e) g
  let c := sh.round r m e
  if sh.top < c then (sh.top, true, g) else (c, false, g)

/-- A signed magnitude in an integer element: rounded, then clamped to lo … hi (R45). -/
def toInteger (lo hi : Int) (mode : Nat) (neg : Bool) (m : Nat) (e : Int) (g : W64) : Int × Bool × W64 :=
  let exact := m = 0 || decide (0 ≤ e) || m % 2 ^ (-e).toNat = 0
  let (r, g) := takeRounding mode exact g
  let i := signed neg (roundTo r m e 0)
  if i < lo then (lo, true, g) else if hi < i then (hi, true, g) else (i, false, g)

/-- The range of an integer element; Shingle elements are symmetric (R36, R37). -/
def intRange (f : Nat) : Int × Int :=
  if f = 0x10 then (-7, 7) else if f = 0x11 then (-1, 1) else if f = 0x0E then (-127, 127)
  else (-(2 ^ (fmtWidth f - 1)), 2 ^ (fmtWidth f - 1) - 1)

/-- An integer as a code of w bits. -/
def intCode (w : Nat) (i : Int) : Nat := (i % 2 ^ w).toNat

/-- Convert one value to an unscaled format (R45). -/
def convertPlain (f mode : Nat) (v : FVal) (g : W64) : Nat × Counts × W64 :=
  let w := fmtWidth f
  match fmtShape f with
  | none =>
    let (lo, hi) := intRange f
    match v with
    | .nan => (0, { nan := 1 }, g)
    | .inf n => (intCode w (if n then lo else hi), { sat := 1 }, g)
    | .fin n m e =>
      let (i, sat, g) := toInteger lo hi mode n m e g
      (intCode w i, { sat := if sat then 1 else 0, ufl := if i = 0 && m != 0 then 1 else 0 }, g)
  | some sh =>
    let sign (n : Bool) := if n then 2 ^ (w - 1) else 0
    match v with
    | .nan => (if f = 0x03 || f = 0x04 then 0x7F else sh.top + 1 + 2 ^ (sh.mb - 1), { nan := 1 }, g)
    | .inf n => if f = 0x03 then (sign n + sh.top, { sat := 1 }, g) else (sign n + sh.top + 1, {}, g)
    | .fin n m e =>
      let (c, sat, g) := toShape sh mode m e g
      (sign n + c, { sat := if sat then 1 else 0, ufl := if c = 0 && m != 0 then 1 else 0 }, g)

/-! ### Block quantisation (R46, R47) -/

/-- The largest finite magnitude of a block, as a dyadic number. -/
def blockMax : List FVal → Dyadic
  | [] => ⟨0, 0⟩
  | .fin _ m e :: vs => let b := blockMax vs; if Dyadic.le b ⟨m, e⟩ then ⟨m, e⟩ else b
  | _ :: vs => blockMax vs

def hasNan (vs : List FVal) : Bool := vs.any (· == .nan)
def hasInf (vs : List FVal) : Bool := vs.any fun v => match v with | .inf _ => true | _ => false

/-- emax of R46. -/
def mxEmax (f : Nat) : Int :=
  if f = 0x09 || f = 0x0A then 2 else if f = 0x0B then 4 else if f = 0x0C then 8 else if f = 0x0D then 15 else 0

/-- The exponent X of an MX block and whether it was clamped from below (R46). -/
def mxScale (f : Nat) (vs : List FVal) : Int × Bool :=
  let a := blockMax vs
  if a.i = 0 then (-127, false)
  else
    let x := a.e + (bitLength a.i.natAbs : Int) - 1 - mxEmax f
    if x < -127 then (-127, true) else if 127 < x then (127, false) else (x, false)

/-- The element code that a NaN element leaves in an MX block: free, but never the MXINT8 code 0x80 (R35, R45, log entry 13). -/
def mxNanCode (f : Nat) : Nat :=
  if f = 0x0E then intCode (fmtWidth f) ((Config.mxNan f : Int) % 255 - 127) else Config.mxNan f % 2 ^ fmtWidth f

/-- Convert one element of an MX block under exponent X (R45, R46). -/
def convertMx (f mode : Nat) (x : Int) (v : FVal) (g : W64) : Nat × Counts × W64 :=
  let w := fmtWidth f
  match fmtShape f, v with
  | _, .nan => (mxNanCode f, { nan := 1 }, g)
  | none, .inf n => (intCode w (if n then -127 else 127), { sat := 1 }, g)
  | none, .fin n m e =>
    let (i, sat, g) := toInteger (-127) 127 mode n m (e - x + 6) g
    (intCode w i, { sat := if sat then 1 else 0 }, g)
  | some sh, .inf n => ((if n then 2 ^ (w - 1) else 0) + sh.top, { sat := 1 }, g)
  | some sh, .fin n m e =>
    let (c, sat, g) := toShape sh mode m (e - x) g
    ((if n then 2 ^ (w - 1) else 0) + c, { sat := if sat then 1 else 0 }, g)

/-- The block scale code of a Shingle block, with its counts; an infinite element takes no part in amax but makes
the required scale exceed every E4M3 value (R47). -/
def shingleScale (f top : Nat) (vs : List FVal) : Nat × Counts :=
  let emax := if f = 0x10 then 7 else 1
  if hasInf vs then (0x7E, { sat := 1 })
  else
    let a := blockMax vs
    if a.i = 0 then (0, {})
    else
      let (n, e) := quotient a.i.natAbs (a.e - ((top : Int) - 127)) emax
      let sh : FloatShape := { mb := 3, qmin := -9, top := 0x7E }
      if Dyadic.lt ⟨448, 0⟩ ⟨n, e⟩ then (0x7E, { sat := 1 })
      else if Dyadic.lt ⟨n, e⟩ ⟨1, -9⟩ then (1, { ufl := 1 })
      else let c := sh.round .rtz n e; (if sh.exact n e then c else c + 1, {})

/-- Convert one element of a Shingle block under its scale code (R45, R47). -/
def convertShingle (f mode top sc : Nat) (v : FVal) (g : W64) : Nat × Counts × W64 :=
  let w := fmtWidth f
  let (lo, hi) := intRange f
  match v with
  | .nan => (if f = 0x10 then 8 else 2, { nan := 1 }, g)
  | .inf n => (intCode w (if n then lo else hi), { sat := 1 }, g)
  | .fin n m e =>
    match ({ mb := 3, qmin := -9, top := 0x7E } : FloatShape).decode false sc with
    | .fin _ sm se =>
      if sm = 0 then (0, {}, g)
      else
        let (q, qe) := quotient m (e - se - ((top : Int) - 127)) sm
        let (i, sat, g) := toInteger lo hi mode n q qe g
        (intCode w i, { sat := if sat then 1 else 0 }, g)
    | _ => (0, {}, g)

/-- Convert the elements of a block in order, each on the generator that the last one left. -/
def convertAll (conv : FVal → W64 → Nat × Counts × W64) : List FVal → W64 → List Nat × Counts × W64
  | [], g => ([], {}, g)
  | v :: vs, g =>
    let (c, k, g) := conv v g
    let (cs, ks, g) := convertAll conv vs g
    (c :: cs, k.add ks, g)

/-- A converted block: its scale code, its element codes, what it counted and the generator after it. -/
def convertBlock (f mode top : Nat) (vs : List FVal) (g : W64) : Nat × List Nat × Counts × W64 :=
  if isMx f then
    let (x, clamped) := mxScale f vs
    let (cs, k, g) := convertAll (convertMx f mode x) vs g
    (if hasNan vs then 0xFF else (x + 127).toNat, cs, k.add { ufl := if clamped then 1 else 0 }, g)
  else if isShingle f then
    let (sc, k0) := shingleScale f top vs
    let (cs, k, g) := convertAll (convertShingle f mode top sc) vs g
    (sc, cs, k0.add k, g)
  else
    let (cs, k, g) := convertAll (convertPlain f mode) vs g
    (0, cs, k, g)

/-! ### Packing (R27) -/

/-- The bit string of element codes of width w, as a number. -/
def packNat (w : Nat) : List Nat → Nat
  | [] => 0
  | c :: cs => c % 2 ^ w + 2 ^ w * packNat w cs

/-- A packed row: whole bytes, the bits beyond the last element 0. -/
def packRow (w : Nat) (cs : List Nat) : List Byte := leBytes (ceilDiv (cs.length * w) 8) (packNat w cs)

/-- Element code i of width w in a packed row. -/
def unpackElem (w : Nat) (row : List Byte) (i : Nat) : Nat := (leNat row >>> (w * i)) % 2 ^ w

end Sys2Proof.Machine
end

