-- ==== Sys2Proof/Machine/State.lean ====
section
/-! DEFINITION. The state of the Cihohal M1 module as plain data, its reset, and the reasons a step can stop.

Every field cites the rule that names it.  Tables are sparse stores (`Store`), whose unlisted keys read as the
value after reset.  Simple dictionary objects (settings, counters) have one home, the table `dict`, keyed by
index × 256 + subindex; objects that the manual gives a structure (Suites, contexts, households, records) are
structures here and the dictionary reads them. -/

namespace Sys2Proof.Machine

/-! ## Bricks, Foremen and Rooms (03_rooms_and_bricks) -/

/-- A Brick: Hod and accumulators a0–a63 (R70).  The micro-program store stands in the Room, since every writer of it
writes every Brick of the Room alike (R76, R109, R339). -/
structure Brick where
  hod : Memory := []
  acc : Store W32 := []
deriving DecidableEq, Repr

/-- One hardware loop of a Foreman: the first and last instruction of its body and the passes still to run, the
current one included (R82). -/
structure LoopFrame where
  first : Nat
  last : Nat
  left : Nat
deriving DecidableEq, Repr

/-- What a Foreman is doing (R76, R87, R97, R99, R100, R116, R137, R339).  `confirm upto` waits until `upto` Courses of
the step are confirmed (R100, R335), `rewound` is a Room that a vote has stopped (R339), and `hold` one whose reset
runs (R368). -/
inductive RunState where
  | idle
  | running
  | waitDma (mask : BitVec 16)
  | waitGutter (mask : BitVec 8)
  | waitSync (line : Nat) (value : W64)
  | barrier (n : Nat)
  | confirm (upto : Nat)
  | committed
  | faulted (code : Nat)
  | failed
  | rewound
  | hold
deriving DecidableEq, Repr

/-- The counters of a tile guard word (R52). -/
structure GuardWord where
  sat : Nat := 0
  ufl : Nat := 0
  poison : Nat := 0
  nan : Nat := 0
  accOvf : Nat := 0
  sticky : Bool := false
  sampled : Bool := false
  breach : Bool := false
deriving DecidableEq, Repr

/-- A guard slot of the Foreman, keyed by LAYER and TILE (R96); `seen` names the poison elements that the tile
has consumed already, since each counts once per tile (R53). -/
structure GuardSlot where
  layer : Nat
  tile : Nat
  isOpen : Bool := true
  word : GuardWord := {}
  seen : List Nat := []
deriving DecidableEq, Repr

/-- A kept-source record: the address of an output tile (space and base) and the descriptor of its source (R95). -/
structure Kept where
  space : Nat
  base : Nat
  source : Desc
deriving DecidableEq, Repr

/-- A layer's totals in one Room, from which the Steward forms the Ladder statistics (R55, R59, R96). -/
structure LayerTotals where
  tiles : Nat := 0
  sat : Nat := 0
  ufl : Nat := 0
  poison : Nat := 0
  nan : Nat := 0
  accOvf : Nat := 0
  samples : Nat := 0
  breaches : Nat := 0
  relErr : W32 := 0
  sticky : Bool := false
deriving DecidableEq, Repr

/-- The checkpoint of a Course boundary (R100, R141, R335), with the Room's layer totals at that boundary, which a
re-run must not count twice. -/
structure Checkpoint where
  course : Nat := 0
  pc : Nat := 0
  s : Store W64 := []
  t : Store Desc := []
  p : Store Bool := []
  loops : List LoopFrame := []
  barriers : Store Nat := []
  sends : Store Nat := []
  recvs : Store Nat := []
  totals : Store LayerTotals := []
deriving DecidableEq, Repr

/-- A DMA transfer outstanding under its tag (R87); `sent` once its accesses are translated and on their way (R238), `lost` once a
packet of it was lost in the Corridor (R124). -/
structure DmaTransfer where
  isGet : Bool
  tag : Nat
  pantry : Desc
  device : Desc
  ctx : Nat
  stalled : Bool := false
  sent : Bool := false
  lost : Bool := false
deriving DecidableEq, Repr

/-- A GSEND or GRECV issued on a Gutter channel (R136, R137).  A GRECV counts into the guard slot that it opened and closed when it
was issued, the `slot`-th of its Course (R139). -/
structure GutterOp where
  isSend : Bool
  tree : Nat
  round : Nat
  tile : Desc
  order : Bool
  piecesLeft : Nat
  slot : Nat := 0
deriving DecidableEq, Repr

/-- The Foreman of a Room (R76), with its round and barrier counts (R99, R136). -/
structure Foreman where
  s : Store W64 := []
  t : Store Desc := []
  p : Store Bool := []
  pc : Nat := 0
  loops : List LoopFrame := []
  program : Store W32 := []
  run : RunState := .idle
  barriers : Store Nat := []
  sends : Store Nat := []
  recvs : Store Nat := []
deriving DecidableEq, Repr

/-- What a Room holds of its current Course (R95, R96, R100 to R103, R336, R338).  `log` is the bytes that the
Room wrote in the Course, keyed by space × 2^64 + address; `extra` and `words` are the sum and the count of the
digest terms that are no lines, and `flagged` the lanes whose ABFT check tripped. -/
structure CourseState where
  ordinal : Nat := 0
  start : Nat := 0
  log : Store (Option Byte) := []
  extra : W64 := 0
  words : Nat := 0
  slots : List GuardSlot := []
  kept : List Kept := []
  relErr : Store W32 := []
  overrun : Bool := false
  hungAt : Option Nat := none
  flagged : List Nat := []
deriving DecidableEq, Repr

/-- The state of a cached line (R177); an absent line is I. -/
inductive Moesi where
  | m | o | e | s
deriving DecidableEq, Repr

/-- A line of a cache portion: 128 bytes under its line address (R176). -/
structure CacheLine where
  addr : Nat
  st : Moesi
  data : List Byte
deriving DecidableEq, Repr

/-- The outstanding request of a cache port (R182, R183): the state asked for, the NACKs so far, and what has
arrived. -/
structure Miss where
  line : Nat
  exclusive : Bool
  nacks : Nat := 0
  retryAt : Nat := 0
  granted : Option Moesi := none
  data : Option (List Byte) := none
  acksDue : Option Nat := none
  acks : Nat := 0
deriving DecidableEq, Repr

/-- The coherent cache of a Room: lines keyed by set × 8 + way, the tree pseudo-LRU bits of each set, the
write-back buffer of 8 lines, and the outstanding request (R176 to R178). -/
structure Cache where
  lines : Store (Option CacheLine) := []
  plru : Store (BitVec 7) := []
  writeBack : List CacheLine := []
  miss : Option Miss := none
deriving DecidableEq, Repr

/-- The power state of a Room (R308); a Room whose switch has not closed yet is off like one in DOZE. -/
inductive RoomPower where
  | clocked | gated | doze | fenced
deriving DecidableEq, Repr

/-- The STATE field of a Room record (R21). -/
inductive RoomLife where
  | working | lostAtTest | fencedInService
deriving DecidableEq, Repr

/-- A Room's place in a Suite: copy and ordinal, or its place among the vote spares (R256, R259). -/
structure Member where
  suite : Nat
  copy : Nat
  ordinal : Nat
  spare : Bool := false
deriving DecidableEq, Repr

/-- The micro-sequencer of the Brick array: the entry that executes and the loops around it (R107, R109). -/
structure MicroSeq where
  pc : Nat := 0
  loops : List LoopFrame := []
  active : Bool := false
deriving DecidableEq, Repr

/-- An upset of the MAC array of a lane, which the next MMA meets: num × 2^exp is added to one chunk term (R336). -/
structure MacUpset where
  lane : Nat
  chunk : Nat
  row : Nat
  column : Nat
  num : Int
  exp : Int
deriving DecidableEq, Repr

/-- The Grout of a Room at a barrier (R328): since when, the level A in sixteenths, TAPER in ns, and once the last Room of the copy has
arrived, when that was, T and RAMP in ns. -/
structure Grout where
  since : Nat
  level : Nat
  taper : Nat
  ramp : Option (Nat × Nat × Nat) := none
deriving DecidableEq, Repr

/-- A Room: its record in the Floor Plan (the parts that failed), its power state, its place in a Suite and its
contents (R19, R21, R70 to R117, R308, R324, R327, R328). -/
structure Room where
  deadRouter : Bool := false
  deadForeman : Bool := false
  deadPantry : Bool := false
  deadDma : Bool := false
  deadGutter : Bool := false
  life : RoomLife := .working
  deadBricks : BitVec 256 := 0
  power : RoomPower := .doze
  freeSince : Nat := 0
  reserved : Bool := false
  byChoice : Bool := false
  joining : Bool := false
  member : Option Member := none
  foreman : Foreman := {}
  pantry : Memory := []
  bricks : Store Brick := []
  laneMap : List Nat := []
  microStore : Store W64 := []
  rng : Store W64 := []
  micro : MicroSeq := {}
  upsets : List MacUpset := []
  cutOff : Bool := false
  cache : Cache := {}
  dma : List DmaTransfer := []
  gutter : List GutterOp := []
  course : CourseState := {}
  totals : Store LayerTotals := []
  checkpoints : List Checkpoint := []
  digests : List (Nat × W64) := []
  marks : List Nat := []
  loading : Bool := false
  stretched : Bool := false
  grout : Option Grout := none
deriving DecidableEq, Repr

/-! ## Suites and steps (02, 04, 07, 09, 12) -/

/-- Suite MODE (R254). -/
inductive Mode where
  | simplex | duplex | paired
deriving DecidableEq, Repr

/-- Suite STATE (R255). -/
inductive SuiteState where
  | free | empty | active | degraded | releasing
deriving DecidableEq, Repr

/-- An accepted change of a Suite, waiting for its step boundary (R13, R14, R255 to R260, R330). -/
inductive Change where
  | setting (sub value : Nat)
  | grid (value : Nat)
  | add (spares : Bool) (rooms : List (Option Nat × Option Nat)) (chosen : Bool)
  | remove (n : Nat)
  | move (copy ordinal room : Nat)
  | bindGroup (pc : Nat)
  | unbindGroup (pc : Nat)
  | bindPort (port : Nat)
  | unbindPort (port : Nat)
deriving DecidableEq, Repr

/-- A Ladder entry as the Steward reads it at the Dispatch Landing (R61 to R63). -/
structure LadderEntry where
  ctrl : Nat := 0
  curRung : Nat := 0
  maxRung : Nat := 0
  plumbRate : Nat := 15
  refFmt : Nat := 0
  plumbThresh : Nat := 0
  satLimit : Nat := 0
  poisonLimit : Nat := 0
  refAddr : Nat := 0
deriving DecidableEq, Repr

/-- A node entry of a Gutter tree (R134). -/
structure TreeNode where
  ordinal : Nat
  parent : Nat
  slot : Nat
  isLocal : Bool
  recv : Bool
  children : Nat
  port : Nat
  top : Bool
deriving DecidableEq, Repr

/-- A Gutter tree as read at the Dispatch Landing (R133, R135); a tree that is not in use has no nodes. -/
structure Tree where
  fmt : Nat := 0
  op : Nat := 0
  bytes : Nat := 0
  nodes : List TreeNode := []
deriving DecidableEq, Repr

/-- A commit-list entry (R269). -/
structure CommitEntry where
  kind : Nat
  count : Nat
  a : Nat
  b : Nat
deriving DecidableEq, Repr

/-- A round of a Gutter tree in one copy (R136 to R140): contributions by ordinal, node outputs keyed by
node × 65,536 + piece, the inputs in the order in which they finished arriving (2 × node for a node's own contribution,
2 × node + 1 for its output), the elements that overflowed, whether its orders were mixed, and the pieces that were lost with a
router, keyed like the outputs (R124). -/
structure GutterRound where
  copy : Nat
  tree : Nat
  round : Nat
  order : Option Bool := none
  inputs : Store (List Byte) := []
  arrived : List Nat := []
  outs : Store (List Byte) := []
  overflow : List Nat := []
  failed : Bool := false
  lost : List Nat := []
deriving DecidableEq, Repr

/-- A step descriptor (R211, R212), decoded. -/
structure StepDesc where
  version : Nat
  type : Nat
  irq : Bool
  freezePoint : Bool
  codeWords : Nat
  microWords : Nat
  program : Nat
  seed : W64
  args : List W64
  wait0 : Nat
  wait0Value : W64
  wait1 : Nat
  wait1Value : W64
  event : Nat
  eventValue : W64
  commitList : Nat
  commitEntries : Nat
  completion : Nat
deriving DecidableEq, Repr

/-- A FLIP that a commit has made: its place in the commit list, the value of the first leaf at A before it, the slots
that were exchanged in every page-table image, and the size of a leaf (R270, R271, R351). -/
structure Flipped where
  place : Nat
  old : W64
  slots : List (Nat × Nat)
  size : Nat
deriving DecidableEq, Repr

/-- The step that a Suite runs: what was read at its Dispatch Landing and what its run has counted (R10, R63,
R135, R219, R269, R272, R351).  `totals` and `courses` are what the Steward took from the Rooms when the commit began
(R55, R219), `copied` says that the bytes of the COPY in hand are sent, and `failing` is the fault code of a commit whose flips
are being undone (R271). -/
structure Step where
  ctx : Nat
  queue : Nat
  count : Nat
  desc : StepDesc
  dispatched : Nat
  det : Bool
  lanes : Nat
  nrooms : Nat
  cacheBytes : Nat
  ladderBase : Nat := 0
  ladder : List LadderEntry := []
  trees : Store Tree := []
  commit : List CommitEntry := []
  compared : Nat := 0
  votes : Nat := 0
  cursor : Nat := 0
  phase : Nat := 0
  flips : List Flipped := []
  totals : Store LayerTotals := []
  courses : Nat := 0
  copied : Bool := false
  failing : Option Nat := none
deriving DecidableEq, Repr

/-- A vote on a Course (R337 to R341): the suspects with the spares that stand in for them. -/
structure Vote where
  course : Nat
  suspects : List (Nat × Nat)
  loading : List Nat
  rerun : Bool := false
deriving DecidableEq, Repr

/-- The Rent counters of a Suite (R276), with the moment they were last brought up to date (R277). -/
structure Rent where
  roomsHeld : Nat := 0
  roomsBusy : Nat := 0
  roomsKilled : Nat := 0
  sparesHeld : Nat := 0
  pcHeld : Nat := 0
  portsHeld : Nat := 0
  bwReserved : Nat := 0
  created : Nat := 0
  upto : Nat := 0
deriving DecidableEq, Repr

/-- The run of a killed step, until its boundary is reached: whose descriptor it was and when it was dispatched (R273,
R276). -/
structure Drain where
  ctx : Nat
  queue : Nat
  dispatched : Nat
deriving DecidableEq, Repr

/-- A Suite (R73, R254 to R268, R276, R330, R355, R374, R379).  `heldGen` is the ACCEPTED_GEN of the first change that R268
holds back. -/
structure Suite where
  st : SuiteState := .free
  owner : Nat := 0
  mode : Mode := .simplex
  lanes : Nat := 240
  share : Nat := 0
  cache : Nat := 0
  det : Bool := false
  slice : Nat := 0
  dmaReg : W64 := 0x0180000000010040#64
  cacheReg : W64 := 0x0180000000010040#64
  notify : Nat := 0
  abft : Bool := false
  grid : Nat := 0
  hangLimit : Nat := 3
  heldNotify : Nat := 0
  rooms : List (Option Nat × Option Nat) := []
  spares : List (Option Nat × Option Nat) := []
  groups : List Nat := []
  ports : List Nat := []
  named : Nat := 0
  moves : List (Nat × Nat) := []
  applying : Option Nat := none
  refill : Bool := false
  holdNext : Nat := 0
  changes : List Change := []
  acceptedGen : Nat := 0
  appliedGen : Nat := 0
  heldGen : Option Nat := none
  appliedTime : Nat := 0
  buildFail : Bool := false
  overruns : Nat := 0
  committed : Nat := 0
  killed : Nat := 0
  tallyKills : Nat := 0
  held : Nat := 0
  present : Bool × Bool := (false, false)
  reintegrating : Bool := false
  votes : Nat := 0
  fencedByVote : Nat := 0
  voteTime : Nat := 0
  rent : Rent := {}
  step : Option Step := none
  drain : Option Drain := none
  vote : Option Vote := none
  releases : List (Nat × Nat × Nat) := []
  rounds : List GutterRound := []
  waitSince : Nat := 0
  pairDigest : Option (List Byte) := none
  pairHead : Option (Nat × Nat × List Byte) := none
  pairCourses : List (Nat × Nat × CourseResult) := []
  settingsRecorded : Bool := false
deriving DecidableEq, Repr

/-! ## Contexts and households (07, 08, 09, 14) -/

/-- Context STATE (R201, R202). -/
inductive CtxState where
  | opened | faulted | frozen | closing
deriving DecidableEq, Repr

/-- Queue state (R206). -/
inductive QueueState where
  | closed | opened | closing
deriving DecidableEq, Repr

/-- A submission queue (R205 to R207, R264, R265, R374).  `flagged` is the Bricks whose ABFT check tripped in the run of the head
descriptor that was the `kills`-th to be killed (R369). -/
structure Queue where
  st : QueueState := .closed
  value : W64 := 0
  head : W32 := 0
  tail : W32 := 0
  lastCommit : Nat := 0
  vt : Nat := 0
  fetched : Store (List Byte) := []
  waitsHold : Bool := false
  blocked : Bool := true
  skipped : List Nat := []
  closer : Option Chan := none
  kills : Nat := 0
  hangs : Nat := 0
  sliced : Bool := false
  flagged : Nat × List Nat := (0, [])
deriving DecidableEq, Repr

/-- A context (R60, R132, R199 to R207, R226).  `hostUsed` holds the last host address written for it in each Hall's window
(R281). -/
structure Context where
  household : Nat
  suite : Nat
  pasid : Nat
  home : Nat
  serving : Nat
  st : CtxState := .opened
  before : CtxState := .opened
  fault : W64 := 0
  vectors : Nat := 0
  committed : Nat := 0
  killed : Nat := 0
  ladderBase : Nat := 0
  ladderEntries : Nat := 0
  gutterBase : Nat := 0
  gutterTrees : Nat := 0
  root : Nat := 0
  nextRoot : Option Nat := none
  hostUsed : List (Nat × Nat) := []
  queues : Store Queue := []
deriving DecidableEq, Repr

/-- Household STATE (R249). -/
inductive HouseState where
  | inactive | active | freezing | frozen | closing
deriving DecidableEq, Repr

/-- An entry of a household's inventory log (R397). -/
structure InventoryEntry where
  kind : Nat
  suite : Nat
  seen : Nat
  first : Nat
  digest : List Byte
deriving DecidableEq, Repr

/-- A Latchkey session (R398, R399). -/
structure LatchSession where
  number : Nat
  opened : Nat
  slot : Nat
  offer : List Byte
  programChain : List Byte
  blobChain : List Byte
  lifecycle : Nat
deriving DecidableEq, Repr

/-- A running BLOB_DECRYPT (R401). -/
structure BlobJob where
  slot : Nat
  length : Nat
  src : Nat
  dst : Nat
  requester : Chan
deriving DecidableEq, Repr

/-- A household (R236, R245, R248 to R251, R278 to R280, R397 to R401). -/
structure Household where
  st : HouseState := .inactive
  freezeAtPoint : Bool := false
  faultqBase : W64 := 0
  faultqHead : W32 := 0
  faultqTail : W32 := 0
  faultqCtrl : W32 := 0x2710
  faultqWaits : Nat := 0
  windowResult : Nat := 0
  windowRefused : Nat := 0
  ctxResult : W64 := 0
  suiteResult : W32 := 0
  migration : W32 := 0x01000000#32
  image : Option (W64 × Bool) := none
  log : List InventoryEntry := []
  programChain : List Byte := []
  blobChain : List Byte := []
  overflow : Bool := false
  latch : Option LatchSession := none
  latchOffer : List Byte := []
  blob : Option BlobJob := none
  blobStatus : W32 := 0x01000000#32
  spdmResponse : List Byte := []
deriving DecidableEq, Repr

/-- What the module knows of a 4 KiB page of HBM: its holder (0 when none), whether it is being washed, whether it
is PROTECTED (R252, R253, R402), whether an access waits on it, and whether it was washed ahead of the sweep of R394. -/
structure Page where
  holder : Nat := 0
  washing : Bool := false
  isProtected : Bool := false
  awaited : Bool := false
  ahead : Bool := false
deriving DecidableEq, Repr

/-! ## Translation (08) -/

/-- A leaf as a TLB entry: the context, the first address and size of the leaf, its Fabric Address and rights,
and the Wing whose image was walked (R231, R234). -/
structure TlbEntry where
  porter : Nat
  ctx : Nat
  base : Nat
  size : Nat
  fabric : Nat
  writable : Bool
  event : Bool
deriving DecidableEq, Repr

/-- A table entry of level 4 to 2 in a Porter's walk cache: the address bits above the level's region, and the table that
the entry names (R234, R235). -/
structure WalkEntry where
  porter : Nat
  ctx : Nat
  level : Nat
  tag : Nat
  next : Nat
deriving DecidableEq, Repr

/-- A master port stalled on a page fault; `waited` once its record has met a full ring (R236 to R240). -/
structure PortStall where
  port : Nat
  ctx : Nat
  va : Nat
  write : Bool
  notPresent : Bool
  level : Nat
  east : Bool
  steward : Bool
  time : Nat
  seq : Option W32 := none
  waited : Bool := false
deriving DecidableEq, Repr

/-- A Window entry (R244). -/
structure Window where
  owner : Nat
  rights : Nat
  srcHousehold : Nat
  srcNode : Nat
  base : Nat
  len : Nat
  target : Nat
deriving DecidableEq, Repr

/-- An arrived access that waits at the home of its line: the Window that admitted it and its local address.  An access
through BAR4 of Hall h is held as one of port 12 + h (R186, R198, R246).  `parked` is a WAIT that the home has read and found
too small: it is read again after the next write to its line (R186). -/
structure Waiter where
  window : Option Nat
  addr : Nat
  acc : RemoteAccess
  parked : Bool := false
deriving DecidableEq, Repr

/-- The answer to an arrived access that has been performed: it goes out once HBM has ended the requests of the access at master
port `port`, with the mark that they may bring (R151). -/
structure HeldAnswer where
  port : Nat
  waiter : Waiter
  data : List Byte
  poisoned : Bool := false
deriving DecidableEq, Repr

/-- A removal of a Window whose transfer waits for the accesses that the Window admitted (R245). -/
structure Removal where
  chan : Chan
  index : Nat
  sub : Nat
  windows : List Nat
deriving DecidableEq, Repr

/-- A remote access refused by the Windows and not yet answered (R247). -/
structure Refusal1 where
  acc : RemoteAccess
  arrived : Nat
deriving DecidableEq, Repr

/-- An access of the module to a remote node that waits for its response, with the context and the requester for which it
was sent (R242, R273). -/
structure RemoteReq where
  suite : Nat
  ctx : Nat := 0
  room : Nat
  fabric : Nat
  len : Nat
  kind : AccKind
  answer : Option (Nat × List Byte) := none
deriving DecidableEq, Repr

/-- A read of host memory: the context whose PASID it carries (none for the module's own) and the requester, the address,
what came back, and whether the answer is still awaited (R243). -/
structure HostRead where
  ctx : Option Nat := none
  room : Nat := 0
  hall : Nat
  addr : Nat
  len : Nat
  answer : Option Completion := none
  poisoned : Bool := false
deriving DecidableEq, Repr

/-! ## Coherence (06) -/

/-- The stable state of a directory entry (R179, R180). -/
inductive DirState where
  | shared | excl | owned
deriving DecidableEq, Repr

/-- The sharer record: up to four exact Room indices, then a coarse vector of rows (R179). -/
inductive Sharers where
  | exact (rooms : List Nat)
  | coarse (rows : List Nat)
deriving DecidableEq, Repr

/-- An open transaction on a line (R183, R185): for an eviction, the acknowledgements still due and the data that the owner
wrote back; `fwdAckDue` while the owner's FWD_ACK is awaited. -/
structure Txn where
  requester : Option Nat
  exclusive : Bool
  ownerWasM : Bool := false
  acksDue : Nat := 0
  fwdAckDue : Bool := false
  evicting : Bool := false
  data : Option (List Byte) := none
deriving DecidableEq, Repr

/-- A directory entry (R179); BUSY is set while a transaction is open (R180). -/
structure DirEntry where
  line : Nat
  st : DirState
  owner : Nat := 0
  sharers : Sharers := .exact []
  stamp : Nat := 0
  txn : Option Txn := none
deriving DecidableEq, Repr

/-- The kind of a coherence message (R181). -/
inductive CohKind where
  | gets | getm | putm | pute | puts | done | fwdGets | fwdGetm | recall | inv | data | invAck | fwdAck | nack | putAck
deriving DecidableEq, Repr

/-- A coherence message on its way (R181).  `room` is the cache it goes to or comes from, `peer` the requester or
collector it names (none: the home), and the rest is what it carries. -/
structure CohMsg where
  kind : CohKind
  room : Nat
  line : Nat
  peer : Option Nat := none
  bytes : Option (List Byte) := none
  take : Moesi := .s
  count : Nat := 0
  wasM : Bool := false
  stale : Bool := false
  poisoned : Bool := false
deriving DecidableEq, Repr

/-! ## The Corridor (04) -/

/-- One link on a packet's way, numbered as in Machine/Corridor.lean: whether it lies on a later leg and in route class B, which
name the buffers before it (R122), and the flits that have passed it. -/
structure Hop where
  link : Nat
  later : Bool := false
  classB : Bool := false
  passed : Nat := 0
deriving DecidableEq, Repr

/-- What is left unfinished when a packet is lost (R124). -/
inductive Cargo where
  | none
  | dma (room tag : Nat)
  | coherence (m : CohMsg)
  | piece (suite copy tree round node piece : Nat)
deriving DecidableEq, Repr

/-- A packet on its way: its virtual channel (R125), its share class (R127), its flits of 64 bytes and its route (R120, R123). -/
structure Packet where
  vc : Nat
  cls : Nat
  flits : Nat
  hops : List Hop
  cargo : Cargo := .none
deriving DecidableEq, Repr

/-- The arbiter of a link: the deficits of the share classes, the class, the channel of each class and the input port of each class
and channel that are served next, and when its endpoint may inject its next VC0 flit, in units of 0.2 ns (R126, R127). -/
structure LinkState where
  deficits : Store Nat := []
  turn : Nat := 0
  channels : Store Nat := []
  inputs : Store Nat := []
  vc0At : Nat := 0
deriving DecidableEq, Repr

/-! ## Memory channels (05) -/

/-- A request of a master port (R159, R160, R167), and after its issue one of its accesses: `last` marks the one with which the request
ends (R169), `told` a request whose reader has taken its mark another way (R151), and `tag` that of its DMA transfer. -/
structure MemReq where
  port : Nat
  lpa : Nat
  len : Nat
  write : Bool
  cls : Nat
  deadline : Option Nat := none
  arrival : Nat
  last : Bool := true
  told : Bool := false
  tag : Option Nat := none
deriving DecidableEq, Repr

/-- The Port Regulator of a master port and its record (R160, R171).  Tokens are counted in units of 1/256,000
token so that every refill is exact.  `busyUntil` is when the port has moved what it issued, in 1/16,000 ns, for each washer of a
copy-engine port, and `washer` says which washer issues next (R160, R447). -/
structure Regulator where
  tokens : Nat := 0
  upto : Nat := 0
  waiting : List MemReq := []
  granted : Nat := 0
  misses : Nat := 0
  clamped : Nat := 0
  busyUntil : Store Nat := []
  washer : Nat := 0
deriving DecidableEq, Repr

/-- A pseudo-channel (R148, R150, R153, R155, R157, R163, R168): its queue, the direction and batch in hand, the access in
service, retries in a row, the times of each lane's corrections in the last second, the corrected units that wait to be rewritten,
the lane that its next training repairs, the refreshes due and done, the row that each bank has open, and whether it failed. -/
structure PseudoChannel where
  queue : List MemReq := []
  writing : Bool := false
  batch : Nat := 0
  inService : Option MemReq := none
  retries : Nat := 0
  corrections : Store (List Nat) := []
  rewrites : List Nat := []
  repair : Option Nat := none
  refreshDue : Nat := 0
  refreshes : Nat := 0
  openRows : Store (Option Nat) := []
  failed : Bool := false
  lostAtTest : Bool := false
  laneRecord : W32 := 0
deriving DecidableEq, Repr

/-! ## The Error Ledger, Wardens and Hearths (13) -/

/-- A report on its way to a Ledger (R356 to R358). -/
structure Report where
  cls : Nat
  code : Nat
  severity : Nat
  kind : Nat
  index : Nat
  household : Nat := 0
  detail : Nat := 0
  time : Nat := 0
deriving DecidableEq, Repr

/-- An Error Ledger record (R356). -/
structure LedgerRecord where
  report : Report
  seq : Nat
  repeats : Nat := 0
  storm : Bool := false
deriving DecidableEq, Repr

/-- The Error Ledger of a Hall (R359 to R364). -/
structure Ledger where
  queue : List Report := []
  ring : Store (Option LedgerRecord) := []
  tail : Nat := 0
  lost : Nat := 0
  storm : Bool := false
  stormStart : Nat := 0
  storms : Nat := 0
  stormLost : Nat := 0
  calmSince : Option Nat := none
  opened : List Nat := []
  lastWords : List LedgerRecord := []
deriving DecidableEq, Repr

/-- A Warden (R343, R368, R375, R376): whether it runs, the rungs in hand with their starts, and when its partner's
leases last arrived on the Lintel and on the Lintel line. -/
structure Warden where
  running : Bool := true
  rungs : List (Nat × UnitRef × Nat) := []
  lintelLease : Nat := 0
  lineLease : Nat := 0
  mismatches : Nat := 0
deriving DecidableEq, Repr

/-! ## The dictionary's channels (10) and bring-up (15) -/

/-- An open segmented transfer (R296, R298, R301). -/
structure Segments where
  chan : Chan
  isUpload : Bool
  index : Nat
  sub : Nat
  total : Nat
  buffer : List Byte
  last : Nat
deriving DecidableEq, Repr

/-- A channel of a Hall's dictionary window (R299 to R302), with the moment of a tunnelled request and the port by which it left. -/
structure WindowChannel where
  request : Frame := .empty
  copied : Frame := .empty
  response : Frame := .empty
  control : W32 := 0
  busy : Bool := false
  done : Bool := false
  lost : Bool := false
  tunnelAt : Option Nat := none
  tunnelPort : Option Nat := none
deriving DecidableEq, Repr

/-- A NOT_PERMITTED answer waiting for its moment (R290). -/
structure Withheld where
  chan : Chan
  index : Nat
  sub : Nat
  arrived : Nat
deriving DecidableEq, Repr

/-- A stage record (R416). -/
structure StageRecord where
  result : Nat
  code : Nat := 0
  start : Nat
  finish : Nat := 0
  detail : Nat := 0
deriving DecidableEq, Repr

/-- Bring-up as one Hall sees it (R415 to R419, R441). -/
structure HallBringUp where
  stage : Nat := 0
  start : Nat := 0
  records : Store (Option StageRecord) := []
  ended : Bool := false
  held : Bool := false
  copyUsed : Nat := 0xFF
  sequence : Nat := 0
  digest : List Byte := []
  script : List ScriptRecord := []
  applied : Nat := 0
  selfTested : Bool := false
  suspendedFor : Nat := 0
deriving DecidableEq, Repr

/-- A Hall at the start of stage `stage` after a reset: its stage record is RUNNING, and on a module reset, which starts at
stage 1, that of stage 0 is PASSED (R415, R416). -/
def HallBringUp.at (stage now : Nat) : HallBringUp :=
  let running : StageRecord := { result := 0, start := now }
  let passed : StageRecord := { result := 1, start := now, finish := now }
  { stage, start := now, records := if stage = 0 then [(0, some running)] else [(0, some passed), (stage, some running)] }

/-- An entry of a Hall's MSI-X table with its pending bit (R220, R221). -/
structure MsixEntry where
  addr : W64 := 0
  data : W32 := 0
  masked : Bool := true
  isPending : Bool := false
deriving DecidableEq, Repr

/-- A Hall: host port, MSI-X, dictionary window, CAN port, Ledger, Warden and bring-up (R195 to R198, R209, R220,
R296, R299, R343, R356, R415). -/
structure Hall where
  bar4Base : Nat := 0
  bar4Size : Option Nat := none
  drops : Nat := 0
  msix : Store MsixEntry := []
  channels : Store WindowChannel := []
  can : CanState := .active
  nmt : NmtState := .preOperational
  sessions : List Segments := []
  ledger : Ledger := {}
  warden : Warden := {}
  up : HallBringUp := {}
  perst : Bool := false
  hostUp : Bool := false
  hostRate : Nat := 0
  hostWidth : Nat := 0
  wakeOut : Bool := false
  svcLow : Bool := false
  svcSince : Nat := 0
  errorRegister : Byte := 0
  lost : Bool := false
  stewardStopped : Bool := false
deriving DecidableEq, Repr

/-! ## Power, clocks and thermal control (11) -/

/-- A Floor's clock limits, rail and sensors (R318, R323 to R327, R331), the next unit that its stack's
patrol scrub reads (R156), and its directory: found dead by its self-test, or down while its reset runs (R193).  Clock limits
are step numbers: 312.5 MHz + 31.25 MHz × n. -/
structure Floor where
  applied : Nat := 30
  currentLimit : Nat := 30
  thermalLimit : Nat := 30
  ageingLimit : Nat := 30
  halfDutyUntil : Nat := 0
  currentMoved : Nat := 0
  thermalMoved : Nat := 0
  phaseLost : Bool := false
  powerGood : Bool := false
  switchGroups : Nat := 0
  switchFrom : Nat := 0
  railMean : Nat := 0
  currentOver : Bool := false
  offset : Nat := 0
  offsetRaised : Option Nat := none
  worstMargin : Nat := 0
  junctions : Store Int := []
  stackTemp : Int := 0
  hbmLevel : Nat := 0
  refresh : Nat := 1
  scrub : Nat := 0
  directoryDead : Bool := false
  directoryDown : Bool := false
  lostRouters : Nat := 0
deriving DecidableEq, Repr

/-- The power state of the module (R307). -/
inductive PowerState where
  | off | powerUp | idle | active | sleep
deriving DecidableEq, Repr

/-- The power controller and the Hearths (R307 to R322, R325, R326).  `hot` says since when a junction or stack, by its number, has
stood at 115 °C, `wakeSeen` which wake sources were observed in service, `wakeMask` which were enabled in the latest SLEEP, and
`upFailed` that a power-up step failed (R314). -/
structure Power where
  st : PowerState := .powerUp
  upStep : Nat := 0
  clockLimit : Nat := 30
  duty : Nat := 16
  ticksSinceUp : Nat := 0
  brakePin : Bool := false
  brownOut : Bool := false
  unreachable : Bool := false
  millivolts : Nat := 0
  milliamps : Nat := 0
  means10 : Nat := 0
  means1000 : Nat := 0
  samples : List Nat := []
  energy : Nat := 0
  inlet : Int := 0
  hallJunctions : Store Int := []
  sleepAt : Nat := 0
  wakeAt : Nat := 0
  wakes : Nat := 0
  wakeRecord : W32 := 0x01000000#32
  thermalShutdown : Bool := false
  tamperWake : Bool := false
  hot : Store (Option Nat) := []
  wakeSeen : Nat := 0
  wakeMask : Nat := 0
  upFailed : Bool := false
deriving DecidableEq, Repr

/-! ## Security (14) -/

/-- The security engine and the OTP (R380 to R406).  An OTP field is held as the number of its bits that are 1. -/
structure Security where
  lcTest : Nat := 0
  lcSealed : Nat := 0
  lcRetired : Nat := 0
  tokens : List Nat := [0, 0, 0, 0, 0, 0, 0, 0, 0, 0, 0, 0, 0, 0, 0]
  secret : List Byte := []
  rootHash : List Byte := []
  identity : List Byte := []
  serial : List Byte := List.replicate 16 0
  lifecycle : Nat := 0
  challenge : Option (List Byte × Nat) := none
  openHouse : Bool := false
  alarm : Bool := false
  fired : Nat := 0
  tamperSeen : Bool := false
  latest : List Byte := List.replicate 16 0
  keys : Store (Option (List Byte)) := []
  sessions : Nat := 0
  resetAt : Option Nat := none
  isSealed : Bool := false
  keystoneDigest : List Byte := []
  scriptDigest : List Byte := []
  certificate : List Byte := []
  chainMatches : Bool := false
deriving DecidableEq, Repr

/-! ## Links and time (04, 12, 16) -/

/-- A Mortar port (R223, R429 to R431).  `group` and `failed` are the Gutter flits received, and `sent` those sent, since the last
parity flit (R142). -/
structure MortarPort where
  st : Nat := 0
  lanes : Nat := 0
  peerNode : Nat := 0
  peerPlane : Nat := 0
  version : Nat := 0
  replays : Nat := 0
  fec : Nat := 0
  lastLease : Nat := 0
  group : List (List Byte) := []
  failed : List FlitBody := []
  sent : List (List Byte) := []
deriving DecidableEq, Repr

/-- An ingest port and its binding (R435, R444). -/
structure IngestPort where
  up : Bool := false
  ctx : Nat := 0
  ringBase : Nat := 0
  ringLog2 : Nat := 0
  stream : W64 := 0
  head : W32 := 0
  tail : W32 := 0
  dropped : Nat := 0
  buffer : List (Nat × AvtpFrame) := []
deriving DecidableEq, Repr

/-- The module pair and its arbiter (R348 to R350). -/
structure Pair where
  lost : Bool := false
  arbiterIn : Bool := false
  arbiterOut : Bool := false
  claimAt : Nat := 0
deriving DecidableEq, Repr

/-- The time base (R437): which sources are there, the one in use, the latest offset, what is still to be slewed,
and the ns counted since power was applied, from which the slew is paced. -/
structure TimeBase where
  available : List Bool := [true, false, false, false, false]
  source : Nat := 0
  offset : Int := 0
  slew : Int := 0
  ticks : Nat := 0
deriving DecidableEq, Repr

/-! ## What the module sends -/

/-- What the module has sent on its ports: answers, posted writes, messages and pin changes, oldest first. -/
inductive Output where
  | answer (q : Chan) (index sub code : Nat) (data : List Byte)
  | hostWrite (hall addr : Nat) (pasid : Option Nat) (data : List Byte)
  | hostRead (hall addr len : Nat) (pasid : Option Nat)
  | msix (hall vec : Nat)
  | hostAnswer (hall : Nat) (ok : Bool) (poisoned : Bool) (data : List Byte)
  | emcy (hall code : Nat) (reg : Byte)
  | canBootUp (hall : Nat)
  | heartbeat (hall : Nat) (st : NmtState)
  | usdo (hall node : Nat) (f : Frame)
  | pairLease (port epoch : Nat)
  | mortarTime (port time : Nat)
  | mortarReplay (port : Nat)
  | mortarFault (port : Nat)
  | gutterOut (port suite tree round piece : Nat) (data : List Byte)
  | gutterEdge (port suite tree round fmt op bytes : Nat) (overflow : List Nat)
  | gutterFail (port suite tree round : Nat)
  | gutterParity (port : Nat) (data : List Byte)
  | remote (port fabric len household : Nat) (kind : AccKind)
  | remoteFailed (port fabric len household : Nat) (kind : AccKind)
  | remoteAnswer (acc : RemoteAccess) (ok : Bool) (poisoned : Bool) (data : List Byte)
  | tunnel (port version srcPlane srcNode plane node household : Nat) (f : Frame)
  | tunnelAnswer (plane node : Nat) (f : Frame)
  | wakeOut (hall : Nat)
  | pps (time : Nat)
  | spdm (via : SpdmVia) (data : List Byte)
  | ringBell (ctx : Nat)
  | pairSettings (port epoch suite : Nat) (digest : List Byte)
  | pairHead (port epoch suite queue count : Nat) (digest : List Byte)
  | pairDigests (port epoch suite course : Nat) (results : List (Nat × CourseResult))
  | pairContents (port epoch suite ordinal : Nat) (pantry : Memory) (hods : List Memory) (micro : Store W64) (checkpoints : List Checkpoint)
  | courseResult (suite course : Nat) (mismatched : List Nat)
deriving DecidableEq, Repr

/-! ## The whole machine -/

/-- The module.  `faultsDue` lists the Rooms whose write-back met an unusable group and that have not taken their hardware
fault yet (R148). -/
structure State where
  time : Nat := 0
  halls : Store Hall := []
  floors : Store Floor := []
  rooms : Store Room := []
  suites : Store Suite := []
  contexts : Store (Option Context) := []
  households : Store Household := []
  pages : Store Page := []
  washFrom : Store Nat := []
  hbm : Memory := []
  badUnits : List Nat := []
  splitWrites : List (Nat × Nat × Nat) := []
  faultsDue : List Nat := []
  tlb : List TlbEntry := []
  walks : List WalkEntry := []
  stalls : List PortStall := []
  windows : Store (Option Window) := []
  windowRefusals : List Refusal1 := []
  remotes : List RemoteReq := []
  hostReads : List HostRead := []
  directory : Store (Option DirEntry) := []
  dirStamp : Nat := 0
  reservations : List (Nat × Nat) := []
  net : List CohMsg := []
  packets : List Packet := []
  links : Store LinkState := []
  waiters : List Waiter := []
  heldAnswers : List HeldAnswer := []
  removals : List Removal := []
  regulators : Store Regulator := []
  levels : Store Nat := []
  pcs : Store PseudoChannel := []
  dict : Store (Option Nat) := []
  blobs : Store (List Byte) := []
  withheld : List Withheld := []
  power : Power := {}
  security : Security := {}
  mortar : Store MortarPort := []
  ingest : Store IngestPort := []
  linksLost : List Nat := []
  retraining : List (Nat × Nat) := []
  lintelDown : Bool := false
  lineDown : Bool := false
  pair : Pair := {}
  clock : TimeBase := {}
  lockout : Bool := false
  failSilent : Bool := false
  faultPin : Bool := false
  ready : Bool := false
  resetCause : Nat := 0
  out : List Output := []
  free : Nat := 0
  pending : List Instr := []
deriving DecidableEq, Repr

/-- The module at the moment power is applied from OFF: bring-up begins at stage 0 (15, opening text), every
object at its default (R294), every register at the reset value of its table, and the Hearths' device time at 0
(R197).  Registers for which the manual gives no reset value hold zero (log entry 3). -/
def State.reset : State :=
  { halls := [(0, { up := HallBringUp.at 0 0 }), (1, { up := HallBringUp.at 0 0 })] }

/-- Why the machine can stop with a fault. -/
inductive Fault where
  /-- Raised by no command: the module's own faults are records, refusals and kills, all of them next states.
  Safe: nothing is claimed of it. -/
  | none
deriving DecidableEq, Repr

/-- Why a step can answer that a command has no meaning here. -/
inductive Refusal where
  /-- The command is not modelled yet; the string is its mnemonic. Raised by `exec` only. Safe. -/
  | notModelled (mnemonic : String)
  /-- An operand names a unit that the module does not have (a Room above 1,279, a Hall above 1, …), so that no
  such command can arise (`WellFormed`). Raised by the meaning of every command with such an operand. Safe. -/
  | noSuchUnit
deriving DecidableEq, Repr

end Sys2Proof.Machine
end

