-- ==== Sys2Proof/WellFormed.lean ====
section
/-! DEFINITION. Which commands are well formed: every operand that names a unit names one that the module has.

The unit numbers are those of R6, R16, R24, R159, R199, R205, R248, R355 and R356. -/

namespace Sys2Proof

/-- A Room index (R16). -/
def isRoom (r : Nat) : Bool := decide (r < 1280)
/-- A Hall (R6). -/
def isHall (h : Nat) : Bool := decide (h < 2)
/-- A Floor, and the HBM stack beneath it (R6). -/
def isFloor (f : Nat) : Bool := decide (f < 4)
/-- A global pseudo-channel (R16). -/
def isPc (p : Nat) : Bool := decide (p < 128)
/-- A lane of a pseudo-channel (R149). -/
def isHbmResult : HbmResult → Bool
  | .corrected lane => decide (lane < 36)
  | _ => true
/-- A Suite number (R24). -/
def isSuite (s : Nat) : Bool := decide (s < 256)
/-- A context number (R24). -/
def isContext (c : Nat) : Bool := decide (c < 4096)
/-- A household other than household 0 (R24, R248). -/
def isHousehold (h : Nat) : Bool := decide (0 < h) && decide (h < 64)
/-- A queue number, and any other number from 0 to 15: a barrier (R99), a window channel (R299), a DMA tag. -/
def isQueue (q : Nat) : Bool := decide (q < 16)
/-- A copy of a Suite (R256). -/
def isCopy (c : Nat) : Bool := decide (c < 2)
/-- A CAN node-ID (R303). -/
def isNode (n : Nat) : Bool := decide (0 < n) && decide (n < 128)
/-- A master port of R159 that is not reserved. -/
def isMaster (p : Nat) : Bool := decide (p < 2560) || (decide (p < 2592) && decide (p % 16 < 11))
/-- A Mortar port (R2). -/
def isMortar (p : Nat) : Bool := decide (p < 12)
/-- An ingest port, hall × 2 + n (R255). -/
def isIngest (p : Nat) : Bool := decide (p < 4)
/-- A link of R356. -/
def isLink (l : Nat) : Bool :=
  decide (l < 12) || (decide (16 ≤ l) && decide (l < 20)) || l == 24 || l == 25 || (decide (32 ≤ l) && decide (l < 38)) || l == 40
/-- An MSI-X vector (R220). -/
def isVector (v : Nat) : Bool := decide (v < 2048)
/-- A rung of the reset ladder (R368). -/
def isRung (n : Nat) : Bool := decide (0 < n) && decide (n < 6)
/-- A Tally kind (R365). -/
def isTally (k : Nat) : Bool := decide (0 < k) && decide (k < 10)
/-- A tamper sensor (R404). -/
def isTamper (k : Nat) : Bool := decide (0 < k) && decide (k < 6)
/-- A time source (R437). -/
def isSource (k : Nat) : Bool := decide (k < 5)
/-- A CAUSE of the MIGRATION word, or 0 for success (R280). -/
def isCause (k : Nat) : Bool := decide (k < 7)
/-- A tree, a node of it and a 64-byte piece of its contribution (R132 to R134, R138). -/
def isTree (tree node piece : Nat) : Bool := decide (tree < 4096) && decide (node < 1024) && decide (piece < 4096)
/-- A dictionary channel (R296, R299, R302). -/
def isChan : Chan → Bool
  | .window h n => isHall h && isQueue n
  | .can h n => isHall h && isNode n
  | .tunnel p n h => decide (p < 2) && decide (n < 32768) && decide (h < 64)
  | .own => true
/-- What a write names: any object, or a Hall's BAR0 (R195, R299). -/
def isTarget : Target → Bool
  | .object _ _ => true
  | .bar0 h off => isHall h && decide (off < 65536)
  | .frame h n _ => isHall h && isQueue n
  | .bar2 h c off => isHall h && isContext c && decide (off < 4096)
  | .bar4Size h k => isHall h && decide (28 ≤ k) && decide (k ≤ 38)
  | .bar0Read h off _ => isHall h && decide (off < 65536)
  | .bar2Read h c off _ => isHall h && isContext c && decide (off < 4096)
/-- A temperature sensor (R325). -/
def isSensor : Sensor → Bool
  | .junction f k => isFloor f && decide (k < 64)
  | .hallJunction h k => isHall h && decide (k < 8)
  | .stack k => isFloor k
  | .inlet => true
/-- A unit of a fault, fence or reset (R333, R368). -/
def isUnit : UnitRef → Bool
  | .brick g => decide (g < 327680)
  | .room r => isRoom r
  | .router r => isRoom r
  | .pc p => isPc p
  | .floorBlock f => isFloor f
  | .link l => isLink l
  | .steward h => isHall h
  | .copyEngine h => isHall h
  | .wing h => isHall h
  | .suiteCopy s c => isSuite s && isCopy c
  | .clock f => isFloor f
/-- The carrier of an SPDM request (R395). -/
def isVia : SpdmVia → Bool
  | .doe h => isHall h
  | .dict q hh => isChan q && decide (hh < 64)

/-- Every unit that the command names is one that the module has. -/
def Instr.wellFormed : Instr → Bool
  | .add r _ _ _ _ => isRoom r
  | .sub r _ _ _ _ => isRoom r
  | .mul r _ _ _ _ => isRoom r
  | .and r _ _ _ _ => isRoom r
  | .or r _ _ _ _ => isRoom r
  | .xor r _ _ _ _ => isRoom r
  | .shl r _ _ _ _ => isRoom r
  | .shr r _ _ _ _ => isRoom r
  | .sra r _ _ _ _ => isRoom r
  | .addi r _ _ _ _ => isRoom r
  | .ori r _ _ _ _ => isRoom r
  | .shli r _ _ _ _ => isRoom r
  | .movi r _ _ _ => isRoom r
  | .cmp r _ _ _ _ _ => isRoom r
  | .cmpi r _ _ _ _ => isRoom r
  | .plog r _ _ _ _ _ => isRoom r
  | .br r _ _ => isRoom r
  | .loop r _ _ _ => isRoom r
  | .lds r _ _ _ _ => isRoom r
  | .sts r _ _ _ _ => isRoom r
  | .atomAdd r _ _ _ _ => isRoom r
  | .atomMax r _ _ _ _ => isRoom r
  | .atomMin r _ _ _ _ => isRoom r
  | .atomOr r _ _ _ _ => isRoom r
  | .atomAnd r _ _ _ _ => isRoom r
  | .atomSwap r _ _ _ _ => isRoom r
  | .atomCas r _ _ _ _ => isRoom r
  | .atomFadd r _ _ _ _ => isRoom r
  | .rdsr r _ _ _ => isRoom r
  | .rung r _ _ _ _ => isRoom r
  | .guard r _ _ _ => isRoom r
  | .tdld r _ _ _ => isRoom r
  | .tdset r _ _ _ _ => isRoom r
  | .tdadv r _ _ _ _ => isRoom r
  | .tload r _ _ _ _ _ => isRoom r
  | .tstore r _ _ _ _ _ => isRoom r
  | .dmaget r _ _ _ _ => isRoom r
  | .dmaput r _ _ _ _ => isRoom r
  | .dmawait r _ _ => isRoom r
  | .dmaTransferComplete r _ => isRoom r
  | .mma r _ _ _ _ _ => isRoom r
  | .fold r _ _ => isRoom r
  | .vec r _ _ => isRoom r
  | .upld r _ _ _ => isRoom r
  | .conva r _ _ _ _ _ => isRoom r
  | .convt r _ _ _ _ => isRoom r
  | .gsend r _ _ _ _ => isRoom r
  | .grecv r _ _ _ _ => isRoom r
  | .gwait r _ _ => isRoom r
  | .signal r _ _ _ => isRoom r
  | .wait r _ _ _ => isRoom r
  | .barrier r _ _ => isRoom r
  | .barrierRelease suite copy n => isSuite suite && isCopy copy && isQueue n
  | .course r _ _ => isRoom r
  | .digest r _ _ => isRoom r
  | .commit r _ => isRoom r
  | .plumb r _ _ _ _ => isRoom r
  | .uopNop r => isRoom r
  | .uopFma r _ _ _ _ _ _ => isRoom r
  | .uopAdd r _ _ _ _ _ => isRoom r
  | .uopMul r _ _ _ _ _ => isRoom r
  | .uopMax r _ _ _ _ _ => isRoom r
  | .uopMin r _ _ _ _ _ => isRoom r
  | .uopFunc r _ _ _ _ => isRoom r
  | .uopIadd r _ _ _ _ _ => isRoom r
  | .uopImul r _ _ _ _ _ => isRoom r
  | .uopIcvt r _ _ _ _ => isRoom r
  | .uopLd r _ _ _ _ _ => isRoom r
  | .uopSt r _ _ _ _ _ => isRoom r
  | .uopSel r _ _ _ _ _ _ => isRoom r
  | .uopLane r _ _ => isRoom r
  | .uopLoop r _ _ => isRoom r
  | .uopEnd r => isRoom r
  | .gutterPieceReduce suite copy tree _ node piece => isSuite suite && isCopy copy && isTree tree node piece
  | .descriptorFetch ctx queue => isContext ctx && isQueue queue
  | .waitRecheck ctx queue => isContext ctx && isQueue queue
  | .configurationLanding suite => isSuite suite
  | .roomWhitewashComplete r _ => isRoom r
  | .dispatchLanding suite => isSuite suite
  | .pairedSettingsWait suite => isSuite suite
  | .commitLanding suite => isSuite suite
  | .markerPublish ctx queue => isContext ctx && isQueue queue
  | .sliceExpiry suite => isSuite suite
  | .kill q suite => isChan q && isSuite suite
  | .ctxRequest q hh _ => isChan q && isHousehold hh
  | .retry q ctx => isChan q && isContext ctx
  | .skip q ctx => isChan q && isContext ctx
  | .queueOpen q ctx _ => isChan q && isContext ctx
  | .queueClose q ctx _ => isChan q && isContext ctx
  | .close q ctx => isChan q && isContext ctx
  | .tailDoorbell hall ctx queue _ _ => isHall hall && isContext ctx && isQueue queue
  | .replay hall ctx _ _ _ => isHall hall && isContext ctx
  | .abort hall ctx _ _ _ => isHall hall && isContext ctx
  | .vectorUnmask hall v => isHall hall && isVector v
  | .bar4Access hall _ _ _ => isHall hall
  | .ptRoot q hh _ => isChan q && isHousehold hh
  | .tlbInval q hh _ => isChan q && isHousehold hh
  | .pageWalk port ctx _ _ => isMaster port && isContext ctx
  | .faultRecordWrite hh => isHousehold hh
  | .faultqBase q hh _ => isChan q && isHousehold hh
  | .faultTimeout port => isMaster port
  | .windowAdd q hh _ => isChan q && isHousehold hh
  | .windowRemove q hh _ => isChan q && isHousehold hh
  | .remoteAccessArrival acc => isMortar acc.port
  | .windowRefusal _ => true
  | .activate q hh => isChan q && isHousehold hh
  | .deactivate q hh => isChan q && isHousehold hh
  | .grant q hh _ => isChan q && isHousehold hh
  | .withdraw q hh _ => isChan q && isHousehold hh
  | .washPage stack => isFloor stack
  | .suiteRequest q hh _ => isChan q && isHousehold hh
  | .suiteRelease q hh _ => isChan q && isHousehold hh
  | .roomAdd q suite _ => isChan q && isSuite suite
  | .roomRemove q suite _ => isChan q && isSuite suite
  | .roomMove q suite _ => isChan q && isSuite suite
  | .groupBind q suite _ => isChan q && isSuite suite
  | .groupUnbind q suite _ => isChan q && isSuite suite
  | .portBind q suite _ => isChan q && isSuite suite
  | .portUnbind q suite _ => isChan q && isSuite suite
  | .atFreezePoint q hh => isChan q && isHousehold hh
  | .atNextBoundary q hh => isChan q && isHousehold hh
  | .thaw q hh => isChan q && isHousehold hh
  | .save q hh _ => isChan q && isHousehold hh
  | .restore q hh _ => isChan q && isHousehold hh
  | .release q suite => isChan q && isSuite suite
  | .registerWrite q target _ => isChan q && isTarget target
  | .upload q _ _ => isChan q
  | .wholeIndexUpload q _ => isChan q
  | .windowGo hall n => isHall hall && isQueue n
  | .usdoFrame hall node _ => isHall hall && isNode node
  | .tunnelRequest _ _ _ _ _ => true
  | .tunnelTimeout hall n => isHall hall && isQueue n
  | .segmentTimeout q => isChan q
  | .notPermittedAnswer _ => true
  | .nmtResetApplication hall => isHall hall
  | .nmtResetCommunication hall => isHall hall
  | .heartbeat hall => isHall hall
  | .sleepRequest q => isChan q
  | .wakePin => true
  | .canWakeFrame hall => isHall hall
  | .pcieWake hall => isHall hall
  | .hearthAlarm => true
  | .thermalWake => true
  | .powerUpStep _ => true
  | .roomSwitchGroup floor _ => isFloor floor
  | .powerSample hall _ _ => isHall hall
  | .capTick => true
  | .powerBrakeAssert => true
  | .powerBrakeRelease => true
  | .currentSample floor _ _ => isFloor floor
  | .phaseLoss floor => isFloor floor
  | .droopDetect r => isRoom r
  | .droopRelease r => isRoom r
  | .thermalSensorChange sensor _ => isSensor sensor
  | .thermalShutdown => true
  | .settlementMeasure floor _ _ => isFloor floor
  | .roomDozeEntry r => isRoom r
  | .roomClockGate r => isRoom r
  | .courseDigestCompare suite _ => isSuite suite
  | .courseOverrun r => isRoom r
  | .spareLoadComplete r => isRoom r
  | .hallLease hall => isHall hall
  | .hallLeaseTimeout hall => isHall hall
  | .hallRejoin => true
  | .pairLease port _ => isMortar port
  | .pairLeaseTimeout => true
  | .arbiterGrant => true
  | .arbiterWithdraw => true
  | .islandModeEntry => true
  | .pairRejoin => true
  | .linkDown link => isLink link
  | .reintegrationSelfTest u _ _ => isUnit u
  | .ledgerRecord hall => isHall hall
  | .stormEnd hall => isHall hall
  | .tallyFire kind u => isTally kind && isUnit u
  | .rungComplete n u => isRung n && isUnit u
  | .rungTimeout n u => isRung n && isUnit u
  | .moduleReset q => isChan q
  | .wardenMismatch hall => isHall hall
  | .wardenRungOverdue hall => isHall hall
  | .failSilent hall => isHall hall
  | .lcAdvance q _ => isChan q
  | .lcAdvanceReset => true
  | .openHouseChallenge q => isChan q
  | .challengeExpiry => true
  | .openHouseResponse q _ => isChan q
  | .getVersion via _ => isVia via
  | .getCapabilities via _ => isVia via
  | .negotiateAlgorithms via _ => isVia via
  | .getDigests via _ => isVia via
  | .getCertificate via _ _ _ _ => isVia via
  | .challenge via _ _ _ => isVia via
  | .getMeasurements via _ _ _ _ => isVia via
  | .latchOpen q hh _ => isChan q && isHousehold hh
  | .latchRelease q hh _ => isChan q && isHousehold hh
  | .slotClear q hh _ => isChan q && isHousehold hh
  | .blobDecrypt q hh _ => isChan q && isHousehold hh
  | .blobDecryptDone hh => isHousehold hh
  | .tamperEvent hall sensor => isHall hall && isTamper sensor
  | .bringupStage hall _ => isHall hall
  | .stageTimeout hall => isHall hall
  | .svcEn hall _ => isHall hall
  | .inputSwitchOpen => true
  | .inputRestore => true
  | .brownOut _ => true
  | .presenceLoss => true
  | .perstAssert hall => isHall hall
  | .perstDeassert hall => isHall hall
  | .mortarLinkTrain port _ => isMortar port
  | .mortarFlitReceive port _ => isMortar port
  | .nodePlaneWrite q _ _ => isChan q
  | .ingestFrame port _ => isIngest port
  | .timeMessage => true
  | .timeSourceLost => true
  | .timePps => true
  | .portRegulatorIssue port => isMaster port
  | .congestionPublish stack => isFloor stack
  | .pcSchedule pc => isPc pc
  | .hbmRefresh pc => isPc pc
  | .hbmAccessComplete pc result => isPc pc && isHbmResult result
  | .patrolScrub stack => isFloor stack
  | .gets r _ => isRoom r
  | .getm r _ => isRoom r
  | .putm r _ => isRoom r
  | .pute r _ => isRoom r
  | .puts r _ => isRoom r
  | .done r _ => isRoom r
  | .fwdGets r _ => isRoom r
  | .fwdGetm r _ => isRoom r
  | .recall r _ => isRoom r
  | .inv r _ => isRoom r
  | .data r _ => isRoom r
  | .invAck r _ => isRoom r
  | .fwdAck r _ => isRoom r
  | .nack r _ => isRoom r
  | .nackRetry r _ => isRoom r
  | .putAck r _ => isRoom r
  | .uncachedAccess _ _ _ => true
  | .linkUp link _ _ => isLink link
  | .lineDown => true
  | .floorPowerGoodLoss floor => isFloor floor
  | .phaseRestore floor => isFloor floor
  | .canErrorState hall _ => isHall hall
  | .nmtStateCommand hall _ => isHall hall
  | .pcieCompletion hall _ _ _ => isHall hall
  | .pcieCompletionTimeout hall _ => isHall hall
  | .remoteResponseTimeout _ => true
  | .saveDone hh cause => isHousehold hh && isCause cause
  | .restoreDone hh cause => isHousehold hh && isCause cause
  | .timeSyncExchange source _ => isSource source

end Sys2Proof
end

