-- ==== Sys2Proof/Machine/Ops.lean ====
section
/-! DEFINITION. The named operations on the state that every family of commands shares: reading and changing one
unit, settings and counters of the dictionary, free values, outputs, the Floor Plan's counts, reports to the Error
Ledger, MSI-X messages and the error register. -/

namespace Sys2Proof.Machine

/-- The state after a command: a command acts on everything but the queue of waiting commands. -/
def State.keepQueue (s t : State) : State := { t with pending := s.pending }

/-- The outcome of a command on `s` that names units of the module: the state `t` that its effect gives, when every one of
them exists, and a refusal otherwise. -/
def onUnits (wf : Bool) (s t : State) : Host.Outcome State Fault Refusal :=
  if wf then .next (s.keepQueue t) else .refused .noSuchUnit

/-! ### Reading and changing one unit -/

def State.room (s : State) (r : Nat) : Room := Store.get {} s.rooms r
def State.setRoom (s : State) (r : Nat) (x : Room) : State := { s with rooms := Store.set {} s.rooms r x }
def State.modRoom (s : State) (r : Nat) (f : Room → Room) : State := s.setRoom r (f (s.room r))
def State.hall (s : State) (h : Nat) : Hall := Store.get {} s.halls h
def State.modHall (s : State) (h : Nat) (f : Hall → Hall) : State :=
  { s with halls := Store.set {} s.halls h (f (s.hall h)) }
def State.floor (s : State) (n : Nat) : Floor := Store.get {} s.floors n
def State.modFloor (s : State) (n : Nat) (f : Floor → Floor) : State :=
  { s with floors := Store.set {} s.floors n (f (s.floor n)) }
def State.suite (s : State) (n : Nat) : Suite := Store.get {} s.suites n
def State.modSuite (s : State) (n : Nat) (f : Suite → Suite) : State :=
  { s with suites := Store.set {} s.suites n (f (s.suite n)) }
def State.house (s : State) (h : Nat) : Household := Store.get {} s.households h
def State.modHouse (s : State) (h : Nat) (f : Household → Household) : State :=
  { s with households := Store.set {} s.households h (f (s.house h)) }
def State.ctx? (s : State) (c : Nat) : Option Context := Store.get none s.contexts c
def State.setCtx (s : State) (c : Nat) (x : Option Context) : State :=
  { s with contexts := Store.set none s.contexts c x }
def State.modCtx (s : State) (c : Nat) (f : Context → Context) : State := s.setCtx c ((s.ctx? c).map f)
def State.pc (s : State) (p : Nat) : PseudoChannel := Store.get {} s.pcs p
def State.modPc (s : State) (p : Nat) (f : PseudoChannel → PseudoChannel) : State :=
  { s with pcs := Store.set {} s.pcs p (f (s.pc p)) }
def State.reg (s : State) (p : Nat) : Regulator := Store.get {} s.regulators p
def State.modReg (s : State) (p : Nat) (f : Regulator → Regulator) : State :=
  { s with regulators := Store.set {} s.regulators p (f (s.reg p)) }
def State.port (s : State) (p : Nat) : MortarPort := Store.get {} s.mortar p
def State.modPort (s : State) (p : Nat) (f : MortarPort → MortarPort) : State :=
  { s with mortar := Store.set {} s.mortar p (f (s.port p)) }
def State.feed (s : State) (p : Nat) : IngestPort := Store.get {} s.ingest p
def State.modFeed (s : State) (p : Nat) (f : IngestPort → IngestPort) : State :=
  { s with ingest := Store.set {} s.ingest p (f (s.feed p)) }
def State.page (s : State) (f : Nat) : Page := Store.get {} s.pages f
def State.modPage (s : State) (n : Nat) (f : Page → Page) : State :=
  { s with pages := Store.set {} s.pages n (f (s.page n)) }
def Context.queue (c : Context) (q : Nat) : Queue := Store.get {} c.queues q
def Context.modQueue (c : Context) (q : Nat) (f : Queue → Queue) : Context :=
  { c with queues := Store.set {} c.queues q (f (c.queue q)) }
def State.modQueue (s : State) (c q : Nat) (f : Queue → Queue) : State := s.modCtx c (·.modQueue q f)
def Room.mapForeman (x : Room) (f : Foreman → Foreman) : Room := { x with foreman := f x.foreman }
def State.modForeman (s : State) (r : Nat) (f : Foreman → Foreman) : State := s.modRoom r (·.mapForeman f)

/-- Send one output. -/
def State.emit (s : State) (o : Output) : State := { s with out := s.out ++ [o] }

/-- Draw a fresh free value (log entry 2). -/
def State.draw (s : State) : Nat × State := (Config.free s.free, { s with free := s.free + 1 })

/-! ### Dictionary settings and counters -/

/-- The address of a dictionary entry in the tables `dict` and `blobs`. -/
def entry (index sub : Nat) : Nat := index * 256 + sub

/-- The default settings of the Hall ports (R162), by the port's offset k. -/
def hallPortDefault (k : Nat) : Nat :=
  if k = 0 then 0x0180000005001000
  else if k ≤ 6 then 0x0180000001F41000
  else if k ≤ 8 then 0x01000C3500280100
  else if k = 9 then 0x018000003E801000
  else 0x0180000000640400

/-- The default Tally windows of R365, in µs. -/
def tallyDefault (kind : Nat) : Nat :=
  if kind = 5 || kind = 6 then 100 else if kind = 8 || kind = 9 then 10000 else 1000

/-- The default of a setting, as the object tables give it (R128, R170, R297, R303, R332, R355, R379, R389, R444);
entries that no table gives a default start at 0. -/
def dictDefault (index sub : Nat) : Nat :=
  if index = 0x1017 then 100
  else if index = 0x2401 then
    (if sub = 1 || sub = 6 then 360 else if sub = 3 then 0x0F else if sub = 7 then 1000 else 0)
  else if index = 0x2430 then (if sub = 1 || sub = 2 then 8 else 0)
  else if 0x2601 ≤ index && index ≤ 0x2604 then (if sub = 1 then 32 else 0)
  else if index = 0x27C0 || index = 0x27C1 then (if 1 ≤ sub && sub ≤ 11 then hallPortDefault (sub - 1) else 0)
  else if 0x2810 ≤ index && index ≤ 0x2812 then 32
  else if index = 0x2813 then 7
  else if index = 0x2851 then (if sub ≤ 3 then 1 else 0)
  else if 0x2860 ≤ index && index ≤ 0x286B then (if sub = 1 then 0xFF else 0)
  else if index = 0x2901 then
    (if sub = 1 then 0x10 else if sub = 2 then 0x11 else if sub = 5 then 3 else 1)
  else if index = 0x2910 || index = 0x2911 then (if sub = 1 then 0 else 0xFF)
  else if index = 0x2920 || index = 0x2921 then 0xFF
  else if index = 0x2A01 then (if sub ≤ 4 then sub else 0)
  else if index = 0x5000 then (if sub = 2 then 0xB0 else 0)
  else if index = 0x5020 then tallyDefault sub
  else if index = 0x5202 then 500
  else if index = 0x5C00 then (if sub = 4 then 0x23 else 0)
  else 0

/-- A setting or counter of the dictionary. -/
def State.dictGet (s : State) (index sub : Nat) : Nat :=
  (Store.get none s.dict (entry index sub)).getD (dictDefault index sub)

/-- Write a setting or counter; the default removes the entry. -/
def State.dictSet (s : State) (index sub v : Nat) : State :=
  { s with dict := Store.set none s.dict (entry index sub) (if v = dictDefault index sub then none else some v) }

/-- Add to a counter that saturates at `bits` bits. -/
def State.bump (s : State) (index sub bits : Nat) (n : Nat := 1) : State :=
  s.dictSet index sub (min (s.dictGet index sub + n) (2 ^ bits - 1))

def State.blob (s : State) (index sub : Nat) : List Byte := Store.get [] s.blobs (entry index sub)
def State.setBlob (s : State) (index sub : Nat) (v : List Byte) : State :=
  { s with blobs := Store.set [] s.blobs (entry index sub) v }

/-- Saturating addition to a counter of `bits` bits. -/
def satAdd (bits a b : Nat) : Nat := min (a + b) (2 ^ bits - 1)

/-! ### Answers (R290, R293, R301) -/

/-- Change a window channel. -/
def State.modChannel (s : State) (h n : Nat) (f : WindowChannel → WindowChannel) : State :=
  s.modHall h fun x => { x with channels := Store.set {} x.channels n (f (Store.get {} x.channels n)) }

/-- A channel whose request is lost (R292, R300). -/
def WindowChannel.lose (c : WindowChannel) : WindowChannel := { c with busy := false, lost := true, tunnelAt := none, tunnelPort := none }

/-- Requests that left by Mortar ports are lost with their links (R300). -/
def State.loseTunnels (s : State) (ports : Nat → Bool) : State :=
  let gone (c : WindowChannel) : Bool := c.busy && (c.tunnelPort.map ports).getD false
  iterate (fun h s => s.modHall h fun x => { x with channels := Store.mapValues {} (fun c => if gone c then c.lose else c) x.channels }) 2 s

/-- Send a frame back on the channel of a request (R296, R301, R302). -/
def State.replyFrame (s : State) (q : Chan) (f : Frame) : State :=
  match q with
  | .window h n =>
    s.modChannel h n fun c => if c.busy then { c with response := f, busy := false, done := true, tunnelAt := none, tunnelPort := none } else c
  | .can h node => s.emit (.usdo h node f)
  | .tunnel plane node _ => s.emit (.tunnelAnswer plane node f)
  | .own => s

/-- The frame that answers a transfer. -/
def answerFrame (code : Nat) (data : List Byte) : Frame := if code = 0 then .reply data else .abort code

/-- Answer a transfer. -/
def State.reply (s : State) (q : Chan) (i sub code : Nat) (data : List Byte) : State :=
  (s.emit (.answer q i sub code data)).replyFrame q (answerFrame code data)

/-! ### Places and the Floor Plan (R16, R19 to R21) -/

def floorOf (r : Nat) : Nat := r / 320
def hallOfRoom (r : Nat) : Nat := r / 640
def columnOf (r : Nat) : Nat := r % 16
def rowOf (r : Nat) : Nat := (r % 320) / 16
/-- The Hall of a master port (R159). -/
def hallOfMaster (p : Nat) : Nat := if p < 1280 then p / 640 else if p < 2560 then (p - 1280) / 640 else (p - 2560) / 16

/-- Bits that are 1 among the low n bits. -/
def countOnes (w : Nat) : Nat → Nat
  | 0 => 0
  | n + 1 => (if bitOf w n then 1 else 0) + countOnes w n

/-- Whether Brick b of a Room works. -/
def Room.brickOk (x : Room) (b : Nat) : Bool := !x.deadBricks.getLsbD b
/-- BRICKS of the Room status word (R21). -/
def Room.bricksUp (x : Room) : Nat := 256 - countOnes x.deadBricks.toNat 256
/-- A usable Room (R19). -/
def Room.usable (x : Room) : Bool :=
  !x.deadForeman && !x.deadPantry && !x.deadDma && !x.deadGutter && x.life == .working
/-- A free Room: no member, no spare, reserved by no change. -/
def Room.isFree (x : Room) : Bool := x.member.isNone && !x.reserved

/-- A request ungates a Room's clock (R308). -/
def RoomPower.ungate (p : RoomPower) : RoomPower := if p == .gated then .clocked else p

/-- The first n natural numbers from a. -/
def span (a n : Nat) : List Nat := (List.range n).map (a + ·)

def countIf {α : Type} (p : α → Bool) (l : List α) : Nat := (l.filter p).length

/-- Usable Rooms among n Rooms from a. -/
def State.usableRooms (s : State) (a n : Nat) : Nat := countIf (fun r => (s.room r).usable) (span a n)
/-- Working Bricks of the usable Rooms among n Rooms from a (R19). -/
def State.workingBricks (s : State) (a n : Nat) : Nat :=
  ((span a n).map fun r => if (s.room r).usable then (s.room r).bricksUp else 0).sum

/-- Pseudo-channels of a group on a stack (R146). -/
def State.groupSize (s : State) (stack : Nat) : Nat := s.dictGet (0x2601 + stack) 1
/-- Whether a global pseudo-channel is usable (R148, R155). -/
def State.pcOk (s : State) (p : Nat) : Bool := !(s.pc p).failed && !(s.pc p).lostAtTest
/-- The first global pseudo-channel of the group of a pseudo-channel: the group's name (R146). -/
def State.groupName (s : State) (p : Nat) : Nat :=
  let g := s.groupSize (p / 32); p / 32 * 32 + p % 32 / g * g
/-- Whether every pseudo-channel of a named group is usable (R148). -/
def State.groupOk (s : State) (name : Nat) : Bool :=
  (span name (s.groupSize (name / 32))).all s.pcOk

/-! ### Which Hall (R291, R446) -/

/-- The senior Hall (0x2900.04). -/
def State.senior (s : State) : Nat := if (s.hall 0).lost then 1 else 0

/-- The Hall itself, or the surviving Hall while it is lost. -/
def State.surviving (s : State) (h : Nat) : Nat := if (s.hall h).lost then 1 - h else h

/-- The Hall whose Steward makes the Suite's choices (R264). -/
def State.decider (s : State) (n : Nat) : Nat :=
  match (s.suite n).rooms with
  | (some r, _) :: _ => s.surviving (hallOfRoom r)
  | (none, some r) :: _ => s.surviving (hallOfRoom r)
  | _ => s.senior

/-- The Hall that owns a link (R446). -/
def State.linkHall (s : State) (l : Nat) : Nat :=
  if l < 12 then l / 6
  else if l < 20 then (l - 16) / 2
  else if l < 26 then l - 24
  else if l < 36 then (l - 32) / 2
  else if l < 38 then l - 36
  else s.senior

/-- The Hall that records a report of a SOURCE kind and index (R446). -/
def State.recorder (s : State) (kind index : Nat) : Nat :=
  let h :=
    if kind = 1 then index / 256 / 640
    else if kind = 2 || kind = 3 then index / 640
    else if kind = 4 then index / 64
    else if kind = 5 then index / 2
    else if kind = 6 then index
    else if kind = 7 then s.linkHall index
    else if kind = 8 then hallOfMaster index
    else if kind = 9 then s.decider index
    else if kind = 10 then ((s.ctx? index).map (·.serving)).getD s.senior
    else s.senior
  s.surviving h

/-! ### MSI-X (R220, R221) -/

def Hall.vector (x : Hall) (v : Nat) : MsixEntry := Store.get {} x.msix v
def Hall.modVector (x : Hall) (v : Nat) (f : MsixEntry → MsixEntry) : Hall :=
  { x with msix := Store.set {} x.msix v (f (x.vector v)) }

/-- Send a vector's message, or set its pending bit (R221); fail-silent sends nothing (R377). -/
def State.sendVector (s : State) (hall v : Nat) : State :=
  if s.failSilent then s
  else if ((s.hall hall).vector v).masked || ((s.hall hall).vector v).isPending then
    s.modHall hall (·.modVector v ({ · with isPending := true }))
  else s.emit (.msix hall v)

/-! ### The Error Ledger's intake and recording (R356 to R364) -/

def State.modLedger (s : State) (h : Nat) (f : Ledger → Ledger) : State :=
  s.modHall h fun x => { x with ledger := f x.ledger }

/-- The record with a sequence number, while its slot still holds it (R362). -/
def Ledger.bySeq (l : Ledger) (k : Nat) : Option LedgerRecord :=
  match Store.get none l.ring ((k - 1) % 1024) with
  | some r => if r.seq = k then some r else none
  | none => none

/-- Whether a report may be coalesced into a record (R359). -/
def LedgerRecord.joins (x : LedgerRecord) (r : Report) : Bool :=
  x.report.kind == r.kind && x.report.index == r.index && x.report.cls == r.cls && x.report.code == r.code &&
    decide (r.time < x.report.time + 1000000)

/-- Keep a record in the last words when it is FATAL or of class RESET (R364). -/
def Ledger.lastWord (l : Ledger) (x : LedgerRecord) : Ledger :=
  if x.report.severity = 4 || x.report.cls = 7 then { l with lastWords := (x :: l.lastWords).take 8 } else l

/-- Record or coalesce a report in a Hall's ring (R359, R360, R362, R363). -/
def State.writeRecord (s : State) (h : Nat) (r : Report) : State :=
  let l := (s.hall h).ledger
  match l.opened.find? (fun k => ((l.bySeq k).map (·.joins r)).getD false) with
  | some k =>
    let slot := (k - 1) % 1024
    s.modLedger h fun l =>
      { l with ring := Store.modify none l.ring slot (·.map fun x => { x with repeats := satAdd 16 x.repeats 1 }) }
  | none =>
    let k := l.tail + 1
    let slot := (k - 1) % 1024
    let rec' : LedgerRecord := { report := r, seq := k, storm := l.storm }
    let overwritten := match Store.get none l.ring slot with
      | some old => decide (s.dictGet (0x5001 + h) 2 < old.seq)
      | none => false
    let s := s.modLedger h fun l =>
      ({ l with
          ring := Store.set none l.ring slot (some rec')
          tail := k
          lost := if overwritten then satAdd 32 l.lost 1 else l.lost
          opened := (k :: l.opened).take 32 }).lastWord rec'
    let irq := s.dictGet 0x5000 2
    if bitOf irq 7 && decide (bitsOf irq 6 4 ≤ r.severity) then s.sendVector h (bitsOf (s.dictGet 0x5000 3) 4 0) else s

/-- A report arrives at a Hall's queue (R360, R361). -/
def State.reportTo (s : State) (h : Nat) (r : Report) : State :=
  let s := s.bump (0x5004 + h) (1 + r.cls) 32
  let l := (s.hall h).ledger
  if 64 ≤ l.queue.length then
    if l.storm then s.modLedger h fun l => { l with lost := satAdd 32 l.lost 1, stormLost := l.stormLost + 1 }
    else
      let s := s.modLedger h fun l =>
        { l with storm := true, stormStart := s.time, storms := satAdd 32 l.storms 1, calmSince := none
                 stormLost := 1, lost := satAdd 32 l.lost 1 }
      let s := s.bump (0x5004 + h) (1 + 11) 32
      s.writeRecord h { cls := 11, code := 1, severity := 2, kind := 6, index := h, time := s.time }
  else if l.storm && decide (r.severity ≤ 1) then
    s.modLedger h fun l => { l with lost := satAdd 32 l.lost 1, stormLost := l.stormLost + 1 }
  else s.modLedger h fun l =>
    { l with queue := l.queue ++ [r], calmSince := if 8 ≤ l.queue.length + 1 then none else l.calmSince }

/-- Nothing but the Hearths is powered (R307). -/
def State.asleep (s : State) : Bool := s.power.st == .sleep || s.power.st == .off

/-- A unit reports to the Hall that R446 names; fail-silent records nothing (R378), and nothing reports without power. -/
def State.report (s : State) (cls code severity kind index : Nat) (household detail : Nat := 0) : State :=
  if s.failSilent || s.asleep then s
  else s.reportTo (s.recorder kind index) { cls, code, severity, kind, index, household, detail, time := s.time }

/-! ### The error register and the throttle reasons (R297, R331) -/

/-- POWER_BRAKE as the power controller takes it: the pin, or the brown-out band (R322, R424). -/
def State.braked (s : State) : Bool := s.power.brakePin || s.power.brownOut

/-- The module's own limit: the cap controller's, or BRAKE_CLOCK while the brake holds (R331). -/
def State.moduleLimit (s : State) : Nat :=
  if s.braked then min s.power.clockLimit (s.dictGet 0x2401 5) else s.power.clockLimit

/-- The applied clock of a Floor: the lowest of its limits (R331). -/
def State.lowest (s : State) (f : Nat) : Nat :=
  min (min s.moduleLimit (s.floor f).currentLimit) (min (s.floor f).thermalLimit (s.floor f).ageingLimit)

/-- The effective cap of R320, with the coolant derating of R325, in W. -/
def State.coolantCap (s : State) : Nat :=
  if 130 < s.power.inlet then 360 - min 360 (10 * (s.power.inlet - 130).toNat) else 360
def State.effectiveCap (s : State) : Nat := min (min (s.dictGet 0x2401 1) (s.dictGet 0x2401 6)) s.coolantCap

/-- Whether a throttle reason is active: its limit binds a Floor below 1,250 MHz, or it reduces issue duty or HBM issue (R331).  The
coolant acts through the cap controller while it sets the effective cap. -/
def State.reasonActive (s : State) (k : Nat) : Bool :=
  let floors := List.range 4
  let binds (lim : Nat → Nat) := floors.any fun f => decide (lim f = s.lowest f) && decide (s.lowest f < 30)
  if k = 0 then decide (s.power.duty < 16) || binds fun _ => s.power.clockLimit
  else if k = 1 then binds (fun f => (s.floor f).currentLimit) || floors.any fun f => decide (s.time < (s.floor f).halfDutyUntil)
  else if k = 2 then s.rooms.any (·.2.stretched)
  else if k = 3 then binds fun f => (s.floor f).thermalLimit
  else if k = 4 then
    decide (s.coolantCap < 360) && decide (s.effectiveCap = s.coolantCap) &&
      (decide (s.power.duty < 16) || binds fun _ => s.power.clockLimit)
  else if k = 5 then floors.any fun f => decide (0 < (s.floor f).hbmLevel)
  else if k = 6 then binds fun f => (s.floor f).ageingLimit
  else s.braked && binds fun _ => s.dictGet 0x2401 5

/-- DEGRADED_HALF: Hall E runs the module alone (R345, R419). -/
def State.degradedHalf (s : State) : Bool := (s.hall 0).lost

/-- The error register 0x1001 as Hall h reports it (R297). -/
def State.errorBits (s : State) (h : Nat) : Nat :=
  let b1 := s.reasonActive 1 || s.reasonActive 7
  let b2 := s.power.brownOut ||
    (s.power.millivolts != 0 && (decide (s.power.millivolts < 36000) || decide (58000 < s.power.millivolts)))
  let b3 := s.reasonActive 3 || s.reasonActive 4 || s.reasonActive 5
  let b4 := !s.linksLost.isEmpty || (s.hall h).can != .active
  let b7 := s.degradedHalf || s.faultPin
  let w := (if b1 then 2 else 0) + (if b2 then 4 else 0) + (if b3 then 8 else 0) + (if b4 then 16 else 0) +
    (if b7 then 128 else 0)
  if w = 0 then 0 else w + 1

/-- The EMCY code for a change of the error register (R297). -/
def emcyCode (old new : Nat) : Nat :=
  let fresh (k : Nat) := bitOf new k && !bitOf old k
  if fresh 7 then 0xFF00
  else if fresh 1 then 0x2000
  else if fresh 2 then 0x3000
  else if fresh 3 then 0x4000
  else if fresh 4 then 0x8100
  else 0

/-- Bring the error register of one Hall up to date, with its EMCY message. -/
def State.refreshRegister (s : State) (h : Nat) : State :=
  let new := s.errorBits h
  let old := (s.hall h).errorRegister.toNat
  if new = old then s
  else (s.modHall h ({ · with errorRegister := BitVec.ofNat 8 new })).emit (.emcy h (emcyCode old new) (BitVec.ofNat 8 new))

/-- Whether a reason was active when the flags were last brought up to date, its time and its activations (R332). -/
def State.reasonWas (s : State) (k : Nat) : Bool := s.dictGet (0x2440 + k) 1 = 1

/-- Bring every reason flag up to date, counting activations (R331). -/
def State.refreshReason (k : Nat) (s : State) : State :=
  if s.reasonActive k = s.reasonWas k then s
  else if s.reasonActive k then (s.dictSet (0x2440 + k) 1 1).bump (0x2440 + k) 3 32
  else s.dictSet (0x2440 + k) 1 0

/-- The applied clocks, the throttle reasons and the error registers follow a change of what they are formed
from (R297, R318, R331). -/
def State.refresh (s : State) : State :=
  let s := iterate (fun f s => s.modFloor f ({ · with applied := s.lowest f })) 4 s
  let s := iterate State.refreshReason 8 s
  (s.refreshRegister 0).refreshRegister 1

end Sys2Proof.Machine
end

