-- ==== Sys2Proof/Machine/Flags.lean ====
section
/-! DEFINITION. The guard words and the Foreman's guard slots (R52, R53, R96), and the predicates of a guard
(R79) and of a comparison (R81). -/

namespace Sys2Proof.Machine

/-! ### Guard words (R52) -/

/-- The counters of one kind of event. -/
structure GuardCounts where
  sat : Nat := 0
  ufl : Nat := 0
  poison : Nat := 0
  nan : Nat := 0
  accOvf : Nat := 0
deriving DecidableEq, Repr

/-- Count into a guard word: each counter stops at its largest value and sets STICKY (R52). -/
def GuardWord.count (g : GuardWord) (k : GuardCounts) : GuardWord :=
  let w : GuardWord :=
    { g with
      sat := satAdd 12 g.sat k.sat, ufl := satAdd 12 g.ufl k.ufl, poison := satAdd 12 g.poison k.poison
      nan := satAdd 8 g.nan k.nan, accOvf := satAdd 8 g.accOvf k.accOvf }
  { w with sticky := g.sticky || w.sat == 4095 || w.ufl == 4095 || w.poison == 4095 || w.nan == 255 || w.accOvf == 255 }

/-- The guard word as its 64 bits (R52). -/
def GuardWord.encode (g : GuardWord) : W64 :=
  BitVec.ofNat 64 (g.sat * 2 ^ 52 + g.ufl * 2 ^ 40 + g.poison * 2 ^ 28 + g.nan * 2 ^ 20 + g.accOvf * 2 ^ 12 +
    (if g.sticky then 8 else 0) + (if g.sampled then 4 else 0) + (if g.breach then 2 else 0))

/-! ### Guard slots (R96) -/

def GuardSlot.hasKey (x : GuardSlot) (layer tile : Nat) : Bool := x.layer == layer && x.tile == tile

/-- Whether the key has an open slot. -/
def CourseState.hasOpen (c : CourseState) (layer tile : Nat) : Bool := c.slots.any fun x => x.hasKey layer tile && x.isOpen

/-- Open slots. -/
def CourseState.openSlots (c : CourseState) : Nat := countIf (·.isOpen) c.slots

/-- Open a slot with a key unless one is open; none when 16 are open already (R96, GUARD_SLOTS).  The newest slot
stands first. -/
def CourseState.openSlot (c : CourseState) (layer tile : Nat) : Option CourseState :=
  if c.hasOpen layer tile then some c
  else if 16 ≤ c.openSlots then none
  else some { c with slots := { layer, tile } :: c.slots }

/-- Count into the open slot of a key. -/
def CourseState.countSlot (c : CourseState) (layer tile : Nat) (k : GuardCounts) : CourseState :=
  { c with slots := modifyFirst (fun x => x.hasKey layer tile && x.isOpen) (fun x => { x with word := x.word.count k }) c.slots }

/-- Count poison elements into the open slot of a key: each element, named by a number, once per tile (R53). -/
def CourseState.countPoison (c : CourseState) (layer tile : Nat) (elems : List Nat) : CourseState :=
  { c with
    slots := modifyFirst (fun x => x.hasKey layer tile && x.isOpen)
      (fun x =>
        let fresh := elems.foldl (fun acc e => if acc.contains e || x.seen.contains e then acc else e :: acc) []
        { x with word := x.word.count { poison := fresh.length }, seen := fresh ++ x.seen })
      c.slots }

/-- Bytes [a, a + n) of the memory `tag` are written: an element that stands there afterwards is another element, and is counted
when it is consumed (R53). -/
def CourseState.overwritten (c : CourseState) (tag a n : Nat) : CourseState :=
  let lo := tag * 2 ^ 64 + 8 * a
  let fresh (x : GuardSlot) : GuardSlot :=
    if x.seen.isEmpty then x else { x with seen := x.seen.filter fun e => !(decide (lo ≤ e) && decide (e < lo + 8 * n)) }
  { c with slots := c.slots.map fresh }

/-- Close the open slot of a key (R96). -/
def CourseState.closeSlot (c : CourseState) (layer tile : Nat) : CourseState :=
  { c with slots := modifyFirst (fun x => x.hasKey layer tile && x.isOpen) ({ · with isOpen := false, seen := [] }) c.slots }

/-- The number of the first slot that satisfies p, counted from the first that the Course opened. -/
def CourseState.numberOf (c : CourseState) (p : GuardSlot → Bool) : Nat := c.slots.length - 1 - c.slots.findIdx p
/-- Count into the slot with a number. -/
def CourseState.countAt (c : CourseState) (number : Nat) (k : GuardCounts) : CourseState :=
  match c.slots[c.slots.length - 1 - number]? with
  | some x => { c with slots := listSet c.slots (c.slots.length - 1 - number) { x with word := x.word.count k } }
  | none => c

/-- The most recently opened slot of a key (R96, item 5). -/
def CourseState.slot? (c : CourseState) (layer tile : Nat) : Option GuardSlot := c.slots.find? (·.hasKey layer tile)

/-- Set SAMPLED, and BREACH too when asked, in the most recently opened slot of a key (R105). -/
def CourseState.markSlot (c : CourseState) (layer tile : Nat) (breach : Bool) : CourseState :=
  { c with
    slots := modifyFirst (·.hasKey layer tile)
      (fun x => { x with word := { x.word with sampled := true, breach := x.word.breach || breach } }) c.slots }

/-- Fold a closed guard word into a layer's totals (R55, R96, item 7). -/
def LayerTotals.addWord (t : LayerTotals) (g : GuardWord) : LayerTotals :=
  { t with
    tiles := satAdd 32 t.tiles 1, sat := satAdd 32 t.sat g.sat, ufl := satAdd 32 t.ufl g.ufl
    poison := satAdd 32 t.poison g.poison, nan := satAdd 32 t.nan g.nan, accOvf := satAdd 32 t.accOvf g.accOvf
    samples := if g.sampled then satAdd 16 t.samples 1 else t.samples
    breaches := if g.breach then satAdd 16 t.breaches 1 else t.breaches
    sticky := t.sticky || g.sticky }

/-- The larger of two relative errors, FP32 patterns of non-negative numbers (R59). -/
def maxErr (a b : W32) : W32 := if a.toNat ≤ b.toNat then b else a

/-- The totals of one layer over two Rooms (R55). -/
def LayerTotals.merge (a b : LayerTotals) : LayerTotals :=
  { tiles := satAdd 32 a.tiles b.tiles, sat := satAdd 32 a.sat b.sat, ufl := satAdd 32 a.ufl b.ufl
    poison := satAdd 32 a.poison b.poison, nan := satAdd 32 a.nan b.nan, accOvf := satAdd 32 a.accOvf b.accOvf
    samples := satAdd 16 a.samples b.samples, breaches := satAdd 16 a.breaches b.breaches
    relErr := maxErr a.relErr b.relErr, sticky := a.sticky || b.sticky }

/-! ### Predicates (R76, R79, R81) -/

/-- A predicate register; p0 reads as 1 (R76). -/
def Foreman.pred (f : Foreman) (k : Nat) : Bool := if k = 0 then true else Store.get false f.p k
/-- Write a predicate register; a write to p0 is discarded (R76). -/
def Foreman.setPred (f : Foreman) (k : Nat) (v : Bool) : Foreman :=
  if k = 0 then f else { f with p := Store.set false f.p k v }

/-- Whether an instruction's guard lets it execute: p[PG] XOR PN (R79). -/
def Foreman.guarded (f : Foreman) (g : Guard) : Bool := f.pred g.pg.toNat != g.pn

/-- The comparison that CMP selects; none for a reserved code (R81). -/
def compare6 (code : Nat) (a b : W64) : Option Bool :=
  match code with
  | 0 => some (a == b)
  | 1 => some (a != b)
  | 2 => some (a.ult b)
  | 3 => some (!a.ult b)
  | 4 => some (a.slt b)
  | 5 => some (!a.slt b)
  | _ => none

/-- The comparison that CMPI selects (R81). -/
def compare4 (code : Nat) (a b : W64) : Bool :=
  match code with
  | 0 => a == b
  | 1 => a != b
  | 2 => a.slt b
  | _ => !a.slt b

/-- The operation that PLOG selects (R81). -/
def logic4 (code : Nat) (a b : Bool) : Bool :=
  match code with
  | 0 => a && b
  | 1 => a || b
  | 2 => a != b
  | _ => a && !b

end Sys2Proof.Machine
end

