-- ==== Sys2Proof/Machine/Corridor.lean ====
section
/-! DEFINITION. The Corridor, the Stairwells and the Lintel: routes (R118 to R123), buffers (R122), virtual channels (R125, R126),
share classes (R127) and lost packets (R124).

The packets follow what the commands have done, as requests follow at the Port Regulators: they decide counts, buffers, service and
what a lost router loses, and no value (log entry 78). -/

namespace Sys2Proof.Machine

/-! ### Routes on a Floor (R118 to R124) -/

/-- Whether the path from a to b, first along x and then along y, avoids the dead routers; places are y × 16 + x. -/
def xyOk (dead : Nat → Bool) (a b : Nat) : Bool :=
  let between (lo hi k : Nat) : Bool := decide (min lo hi ≤ k) && decide (k ≤ max lo hi)
  ((List.range 16).all fun x => !between (a % 16) (b % 16) x || !dead (a / 16 * 16 + x)) &&
    (List.range 20).all fun y => !between (a / 16) (b / 16) y || !dead (y * 16 + b % 16)

/-- Whether one of the three kinds of route of R123 exists. -/
def routeOk (dead : Nat → Bool) (a b : Nat) : Bool :=
  xyOk dead a b || xyOk dead b a || (List.range 320).any fun w => xyOk dead a w && xyOk dead b w

/-- The working place nearest to a coordinate, the lower number when two are equally near (R121). -/
def nearest (dead : Nat → Bool) (want : Nat) (l : List (Nat × Nat)) : Option Nat :=
  let dist (k : Nat) : Nat := if k < want then want - k else k - want
  let live := l.filter fun e => !dead e.2
  (live.find? fun e => live.all fun f => decide (dist e.1 < dist f.1) || (dist e.1 == dist f.1 && decide (e.1 ≤ f.1))).map (·.2)

/-- The endpoints of R119 that R121 selects for a place: the Hall Stairwell's, the Floor Stairwell's and the memory block's. -/
def southEdge (dead : Nat → Bool) (p : Nat) : Option Nat := nearest dead (p % 16) ((List.range 16).map fun x => (x, x))
def northEdge (dead : Nat → Bool) (p : Nat) : Option Nat := nearest dead (p % 16) ((List.range 16).map fun x => (x, 304 + x))
def westEdge (dead : Nat → Bool) (p : Nat) : Option Nat := nearest dead (p / 16) ((List.range 20).map fun y => (y, y * 16))

/-- The edge endpoints that R121 selects for a place. -/
def edgesOf (dead : Nat → Bool) (p : Nat) : List Nat := [southEdge dead p, northEdge dead p, westEdge dead p].filterMap id

/-! ### Links (R118, R119, R129)

The links out of router g (a Room index) are 6 g + d: 0 east, 1 west, 2 north, 3 south, 4 to its Room, 5 from its Room.  Then come the
links into a Floor from its edge endpoints, the Hall Stairwells in both directions, the Floor Stairwells by the Floor that sends,
the Lintel by the Hall that sends, and the memory blocks' spines out of and into the memory block. -/

def linkOut (g d : Nat) : Nat := 6 * g + d
def linkFromHall (f x : Nat) : Nat := 7680 + 16 * f + x
def linkFromStair (f x : Nat) : Nat := 7744 + 16 * f + x
def linkFromMemory (f y : Nat) : Nat := 7808 + 20 * f + y
def linkToHall (f : Nat) : Nat := 7900 + f
def linkHallDown (f : Nat) : Nat := 7904 + f
def linkStair (f : Nat) : Nat := 7908 + f
def linkLintel (h : Nat) : Nat := 7912 + h
def linkSpineOut (f : Nat) : Nat := 7914 + f
def linkSpineIn (f : Nat) : Nat := 7918 + f

/-- Flits that a link carries in `n` eighths of a nanosecond: 80 GB/s on the Corridor, 1 TB/s on Stairwells and spines, 512 GB/s on
the Lintel (R118, R129). -/
def linkSlots (l n : Nat) : Nat :=
  if l < 7900 then n * 10 / 64 else if 7912 ≤ l && l < 7914 then n else n * 125 / 64

/-- The Floor on which a link injects an endpoint's packets (R126, R128). -/
def linkInjects (l : Nat) : Option Nat :=
  if l < 7680 then (if l % 6 = 5 then some (l / 6 / 320) else none)
  else if l < 7744 then some ((l - 7680) / 16)
  else if l < 7808 then some ((l - 7744) / 16)
  else if l < 7900 then some ((l - 7808) / 20)
  else none

/-- The router that a link leaves, and the one that it enters. -/
def linkSource (l : Nat) : Option Nat := if l < 7680 && l % 6 != 5 then some (l / 6) else none
def linkTarget (l : Nat) : Option Nat :=
  if l < 7680 then
    let g := l / 6
    let p := g % 320
    if l % 6 = 0 && p % 16 < 15 then some (g + 1)
    else if l % 6 = 1 && 0 < p % 16 then some (g - 1)
    else if l % 6 = 2 && p < 304 then some (g + 16)
    else if l % 6 = 3 && 16 ≤ p then some (g - 16)
    else if l % 6 = 5 then some g
    else none
  else if l < 7744 then some (320 * ((l - 7680) / 16) + (l - 7680) % 16)
  else if l < 7808 then some (320 * ((l - 7744) / 16) + 304 + (l - 7744) % 16)
  else if l < 7900 then some (320 * ((l - 7808) / 20) + 16 * ((l - 7808) % 20))
  else none

/-- Whether a link between dies carries traffic: link indices are those of R356. -/
def State.linkOpen (s : State) (l : Nat) : Bool :=
  let up (k : Nat) : Bool := !s.linksLost.contains k
  if l < 7900 then true
  else if l < 7904 then up (32 + (l - 7900))
  else if l < 7908 then up (32 + (l - 7904))
  else if l < 7912 then up (36 + (l - 7908) / 2)
  else if l < 7914 then !s.lintelDown && up 40
  else true

/-! ### Dies and the paths between them (R120) -/

/-- The die of a master port: 0 to 3 the Floors, 4 and 5 the Halls (R159). -/
def dieOfPort (port : Nat) : Nat := if port < 2560 then floorOf (port % 1280) else 4 + hallOfMaster port

/-- The links between two dies on the fixed route of R120; nothing within a die. -/
def dieLinks (a b : Nat) : List Nat :=
  if a = b then []
  else if a < 4 then
    if b < 4 then
      (if a / 2 = b / 2 then [linkStair a] else [linkToHall a, linkLintel (a / 2), linkHallDown b])
    else linkToHall a :: (if a / 2 = b - 4 then [] else [linkLintel (a / 2)])
  else if b < 4 then (if b / 2 = a - 4 then [] else [linkLintel (a - 4)]) ++ [linkHallDown b]
  else [linkLintel (a - 4)]

/-- Whether every link on the fixed route between two dies is up. -/
def State.pathUp (s : State) (a b : Nat) : Bool := (dieLinks a b).all s.linkOpen

/-! ### The way of a packet (R120 to R123, R131) -/

/-- Where a packet comes from or goes to. -/
inductive Site where
  | room (r : Nat)
  | stack (f : Nat)
  | hall (h : Nat)
deriving DecidableEq, Repr

def Site.die : Site → Nat
  | .room r => floorOf r
  | .stack f => f
  | .hall h => 4 + h

/-- The dead routers of a Floor, by place. -/
def State.deadPlaces (s : State) (f : Nat) : List Nat :=
  s.rooms.filterMap fun e => if e.2.deadRouter && floorOf e.1 == f then some (e.1 % 320) else none

/-- The links along a row and along a column of Floor f. -/
def rowLinks (f y a b : Nat) : List Nat :=
  if a ≤ b then (List.range (b - a)).map fun k => linkOut (320 * f + 16 * y + a + k) 0
  else (List.range (a - b)).map fun k => linkOut (320 * f + 16 * y + a - k) 1
def columnLinks (f x a b : Nat) : List Nat :=
  if a ≤ b then (List.range (b - a)).map fun k => linkOut (320 * f + 16 * (a + k) + x) 2
  else (List.range (a - b)).map fun k => linkOut (320 * f + 16 * (a - k) + x) 3

/-- The links of a path that goes first along x, or first along y. -/
def xyLinks (f a b : Nat) : List Nat := rowLinks f (a / 16) (a % 16) (b % 16) ++ columnLinks f (b % 16) (a / 16) (b / 16)
def yxLinks (f a b : Nat) : List Nat := columnLinks f (a % 16) (a / 16) (b / 16) ++ rowLinks f (b / 16) (a % 16) (b % 16)

def hopsOf (later classB : Bool) (l : List Nat) : List Hop := l.map fun k => { link := k, later, classB }

/-- One leg on a Floor: the first route of R123 that avoids every dead router. -/
def floorLeg (dead : Nat → Bool) (f a b : Nat) (later : Bool) : Option (List Hop) :=
  if xyOk dead a b then some (hopsOf later false (xyLinks f a b))
  else if xyOk dead b a then some (hopsOf later true (yxLinks f a b))
  else ((List.range 320).find? fun w => xyOk dead a w && xyOk dead b w).map fun w =>
    hopsOf later false (xyLinks f a w) ++ hopsOf later true (yxLinks f w b)

/-- A leg from a Room to an edge endpoint, and from an edge endpoint to a Room. -/
def State.legOut (s : State) (r : Nat) (edge : (Nat → Bool) → Nat → Option Nat) (d : Nat) : Option (List Hop) :=
  let f := floorOf r
  let dead (p : Nat) : Bool := (s.deadPlaces f).contains p
  match edge dead (r % 320) with
  | none => none
  | some e => (floorLeg dead f (r % 320) e false).map fun l =>
      hopsOf false false [linkOut r 5] ++ l ++ hopsOf false false [linkOut (320 * f + e) d]
def State.legIn (s : State) (r : Nat) (edge : (Nat → Bool) → Nat → Option Nat) (link : Nat → Nat → Nat) (later : Bool) :
    Option (List Hop) :=
  let f := floorOf r
  let dead (p : Nat) : Bool := (s.deadPlaces f).contains p
  match edge dead (r % 320) with
  | none => none
  | some e => (floorLeg dead f e (r % 320) later).map fun l =>
      hopsOf later false [link f e] ++ l ++ hopsOf later false [linkOut r 4]

/-- The links between dies lie on later legs when a Floor leg comes before them. -/
def join2 (a : Option (List Hop)) (b : List Hop) (c : Option (List Hop)) : Option (List Hop) :=
  match a, c with
  | some x, some z => some (x ++ b ++ z)
  | _, _ => none

/-- The whole route of a packet (R119 to R123); none when its destination is unreachable. -/
def State.wayOf (s : State) (a b : Site) : Option (List Hop) :=
  let mid := hopsOf true false (dieLinks a.die b.die)
  let south (r : Nat) (later : Bool) := s.legIn r southEdge (fun f e => linkFromHall f (e % 16)) later
  match a, b with
  | .room r, .room q =>
    let f := floorOf r
    let dead (p : Nat) : Bool := (s.deadPlaces f).contains p
    if f = floorOf q then
      (floorLeg dead f (r % 320) (q % 320) false).map fun l => hopsOf false false [linkOut r 5] ++ l ++ hopsOf false false [linkOut q 4]
    else if hallOfRoom r = hallOfRoom q then
      join2 (s.legOut r northEdge 2) mid (s.legIn q northEdge (fun f e => linkFromStair f (e % 16)) true)
    else join2 (s.legOut r southEdge 3) mid (south q true)
  | .room r, .stack g =>
    let spine := if floorOf r = g then [] else hopsOf true false [linkSpineOut (floorOf r)] ++ mid ++ hopsOf true false [linkSpineIn g]
    (s.legOut r westEdge 1).map (· ++ spine)
  | .stack f, .room q =>
    let spine := if floorOf q = f then [] else
      hopsOf false false [linkSpineOut f] ++ mid ++ hopsOf true false [linkSpineIn (floorOf q)]
    (s.legIn q westEdge (fun f e => linkFromMemory f (e / 16)) (floorOf q != f)).map (spine ++ ·)
  | .room r, .hall _ => (s.legOut r southEdge 3).map (· ++ mid)
  | .hall _, .room q => (south q true).map (hopsOf false false (dieLinks a.die b.die) ++ ·)
  | .hall _, .stack g => some (hopsOf false false (dieLinks a.die b.die) ++ hopsOf true false [linkSpineIn g])
  | .stack f, .hall _ => some (hopsOf false false [linkSpineOut f] ++ mid)
  | .hall _, .hall _ => some (hopsOf false false (dieLinks a.die b.die))
  | .stack f, .stack g =>
    some (if f = g then [] else hopsOf false false [linkSpineOut f] ++ mid ++ hopsOf true false [linkSpineIn g])

/-! ### Injection (R125, R127) -/

/-- Flits of so many bytes (R118). -/
def flitsOf (bytes : Nat) : Nat := max 1 ((bytes + 63) / 64)

/-- The share class of traffic that the module originates for itself, and that of a Room's Suite (R127, R128). -/
def State.moduleClass (s : State) : Nat := s.dictGet 0x2813 1
def State.shareOf (s : State) (r : Nat) : Nat :=
  match (s.room r).member with
  | some m => (s.suite m.suite).share
  | none => s.moduleClass

/-- A packet enters the network at its source; one whose destination is unreachable, or that stays in place, enters none. -/
def State.inject (s : State) (vc cls flits : Nat) (a b : Site) (cargo : Cargo := .none) : State :=
  match s.wayOf a b with
  | some (h :: hops) => { s with packets := s.packets ++ [{ vc, cls, flits, hops := h :: hops, cargo }] }
  | _ => s

/-- A VC0 packet, always one flit long (R125). -/
def State.control (s : State) (cls : Nat) (a b : Site) : State := s.inject 0 cls 1 a b
def State.controlAll (s : State) (cls : Nat) (a : Site) (rooms : List Nat) : State :=
  rooms.foldl (fun s r => s.control cls a (.room r)) s

/-- A copy of a program image travels up a column of a Floor from the Hall Stairwell to the farthest member there (R131). -/
def State.imageColumn (s : State) (cls flits f x far : Nat) : State :=
  let hops := hopsOf false false [linkHallDown f] ++ hopsOf true false ([linkFromHall f x] ++ columnLinks f x 0 far ++ [linkOut (320 * f + 16 * far + x) 4])
  { s with packets := s.packets ++ [{ vc := 1, cls, flits, hops }] }

/-- The program image of a step goes to Rooms: once across the Lintel when they span both Wings, and one copy for each column of a
Floor that holds one (R131).  Rooms of a column with a dead router on the way each get it by their own route (R123). -/
def State.broadcast (s : State) (h cls bytes : Nat) (rooms : List Nat) : State :=
  let n := flitsOf bytes
  let s := if rooms.any fun r => hallOfRoom r != h then s.inject 1 cls n (.hall h) (.hall (1 - h)) else s
  (((rooms.map fun r => (floorOf r, columnOf r)).dedup).foldl (fun s e =>
    let here := rooms.filter fun r => floorOf r == e.1 && columnOf r == e.2
    let far := (here.map rowOf).foldl max 0
    if (span 0 (far + 1)).any fun y => (s.room (320 * e.1 + 16 * y + e.2)).deadRouter then
      here.foldl (fun s r => s.inject 1 cls n (.hall (e.1 / 2)) (.room r)) s
    else s.imageColumn cls n e.1 e.2 far) s)

/-! ### Buffers and service (R122, R126, R127) -/

/-- A flit that waits before a link: the packet and hop by number, its channel, class and input port. -/
structure Waiting where
  packet : Nat
  hop : Nat
  vc : Nat
  cls : Nat
  input : Nat
deriving DecidableEq, Repr

/-- The hops at which a packet has a flit waiting: flits that have passed the link before, and this one not yet. -/
def waitingHops (prev input : Nat) : Nat → List Hop → List (Nat × Nat × Nat)
  | _, [] => []
  | i, h :: hs => (if h.passed < prev then [(i, h.link, input)] else []) ++ waitingHops h.passed (h.link + 1) (i + 1) hs

/-- Every flit that waits, with the link before which it waits, oldest packet first. -/
def waitingFlits (ps : List Packet) : List (Nat × Waiting) :=
  (List.zip (List.range ps.length) ps).flatMap fun e =>
    (waitingHops e.2.flits 0 0 e.2.hops).map fun w => (w.2.1, { packet := e.1, hop := w.1, vc := e.2.vc, cls := e.2.cls % 8, input := w.2.2 })

/-- The flits that wait in one of a router's buffers: separate ones for each virtual channel, for first and later legs, and for
route classes A and B (R122). -/
def State.buffer (s : State) (g vc : Nat) (later classB : Bool) : Nat :=
  (s.packets.map fun p =>
    if p.vc != vc then 0
    else
      let ins := p.flits :: p.hops.map (·.passed)
      ((List.zip ins p.hops).map fun e =>
        if linkSource e.2.link == some g && e.2.later == later && e.2.classB == classB then e.1 - e.2.passed else 0).sum).sum

/-- The weight of a share class on a link (R127, R128). -/
def State.weight (s : State) (l c : Nat) : Nat :=
  s.dictGet (if l < 7900 then 0x2810 else if 7912 ≤ l && l < 7914 then 0x2812 else 0x2811) (c + 1)

/-- Deficit round robin from class `turn` on: a visited class gains its weight, and the first whose deficit reaches the largest
weight that waits is served for one flit (R127).  `fuel` is the number of classes left to visit. -/
def deficitPick (w : Nat → Nat) (cost : Nat) : Nat → Nat → Store Nat → Option (Nat × Store Nat)
  | 0, _, _ => none
  | fuel + 1, c, d =>
    let x := Store.get 0 d c + w c
    if 0 < w c && decide (cost ≤ x) then some (c, Store.set 0 d c (x - cost))
    else deficitPick w cost fuel ((c + 1) % 8) (if w c = 0 then Store.set 0 d c 0 else Store.set 0 d c x)

/-- The first member of `l` at or after `at'` in cyclic order. -/
def fromTurn (at' : Nat) (l : List Nat) : Option Nat :=
  match (l.filter (at' ≤ ·)).min? with
  | some k => some k
  | none => l.min?

/-- The order of channels within a class: VC2, VC1, VC3 (R127). -/
def channelRank (vc : Nat) : Nat := if vc = 2 then 0 else if vc = 1 then 1 else 2

/-- The flit that a link serves next, and its arbiter after it.  VC0 wins, but an endpoint injects one of its flits in 8 cycles
(R126); then the share classes, the channels and the input ports take turns.  A class of weight 0 is served only when no other
waits (R127). -/
def LinkState.pick (x : LinkState) (w : Nat → Nat) (injects : Bool) (now : Nat) (l : List Waiting) : Option (Waiting × LinkState) :=
  match if injects && decide (now < x.vc0At) then none else l.find? (·.vc == 0) with
  | some f => some (f, if injects then { x with vc0At := now + 32 } else x)
  | none =>
    let l := l.filter (·.vc != 0)
    let has (c : Nat) : Bool := l.any (·.cls == c)
    let heavy := (List.range 8).any fun c => has c && decide (0 < w c)
    let w' (c : Nat) : Nat := if !has c then 0 else if heavy then w c else 1
    let cost := ((List.range 8).map w').foldl max 0
    match deficitPick w' cost 8 x.turn x.deficits with
    | none => none
    | some (c, deficits) =>
      let inClass := l.filter (·.cls == c)
      match fromTurn (Store.get 0 x.channels c) (inClass.map fun f => channelRank f.vc) with
      | none => none
      | some k =>
        let inChannel := inClass.filter fun f => channelRank f.vc == k
        let key := 4 * c + k
        match fromTurn (Store.get 0 x.inputs key) (inChannel.map (·.input)) with
        | none => none
        | some port =>
          (inChannel.find? (·.input == port)).map fun f =>
            (f, { x with deficits, turn := (c + 1) % 8, channels := Store.set 0 x.channels c ((k + 1) % 3)
                         inputs := Store.set 0 x.inputs key (port + 1) })

/-- One more flit of a packet has passed one of its links. -/
def passHop (ps : List Packet) (w : Waiting) : List Packet :=
  match ps[w.packet]? with
  | none => ps
  | some p =>
    match p.hops[w.hop]? with
    | none => ps
    | some h => listSet ps w.packet { p with hops := listSet p.hops w.hop { h with passed := h.passed + 1 } }

/-- A link serves up to so many of the flits that wait before it. -/
def State.serveLink (k now : Nat) : Nat → List Waiting → State → State
  | 0, _, s => s
  | fuel + 1, l, s =>
    if !s.linkOpen k then s
    else match (Store.get {} s.links k).pick (s.weight k) (linkInjects k).isSome now l with
    | none => s
    | some (w, x) =>
      let s : State := { s with packets := passHop s.packets w, links := Store.set {} s.links k x }
      let s := match linkInjects k with
        | some f => if w.vc = 0 then s.bump (0x2820 + f) 1 64 else s
        | none => s
      let left (y : Waiting) : Bool :=
        y != w || ((s.packets[w.packet]?).map fun p =>
          let ins : List Nat := p.flits :: p.hops.map (·.passed)
          decide (((p.hops[w.hop]?).map (·.passed)).getD 0 < (ins[w.hop]?).getD 0)).getD false
      serveLink k now fuel (l.filter left) s

/-- Whether every flit of a packet has passed its last link. -/
def Packet.arrived (p : Packet) : Bool := ((p.hops.getLast?).map fun h => decide (p.flits ≤ h.passed)).getD true

/-- The network during `d` ns: every link serves flits that waited before it, and packets that have arrived leave. -/
def State.serveNetwork (s : State) (d : Nat) : State :=
  if s.packets.isEmpty then s
  else
    let t := s.clock.ticks
    let flits := waitingFlits s.packets
    let s := ((flits.map (·.1)).dedup).foldl (fun s k =>
      let mine := (flits.filter (·.1 == k)).map (·.2)
      State.serveLink k (5 * t) (linkSlots k (8 * t) - linkSlots k (8 * (t - d))) mine s) s
    { s with packets := s.packets.filter fun p => !p.arrived }

/-! ### A lost router (R124) -/

/-- The hops of a packet that its last flit has not passed. -/
def Packet.ahead (p : Packet) : List Hop := p.hops.filter fun h => decide (h.passed < p.flits)

/-- Whether a router holds flits of a packet, and whether the rest of its way leads through it. -/
def Packet.heldIn (p : Packet) (g : Nat) : Bool :=
  (List.zip (p.flits :: p.hops.map (·.passed)) p.hops).any fun e => linkSource e.2.link == some g && decide (e.2.passed < e.1)
def Packet.leadsThrough (p : Packet) (g : Nat) : Bool := p.ahead.any fun h => linkTarget h.link == some g || linkSource h.link == some g

/-- What a lost packet leaves unfinished. -/
def State.loseCargo (s : State) (c : Cargo) : State :=
  match c with
  | .none => s
  | .dma r tag => s.modRoom r fun x => { x with dma := x.dma.map fun t => if t.tag = tag then { t with lost := true } else t }
  | .coherence m => { s with net := removeFirst (· == m) s.net }
  | .piece n copy tree round node piece =>
    let this (y : GutterRound) : Bool := y.copy == copy && y.tree == tree && y.round == round
    let lose (y : GutterRound) : GutterRound := { y with lost := y.lost ++ [node * 65536 + piece] }
    s.modSuite n fun x => { x with rounds := modifyFirst this lose x.rounds }

/-- Packets held in a lost router are lost; those whose way leads through it are discarded and counted, with one ROUTE record. -/
def State.losePackets (s : State) (g : Nat) : State :=
  let held := s.packets.filter fun p => p.heldIn g
  let gone := s.packets.filter fun p => !p.heldIn g && p.leadsThrough g
  let s : State := { s with packets := s.packets.filter fun p => !p.heldIn g && !p.leadsThrough g }
  let s := (held ++ gone).foldl (fun s p => s.loseCargo p.cargo) s
  if gone.isEmpty then s
  else (s.bump (0x2820 + floorOf g) 3 32 gone.length).report 3 1 3 3 g 0 g

/-! ### Routes of class B and waypoints (R123, R128) -/

/-- Endpoints of a Floor that use a route of class B or through a waypoint to some other endpoint. -/
def detouring (dead : Nat → Bool) (sources : List Nat) : Nat := countIf (fun a => sources.any fun b => !xyOk dead a b) sources

end Sys2Proof.Machine
end

