-- ==== Sys2Proof/Machine/Hbm.lean ====
section
/-! DEFINITION. Device memory: what a local physical address selects (R145 to R148), poisoned and unusable units
(R148, R151), and reads and writes of HBM with and without the coherence directory (R172 to R180, R186). -/

namespace Sys2Proof.Machine

/-! ### Addresses (R145 to R147) -/

def stackBytes : Nat := 36 * 2 ^ 30
/-- A local physical address in populated HBM (R145). -/
def populated (a : Nat) : Bool := decide (a < 2 ^ 38) && decide (a % 2 ^ 36 < stackBytes)
/-- Whether [a, a + n) is populated HBM of one stack. -/
def populatedRange (a n : Nat) : Bool :=
  decide (a < 2 ^ 38) && decide (a % 2 ^ 36 + n ≤ stackBytes)

/-- Where an address lies in HBM (R147): stack, pseudo-channel, bank, row, column byte, byte in the block. -/
structure Place where
  stack : Nat
  pc : Nat
  bank : Nat
  row : Nat
  column : Nat
  byte : Nat
deriving DecidableEq, Repr

/-- R147, with p pseudo-channels per group. -/
def decodeLpa (a p : Nat) : Place :=
  let stack := a / 2 ^ 36
  let o := a % 2 ^ 36
  let gsize := stackBytes * p / 32
  let group := o / gsize
  let b := o % gsize / 256
  let h := (b ^^^ (b / 2 ^ 5) ^^^ (b / 2 ^ 10) ^^^ (b / 2 ^ 15)) % p
  let q := b / p
  let r := q / 4
  let row := r / 48
  { stack, pc := group * p + h, bank := (r + 7 * row) % 48, row, column := q % 4 * 256, byte := o % 256 }

/-- Where an address lies under the groups in force. -/
def State.place (s : State) (a : Nat) : Place := decodeLpa a (s.groupSize (a / 2 ^ 36))
/-- The global pseudo-channel of an address. -/
def State.pcOf (s : State) (a : Nat) : Nat := a / 2 ^ 36 * 32 + (s.place a).pc
/-- The name of the group of an address (R146). -/
def State.groupAt (s : State) (a : Nat) : Nat :=
  let stack := a / 2 ^ 36
  let p := s.groupSize stack
  stack * 32 + a % 2 ^ 36 / (stackBytes * p / 32) * p
/-- Whether the group of an address is usable (R148). -/
def State.usableAt (s : State) (a : Nat) : Bool := s.groupOk (s.groupAt a)

/-! ### Units and poison (R148, R151) -/

/-- The 64-byte units that [a, a + n) touches. -/
def unitsOf (a n : Nat) : List Nat := if n = 0 then [] else span (a / 64) ((a + n - 1) / 64 - a / 64 + 1)

/-- Whether HBM cannot supply a unit: it holds an uncorrectable error, or its group is unusable. -/
def State.unitBad (s : State) (u : Nat) : Bool := s.badUnits.contains u || !s.usableAt (u * 64)

/-- Whether a read of [a, a + n) returns a poisoned unit. -/
def State.poisonedAt (s : State) (a n : Nat) : Bool := (unitsOf a n).any s.unitBad

/-- Read HBM itself. -/
def State.hbmRead (s : State) (a n : Nat) : List Byte := Store.range 0 s.hbm a n

/-- Write the part of [a, a + bytes) that lies in one unit: nothing in an unusable group, nothing partial in a bad
unit; a full write makes the unit good (R148, R151).  The flag says whether the writer saw no error. -/
def State.hbmWriteUnit (a : Nat) (bytes : List Byte) (u : Nat) (acc : State × Bool) : State × Bool :=
  let (s, ok) := acc
  let lo := max a (u * 64)
  let hi := min (a + bytes.length) (u * 64 + 64)
  let piece := (bytes.drop (lo - a)).take (hi - lo)
  if !s.usableAt (u * 64) then (s, false)
  else if hi - lo = 64 then
    ({ s with hbm := Store.setRange 0 s.hbm lo piece, badUnits := s.badUnits.filter (· != u) }, ok)
  else if s.badUnits.contains u then (s, false)
  else ({ s with hbm := Store.setRange 0 s.hbm lo piece }, ok)

/-- Write HBM itself. -/
def State.hbmWrite (s : State) (a : Nat) (bytes : List Byte) : State × Bool :=
  (unitsOf a bytes.length).foldl (fun acc u => State.hbmWriteUnit a bytes u acc) (s, true)

/-! ### Caches and the directory (R176 to R180) -/

/-- The line address of a byte address. -/
def lineOf (a : Nat) : Nat := a / 128

/-- A Room's copy of a line, if its cache holds one. -/
def Cache.line? (c : Cache) (l : Nat) : Option CacheLine :=
  (c.lines.filterMap (·.2)).find? (·.addr == l)

/-- Change or drop a Room's copy of a line. -/
def Cache.mapLine (c : Cache) (l : Nat) (f : CacheLine → Option CacheLine) : Cache :=
  match c.lines.find? (fun e => (e.2.map (·.addr)).getD (l + 1) == l) with
  | some (k, some x) => { c with lines := Store.set none c.lines k (f x) }
  | _ => c

def State.modCache (s : State) (r : Nat) (f : Cache → Cache) : State := s.modRoom r fun x => { x with cache := f x.cache }

def isDirty (m : Moesi) : Bool := m == .m || m == .o

/-- Whether a Floor's directory works (0x2201.05, R193). -/
def Floor.directoryWorks (x : Floor) : Bool := !x.directoryDead && !x.directoryDown

/-- The home Floor of a line (06). -/
def homeOf (l : Nat) : Nat := l * 128 / 2 ^ 36
/-- The directory set of a line: the lowest bits of the line's place in its stack (log entry 15). -/
def dirSet (l : Nat) : Nat := l % 8192
/-- The keys of a line's 16 directory ways. -/
def dirKeys (l : Nat) : List Nat := span (homeOf l * 131072 + dirSet l * 16) 16

/-- The directory entry of a line, with its key. -/
def State.dirFind (s : State) (l : Nat) : Option (Nat × DirEntry) :=
  (dirKeys l).findSome? fun k =>
    match Store.get none s.directory k with
    | some e => if e.line = l then some (k, e) else none
    | none => none

def State.setDir (s : State) (k : Nat) (e : Option DirEntry) : State :=
  { s with directory := Store.set none s.directory k e }

def State.isBusy (s : State) (l : Nat) : Bool := ((s.dirFind l).map fun e => e.2.txn.isSome).getD false

/-- The Rooms that a sharer record names (R179). -/
def Sharers.rooms : Sharers → List Nat
  | .exact l => l
  | .coarse rows => rows.flatMap fun k => span (k / 20 * 320 + k % 20 * 16) 16

/-- Add a sharer: a fifth one switches the record to the coarse vector (R179). -/
def Sharers.add (x : Sharers) (r : Nat) : Sharers :=
  let row (r : Nat) := r / 320 * 20 + r % 320 / 16
  match x with
  | .exact l =>
    if l.contains r then .exact l
    else if l.length < 4 then .exact (l ++ [r])
    else .coarse ((r :: l).map row).dedup
  | .coarse rows => if rows.contains (row r) then .coarse rows else .coarse (rows ++ [row r])

/-- Remove a sharer; a coarse vector cannot lose one Room alone. -/
def Sharers.remove (x : Sharers) (r : Nat) : Sharers :=
  match x with
  | .exact l => .exact (l.filter (· != r))
  | .coarse rows => .coarse rows

def Sharers.isEmpty (x : Sharers) : Bool := x.rooms.isEmpty

/-- What an owner holds of a line: its cached copy, else its write-back buffer (R178). -/
def Cache.held (c : Cache) (l : Nat) : Option CacheLine :=
  (c.line? l).orElse fun _ => c.writeBack.find? fun x => x.addr == l && isDirty x.st

/-- Change what an owner holds of a line; a buffered line is kept until its PUT_ACK. -/
def Cache.served (c : Cache) (l : Nat) (inCache : CacheLine → Option CacheLine) (buffered : Moesi → Moesi) : Cache :=
  if (c.line? l).isSome then c.mapLine l inCache
  else
    let f (x : CacheLine) : CacheLine := if x.addr == l && isDirty x.st then { x with st := buffered x.st } else x
    { c with writeBack := c.writeBack.map f }

/-- The latest value of a line where HBM does not give it: a dirty copy, a write-back buffer, an eviction, a message or a fill
that carries it. -/
def State.lineElsewhere (s : State) (l : Nat) : Option (List Byte) :=
  let cached := s.rooms.findSome? fun e =>
    match e.2.cache.line? l with
    | some x => if isDirty x.st then some x.data else none
    | none => none
  let buffered := s.rooms.findSome? fun e =>
    (e.2.cache.writeBack.find? fun x => x.addr == l && isDirty x.st).map (·.data)
  let held := (s.dirFind l).bind fun e => e.2.txn.bind (·.data)
  let flying := s.net.findSome? fun m => if m.line == l && (m.kind == .data || m.kind == .fwdAck) then m.bytes else none
  let filling := s.rooms.findSome? fun e =>
    match e.2.cache.miss with
    | some m => if m.line == l then m.data else none
    | none => none
  cached.orElse fun _ => buffered.orElse fun _ => held.orElse fun _ => flying.orElse fun _ => filling

/-- The latest value of a line. -/
def State.lineValue (s : State) (l : Nat) : List Byte := (s.lineElsewhere l).getD (s.hbmRead (l * 128) 128)

/-- Whether a coherent read of [a, a + n) returns a poisoned unit: one that HBM cannot supply and no holder of its line does
(R151, R186). -/
def State.coherentPoison (s : State) (a n : Nat) : Bool :=
  (unitsOf a n).any fun u => s.unitBad u && (s.lineElsewhere (u / 2)).isNone

/-- Whether a message travels on VC1 (R181). -/
def CohMsg.onVc1 (m : CohMsg) : Bool :=
  match m.kind with
  | .gets => true
  | .getm => true
  | .putm => true
  | .pute => true
  | .puts => true
  | .done => true
  | _ => false

/-- The sender and the receiver of a message; none stands for the home (R181). -/
def CohMsg.ends (m : CohMsg) : Option Nat × Option Nat :=
  if m.onVc1 then (some m.room, none)
  else match m.kind with
    | .invAck => (some m.room, m.peer)
    | .fwdAck => (some m.room, none)
    | .data => (m.peer, some m.room)
    | _ => (none, some m.room)

/-- The lines that [a, a + n) touches. -/
def linesOf (a n : Nat) : List Nat := if n = 0 then [] else span (a / 128) ((a + n - 1) / 128 - a / 128 + 1)

/-- The latest value of [a, a + n). -/
def State.coherentBytes (s : State) (a n : Nat) : List Byte :=
  (((linesOf a n).flatMap s.lineValue).drop (a % 128)).take n

/-- An uncached read of one line (R186): an owner in M moves to O and one in E to S, in its cache or in its write-back buffer
(R178). -/
def State.readLine (s : State) (l : Nat) : State :=
  match s.dirFind l with
  | none => s
  | some (k, e) =>
    if e.txn.isSome then s
    else match e.st with
      | .excl =>
        let wasM := (((s.room e.owner).cache.held l).map (isDirty ·.st)).getD false
        let s := s.modCache e.owner (·.served l (fun x => some { x with st := if isDirty x.st then .o else .s }) fun _ => .o)
        s.setDir k (some { e with st := if wasM then .owned else .shared, sharers := if wasM then e.sharers else .exact [e.owner] })
      | _ => s

/-- An uncached coherent read (R174, R186). -/
def State.uncachedRead (s : State) (a n : Nat) : List Byte × State :=
  (s.coherentBytes a n, (linesOf a n).foldl State.readLine s)

/-- Wake every Room that waits on a word of the line, so that it reads again (R186, R189). -/
def wakeOn (l : Nat) (x : Room) : Room :=
  match x.foreman.run with
  | .waitSync k _ => if k = l then { x with foreman := { x.foreman with run := .running } } else x
  | _ => x

/-- A line was written: Rooms and remote waiters that wait on a word of it read again. -/
def State.wakeLine (s : State) (l : Nat) : State :=
  { s with rooms := Store.mapValues {} (wakeOn l) s.rooms
           waiters := s.waiters.map fun w => if (linesOf w.addr w.acc.len).contains l then { w with parked := false } else w }

/-- An owner gives a line up to the home: a dirty copy, buffered or not, is written to HBM, and an owner whose data cannot be
written takes a Room hardware fault (R148, R178, R186). -/
def State.takeBack (s : State) (l r : Nat) : State :=
  let s := match (s.room r).cache.held l with
    | some x =>
      if isDirty x.st then
        let (s, ok) := s.hbmWrite (l * 128) x.data
        if ok then s else { s with faultsDue := s.faultsDue ++ [r] }
      else s
    | none => s
  s.modCache r (·.served l (fun _ => none) fun _ => .s)

/-- Recall a line for an uncached write: its owner writes a dirty copy back, every copy is invalidated, and the line is
UNCACHED (R186). -/
def State.recallLine (s : State) (l : Nat) : State :=
  match s.dirFind l with
  | none => s
  | some (k, e) =>
    if e.txn.isSome then s
    else
      let s := if e.st == .shared then s else s.takeBack l e.owner
      let s := e.sharers.rooms.foldl (fun s r => s.modCache r (·.mapLine l fun _ => none)) s
      s.setDir k none

/-- An uncached coherent write (R174, R186): none while a transaction on a line of it is open; the flag says whether
the writer saw no error. -/
def State.uncachedWrite (s : State) (a : Nat) (bytes : List Byte) : Option (State × Bool) :=
  let ls := linesOf a bytes.length
  if ls.any s.isBusy then none
  else
    let s := ls.foldl State.recallLine s
    let (s, ok) := s.hbmWrite a bytes
    some (ls.foldl State.wakeLine s, ok)

/-- The bytes that an access moves: those of a write, a 64-bit word for atomics and WAIT, else the length asked for (R97, R98,
R246). -/
def AccKind.size (k : AccKind) (n : Nat) : Nat :=
  match k with
  | .read => n
  | .write b => b.length
  | _ => 8

/-- Count an uncached access at the home of an address (R194). -/
def State.countUncached (s : State) (a : Nat) : State := s.bump (0x2841 + a / 2 ^ 36) 6 64

/-- The atomic operations of R98 on a 64-bit word: the new value, from the old one, s[RB] and s[RD]. -/
def atomic (op : Nat) (old b d : W64) (fadd : BitVec 32 → BitVec 32 → BitVec 32) : W64 :=
  match op with
  | 0 => old + b
  | 1 => if old.ult b then b else old
  | 2 => if old.ult b then old else b
  | 3 => old ||| b
  | 4 => old &&& b
  | 5 => b
  | 6 => if old = d then b else old
  | _ => BitVec.ofNat 64 (old.toNat / 2 ^ 32 * 2 ^ 32 + (fadd (old.setWidth 32) (b.setWidth 32)).toNat)

/-! ### Port Regulators (R160 to R164) -/

/-- A regulator setting's fields (R161). -/
def regClass (w : Nat) : Nat := bitsOf w 55 54
def regRate (w : Nat) : Nat := bitsOf w 31 16
def regBurst (w : Nat) : Nat := bitsOf w 15 0
def regDeadline (w : Nat) : Nat := bitsOf w 51 32
def regDlSrc (w : Nat) : Bool := bitOf w 52
/-- The setting in force at a master port (R161, R162, R171). -/
def State.portSetting (s : State) (p : Nat) : Nat :=
  if p < 2560 then
    match (s.room (p % 1280)).member with
    | some m => if p < 1280 then (s.suite m.suite).dmaReg.toNat else (s.suite m.suite).cacheReg.toNat
    | none => 0x0180000000010040
  else s.dictGet (0x27C0 + (p - 2560) / 16) (1 + p % 16)

/-- The level of the group that the oldest waiting request targets, as last published; 0 while none waits (R163). -/
def State.portLevel (s : State) (p : Nat) : Nat :=
  match (s.reg p).waiting with
  | r :: _ => Store.get 0 s.levels (s.groupAt r.lpa)
  | [] => 0

/-- One token, in the units of a bucket. -/
def tokenUnit : Nat := 256000

/-- The congestion factor of a class at a level, in sixteenths (R164). -/
def congestion (cls level : Nat) : Nat :=
  match cls, level with
  | 2, 1 => 8
  | 2, 2 => 4
  | 2, 3 => 1
  | 3, 1 => 4
  | 3, 2 => 1
  | 3, 3 => 0
  | _, _ => 16

/-- Bring a port's bucket up to date: RATE × the congestion factor since it was last brought up to date, up to BURST; RATE
counts 100 MB/s, which is 400 units a ns (R160, R161, R164). -/
def State.refill (s : State) (p : Nat) : State :=
  let w := s.portSetting p
  let f := congestion (regClass w) (s.portLevel p)
  s.modReg p fun g =>
    { g with tokens := min (regBurst w * tokenUnit) (g.tokens + regRate w * 25 * f * (s.time - g.upto)), upto := s.time }

end Sys2Proof.Machine
end

