-- ==== Sys2Proof/Machine/Access.lean ====
section
/-! DEFINITION. Address translation (R224 to R235), page faults (R236 to R238), Windows (R244 to R246), routes to
other modules (R432), and accesses by virtual address to HBM, host memory and other modules (R242, R243). -/

namespace Sys2Proof.Machine

/-! ### The page walk (R226 to R233) -/

/-- How a walk ends (R233). -/
inductive Walk where
  | leaf (fabric : Nat) (writable event : Bool) (base size level : Nat)
  | fault (notPresent : Bool) (level : Nat)
  | access
  | poisoned
  | washing (page : Nat)
deriving DecidableEq, Repr

def mirror : Nat := 2 * 2 ^ 36

/-- Pages of a stack. -/
def stackPages : Nat := stackBytes / 4096

/-- Whether a page waits for its Whitewash: since its withdrawal, or in the sweep of a bring-up, in which the last
`washFrom` pages of the stack are still to come (R253, R394). -/
def State.isWashing (s : State) (p : Nat) : Bool :=
  let x := s.page p
  x.washing || (!x.ahead && decide (stackPages ≤ p % 2 ^ 24 + Store.get 0 s.washFrom (p / 2 ^ 24)))

/-- Whether a household holds every page of [a, a + n) in populated HBM (R227, R232). -/
def State.holds (s : State) (hh a n : Nat) : Bool :=
  populatedRange a n && decide (0 < n) &&
    (span (a / 4096) ((a + n - 1) / 4096 - a / 4096 + 1)).all fun f => (s.page f).holder == hh

/-- The same, mirror included, for a DUPLEX context (R231). -/
def State.holdsBoth (s : State) (hh : Nat) (duplex : Bool) (a n : Nat) : Bool :=
  let west := if mirror ≤ a then a - mirror else a
  if duplex then s.holds hh west n && s.holds hh (west + mirror) n else s.holds hh a n

/-- The address at which a Porter reads a table or leaf that an entry names: Wing E walks the mirror image (R231). -/
def imaged (duplex east : Bool) (a : Nat) : Nat := if duplex && east && decide (a < mirror) then a + mirror else a

/-- A page-table entry (R228). -/
def pteFrame (e : Nat) : Nat := e / 4096 * 4096
def pteV (e : Nat) : Bool := bitOf e 0
def pteW (e : Nat) : Bool := bitOf e 1
def pteL (e : Nat) : Bool := bitOf e 2
def pteC (e : Nat) : Bool := bitOf e 3
def pteEv (e : Nat) : Bool := bitOf e 4

def fabricRemote (f : Nat) : Bool := bitOf f 63
def fabricLocal (f : Nat) : Nat := f % 2 ^ 47
def fabricNode (f : Nat) : Nat := bitsOf f 61 47
def fabricPlane (f : Nat) : Nat := bitsOf f 62 62

/-- The ACCESS conditions of a leaf of `size` bytes at Fabric Address f (R229 to R233). -/
def State.leafAccess (s : State) (hh : Nat) (duplex : Bool) (f size : Nat) : Bool :=
  if fabricRemote f then false
  else
    let l := fabricLocal f
    if 2 ^ 44 ≤ l then true
    else if l < 2 ^ 38 then !s.holdsBoth hh duplex l size || (duplex && decide (mirror ≤ l))
    else decide (l < 0x080000000000)

/-- The end of a walk at a leaf entry e of a level, for the address va; `f` is the Fabric Address of the leaf. -/
def State.atLeaf (s : State) (hh : Nat) (duplex east write : Bool) (f size va level : Nat) (w ev : Bool) : Walk :=
  if f % size != 0 then .access
  else if s.leafAccess hh duplex f size then .access
  else if write && !w then .fault false level
  else
    let f' := if fabricRemote f then f else imaged duplex east (fabricLocal f)
    .leaf f' w ev (va / size * size) size level

/-- The address bits above the region of an entry of a level. -/
def walkTag (level va : Nat) : Nat := va / 2 ^ (12 + 9 * (level - 1))

/-- The table that a Porter's walk cache gives for an entry of a level (R234). -/
def State.walkHit (s : State) (porter ctx level va : Nat) : Option Nat :=
  (s.walks.find? fun w => w.porter == porter && w.ctx == ctx && w.level == level && w.tag == walkTag level va).map (·.next)

/-- One level of the walk, from level l down; the second part lists the lines that the walker read, and the third the table
entries that it followed, with their levels.  An entry in the walk cache is not read again (R234). -/
def State.walkFrom (s : State) (porter ctx hh : Nat) (duplex east write : Bool) (va : Nat) :
    Nat → Nat → Walk × List Nat × List (Nat × Nat)
  | 0, _ => (.access, [], [])
  | l + 1, table =>
    match if l = 0 then none else s.walkHit porter ctx (l + 1) va with
    | some next => s.walkFrom porter ctx hh duplex east write va l next
    | none =>
    let t := imaged duplex east table
    if !s.holdsBoth hh duplex t 4096 then (.access, [], [])
    else if s.isWashing (t / 4096) then (.washing (t / 4096), [], [])
    else
      let idx := va / 2 ^ (12 + 9 * l) % 512
      let rd (i : Nat) := leNat (s.coherentBytes (t + 8 * i) 8)
      let bad (i : Nat) := s.coherentPoison (t + 8 * i) 8
      let seen := [lineOf (t + 8 * idx)]
      if bad idx then (.poisoned, seen, [])
      else
        let e := rd idx
        if l = 0 then
          if pteC e then
            let i0 := idx / 16 * 16
            if bad i0 then (.poisoned, seen, [])
            else
              let g := rd i0
              if !pteV g then (.fault true 1, seen, [])
              else if !pteC g || pteFrame g % 0x10000 != 0 then (.access, seen, [])
              else (s.atLeaf hh duplex east write (pteFrame g + 4096 * (idx % 16)) 4096 va 1 (pteW g) (pteEv g), seen, [])
          else if !pteV e then (.fault true 1, seen, [])
          else (s.atLeaf hh duplex east write (pteFrame e) 4096 va 1 (pteW e) (pteEv e), seen, [])
        else if !pteV e then (.fault true (l + 1), seen, [])
        else if pteL e then
          if l = 3 then (.access, seen, [])
          else (s.atLeaf hh duplex east write (pteFrame e) (2 ^ (12 + 9 * l)) va (l + 1) (pteW e) (pteEv e), seen, [])
        else
          let r := s.walkFrom porter ctx hh duplex east write va l (pteFrame e)
          (r.1, seen ++ r.2.1, (l + 1, pteFrame e) :: r.2.2)

/-- The Porter of a master port: 0 to 3 for the Floors, 4 and 5 for the Halls (R224). -/
def porterOf (port : Nat) : Nat := if port < 2560 then floorOf (port % 1280) else 4 + hallOfMaster port
def porterEast (k : Nat) : Bool := k = 2 || k = 3 || k = 5

def State.isDuplex (s : State) (c : Context) : Bool := (s.suite c.suite).mode == .duplex

/-- A whole walk for a context at a Porter (R233). -/
def State.walk (s : State) (n : Nat) (c : Context) (porter va : Nat) (write : Bool) : Walk × List Nat × List (Nat × Nat) :=
  let duplex := s.isDuplex c
  if c.root = 0 || (duplex && decide (mirror ≤ c.root)) then (.access, [], [])
  else s.walkFrom porter n c.household duplex (porterEast porter) write va 4 c.root

/-- The TLB entry of a Porter that covers an address of a context (R234). -/
def State.tlbHit (s : State) (porter ctx va : Nat) : Option TlbEntry :=
  s.tlb.find? fun e => e.porter == porter && e.ctx == ctx && decide (e.base ≤ va) && decide (va < e.base + e.size)

/-- Entries of a Porter's TLB (R234). -/
def tlbSize (porter : Nat) : Nat := if porter < 4 then 8192 else 2048

/-- The set of a TLB entry in its Porter's 8-way TLB (log entry 28). -/
def tlbSet (e : TlbEntry) : Nat := e.base / e.size % (tlbSize e.porter / 8)

/-- Keep a new entry, the newest first, within the 8 ways of its set (R234, log entry 28). -/
def State.tlbFill (s : State) (e : TlbEntry) : State :=
  let mine (x : TlbEntry) : Bool := x.porter == e.porter && tlbSet x == tlbSet e
  { s with tlb := (e :: s.tlb.filter mine).take 8 ++ s.tlb.filter fun x => !mine x }

/-- Entries of a Porter's walk cache (R234). -/
def walkSize (porter : Nat) : Nat := if porter < 4 then 1024 else 256

/-- Keep the table entries that a walk has followed, the newest first (R234, log entry 28). -/
def State.walkFill (s : State) (porter ctx va : Nat) (tables : List (Nat × Nat)) : State :=
  let fresh : List WalkEntry := tables.map fun x => { porter, ctx, level := x.1, tag := walkTag x.1 va, next := x.2 }
  { s with walks := (fresh ++ s.walks.filter (·.porter == porter)).take (walkSize porter) ++ s.walks.filter (·.porter != porter) }

/-- How a translation ends (R233). -/
inductive Xlat where
  | ok (fabric : Nat) (event : Bool)
  | fault (notPresent : Bool) (level : Nat)
  | access
  | poisoned
  | wait
deriving DecidableEq, Repr

/-- An access to a page that is still being washed waits at the Porter, and the page is washed next (R253). -/
def State.awaitPage (s : State) (p : Nat) : Xlat × State := (.wait, s.modPage p ({ · with awaited := true }))

/-- A translation that ends at a Fabric Address. -/
def State.reached (s : State) (f : Nat) (ev : Bool) : Xlat × State :=
  let p := fabricLocal f / 4096
  if !fabricRemote f && s.isWashing p then s.awaitPage p else (.ok f ev, s)

/-- Translate one address at a master port (R224, R225, R234). -/
def State.translate (s : State) (port ctx va : Nat) (write : Bool) : Xlat × State :=
  if 2 ^ 48 ≤ va then (.access, s)
  else match s.ctx? ctx with
    | none => (.access, s)
    | some c =>
      let porter := porterOf port
      match s.tlbHit porter ctx va with
      | some e =>
        if write && !e.writable then
          (.fault false (if e.size = 4096 then 1 else if e.size = 2 ^ 21 then 2 else 3), s)
        else s.reached (e.fabric + (va - e.base)) e.event
      | none =>
        let r := s.walk ctx c porter va write
        let s := r.2.1.foldl (fun s l => (s.readLine l).countUncached (l * 128)) s
        let s := s.walkFill porter ctx va r.2.2
        match r.1 with
        | .leaf f w ev base size _ =>
          (s.tlbFill { porter, ctx, base, size, fabric := f, writable := w, event := ev }).reached (f + (va - base)) ev
        | .fault np l => (.fault np l, s)
        | .access => (.access, s)
        | .poisoned => (.poisoned, s)
        | .washing p => s.awaitPage p

/-- A walk-cache entry as one of the TLB that spans every address of its context and leads to its table. -/
def WalkEntry.wide (w : WalkEntry) : TlbEntry :=
  { porter := w.porter, ctx := w.ctx, base := 0, size := 2 ^ 48, fabric := w.next, writable := false, event := false }

/-- Drop the TLB entries that satisfy p in every Porter, and the walk-cache entries that may concern them: every one of the
context, as R235 asks. -/
def State.tlbDrop (s : State) (p : TlbEntry → Bool) : State :=
  { s with tlb := s.tlb.filter fun e => !p e, walks := s.walks.filter fun w => !p w.wide }

/-! ### Page faults (R236 to R240) -/

def stewardPort (hall : Nat) : Nat := 2560 + 16 * hall + 10
def dmaPort (r : Nat) : Nat := r
def cachePort (r : Nat) : Nat := 1280 + r

def State.stalled (s : State) (port ctx : Nat) : Bool := s.stalls.any fun x => x.port == port && x.ctx == ctx

/-- A household whose fault queue has BASE 0 turns every page fault into an ACCESS refusal (R236). -/
def State.faultsRefused (s : State) (ctx : Nat) : Bool :=
  match s.ctx? ctx with
  | some c => (s.house c.household).faultqBase.toNat / 4096 = 0
  | none => true

def faultqEntries (h : Household) : Nat := 2 ^ (4 + h.faultqBase.toNat % 16)
def faultqFull (h : Household) : Bool := decide ((h.faultqTail - h.faultqHead).toNat = faultqEntries h)

/-- A port stalls on a page fault; its record is written by FAULT_RECORD_WRITE (R238). -/
def State.stall (s : State) (port ctx va : Nat) (write notPresent : Bool) (level : Nat) : State :=
  let hh := ((s.ctx? ctx).map (·.household)).getD 0
  let full := faultqFull (s.house hh)
  let s := s.modHouse hh fun h => if full then { h with faultqWaits := satAdd 32 h.faultqWaits 1 } else h
  { s with
    stalls := s.stalls ++ [{ port, ctx, va, write, notPresent, level, east := porterEast (porterOf port), waited := full
                             steward := port == stewardPort 0 || port == stewardPort 1, time := s.time }] }

/-! ### Windows (R244 to R246) -/

def Window.matches (w : Window) (plane node hh : Nat) : Bool :=
  (bitOf w.srcHousehold 15 || w.srcHousehold % 64 == hh) &&
    (bitOf w.srcNode 31 || (bitsOf w.srcNode 16 16 == plane && w.srcNode % 32768 == node))

/-- The right that a kind of access needs (R244). -/
def AccKind.right : AccKind → Nat
  | .read => 1
  | .write _ => 2
  | .event _ => 8
  | _ => 4

/-- The local address that a remote access is admitted to (R246). -/
def State.allow (s : State) (acc : RemoteAccess) : Option Nat :=
  s.windows.findSome? fun e =>
    match e.2 with
    | some w =>
      if w.matches acc.plane acc.node acc.household && decide (w.rights / AccKind.right acc.kind % 2 = 1) &&
          decide (w.base ≤ acc.addr) && decide (acc.addr + acc.len ≤ w.base + w.len) then
        some (w.target + (acc.addr - w.base))
      else none
    | none => none

/-- Households whose Window covers the first byte of a refused access count it (R245). -/
def State.countRefused (s : State) (acc : RemoteAccess) : State :=
  let owners := (s.windows.filterMap fun e => e.2.bind fun w =>
    if decide (w.base < acc.addr + max acc.len 1) && decide (acc.addr < w.base + w.len) then some w.owner else none).dedup
  owners.foldl (fun s hh => s.modHouse hh fun h => { h with windowRefused := satAdd 32 h.windowRefused 1 }) s

/-! ### Routes to other modules (R432) -/

def State.node (s : State) : Nat := s.dictGet 0x2851 4
def State.plane (s : State) : Nat := s.dictGet 0x2851 5
def State.portDirection (s : State) (p : Nat) : Nat := s.dictGet (0x2860 + p) 1
def State.portUp (s : State) (p : Nat) : Bool := (s.port p).st = 2

/-- The ports that lead to the partner module, and the pair epoch (R348). -/
def State.pairPorts (s : State) : List Nat := (List.range 12).filter fun p => s.portDirection p == 6
def State.pairEpoch (s : State) : Nat := s.dictGet 0x5200 4

/-- Send a message to the partner on every pair-link port that is up, with the pair epoch (R334, R348). -/
def State.toPartner (s : State) (f : Nat → Nat → Output) : State :=
  (s.pairPorts.filter s.portUp).foldl (fun s p => s.emit (f p s.pairEpoch)) s

/-- A port that is up in a direction, the requester's Hall first. -/
def State.portToward (s : State) (hall dir : Nat) : Option Nat :=
  let ports := span (6 * hall) 6 ++ span (6 * (1 - hall)) 6
  ports.find? fun p => s.portUp p && s.portDirection p == dir

/-- The direction in one dimension of size n, codes 2·k and 2·k + 1; none when nothing is left to go. -/
def torusStep (k n own target : Nat) : Option Nat :=
  let d := (target + n - own % n) % n
  if d = 0 then none else if 2 * d ≤ n then some (2 * k) else some (2 * k + 1)

/-- The port by which an access to a node leaves (R432). -/
def State.route (s : State) (hall plane node : Nat) : Option Nat :=
  let peer := (List.range 12).find? fun p =>
    s.portUp p && s.portDirection p == 6 && (s.port p).peerPlane == plane && (s.port p).peerNode == node
  match peer with
  | some p => some p
  | none =>
    if plane != s.plane && node == s.node then s.portToward hall 7
    else
      let own := s.node
      let dirs := [torusStep 0 (s.dictGet 0x2851 1) (own % 32) (node % 32),
                   torusStep 1 (s.dictGet 0x2851 2) (own / 32 % 32) (node / 32 % 32),
                   torusStep 2 (s.dictGet 0x2851 3) (own / 1024 % 32) (node / 1024 % 32)]
      (dirs.filterMap id).findSome? (s.portToward hall)

/-! ### Accesses (R242, R243) -/

/-- How an access by virtual address ends. -/
inductive Got (α : Type) where
  | ok (x : α)
  | wait
  | access
  | poisoned
deriving DecidableEq, Repr

/-- [va, va + n) cut at 256-byte boundaries (R147, R242); `fuel` bounds the number of pieces. -/
def pieces : Nat → Nat → Nat → List (Nat × Nat)
  | 0, _, _ => []
  | fuel + 1, va, n =>
    if n = 0 then []
    else
      let k := min n (256 - va % 256)
      (va, k) :: pieces fuel (va + k) (n - k)

def piecesOf (va n : Nat) : List (Nat × Nat) := pieces (n / 256 + 2) va n

/-- The packets of an access to HBM (R119, R125): the data of Room DMA and of the copy engine travel on VC3, other requests on VC1
and their answers on VC2.  A cache port's coherence messages are packets of their own (R181). -/
def State.traffic (s : State) (port lpa len : Nat) (write : Bool) (cargo : Cargo) (cls : Option Nat) : State :=
  let home := Site.stack (lpa / 2 ^ 36)
  let site := if port < 2560 then Site.room (port % 1280) else .hall (hallOfMaster port)
  let bulk := decide (port < 1280) || decide (2560 ≤ port) && (port - 2560) % 16 == 9
  let cls := if port < 2560 then s.shareOf (port % 1280) else if bulk then s.moduleClass else cls.getD s.moduleClass
  if write then (s.inject (if bulk then 3 else 1) cls (flitsOf len) site home cargo).inject 2 cls 1 home site
  else (s.inject 1 cls 1 site home cargo).inject (if bulk then 3 else 2) cls (flitsOf len) home site cargo

/-- The tag of the DMA transfer that a packet serves. -/
def Cargo.tag? : Cargo → Option Nat
  | .dma _ t => some t
  | _ => Option.none

/-- A request for HBM waits at its master port, cut at 256-byte boundaries (R147, R160). -/
def State.enqueue (s : State) (port lpa len : Nat) (write : Bool) (deadline : Option Nat) (cargo : Cargo := .none)
    (cls : Option Nat := none) (told : Bool := false) : State :=
  let s := if 1280 ≤ port && port < 2560 then s else s.traffic port lpa len write cargo cls
  let reqs : List MemReq := (piecesOf lpa len).map fun x =>
    { port, lpa := x.1, len := x.2, write, cls := 0, deadline, arrival := s.time, told, tag := cargo.tag? }
  (s.refill port).modReg port fun g => { g with waiting := g.waiting ++ reqs }

/-- Translate every piece in order; the first that does not translate ends the access, and a page fault stalls the
port unless the household has no fault queue. -/
def State.translateAll (port ctx : Nat) (write : Bool) :
    List (Nat × Nat) → State → Got (List (Nat × Nat × Bool)) × State
  | [], s => (.ok [], s)
  | (va, n) :: rest, s =>
    match s.translate port ctx va write with
    | (.ok f ev, s) =>
      match translateAll port ctx write rest s with
      | (.ok l, s) => (.ok ((f, n, ev) :: l), s)
      | r => r
    | (.fault np l, s) => if s.faultsRefused ctx then (.access, s) else (.wait, s.stall port ctx va write np l)
    | (.access, s) => (.access, s)
    | (.poisoned, s) => (.poisoned, s)
    | (.wait, s) => (.wait, s)

/-- Where a Fabric Address leads: HBM of this module, a host window, or another module. -/
inductive Place' where
  | hbm (a : Nat)
  | host (hall addr : Nat)
  | remote (fabric : Nat)
deriving DecidableEq, Repr

/-- R230, with the redirection of a lost Hall's window for a DUPLEX context (R346). -/
def State.target (s : State) (ctx f : Nat) : Place' :=
  if fabricRemote f then .remote f
  else
    let l := fabricLocal f
    if l < 2 ^ 38 then .hbm l
    else
      let h := if l < 0x0C0000000000 then 0 else 1
      let duplex := ((s.ctx? ctx).map s.isDuplex).getD false
      let down := (s.hall h).lost || !(s.hall h).hostUp
      .host (if duplex && down then 1 - h else h) (l % 0x040000000000)

/-- The host link of a Hall carries accesses. -/
def State.hostLink (s : State) (h : Nat) : Bool := (s.hall h).hostUp && !(s.hall h).lost

/-- The context's PASID (R199). -/
def State.pasid (s : State) (ctx : Nat) : Option Nat := (s.ctx? ctx).map (·.pasid)

/-- The Hall of the requester at a master port. -/
def requesterHall (port : Nat) : Nat := hallOfMaster port

def HostRead.is (x : HostRead) (hall addr len : Nat) : Bool := x.hall == hall && x.addr == addr && x.len == len
/-- Whether a host read was sent for a context by a requester. -/
def HostRead.by (x : HostRead) (ctx room : Nat) : Bool := x.ctx == some ctx && x.room == room
def RemoteReq.is (x : RemoteReq) (fabric len : Nat) (kind : AccKind) : Bool :=
  x.fabric == fabric && x.len == len && x.kind == kind
/-- Whether a remote access was sent for a context by a requester. -/
def RemoteReq.by (x : RemoteReq) (ctx room : Nat) : Bool := x.ctx == ctx && x.room == room

/-- The requester at a master port: the Room of its DMA and cache ports, else the port. -/
def portRoom (port : Nat) : Nat := if port < 2560 then port % 1280 else port

/-- The household of a context. -/
def State.houseOf (s : State) (ctx : Nat) : Nat := ((s.ctx? ctx).map (·.household)).getD 0
/-- The Suite of a context. -/
def State.suiteOfCtx (s : State) (ctx : Nat) : Nat := ((s.ctx? ctx).map (·.suite)).getD 0

/-- Whether a Fabric Address names this module's own plane and node (R242). -/
def State.isOwn (s : State) (f : Nat) : Bool := fabricPlane f == s.plane && fabricNode f == s.node

/-- An access of a context to the module's own plane and node, as if it had arrived through Mortar (R242). -/
def State.ownAccess (s : State) (ctx f n : Nat) (kind : AccKind) : RemoteAccess :=
  { port := 0, plane := s.plane, node := s.node, household := s.houseOf ctx, addr := fabricLocal f, len := n, kind }

/-- One piece of a read: what is there now.  A host or remote piece is there once its answer has arrived. -/
def State.peek (s : State) (port ctx f n : Nat) (coherent : Bool) : Got (List Byte) :=
  match s.target ctx f with
  | .hbm a =>
    if (if coherent then s.coherentPoison a n else s.poisonedAt a n) then .poisoned
    else .ok (if coherent then s.coherentBytes a n else s.hbmRead a n)
  | .host hall addr =>
    if !s.hostLink hall then .poisoned
    else match s.hostReads.find? fun x => x.is hall addr n && x.by ctx (portRoom port) with
      | some x =>
        match x.answer with
        | some (.data b) => if x.poisoned then .poisoned else .ok b
        | some _ => .access
        | none => if x.poisoned then .poisoned else .wait
      | none => .wait
  | .remote f =>
    if s.isOwn f then
      match s.allow (s.ownAccess ctx f n .read) with
      | some a => if s.coherentPoison a n then .poisoned else .ok (s.coherentBytes a n)
      | none => .access
    else match s.remotes.find? fun x => x.is f n .read && x.by ctx (portRoom port) with
      | some x =>
        match x.answer with
        | some (0, b) => .ok b
        | some (1, _) => .access
        | some _ => .poisoned
        | none => .wait
      | none => if (s.route (requesterHall port) (fabricPlane f) (fabricNode f)).isSome then .wait else .poisoned

/-- Ask for one piece of a read that has not been asked for. -/
def State.request (port ctx : Nat) (s : State) (x : Nat × Nat × Bool) : State :=
  let (f, n, _) := x
  match s.target ctx f with
  | .hbm _ => s
  | .host hall addr =>
    if s.hostReads.any fun x => x.is hall addr n && x.by ctx (portRoom port) then s
    else if !s.hostLink hall then s
    else
      let q : HostRead := { ctx := some ctx, room := portRoom port, hall, addr, len := n }
      State.emit { s with hostReads := s.hostReads ++ [q] } (.hostRead hall addr n (s.pasid ctx))
  | .remote f =>
    if s.isOwn f then s
    else if s.remotes.any fun x => x.is f n .read && x.by ctx (portRoom port) then s
    else match s.route (requesterHall port) (fabricPlane f) (fabricNode f) with
      | none => s
      | some p =>
        let q : RemoteReq := { suite := s.suiteOfCtx ctx, ctx, room := portRoom port, fabric := f, len := n, kind := .read }
        State.emit { s with remotes := s.remotes ++ [q] } (.remote p f n (s.houseOf ctx) .read)

/-- Take the answer of one piece away once the read has ended.  A coherent piece is an uncached access of its home (R186), and a
piece at the own node was admitted or refused by the module's own Windows (R242, R245). -/
def State.consume (port ctx : Nat) (coherent : Bool) (s : State) (x : Nat × Nat × Bool) : State :=
  let (f, n, _) := x
  match s.target ctx f with
  | .hbm a => if coherent then ((linesOf a n).foldl State.readLine s).countUncached a else s
  | .host hall addr =>
    { s with hostReads := removeFirst (fun x => x.is hall addr n && x.by ctx (portRoom port)) s.hostReads }
  | .remote f =>
    if s.isOwn f then
      match s.allow (s.ownAccess ctx f n .read) with
      | some a => ((linesOf a n).foldl State.readLine s).countUncached a
      | none => s.countRefused (s.ownAccess ctx f n .read)
    else { s with remotes := removeFirst (fun x => x.is f n .read && x.by ctx (portRoom port)) s.remotes }

/-- The die that performs an access to a Fabric Address: the stack's Floor, the host window's Hall, or the requester's Hall for another
module. -/
def State.targetDie (s : State) (port ctx f : Nat) : Nat :=
  match s.target ctx f with
  | .hbm a => a / 2 ^ 36
  | .host hall _ => 4 + hall
  | .remote _ => 4 + requesterHall port

/-- Whether the fixed path of R120 to what an access names is up; while a link on it is down, the access does not end. -/
def State.pathOpen (s : State) (port ctx f : Nat) : Bool := s.pathUp (dieOfPort port) (s.targetDie port ctx f)

/-- All pieces together: a refusal or poison of any piece ends the access, else it waits for the last one. -/
def joinGot : List (Got (List Byte)) → Got (List Byte)
  | [] => .ok []
  | .ok b :: gs =>
    match joinGot gs with
    | .ok c => .ok (b ++ c)
    | g => g
  | .wait :: gs =>
    match joinGot gs with
    | .access => .access
    | .poisoned => .poisoned
    | _ => .wait
  | .access :: _ => .access
  | .poisoned :: _ => .poisoned

/-- Read several ranges of virtual addresses as one access (R224, R242, R243).  `coherent` says whether the directory
takes part, and `sent` that the access was translated before its port stalled, so that it proceeds (R238). -/
def State.readMany (s : State) (port ctx : Nat) (ranges : List (Nat × Nat)) (coherent : Bool) (sent : Bool := false) :
    Got (List Byte) × State :=
  if s.stalled port ctx && !sent then (.wait, s)
  else match State.translateAll port ctx false (ranges.flatMap fun x => piecesOf x.1 x.2) s with
    | (.ok ps, s) =>
      if !(ps.all fun x => s.pathOpen port ctx x.1) then (.wait, s) else
      match joinGot (ps.map fun x => s.peek port ctx x.1 x.2.1 coherent) with
      | .ok b => (.ok b, ps.foldl (State.consume port ctx coherent) s)
      | .wait => (.wait, ps.foldl (State.request port ctx) s)
      | g => (g, ps.foldl (State.consume port ctx coherent) s)
    | (.wait, s) => (.wait, s)
    | (.access, s) => (.access, s)
    | (.poisoned, s) => (.poisoned, s)

/-- Read n bytes at a virtual address. -/
def State.readVa (s : State) (port ctx va n : Nat) (coherent : Bool) : Got (List Byte) × State :=
  s.readMany port ctx [(va, n)] coherent

/-- A posted write to host memory for a context; the last address in each window is kept for the flush of R281. -/
def State.postHost (s : State) (ctx hall addr : Nat) (bytes : List Byte) : State :=
  let s := match s.ctx? ctx with
    | some c => s.setCtx ctx (some { c with hostUsed := (hall, addr) :: c.hostUsed.filter (·.1 != hall) })
    | none => s
  s.emit (.hostWrite hall addr (s.pasid ctx) bytes)

/-- Write one piece that this module or a host performs; none while the line is busy.  A piece of another module is left
to `State.sendFar`. -/
def State.writePiece (ctx : Nat) (coherent : Bool) (f : Nat) (bytes : List Byte) (s : State) :
    Option (Got Unit × State) :=
  match s.target ctx f with
  | .hbm a =>
    if coherent then (s.uncachedWrite a bytes).map fun r => (if r.2 then Got.ok () else Got.poisoned, r.1.countUncached a)
    else
      let r := s.hbmWrite a bytes
      some (if r.2 then Got.ok () else Got.poisoned, (linesOf a bytes.length).foldl State.wakeLine r.1)
  | .host hall addr => if s.hostLink hall then some (.ok (), s.postHost ctx hall addr bytes) else some (.poisoned, s)
  | .remote f =>
    if s.isOwn f then
      let acc := s.ownAccess ctx f bytes.length (.write bytes)
      match s.allow acc with
      | some a => (s.uncachedWrite a bytes).map fun r => (if r.2 then Got.ok () else Got.poisoned, r.1.countUncached a)
      | none => some (.access, s.countRefused acc)
    else some (.ok (), s)

/-- Write the pieces in ascending order; the first that fails decides the outcome, and the rest are still written
when it was a poisoned write. -/
def State.writePieces (ctx : Nat) (coherent : Bool) :
    List (Nat × Nat × Bool) → List Byte → State → Option (Got Unit × State)
  | [], _, s => some (.ok (), s)
  | (f, n, _) :: rest, bytes, s =>
    match s.writePiece ctx coherent f (bytes.take n) with
    | none => none
    | some (g, s) =>
      match writePieces ctx coherent rest (bytes.drop n) s with
      | none => none
      | some (g', s) => some ((match g with | .ok _ => g' | _ => g), s)

/-- The pieces of a write that another module performs, with their bytes. -/
def State.farPieces (s : State) (ctx : Nat) : List (Nat × Nat × Bool) → List Byte → List (Nat × List Byte)
  | [], _ => []
  | (f, n, _) :: rest, bytes =>
    let far := s.farPieces ctx rest (bytes.drop n)
    match s.target ctx f with
    | .remote g => if s.isOwn g then far else (g, bytes.take n) :: far
    | _ => far

/-- The request of a far piece, when it has been sent. -/
def State.farRequest (s : State) (port ctx : Nat) (x : Nat × List Byte) : Option RemoteReq :=
  s.remotes.find? fun y => y.is x.1 x.2.length (.write x.2) && y.by ctx (portRoom port)

/-- Send one far piece on its way; a piece that no route reaches cannot be delivered (R242). -/
def State.sendFar (port ctx : Nat) (s : State) (x : Nat × List Byte) : State :=
  if (s.farRequest port ctx x).isSome then s
  else match s.route (requesterHall port) (fabricPlane x.1) (fabricNode x.1) with
    | none => s
    | some p =>
      let q : RemoteReq := { suite := s.suiteOfCtx ctx, ctx, room := portRoom port
                             fabric := x.1, len := x.2.length, kind := .write x.2 }
      State.emit { s with remotes := s.remotes ++ [q] } (.remote p x.1 x.2.length (s.houseOf ctx) (.write x.2))

/-- What has become of a far piece. -/
def State.farOutcome (s : State) (port ctx : Nat) (x : Nat × List Byte) : Got Unit :=
  match s.farRequest port ctx x with
  | none => .poisoned
  | some y =>
    match y.answer with
    | none => .wait
    | some (0, _) => .ok ()
    | some (1, _) => .access
    | some _ => .poisoned

def State.takeFar (port ctx : Nat) (s : State) (x : Nat × List Byte) : State :=
  { s with remotes := removeFirst (fun y => y.is x.1 x.2.length (.write x.2) && y.by ctx (portRoom port)) s.remotes }

/-- The first outcome that is no success decides. -/
def joinUnit : List (Got Unit) → Got Unit
  | [] => .ok ()
  | .ok _ :: gs => joinUnit gs
  | g :: _ => g

/-- Write several ranges of virtual addresses as one access.  Nothing is written unless every piece translates.  Pieces of
other modules go out first; the rest follows once all of them are answered. -/
def State.writeMany (s : State) (port ctx : Nat) (ranges : List (Nat × Nat)) (bytes : List Byte) (coherent : Bool)
    (sent : Bool := false) : Got Unit × State :=
  if s.stalled port ctx && !sent then (.wait, s)
  else match State.translateAll port ctx true (ranges.flatMap fun x => piecesOf x.1 x.2) s with
    | (.ok ps, s') =>
      if !(ps.all fun x => s'.pathOpen port ctx x.1) then (.wait, s') else
      let far := s'.farPieces ctx ps bytes
      let s' := far.foldl (State.sendFar port ctx) s'
      if far.any fun x => s'.farOutcome port ctx x == .wait then (.wait, s')
      else match State.writePieces ctx coherent ps bytes s' with
        | some (g, s'') => (joinUnit (g :: far.map (s'.farOutcome port ctx)), far.foldl (State.takeFar port ctx) s'')
        | none => (.wait, { s with remotes := s'.remotes, out := s'.out })
    | (.wait, s) => (.wait, s)
    | (.access, s) => (.access, s)
    | (.poisoned, s) => (.poisoned, s)

/-- Write bytes at a virtual address. -/
def State.writeVa (s : State) (port ctx va : Nat) (bytes : List Byte) (coherent : Bool) : Got Unit × State :=
  s.writeMany port ctx [(va, bytes.length)] bytes coherent

/-- The requests of a tile transfer wait at their port: one for each piece that leads to HBM at present (R87, R160). -/
def State.enqueueVa (s : State) (port ctx : Nat) (write : Bool) (range : Nat × Nat) (cargo : Cargo := .none)
    (told : Bool := false) : State :=
  (piecesOf range.1 range.2).foldl (fun s x =>
    match (s.translate port ctx x.1 write).1 with
    | .ok f _ =>
      match s.target ctx f with
      | .hbm a => s.enqueue port a x.2 write none cargo (some (s.suite (s.suiteOfCtx ctx)).share) told
      | _ => s
    | _ => s) s

/-- The requests of an access that has been performed pass through its port's regulator; those of one that found a bad unit do so
too, and HBM counts and records it (R148, R151, R159, R160; log entry 65). -/
def State.charged {α : Type} (port ctx : Nat) (write : Bool) (ranges : List (Nat × Nat)) (x : Got α × State) : Got α × State :=
  match x with
  | (.ok a, s) => (.ok a, ranges.foldl (fun s e => s.enqueueVa port ctx write e) s)
  | (.poisoned, s) => (.poisoned, ranges.foldl (fun s e => s.enqueueVa port ctx write e (told := true)) s)
  | y => y

/-- The master port of the host accesses of a Hall, that by which an access of a Mortar port reaches HBM, and that of a Hall's copy
engine (R159). -/
def hostPort (hall : Nat) : Nat := 2560 + 16 * hall
def mortarMaster (port : Nat) : Nat := 2560 + 16 * (port / 6) + 1 + port % 6
def copyPort (hall : Nat) : Nat := 2560 + 16 * hall + 9

/-- The copy engine of the Hall that serves an address reads or writes a range there (R159). -/
def State.copyMove (s : State) (a n : Nat) (write : Bool) : State := s.enqueue (copyPort (a / 2 ^ 36 / 2)) a n write none

/-- The Steward port that serves a context (R199, R224). -/
def State.stewardOf (s : State) (ctx : Nat) : Nat := stewardPort (((s.ctx? ctx).map (·.serving)).getD 0)

/-- A Steward read for a context; the Steward's accesses are made coherent (R174, R227). -/
def State.stewardRead (s : State) (ctx va n : Nat) : Got (List Byte) × State :=
  State.charged (s.stewardOf ctx) ctx false [(va, n)] (s.readVa (s.stewardOf ctx) ctx va n true)
/-- A Steward write for a context. -/
def State.stewardWrite (s : State) (ctx va : Nat) (bytes : List Byte) : Got Unit × State :=
  State.charged (s.stewardOf ctx) ctx true [(va, bytes.length)] (s.writeVa (s.stewardOf ctx) ctx va bytes true)

end Sys2Proof.Machine
end

