-- ==== Sys2Proof/Machine/Operands.lean ====
section
/-! DEFINITION. The operands of Foreman instructions: scalar registers (R76), tile descriptors with the checks of
R85, and the addresses of a tile's elements and scales (R83, R89, R90). -/

namespace Sys2Proof.Machine

/-! ### Scalar registers (R76) -/

/-- A scalar register; s0 reads as zero. -/
def Foreman.reg (f : Foreman) (k : BitVec 5) : W64 := if k = 0 then 0 else Store.get 0 f.s k.toNat
/-- Write a scalar register; a write to s0 is discarded. -/
def Foreman.setReg (f : Foreman) (k : BitVec 5) (v : W64) : Foreman :=
  if k = 0 then f else { f with s := Store.set 0 f.s k.toNat v }
/-- A tile-descriptor register. -/
def Foreman.desc (f : Foreman) (k : BitVec 4) : Desc := Store.get {} f.t k.toNat
/-- Write a tile-descriptor register. -/
def Foreman.setDesc (f : Foreman) (k : BitVec 4) (v : Desc) : Foreman := { f with t := Store.set {} f.t k.toNat v }

/-! ### Fields of a tile descriptor (R83) -/

/-- Word k of a descriptor. -/
def descWord (d : Desc) (k : Nat) : W64 := BitVec.ofNat 64 (d.bits.toNat >>> (64 * k))
/-- Replace word k. -/
def setDescWord (d : Desc) (k : Nat) (w : W64) : Desc :=
  ⟨BitVec.ofNat 256 (d.bits.toNat - bitsOf d.bits.toNat (64 * k + 63) (64 * k) * 2 ^ (64 * k) + w.toNat * 2 ^ (64 * k))⟩
/-- A descriptor from its four words. -/
def descOf (w0 w1 w2 w3 : Nat) : Desc := ⟨BitVec.ofNat 256 (w0 + w1 * 2 ^ 64 + w2 * 2 ^ 128 + w3 * 2 ^ 192)⟩

def Desc.version (d : Desc) : Nat := bitsOf d.bits.toNat 63 56
def Desc.fmt (d : Desc) : Nat := bitsOf d.bits.toNat 55 51
def Desc.space (d : Desc) : Nat := bitsOf d.bits.toNat 50 48
def Desc.top (d : Desc) : Nat := bitsOf d.bits.toNat 47 40
def Desc.layer (d : Desc) : Nat := bitsOf d.bits.toNat 39 28
def Desc.tile (d : Desc) : Nat := bitsOf d.bits.toNat 23 0
def Desc.base (d : Desc) : Nat := bitsOf d.bits.toNat 127 64
def Desc.scaleOff (d : Desc) : Int := twos 32 (bitsOf d.bits.toNat 191 160)
def Desc.scaleStride (d : Desc) : Nat := bitsOf d.bits.toNat 159 144
def Desc.scaleLstride (d : Desc) : Nat := bitsOf d.bits.toNat 143 128
def Desc.rows (d : Desc) : Nat := bitsOf d.bits.toNat 255 240
def Desc.cols (d : Desc) : Nat := bitsOf d.bits.toNat 239 224
def Desc.rowStride (d : Desc) : Nat := bitsOf d.bits.toNat 223 208
def Desc.laneStride (d : Desc) : Nat := bitsOf d.bits.toNat 207 192

/-- Replace the bits [hi:lo] of a descriptor. -/
def setDescBits (d : Desc) (hi lo v : Nat) : Desc :=
  ⟨BitVec.ofNat 256 (d.bits.toNat - bitsOf d.bits.toNat hi lo * 2 ^ lo + v % 2 ^ (hi + 1 - lo) * 2 ^ lo)⟩

/-- TDSET (R84); none for a reserved MODE. -/
def tdset (d : Desc) (mode : Nat) (v : W64) : Option Desc :=
  if mode < 4 then some (setDescBits d (64 * mode + 63) (64 * mode) v.toNat)
  else if mode = 4 then some (setDescBits d 23 0 v.toNat)
  else if mode = 5 then some (setDescBits d 39 28 v.toNat)
  else if mode = 6 then some (setDescBits d 47 40 v.toNat)
  else if mode = 7 then some (setDescBits d 55 51 v.toNat)
  else none

/-- TDADV: the element base moves by s[RS][31:0] and the scale base by s[RS][63:32], both signed, so SCALE_OFF
changes by the difference; MODE[0] adds 1 to TILE (R84). -/
def tdadv (d : Desc) (next : Bool) (v : W64) : Desc :=
  let de := twos 32 (bitsOf v.toNat 31 0)
  let ds := twos 32 (bitsOf v.toNat 63 32)
  let d := setDescBits d 127 64 (((d.base : Int) + de) % 2 ^ 64).toNat
  let d := setDescBits d 191 160 ((d.scaleOff + ds - de) % 2 ^ 32).toNat
  if next then setDescBits d 23 0 (d.tile + 1) else d

/-! ### Sizes and addresses -/

/-- Bytes of a packed row (R27). -/
def Desc.rowBytes (d : Desc) : Nat := ceilDiv (d.cols * fmtWidth d.fmt) 8
/-- Blocks of a row; 0 without scales. -/
def Desc.blocks (d : Desc) : Nat := if fmtBlock d.fmt = 0 then 0 else d.cols / fmtBlock d.fmt
/-- Address of row m (R83). -/
def Desc.rowAddr (d : Desc) (m : Nat) : Nat := d.base + 16 * (m * d.rowStride)
/-- Address of the scales of row m (R83); an integer, since SCALE_OFF is signed. -/
def Desc.scaleAddr (d : Desc) (m : Nat) : Int := d.base + d.scaleOff + (m * d.scaleStride : Nat)
/-- Elements and scales together (R136). -/
def Desc.bytes (d : Desc) : Nat := d.rows * (d.rowBytes + d.blocks)

/-! ### Faults (R116) -/

def faultIllegalInstruction : Nat := 0x01
def faultBadDescriptor : Nat := 0x02
def faultIllegalFormat : Nat := 0x03
def faultBounds : Nat := 0x04
def faultAlignment : Nat := 0x05
def faultShape : Nat := 0x06
def faultPadding : Nat := 0x07
def faultNondeterministic : Nat := 0x08
def faultMicroprogram : Nat := 0x09
def faultLoopDepth : Nat := 0x0A
def faultGuardSlots : Nat := 0x0B
def faultOpenGuard : Nat := 0x0C
def faultSyncScope : Nat := 0x0D
def faultAccess : Nat := 0x0E

/-- Bytes of scratch below a cache portion of `cache` bytes (R110). -/
def scratchBytes (cache : Nat) : Nat := 0x100000 - cache
def hodBytes : Nat := 0x3000

/-- The largest row index with its bytes: whether n rows of `len` bytes from `a` at `stride` lie in [0, size). -/
def inSpace (a : Int) (stride n len size : Nat) : Bool :=
  n = 0 || len = 0 || (decide (0 ≤ a) && decide (a + ((n - 1) * stride + len : Nat) ≤ (size : Int)))

/-- Whether every element and scale byte of the tile as laid out by rows lies in a space of `size` bytes (R85). -/
def Desc.inside (d : Desc) (size : Nat) : Bool :=
  inSpace d.base (16 * d.rowStride) d.rows d.rowBytes size &&
    inSpace (d.base + d.scaleOff) d.scaleStride d.rows d.blocks size

/-- The checks of R85 that hold for every use of a descriptor, in their order; the range check of SPACE 0 and 1 is
`inRange`, since some instructions lay their tiles out otherwise. -/
def Desc.checkWith (d : Desc) (inRange : Bool) : Option Nat :=
  if d.version != 1 then some faultBadDescriptor
  else if !fmtOk d.fmt || decide (4 ≤ d.space) then some faultBadDescriptor
  else if d.space != 3 && d.base % 16 != 0 then some faultAlignment
  else if d.space == 3 && decide (63 < d.base) then some faultBounds
  else if d.rows = 0 || d.cols = 0 then some faultShape
  else if fmtBlock d.fmt != 0 && d.cols % fmtBlock d.fmt != 0 then some faultPadding
  else if decide (d.space ≤ 1) && !inRange then some faultBounds
  else none

/-- The size of the space that a descriptor names (R85). -/
def Desc.spaceSize (d : Desc) (cache : Nat) : Nat := if d.space = 0 then scratchBytes cache else hodBytes

/-- R85 for a tile laid out by rows. -/
def Desc.check (d : Desc) (cache : Nat) : Option Nat := d.checkWith (d.inside (d.spaceSize cache))

/-- The weight tile of an MMA lies in its chunk layout (R89). -/
def Desc.weightInside (d : Desc) (nb size : Nat) : Bool :=
  decide (d.base + ceilDiv (d.cols * nb * fmtWidth d.fmt) 8 ≤ size) &&
    inSpace (d.base + d.scaleOff) 0 1 (d.blocks * nb) size

/-- The activation tile of an MMA lies in its 16 column streams (R90). -/
def Desc.streamInside (d : Desc) (size : Nat) : Bool :=
  inSpace d.base 0 1 (16 * (15 * d.laneStride + (d.rows - 1) * d.rowStride) + d.rowBytes) size &&
    (d.blocks = 0 ||
      inSpace (d.base + d.scaleOff) 0 1 (15 * d.scaleLstride + (d.rows - 1) * d.scaleStride + d.blocks) size)

/-- The first fault of several checks. -/
def firstFault : List (Option Nat) → Option Nat
  | [] => none
  | some c :: _ => some c
  | none :: cs => firstFault cs

/-- A check that fails with a code unless a condition holds. -/
def must (ok : Bool) (code : Nat) : Option Nat := if ok then none else some code

/-! ### Reading tiles -/

/-- The packed bytes of row m in a memory. -/
def Desc.rowOf (d : Desc) (mem : Memory) (m : Nat) : List Byte := Store.range 0 mem (d.rowAddr m) d.rowBytes
/-- The scale codes of row m in a memory. -/
def Desc.scalesOf (d : Desc) (mem : Memory) (m : Nat) : List Byte := Store.range 0 mem (d.scaleAddr m).toNat d.blocks

/-- Element codes and scale codes of a row as they stand in a memory. -/
structure RowData where
  elems : List Byte
  scales : List Byte
deriving DecidableEq, Repr

def Desc.readRow (d : Desc) (mem : Memory) (m : Nat) : RowData := { elems := d.rowOf mem m, scales := d.scalesOf mem m }

/-- Write a row's bytes and scales into a memory. -/
def Desc.writeRow (d : Desc) (mem : Memory) (m : Nat) (x : RowData) : Memory :=
  Store.setRange 0 (Store.setRange 0 mem (d.rowAddr m) x.elems) (d.scaleAddr m).toNat x.scales

/-- The decoded elements of a row, with the numbers (within the row) of its poison elements (R35 to R38). -/
def Desc.decodeRow (d : Desc) (x : RowData) : List (FVal × Bool) :=
  (List.range d.cols).map fun i =>
    let c := unpackElem (fmtWidth d.fmt) x.elems i
    let sc := if fmtBlock d.fmt = 0 then Scale.one
      else decodeScale d.fmt d.top ((x.scales[i / fmtBlock d.fmt]?.getD 0).toNat)
    scaledElem (decodeElem d.fmt c) sc

end Sys2Proof.Machine
end

