-- ==== Sys2Proof/Machine/Steward.lean ====
section
/-! DEFINITION. The Steward's shared operations: the Rooms of a Suite, Rent (R276, R277), context faults (R203),
killing a step (R273), program faults and hardware faults (R72, R116, R117), fencing (R22, R192, R370), and dropping
a copy (R333). -/

namespace Sys2Proof.Machine

/-! ### Rooms of a Suite -/

/-- The Rooms of one copy, in ordinal order. -/
def copyOf (copy : Nat) (l : List (Option Nat × Option Nat)) : List Nat :=
  l.filterMap fun e => if copy = 0 then e.1 else e.2
def Suite.members (x : Suite) (copy : Nat) : List Nat := copyOf copy x.rooms
def Suite.spareRooms (x : Suite) (copy : Nat) : List Nat := copyOf copy x.spares
/-- Every Room of every copy, members first. -/
def Suite.allMembers (x : Suite) : List Nat := x.members 0 ++ x.members 1
def Suite.allRooms (x : Suite) : List Nat := x.allMembers ++ x.spareRooms 0 ++ x.spareRooms 1
/-- Whether a copy of the Suite is present on this module (0x5300.01). -/
def Suite.has (x : Suite) (copy : Nat) : Bool := if copy = 0 then x.present.1 else x.present.2
/-- The Rooms that run steps: members of the copies that are present. -/
def Suite.running (x : Suite) : List Nat :=
  (if x.has 0 then x.members 0 else []) ++ (if x.has 1 then x.members 1 else [])
/-- Rooms per copy (R255). -/
def Suite.ordinals (x : Suite) : Nat := x.rooms.length
/-- Whether a killed step of the Suite has not reached its boundary yet (R273). -/
def Suite.draining (x : Suite) : Bool := x.drain.isSome
/-- Whether a step has begun to commit (R273). -/
def Step.committing (st : Step) : Bool := decide (0 < st.phase)
def Suite.protected (x : Suite) : Bool := x.mode == .duplex || x.mode == .paired
/-- Vote spares per copy (R259). -/
def sparesFor (rooms : Nat) : Nat :=
  if rooms = 0 then 0 else if rooms ≤ 16 then 1 else if rooms ≤ 128 then 2 else if rooms ≤ 512 then 4 else 8
/-- Whether every ordinal of every copy that is present on this module has its Room. -/
def Suite.complete (x : Suite) : Bool :=
  !x.rooms.isEmpty && (x.present.1 || x.present.2) && (!x.present.1 || x.rooms.all (·.1.isSome)) &&
    (x.mode != .duplex || !x.present.2 || x.rooms.all (·.2.isSome))

/-- The cache portion of a Room, in bytes (R110, R255). -/
def State.cacheBytes (s : State) (r : Nat) : Nat :=
  match (s.room r).member with
  | some m => (s.suite m.suite).cache * 0x10000
  | none => 0
/-- The Suite and the step that a Room serves. -/
def State.stepOf (s : State) (r : Nat) : Option Step := ((s.room r).member).bind fun m => (s.suite m.suite).step
def State.suiteOf (s : State) (r : Nat) : Option Nat := (s.room r).member.map (·.suite)
/-- Whether a Suite runs its steps in deterministic mode (R68). -/
def Suite.deterministic (x : Suite) : Bool := x.protected || x.det

/-! ### Reservations and Rent (R165, R276, R277) -/

/-- What a setting reserves: its RATE, when RT or ASSURED. -/
def reservedRate (w : Nat) : Nat := if regClass w ≤ 1 then regRate w else 0

/-- The setting of a Hall port bound as `p`: 0–11 Mortar, 16–19 ingest (R162, R255). -/
def State.hallPortSetting (s : State) (p : Nat) : Nat :=
  if p < 12 then s.dictGet (0x27C0 + p / 6) (1 + (1 + p % 6)) else s.dictGet (0x27C0 + (p - 16) / 2) (1 + (7 + p % 2))
/-- The Hall of a bound port. -/
def boundPortHall (p : Nat) : Nat := if p < 12 then p / 6 else (p - 16) / 2

/-- The reservation of one copy, in units of 100 MB/s (R165). -/
def State.copyReservation (s : State) (x : Suite) (copy : Nat) : Nat :=
  let n := (x.members copy).length + (x.spareRooms copy).length
  let ports := x.ports.filter fun p => x.mode != .duplex || boundPortHall p == copy
  n * (reservedRate x.dmaReg.toNat + reservedRate x.cacheReg.toNat) +
    (ports.map fun p => reservedRate (s.hallPortSetting p)).sum

/-- The groups that carry a copy: those of its Wing in DUPLEX mode, else all. -/
def Suite.copyGroups (x : Suite) (copy : Nat) : List Nat :=
  if x.mode == .duplex then x.groups.filter fun g => g / 64 == copy else x.groups

/-- The share of a copy that each of its groups holds, in 1/1,024 of 100 MB/s, rounded up (R165). -/
def State.groupShare (s : State) (x : Suite) (copy : Nat) : Nat :=
  let k := (x.copyGroups copy).length
  if k = 0 then 0 else ceilDiv (1024 * s.copyReservation x copy) k

def copiesOf (x : Suite) : List Nat := if x.mode == .duplex then [0, 1] else [0]

/-- What one Suite reserves on a group. -/
def State.reservesOn (s : State) (x : Suite) (g : Nat) : Nat :=
  ((copiesOf x).map fun c => if (x.copyGroups c).contains g then s.groupShare x c else 0).sum
/-- A group's total over all Suites. -/
def State.groupTotal (s : State) (g : Nat) : Nat := (s.suites.map fun e => s.reservesOn e.2 g).sum
/-- The limit of 60 % of the peak of a group of p pseudo-channels, compared exactly (R165). -/
def withinLimit (p total : Nat) : Bool := decide (10 * total ≤ 1572864 * p)

/-- The Suite's whole reservation. -/
def State.reservation (s : State) (x : Suite) : Nat := ((copiesOf x).map (s.copyReservation x)).sum

/-- Bring a Suite's Rent counters up to the present (R276, R277). -/
def State.accrue (s : State) (n : Nat) : State :=
  let x := s.suite n
  if x.st == .free then s
  else
    let dt := s.time - x.rent.upto
    let members := x.allMembers.length
    let groups := (x.groups.map fun g => s.groupSize (g / 32)).sum
    s.modSuite n fun x =>
      { x with
        rent := { x.rent with
          roomsHeld := satAdd 64 x.rent.roomsHeld (dt * members)
          roomsBusy := satAdd 64 x.rent.roomsBusy (if x.step.isSome || x.draining then dt * members else 0)
          sparesHeld := satAdd 64 x.rent.sparesHeld (dt * ((x.spareRooms 0).length + (x.spareRooms 1).length))
          pcHeld := satAdd 64 x.rent.pcHeld (dt * groups)
          portsHeld := satAdd 64 x.rent.portsHeld (dt * x.ports.length)
          bwReserved := satAdd 64 x.rent.bwReserved (dt * s.reservation x)
          upto := s.time } }

/-! ### Context faults (R203) -/

/-- The fault state word (R203). -/
def faultWord (code queue : Nat) (room : Option (Nat × Nat)) (slot : Nat) : W64 :=
  BitVec.ofNat 64 (1 * 2 ^ 56 + code % 256 * 2 ^ 48 + queue % 16 * 2 ^ 44 +
    (match room with | some (r, pc) => 2 ^ 43 + r % 2048 * 2 ^ 32 + pc % 4096 * 2 ^ 20 | none => 0) + slot % 65536)

def faultQueueOverflow : Nat := 0x40
def faultBadStep : Nat := 0x41
def faultAccessQueue : Nat := 0x42
def faultAccessEvent : Nat := 0x43

/-- A context becomes FAULTED with its first fault, and its fault vector may be sent; a FROZEN context becomes so when
it is thawed (R203, log entry 8). -/
def State.ctxFault (s : State) (c code queue : Nat) (room : Option (Nat × Nat)) (slot : Nat) : State :=
  match s.ctx? c with
  | none => s
  | some x =>
    let raise (s : State) : State :=
      if bitOf x.vectors 31 then s.sendVector x.serving (32 * x.household + bitsOf x.vectors 20 16) else s
    match x.st with
    | .opened => raise (s.setCtx c (some { x with st := .faulted, fault := faultWord code queue room slot }))
    | .frozen =>
      if x.before == .faulted then s
      else raise (s.setCtx c (some { x with before := .faulted, fault := faultWord code queue room slot }))
    | _ => s

/-! ### The directory forgets a Room (R192) -/

/-- Remove a holder from an entry; the entry goes when nothing remains and no transaction is open. -/
def DirEntry.without (e : DirEntry) (r : Nat) : Option DirEntry :=
  let e := if e.st != .shared && e.owner == r then { e with st := .shared } else { e with sharers := e.sharers.remove r }
  if e.st == .shared && e.sharers.isEmpty && e.txn.isNone then none else some e

/-- Whether ownership of a line has moved on from a Room: a transaction that takes the line exclusively for another Room has
forwarded it (R184). -/
def DirEntry.movedOn (e : DirEntry) (r : Nat) : Bool :=
  match e.txn with
  | some t => t.exclusive && t.requester != some r
  | none => false

/-- Whether a PUT of a kind comes from a holder that the directory knows as such (R182). -/
def DirEntry.knows (e : DirEntry) (kind : CohKind) (r : Nat) : Bool :=
  let owner := e.st != .shared && e.owner == r && !e.movedOn r
  let sharer := e.sharers.rooms.contains r
  match kind with
  | .putm => owner
  | .pute => owner || (e.st == .shared && sharer)
  | _ => owner || sharer

/-- A write-back of a Room's cache reaches HBM through its cache port; where the group is unusable, the Room owes a hardware
fault (R148, R159). -/
def State.writeBackLine (s : State) (r : Nat) (x : CacheLine) : State :=
  let s := s.enqueue (cachePort r) (x.addr * 128) 128 true none (told := true)
  let (s, ok) := s.hbmWrite (x.addr * 128) x.data
  if ok then s else { s with faultsDue := s.faultsDue ++ [r] }

/-- Write a dirty line of a Room's cache back to HBM: M becomes E and O becomes S, with the directory's knowledge
(R190, log entry 16). -/
def State.cleanLine (r : Nat) (s : State) (x : CacheLine) : State :=
  if !isDirty x.st then s
  else
    let s := s.writeBackLine r x
    let s := s.modCache r (·.mapLine x.addr fun y => some { y with st := if y.st == .m then .e else .s })
    match s.dirFind x.addr with
    | some (k, e) =>
      if e.st == .owned && e.owner == r then s.setDir k (some { e with st := .shared, sharers := e.sharers.add r }) else s
    | none => s

/-- Write every dirty line of a Room's cache back (R190).  What its write-back buffer holds is already on its way. -/
def State.writeBackAll (s : State) (r : Nat) : State :=
  ((s.room r).cache.lines.filterMap (·.2)).foldl (State.cleanLine r) s

/-- At a Configuration Landing a Room gives its whole cache up: dirty lines are written back, and PUTE or PUTS goes out for
every line, which is clean then (R191). -/
def State.dropCache (s : State) (r : Nat) : State :=
  let s := s.writeBackAll r
  let lines := (s.room r).cache.lines.filterMap (·.2)
  let s := s.modCache r fun c => { writeBack := c.writeBack }
  { s with net := s.net ++ lines.map fun x => { kind := if x.st == .e then .pute else .puts, room := r, line := x.addr } }

/-- A SHARED entry without a transaction goes with its last sharer. -/
def DirEntry.kept (e : DirEntry) : Option DirEntry :=
  if e.st == .shared && e.sharers.isEmpty && e.txn.isNone then none else some e

/-- The entry of a line whose transaction closes without its requester, once the owner has served the forward: an exclusive one
has invalidated every copy or handed it to the Room that is gone, and a readable one leaves the owner in O or S (R192, log entry
80). -/
def DirEntry.orphaned (e : DirEntry) (t : Txn) : Option DirEntry :=
  if t.exclusive then none
  else if e.st == .excl then
    some (if t.ownerWasM then { e with st := .owned, sharers := .exact [], txn := none }
      else { e with st := .shared, sharers := .exact [e.owner], txn := none })
  else DirEntry.kept { e with txn := none }

/-- Whether a message forwards the request of a Room for a line to the line's owner. -/
def forwards (r l : Nat) (m : CohMsg) : Bool := (m.kind == .fwdGets || m.kind == .fwdGetm) && m.line == l && m.peer == some r

/-- Drop a Room from one directory entry (R192).  A transaction of the Room ends: one whose forward has not been served leaves
the line as it was, and one that awaits a FWD_ACK closes with it; what the Room owned reverts to HBM's content. -/
def State.dropFromEntry (s : State) (r : Nat) (e : DirEntry) : Option DirEntry :=
  let owned := e.st != .shared && e.owner == r
  let lost : DirEntry := { e with sharers := e.sharers.remove r, st := if owned then .shared else e.st }
  match e.txn with
  | none => lost.kept
  | some t =>
    if t.requester != some r then some lost
    else if owned then none
    else if s.net.any (forwards r e.line) then { lost with txn := none }.kept
    else if t.fwdAckDue && !t.exclusive then some { lost with txn := some { t with requester := none } }
    else lost.orphaned t

/-- Whether the home awaits the FWD_ACK of a line's owner. -/
def State.ackDue (s : State) (l : Nat) : Bool := ((s.dirFind l).bind fun e => e.2.txn.map (·.fwdAckDue)).getD false

/-- No Room: the collector of acknowledgements that a Room asked for before it was fenced. -/
def noRoom : Nat := 2047

/-- A message addressed to a fenced Room is answered as if it had acknowledged, acknowledgements that it was to collect go
nowhere, and its other messages are lost (R192). -/
def answerFor (s : State) (r : Nat) (m : CohMsg) : List CohMsg :=
  if forwards r m.line m then []
  else if m.peer == some r && m.kind == .inv then [{ m with peer := some noRoom }]
  else if m.peer == some r && m.kind == .invAck then []
  else if m.room != r then [m]
  else match m.kind with
    | .inv => [{ m with kind := .invAck }]
    | .recall => [{ m with kind := .fwdAck, bytes := none, wasM := false }]
    | .fwdGets => (if s.ackDue m.line then [{ m with kind := .fwdAck, bytes := none, wasM := false }] else []) ++
        (match m.peer with
         | some p => [{ kind := .data, room := p, line := m.line, bytes := some (s.hbmRead (m.line * 128) 128), take := .s }]
         | none => [])
    | .fwdGetm => match m.peer with
      | some p => [{ kind := .data, room := p, line := m.line, bytes := some (s.hbmRead (m.line * 128) 128), take := .m
                     count := m.count }]
      | none => []
    | .invAck => [m]
    | .fwdAck => [m]
    | _ => []

/-- Messages that a router delivers to the parked port of a Room are counted (R316, R371, log entry 79). -/
def State.countParked (s : State) (r n : Nat) : State := s.bump (0x2420 + floorOf r) 9 32 n

/-- Every directory removes a Room from every entry, its dirty lines are lost and counted, and so are the messages that go to
its parked port (R192, R316, R369). -/
def State.forgetRoom (s : State) (r : Nat) : State :=
  let c := (s.room r).cache
  let dirty := ((c.lines.filterMap (·.2)) ++ c.writeBack).filter (isDirty ·.st)
  let s := dirty.foldl (fun s x => s.bump (0x2841 + homeOf x.addr) 8 32) s
  let s := s.countParked r (countIf (fun m => m.ends.2 == some r) s.net)
  let s := s.modRoom r ({ · with cache := {} })
  let keys := s.directory.map (·.1)
  let s := keys.foldl (fun s k => s.setDir k ((Store.get none s.directory k).bind (s.dropFromEntry r))) s
  { s with net := s.net.flatMap (answerFor s r), reservations := s.reservations.filter (·.2 != r)
           faultsDue := s.faultsDue.filter (· != r) }

/-! ### The Floor Plan changes in service (R22) -/

/-- Raise the generation by one.  DESIGN CHOICE: it counts on through 0 after 2^32 − 1, since R22 raises it at every change and
does not let it saturate (log entry 81). -/
def State.nextGeneration (s : State) : State := s.dictSet 0x2200 4 ((s.dictGet 0x2200 4 + 1) % 2 ^ 32)

/-- A change of the Floor Plan: the generation passes from even over odd to the next even value, the latest-change time
is set, and a record is written (R22). -/
def State.planChange (s : State) (returned : Bool) (kind index : Nat) (f : State → State) : State :=
  let s := f s.nextGeneration
  let s := (s.dictSet 0x2200 5 s.time).nextGeneration
  s.report 8 (if returned then 2 else 1) (if returned then 0 else 2) kind index 0xFF (s.dictGet 0x2200 4)

/-! ### Ends of a step -/

/-- Stop a Room's Foreman and discard what it has not issued: stalled and unissued transfers, Gutter operations; its
issued transfers go on to their ends (R240, R273). -/
def Room.stopped (x : Room) : Room :=
  { x with
    foreman := { x.foreman with run := match x.foreman.run with | .failed => .failed | .hold => .hold | _ => .idle }
    dma := x.dma.filter fun t => !t.stalled && !t.lost
    gutter := []
    micro := {} }

/-- Discard the stalls of a Room's ports (R240). -/
def State.dropStalls (s : State) (r : Nat) : State :=
  { s with stalls := s.stalls.filter fun x => x.port != dmaPort r && x.port != cachePort r }

/-- Grout stops in a Room, and its Room-ns are counted (R329). -/
def State.endGrout (s : State) (r : Nat) : State :=
  match (s.room r).grout with
  | none => s
  | some g => (s.bump 0x2430 4 64 (s.time - g.since)).modRoom r ({ · with grout := none })

/-- A Room halts: its stalls and what waits at its ports are discarded, and `f` is done to it (R240, R273, R339). -/
def State.haltRoom (s : State) (r : Nat) (f : Room → Room) : State :=
  ((((((s.endGrout r).dropStalls r).modRoom r f).refill (dmaPort r)).refill (cachePort r)).modReg (dmaPort r)
    ({ · with waiting := [] })).modReg (cachePort r) ({ · with waiting := [] })

def State.stopRoom (s : State) (r : Nat) : State := s.haltRoom r Room.stopped

/-- Whether transfers of a Suite are still on their way (R273). -/
def State.outstanding (s : State) (n : Nat) : Bool :=
  ((s.suite n).allRooms.any fun r =>
      !(s.room r).dma.isEmpty || (s.room r).cache.miss.isSome || !(s.room r).cache.writeBack.isEmpty) ||
    s.remotes.any (fun x => x.suite == n && x.answer.isNone) ||
    s.hostReads.any fun x => x.room < 1280 && (x.ctx.map s.suiteOfCtx) == some n && x.answer.isNone && !x.poisoned

/-- The deferred page-table root of a context takes effect when its step ends (R226). -/
def State.takeRoot (s : State) (c : Nat) : State :=
  match s.ctx? c with
  | some x =>
    match x.nextRoot with
    | some root => (s.setCtx c (some { x with root, nextRoot := none })).tlbDrop (·.ctx == c)
    | none => s
  | none => s

/-- Charge a queue for a run (R264). -/
def chargeQueue (q : Queue) (ns : Nat) : Queue :=
  { q with vt := q.vt + ns * 16 / max (bitsOf q.value.toNat 7 4) 1 }

/-- A CLOSING queue with no step in flight becomes CLOSED, and its transfer completes (R207, R293). -/
def State.closeQueue (s : State) (c q : Nat) : State :=
  match s.ctx? c with
  | none => s
  | some x =>
    let u := x.queue q
    if u.st != .closing then s
    else
      let s := s.modQueue c q fun _ => { value := u.value, head := u.head, tail := u.tail, lastCommit := u.lastCommit }
      match u.closer with
      | some ch => s.reply ch (0x4000 + c) 7 0 []
      | none => s

/-- Whether a step of a queue is in flight: it runs, or it was killed and its boundary is not reached (R207, R273). -/
def State.inFlight (s : State) (c q : Nat) : Bool :=
  match s.ctx? c with
  | some x => ((s.suite x.suite).step.map fun st => st.ctx == c && st.queue == q).getD false ||
      ((s.suite x.suite).drain.map fun d => d.ctx == c && d.queue == q).getD false
  | none => false

/-- Every household reads FROZEN once all its contexts are (R278). -/
def State.settleFreeze (s : State) (hh : Nat) : State :=
  let mine := s.contexts.filterMap fun e => e.2.bind fun c => if c.household = hh then some c else none
  if (s.house hh).st == .freezing && mine.all (·.st == .frozen) then s.modHouse hh ({ · with st := .frozen }) else s

def freezeCtx (c : Context) : Context :=
  if c.st == .frozen || c.st == .closing then c else { c with before := c.st, st := .frozen }

/-- With no step dispatched in any Suite the module is IDLE (R307). -/
def State.settlePower (s : State) : State :=
  if s.power.st == .active && s.suites.all (·.2.step.isNone) then { s with power := { s.power with st := .idle } } else s

/-- At a boundary of a Suite the contexts of a household that freezes AT_NEXT_BOUNDARY become FROZEN (R278). -/
def State.freezeBound (s : State) (n : Nat) : State :=
  if (s.suite n).step.isSome || (s.suite n).draining then s
  else
    let due := s.contexts.filterMap fun e => e.2.bind fun c =>
      if c.suite = n && (s.house c.household).st == .freezing && !(s.house c.household).freezeAtPoint then some (e.1, c.household)
      else none
    due.foldl (fun s e => (s.modCtx e.1 freezeCtx).settleFreeze e.2) s

/-- A closed context becomes free: its waiting faults are discarded and every Porter drops its entries (R281); a household
that freezes need not wait for it (R278). -/
def State.freeCtx (s : State) (c : Nat) : State :=
  let hh := ((s.ctx? c).map (·.household)).getD 0
  ((State.tlbDrop { s with stalls := s.stalls.filter fun x => x.ctx != c } (·.ctx == c)).setCtx c none).settleFreeze hh

/-- Whether an access issued for a context has not come back yet (R281). -/
def State.awaits (s : State) (c : Nat) : Bool :=
  s.hostReads.any (fun x => x.ctx == some c && x.answer.isNone && !x.poisoned) ||
    s.remotes.any fun x => x.ctx == c && x.answer.isNone

/-- Flush the posted writes of a context by a read of each host window it used (R281). -/
def State.flushHost (s : State) (c : Nat) (x : Context) : State :=
  let s := s.setCtx c (some { x with hostUsed := [] })
  (x.hostUsed.filter fun u => s.hostLink u.1).foldl (fun s u =>
    let q : HostRead := { ctx := some c, room := 4096, hall := u.1, addr := u.2, len := 1 }
    State.emit { s with hostReads := s.hostReads ++ [q] } (.hostRead u.1 u.2 1 (some x.pasid))) s

/-- A closing context becomes free in the order of R281: its step has ended, its transfers have completed at their targets, its
posted host writes are flushed, and then its faults and TLB entries go. -/
def State.finishClose (s : State) (c : Nat) : State :=
  match s.ctx? c with
  | none => s
  | some x =>
    if ((s.suite x.suite).step.map (·.ctx)) == some c || s.awaits c then s
    else if x.hostUsed.any fun u => s.hostLink u.1 then s.flushHost c x
    else State.freeCtx { s with hostReads := s.hostReads.filter (·.ctx != some c)
                                remotes := s.remotes.filter (·.ctx != c) } c

/-- Closing contexts of a Suite become free once no step of theirs is in flight and its transfers have ended (R281). -/
def State.freeClosed (s : State) (n : Nat) : State :=
  if (s.suite n).draining then s
  else (s.contexts.filterMap fun e => e.2.bind fun c => if c.suite = n && c.st == .closing then some e.1 else none).foldl
    State.finishClose s

/-- Answers that came for the Rooms of a killed step serve nobody any more (R273). -/
def State.dropAnswers (s : State) (n : Nat) : State :=
  { s with
    hostReads := s.hostReads.filter fun x => !(x.room < 1280 && (x.ctx.map s.suiteOfCtx) == some n)
    remotes := s.remotes.filter fun x => !(x.room < 1280 && x.suite == n) }

/-- The run of a killed step ends with its boundary: Rent and the queue are charged for it, and a deferred root and a closing
queue take effect (R207, R226, R264, R276). -/
def State.endRun (s : State) (n : Nat) (d : Drain) : State :=
  let s := (s.accrue n).dropAnswers n
  let run := s.time - d.dispatched
  let s := s.modSuite n fun x =>
    { x with drain := none, rent := { x.rent with roomsKilled := satAdd 64 x.rent.roomsKilled (run * x.allMembers.length) } }
  let s := s.modQueue d.ctx d.queue (chargeQueue · run)
  (s.takeRoot d.ctx).closeQueue d.ctx d.queue

/-- The boundary is reached once nothing of a killed step is outstanding (R273). -/
def State.settle (s : State) (n : Nat) : State :=
  match (s.suite n).drain with
  | some d => if s.outstanding n then s else ((s.endRun n d).freeClosed n).freezeBound n
  | none => s

/-- Kill the running step of a Suite (R273): every Room of every copy stops, caches write back, and the descriptor stays at
the head of its queue.  The boundary follows once nothing is outstanding. -/
def State.killStep (s : State) (n : Nat) : State :=
  let x := s.suite n
  match x.step with
  | none => s
  | some st =>
    let s := (s.accrue n).controlAll x.share (.hall (s.decider n)) x.allRooms
    let s := x.allRooms.foldl State.stopRoom s
    let s := x.allRooms.foldl State.writeBackAll s
    let s := s.modSuite n fun x =>
      { x with
        step := none, vote := none, rounds := [], releases := [], killed := satAdd 64 x.killed 1
        drain := some { ctx := st.ctx, queue := st.queue, dispatched := st.dispatched } }
    let s := s.modCtx st.ctx fun c => { c with killed := satAdd 64 c.killed 1 }
    let s := s.modQueue st.ctx st.queue fun q => { q with kills := satAdd 16 q.kills 1 }
    (s.settle n).settlePower

/-- Kill a step unless it has begun to commit (R273, R275). -/
def State.killUnlessCommitting (s : State) (n : Nat) : State :=
  match (s.suite n).step with
  | some st => if st.committing then s else s.killStep n
  | none => s

/-- Whether a Suite is at a step boundary (R12). -/
def Suite.atBoundary (x : Suite) : Bool := x.step.isNone && !x.draining

/-! ### Rungs and fencing (R368, R370) -/

/-- The SOURCE kind and index of a unit (R356). -/
def unitSource : UnitRef → Nat × Nat
  | .brick g => (1, g)
  | .room r => (2, r)
  | .router r => (3, r)
  | .pc p => (4, p)
  | .floorBlock f => (5, f)
  | .link l => (7, l)
  | .steward h => (6, h)
  | .copyEngine h => (8, 2560 + 16 * h + 9)
  | .wing h => (6, h)
  | .suiteCopy n _ => (9, n)
  | .clock f => (5, f)

/-- The Wing of a unit. -/
def State.unitWing (s : State) : UnitRef → Nat
  | .brick g => g / 256 / 640
  | .room r => r / 640
  | .router r => r / 640
  | .pc p => p / 64
  | .floorBlock f => f / 2
  | .link l => s.linkHall l
  | .steward h => h
  | .copyEngine h => h
  | .wing h => h
  | .suiteCopy n _ => s.decider n
  | .clock f => f / 2

/-- The Hall whose Warden runs a rung (R368). -/
def State.rungWarden (s : State) (rung : Nat) (u : UnitRef) : Nat :=
  if rung = 4 then s.surviving (1 - s.unitWing u) else if rung = 5 then s.senior else s.surviving (s.unitWing u)

def State.modWarden (s : State) (h : Nat) (f : Warden → Warden) : State :=
  s.modHall h fun x => { x with warden := f x.warden }

/-- A rung starts: the Warden holds it with its start, it is counted, and a RESET record is written (R368). -/
def State.startRung (s : State) (rung : Nat) (u : UnitRef) : State :=
  let h := s.rungWarden rung u
  if (s.hall h).warden.rungs.any fun x => x.1 == rung && x.2.1 == u then s
  else
    let s := s.modWarden h fun w => { w with rungs := w.rungs ++ [(rung, u, s.time)] }
    let s := s.bump 0x5031 rung 32
    s.report 7 1 3 (unitSource u).1 (unitSource u).2 0 rung

/-- What a Room rung resets at its start: the Foreman, the engines and every Brick's datapath, while the Pantry scratch,
the Hods and the micro-program stores are kept; directories treat the Room as fenced (R368, R369, R371). -/
def Room.reset2 (x : Room) : Room :=
  { x with
    foreman := { run := .hold, program := [] }
    bricks := Store.mapValues {} (fun b => { b with acc := [] }) x.bricks
    dma := [], gutter := [], micro := {}, cache := {}, course := {}, checkpoints := [], digests := [], marks := [], rng := []
    loading := false }

/-- The Room rung starts; what waited for the Room's transfers waits no longer (R369, R370). -/
def State.startRoomRung (s : State) (r : Nat) : State :=
  let s := (((s.endGrout r).forgetRoom r).modRoom r Room.reset2).startRung 2 (.room r)
  match (s.room r).member with
  | some m => s.settle m.suite
  | none => s

/-- Fence a Room: its power switch opens, its contents are lost, every directory forgets it, and the Floor Plan
changes (R22, R192, R370). -/
def State.fenceRoom (s : State) (r : Nat) : State :=
  if (s.room r).life == .fencedInService then s
  else
    let s := ((s.endGrout r).forgetRoom r).dropStalls r
    s.planChange false 2 r fun s => s.modRoom r fun x =>
      { x with
        life := .fencedInService, power := .fenced, pantry := [], bricks := [], foreman := {}, dma := [], gutter := []
        micro := {}, course := {}, checkpoints := [], digests := [], marks := [], totals := [], loading := false, joining := false
        reserved := false, member := none, stretched := false, upsets := [], cutOff := false }

/-- Put another Room, or none, in the place of a Room in its Suite's tables. -/
def Suite.replace (x : Suite) (r : Nat) (q : Option Nat) : Suite :=
  let f (o : Option Nat) := if o = some r then q else o
  { x with rooms := x.rooms.map fun e => (f e.1, f e.2), spares := x.spares.map fun e => (f e.1, f e.2) }

/-- Two Rooms exchange their places in their Suite's tables. -/
def Suite.exchange (x : Suite) (r q : Nat) : Suite :=
  let f (o : Option Nat) := if o = some r then some q else if o = some q then some r else o
  { x with rooms := x.rooms.map fun e => (f e.1, f e.2), spares := x.spares.map fun e => (f e.1, f e.2) }

/-! ### Which Room runs as which ordinal (R77, R339, R340) -/

/-- The ordinal as which a Room runs: its own, or that of the suspect it stands in for; none for an idle spare (R77,
R339). -/
def State.ordinal? (s : State) (r : Nat) : Option Nat :=
  match (s.room r).member with
  | none => none
  | some m =>
    if !m.spare then some m.ordinal
    else match ((s.suite m.suite).vote.map (·.suspects)).getD [] |>.find? (·.2 == r) with
      | some (q, _) => (s.room q).member.map (·.ordinal)
      | none => none
def State.ordinalOf (s : State) (r : Nat) : Nat := (s.ordinal? r).getD 0

/-- The Rooms of one copy that run as an ordinal: its member, and its spare during the re-run of a vote. -/
def State.roomsAt (s : State) (n copy ordinal : Nat) : List Nat :=
  let x := s.suite n
  (x.members copy ++ x.spareRooms copy).filter fun r => s.ordinal? r == some ordinal

/-- The copy of its Suite that a Room serves. -/
def State.copyIdx (s : State) (r : Nat) : Nat := ((s.room r).member.map (·.copy)).getD 0

/-- Whether a Room runs as a listener: a suspect beside its spare during the re-run of a vote (R339, R340). -/
def State.listener (s : State) (r : Nat) : Bool :=
  match (s.room r).member with
  | none => false
  | some m =>
    match (s.suite m.suite).vote with
    | some v => v.rerun && v.suspects.any (·.1 == r)
    | none => false

/-- The Rooms of a copy that perform the step: its members but for listeners, and the spares that stand in (R339,
R340). -/
def State.performers (s : State) (n copy : Nat) : List Nat :=
  let x := s.suite n
  (x.members copy ++ x.spareRooms copy).filter fun r => (s.ordinal? r).isSome && !s.listener r

/-! ### Program faults and hardware faults (R72, R116, R117) -/

/-- The Rooms of the other copy that perform the ordinal of a Room. -/
def State.twins (s : State) (r : Nat) : List Nat :=
  match (s.room r).member, s.ordinal? r with
  | some m, some o => (s.roomsAt m.suite (1 - m.copy) o).filter fun q => !s.listener q
  | _, _ => []

/-- A Room's result of Course k (R102, R117, R334, R337): its digest, or how the Course ended without one; nothing while it runs. -/
def Room.courseResult (x : Room) (k : Nat) : Option CourseResult :=
  match x.digests.find? (·.1 == k) with
  | some e => some (.digest e.2)
  | none =>
    if x.course.ordinal != k then none
    else match x.foreman.run with
      | .faulted _ => some .faulted
      | .failed => some .failed
      | _ => none

/-- Whether the Room has raised a program fault in Course k (R117). -/
def hasFaulted (x : Room) (k : Nat) : Bool := x.courseResult k == some .faulted

/-- Whether a Suite compares two copies. -/
def Suite.compares (x : Suite) : Bool := x.protected && x.has 0 && x.has 1

/-- The whole of R116 once a program fault stands: the step is killed in every Room of every copy, a PROGRAM record is
written and the context faults. -/
def State.faultStep (s : State) (r code pc : Nat) : State :=
  match (s.room r).member with
  | none => s
  | some m =>
    match (s.suite m.suite).step with
    | none => s
    | some st =>
      if st.committing then s
      else
      let hh := (s.suite m.suite).owner
      let s := s.report 1 code 3 2 r hh (pc % 4096 + st.ctx * 4096)
      let s := s.killStep m.suite
      s.ctxFault st.ctx code st.queue (some (r, pc)) st.count

/-- A program fault of a Room (R116).  While two copies compare, a fault of one copy only is a mismatch of its Course
and goes to the vote; it stands when the other copy has raised one in the same Course at the ordinal too (R117).  DESIGN CHOICE:
the copies whose majority counts in a re-run are the two Rooms that perform the ordinal, so that both must raise it; a listener's
fault is its result (R340, log entry 85). -/
def State.programFault (s : State) (r code : Nat) : State :=
  let pc := (s.room r).foreman.pc
  let s := s.modForeman r ({ · with run := .faulted code })
  match (s.room r).member with
  | none => s
  | some m =>
    if s.listener r then s
    else if !(s.suite m.suite).compares || (s.twins r).any fun t => hasFaulted (s.room t) (s.room r).course.ordinal then
      s.faultStep r code pc
    else s

/-- The step of a Room is killed and the Room takes the Room rung; its dirty lines are lost before any cache writes back
(R192, R369). -/
def State.killForRoom (s : State) (r : Nat) : State :=
  let s := s.forgetRoom r
  match (s.room r).member with
  | none => s.startRoomRung r
  | some m => (s.killUnlessCommitting m.suite).startRoomRung r

/-- The Course of a Room fails by a hardware fault (R72). -/
def Room.failCourse (x : Room) : Room :=
  { x with foreman := { x.foreman with run := .failed }, marks := x.marks ++ [x.course.ordinal] }

/-- Whether a Room is in a Course: it performs or listens, and has not committed. -/
def State.inCourse (s : State) (r : Nat) : Bool :=
  (s.stepOf r).isSome && (s.ordinal? r).isSome && (s.room r).foreman.run != .committed

/-- A Room hardware fault (R72, R151): the Course in which it occurs fails.  While two copies compare, that is all; elsewhere the
step is killed, and the Room takes the Room rung, as a free Room does (R369). -/
def State.hardwareFault (s : State) (r : Nat) : State :=
  match (s.room r).member with
  | none => s.killForRoom r
  | some m =>
    if !(s.suite m.suite).compares then (s.modRoom r Room.failCourse).killForRoom r
    else if s.inCourse r then s.modRoom r Room.failCourse
    else s

/-- Rooms whose write-back met an unusable group take their hardware fault (R148). -/
def State.payFaults (s : State) : State := s.faultsDue.foldl State.hardwareFault { s with faultsDue := [] }

/-! ### Losing a directory (R193) -/

/-- The dirty lines of a Floor's stack that a Room holds. -/
def State.dirtyHomed (s : State) (f r : Nat) : Nat :=
  let c := (s.room r).cache
  countIf (fun x => homeOf x.addr == f && isDirty x.st) ((c.lines.filterMap (·.2)) ++ c.writeBack)

/-- Drop the lines of a Floor's stack from a Room's cache; dirty ones are lost and counted. -/
def State.dropHomed (f : Nat) (s : State) (r : Nat) : State :=
  let homed (x : CacheLine) : Bool := homeOf x.addr == f
  let dirty := s.dirtyHomed f r
  let drop (x : Option CacheLine) : Option CacheLine := match x with | some y => if homed y then none else some y | none => none
  let s := s.modCache r fun c =>
    { c with lines := Store.mapValues none drop c.lines, writeBack := c.writeBack.filter fun x => !homed x
             miss := match c.miss with | some m => if homeOf m.line = f then none else some m | none => none }
  if dirty = 0 then s else s.bump (0x2841 + f) 8 32 dirty

/-- The directory of a Floor is lost: it forgets its lines and reservations, messages about them end, every cache drops the
lines homed there, and then each Room that held a dirty one takes a Room hardware fault (R193). -/
def State.loseDirectory (s : State) (f : Nat) : State :=
  let mine (e : Nat × Option DirEntry) : Bool := e.1 / 131072 == f
  let other (x : Nat × Nat) : Bool := homeOf x.1 != f
  let s := { s with directory := s.directory.filter fun e => !mine e, reservations := s.reservations.filter other
                    net := s.net.filter fun m => homeOf m.line != f }
  let s := s.modFloor f ({ · with directoryDown := true })
  let rooms := s.rooms.map (·.1)
  let hurt := rooms.filter fun r => decide (0 < s.dirtyHomed f r)
  hurt.foldl State.hardwareFault (rooms.foldl (State.dropHomed f) s)

/-! ### Dropping a copy (R333) -/

/-- Drop one copy of a DUPLEX or PAIRED Suite: the Suite is DEGRADED, a running vote is abandoned, the survivor's
waiting Rooms go on alone, and a record is written (R333, R345, R351). -/
def resumeConfirm (x : Room) : Room :=
  match x.foreman.run with
  | .confirm _ => { x with foreman := { x.foreman with run := .running } }
  | _ => x

/-- A Room of the surviving copy that had failed has no twin to vote it out any more. -/
def State.aloneFault (s : State) (r : Nat) : State :=
  match (s.room r).foreman.run with
  | .faulted code => s.faultStep r code (s.room r).foreman.pc
  | .failed => s.killForRoom r
  | _ => s

def State.dropCopy (s : State) (n copy : Nat) : State :=
  let x := s.suite n
  if !x.compares then s
  else
    let s := s.accrue n
    let s := (x.members copy ++ x.spareRooms copy).foldl State.stopRoom s
    let s := s.modSuite n fun x =>
      { x with
        present := if copy = 0 then (false, x.present.2) else (x.present.1, false)
        st := if x.st == .active then .degraded else x.st
        vote := none }
    let s := (x.members (1 - copy)).foldl (fun s r => s.modRoom r resumeConfirm) s
    let s := (s.bump 0x5201 4 32).report 9 2 2 9 n x.owner copy
    (x.members (1 - copy)).foldl State.aloneFault s

/-- Drop copy 0 or 1 of every DUPLEX Suite (R344). -/
def State.dropDuplex (s : State) (copy : Nat) : State :=
  (s.suites.map (·.1)).foldl (fun s n => if (s.suite n).mode == .duplex then s.dropCopy n copy else s) s

/-- Drop the copy in a Wing of every DUPLEX Suite, and this module's copy of a PAIRED Suite with a Room there (R333,
R345). -/
def State.dropWing (s : State) (wing : Nat) : State :=
  (s.suites.map (·.1)).foldl (fun s n =>
    let x := s.suite n
    if x.mode == .paired && (x.members 0).any (fun r => hallOfRoom r == wing) then s.dropCopy n 0 else s) (s.dropDuplex wing)

end Sys2Proof.Machine
end

