-- ==== Sys2Proof/Machine/Foreman.lean ====
section
/-! DEFINITION. How a Foreman issues one instruction: the guard (R79), the program counter and hardware loops (R82),
faults (R116), listeners (R340), and the bytes and words that a Course digest is formed from (R102). -/

namespace Sys2Proof.Machine

/-! ### The program counter and loops (R82) -/

/-- Where the instruction after index `pc` stands: the last instruction of a body goes back to its first while passes
are left, and ends the loop after the last pass (R81, R82). -/
def leaveLoops (pc : Nat) : List LoopFrame → List LoopFrame × Nat
  | [] => ([], pc + 1)
  | f :: fs =>
    if pc = f.last then
      (if 1 < f.left then ({ f with left := f.left - 1 } :: fs, f.first) else leaveLoops pc fs)
    else (f :: fs, pc + 1)

/-- The Foreman after the instruction at index `pc`; none when the counter passes 4,095 (R82). -/
def Foreman.after (f : Foreman) (pc : Nat) : Option Foreman :=
  let n := leaveLoops pc f.loops
  if n.2 ≤ 4095 then some { f with pc := n.2, loops := n.1 } else none

/-- Loops that a branch to `target` leaves active: those whose body holds the target (R82). -/
def keepLoops (target : Nat) : List LoopFrame → List LoopFrame
  | [] => []
  | f :: fs => if f.first ≤ target && target ≤ f.last then f :: fs else keepLoops target fs

/-- The Foreman after a taken branch; none when the target lies outside the program store (R81, R82), also when it is negative
(DEDUCED, R82 speaks of passing 4,095, log entry 10). -/
def Foreman.branch (f : Foreman) (off : Int) : Option Foreman :=
  let t := (f.pc : Int) + off
  if 0 ≤ t ∧ t ≤ 4095 then some { f with pc := t.toNat, loops := keepLoops t.toNat f.loops } else none

/-- What an instruction does to the state when it executes. -/
inductive Issue where
  /-- It completed: the program counter advances. -/
  | done (s : State)
  /-- The state stands as it is: a branch was taken, the instruction waits and executes again, or a fault was raised. -/
  | stay (s : State)

/-- The instruction at the program counter has completed (R82). -/
def State.advance (s : State) (r : Nat) : State :=
  match (s.room r).foreman.after (s.room r).foreman.pc with
  | some f => s.modForeman r fun _ => f
  | none => s.programFault r faultBounds

/-- The outcome of an instruction's effect. -/
def Issue.result (r : Nat) : Issue → State
  | .done s => s.advance r
  | .stay s => s

/-- One instruction of the Foreman of Room r: nothing happens unless the Foreman runs; an instruction whose guard is
false completes as a no-operation (R79). -/
def foremanOp (r : Nat) (g : Guard) (eff : State → Issue) (s : State) : Host.Outcome State Fault Refusal :=
  if !isRoom r then .refused .noSuchUnit
  else if (s.room r).foreman.run != .running then .next s
  else if !(s.room r).foreman.guarded g then .next (s.keepQueue (s.advance r))
  else .next (s.keepQueue ((eff s).result r))

/-- A program fault at this instruction (R116). -/
def Issue.fault (r code : Nat) (s : State) : Issue := .stay (s.programFault r code)

/-- An instruction that only changes the Foreman's registers. -/
def Issue.regs (r : Nat) (s : State) (f : Foreman → Foreman) : Issue := .done (s.modForeman r f)

/-! ### The step as a Room sees it (R63, R68, R73) -/

/-- Whether the Room's step runs in deterministic mode (R68). -/
def State.det (s : State) (r : Nat) : Bool := ((s.stepOf r).map (·.det)).getD false
/-- The lanes of the Room's step (R73). -/
def State.lanes (s : State) (r : Nat) : Nat := ((s.stepOf r).map (·.lanes)).getD 0
/-- The context whose step the Room runs. -/
def State.ctxOf (s : State) (r : Nat) : Nat := ((s.stepOf r).map (·.ctx)).getD 0
/-- The Ladder entry of a layer as read at the Dispatch Landing (R61, R63). -/
def State.ladder? (s : State) (r layer : Nat) : Option LadderEntry := (s.stepOf r).bind (·.ladder[layer]?)
/-- The cache portion of the Room, in bytes: its step's, and between steps its Suite's (R110, R176). -/
def State.portion (s : State) (r : Nat) : Nat := ((s.stepOf r).map (·.cacheBytes)).getD (s.cacheBytes r)

/-! ### What a Course writes (R102) -/

def spacePantry : Nat := 0
def spaceHod : Nat := 1
def spaceDevice : Nat := 2

/-- Where the elements of a space begin among the numbers that name elements: the Pantry's at 0, those of the Hod of lane l at
(l + 1) × 2^64; device memory holds no operands (R53). -/
def elementTag (space addr : Nat) : Option (Nat × Nat) :=
  if space = spacePantry then some (0, addr) else if space = spaceHod then some (addr / 2 ^ 16 + 1, addr % 2 ^ 16) else none

/-- Record bytes that the Room writes in the Course, a later write replacing an earlier one (R102); the elements that stood there
are gone (R53). -/
def CourseState.note (c : CourseState) (space addr : Nat) (bytes : List Byte) : CourseState :=
  let c := { c with log := Store.setRange none c.log (space * 2 ^ 64 + addr) (bytes.map some) }
  match elementTag space addr with
  | some (tag, a) => c.overwritten tag a bytes.length
  | none => c

def Room.note (x : Room) (space addr : Nat) (bytes : List Byte) : Room :=
  { x with course := x.course.note space addr bytes }

/-- The term of a 16-byte line from its two words (R102). -/
def lineTerm (addr : Nat) (a b : W64) : W64 :=
  let x := (BitVec.ofNat 64 addr * 0x9E3779B97F4A7C15#64) ^^^ a
  let x := xorshift x ^^^ b
  xorshift (xorshift x)

/-- Fold one word that is no line into the digest; its address is 0xFFFF_0000 plus its position (R102).  Positions count on
through the Course over DIGEST operands, guard words and checkpoint words alike, and the second word of an 8-byte term is zero
(DEDUCED, log entry 23). -/
def CourseState.addWord (c : CourseState) (w : W64) : CourseState :=
  { c with extra := c.extra + lineTerm (0xFFFF0000 + c.words) w 0, words := c.words + 1 }

/-- The first of each run of equal numbers. -/
def runHeads : List Nat → List Nat
  | [] => []
  | [a] => [a]
  | a :: b :: l => if a = b then runHeads (b :: l) else a :: runHeads (b :: l)

/-- The term of the line with a key, in units of 16 bytes; bytes that the Room did not write count as zero. -/
def CourseState.lineAt (c : CourseState) (k : Nat) : W64 :=
  let bytes := (Store.range none c.log (16 * k) 16).map (·.getD 0)
  lineTerm (16 * k % 2 ^ 64) (BitVec.ofNat 64 (leNat (bytes.take 8))) (BitVec.ofNat 64 (leNat (bytes.drop 8)))

/-- The Course digest (R102). -/
def CourseState.digest (c : CourseState) : W64 :=
  (runHeads (c.log.map (·.1 / 16))).foldl (fun d k => d + c.lineAt k) c.extra

end Sys2Proof.Machine
end

