-- ==== Sys2Proof/Machine/Coherent.lean ====
section
/-! DEFINITION. Coherent accesses: uncached operations at the home (R173, R174, R186), the cache of a Room (R176 to
R178, R187), and the cache-port accesses of LDS, STS, ATOM, SIGNAL and WAIT (R97, R98, R172). -/

namespace Sys2Proof.Machine

/-! ### Operations at the home (R186) -/

/-- Whether a kind of access writes. -/
def writes : AccKind → Bool
  | .read => false
  | .await _ => false
  | _ => true

/-- The bytes that an operation leaves in the word it acts on, when it writes: R98 for atomics, the maximum for SIGNAL
and events (R97, R217). -/
def newBytes (kind : AccKind) (old : List Byte) : Option (List Byte) :=
  let o : W64 := BitVec.ofNat 64 (leNat old)
  match kind with
  | .read => none
  | .await _ => none
  | .write b => some b
  | .atomic op b d =>
    if op.toNat = 6 && o != d then none else some (leBytes 8 (atomic op.toNat o b d fp32Add).toNat)
  | .signal v => some (leBytes 8 (max o.toNat v.toNat))
  | .event v => some (leBytes 8 (max o.toNat v.toNat))

/-- One uncached operation on n bytes at local address a, whole at its moment; it waits while a transaction on one of
its lines is open, and a WAIT waits until its word is large enough (R186).  A write of another length than its access is
refused before it comes here (R246). -/
def State.homeOp (s : State) (a n : Nat) (kind : AccKind) : Got (List Byte) × State :=
  if (linesOf a n).any s.isBusy then (.wait, s)
  else match kind with
    | .read =>
      if s.coherentPoison a n then (.poisoned, s.countUncached a)
      else let (b, s) := s.uncachedRead a n; (.ok b, s.countUncached a)
    | .await v =>
      if s.coherentPoison a n then (.poisoned, s.countUncached a)
      else
        let (b, s) := s.uncachedRead a n
        (if v.toNat ≤ leNat b then .ok b else .wait, s.countUncached a)
    | .write bytes =>
      match s.uncachedWrite a bytes with
      | some (s, ok) => (if ok then .ok [] else .poisoned, s.countUncached a)
      | none => (.wait, s)
    | kind =>
      let s := (linesOf a n).foldl State.recallLine s
      if s.poisonedAt a n then (.poisoned, s.countUncached a)
      else
        let old := s.coherentBytes a n
        match s.uncachedWrite a ((newBytes kind old).getD old) with
        | some (s, ok) => (if ok then .ok old else .poisoned, s.countUncached a)
        | none => (.wait, s)

/-- One operation at another module, or at this one through its own Windows (R242, R246). -/
def State.remoteOp (s : State) (port ctx f n : Nat) (kind : AccKind) : Got (List Byte) × State :=
  if s.isOwn f then
    match s.allow (s.ownAccess ctx f n kind) with
    | some a => s.homeOp a n kind
    | none => (.access, s.countRefused (s.ownAccess ctx f n kind))
  else match s.remotes.find? fun x => x.is f n kind && x.by ctx (portRoom port) with
    | some x =>
      match x.answer with
      | none => (.wait, s)
      | some (code, b) =>
        let s := { s with remotes := removeFirst (fun x => x.is f n kind && x.by ctx (portRoom port)) s.remotes }
        (if code = 0 then .ok b else if code = 1 then .access else .poisoned, s)
    | none =>
      match s.route (requesterHall port) (fabricPlane f) (fabricNode f) with
      | none => (.poisoned, s)
      | some p =>
        let q : RemoteReq := { suite := s.suiteOfCtx ctx, ctx, room := portRoom port, fabric := f, len := n, kind }
        (.wait, State.emit { s with remotes := s.remotes ++ [q] } (.remote p f n (s.houseOf ctx) kind))

/-- One operation on host memory as a read, and a write of what it leaves; a WAIT reads again until its word is large
enough (R173, R243, log entry 17). -/
def State.hostOp (s : State) (port ctx f n : Nat) (kind : AccKind) : Got (List Byte) × State :=
  match kind with
  | .write b =>
    match s.writePiece ctx false f b with
    | some (.ok _, s) => (.ok [], s)
    | some (.access, s) => (.access, s)
    | some (_, s) => (.poisoned, s)
    | none => (.wait, s)
  | kind =>
    match s.peek port ctx f n false with
    | .wait => (.wait, s.request port ctx (f, n, false))
    | .access => (.access, State.consume port ctx false s (f, n, false))
    | .poisoned => (.poisoned, State.consume port ctx false s (f, n, false))
    | .ok old =>
      let s := State.consume port ctx false s (f, n, false)
      match kind with
      | .await v => (if v.toNat ≤ leNat old then .ok old else .wait, s)
      | kind =>
        match newBytes kind old with
        | some b =>
          match s.writePiece ctx false f b with
          | some (_, s) => (.ok old, s)
          | none => (.ok old, s)
        | none => (.ok old, s)

/-! ### The cache of a Room (R176 to R178) -/

/-- Sets of a cache portion of so many bytes. -/
def cacheSets (bytes : Nat) : Nat := bytes / 1024
/-- The set of a line: the line address bits directly above bit 6 (R176). -/
def setOf (sets l : Nat) : Nat := if sets = 0 then 0 else l % sets
def wayKeys (set : Nat) : List Nat := span (set * 8) 8

/-- The way of a set that holds a line. -/
def Cache.wayOf (c : Cache) (set l : Nat) : Option Nat :=
  (List.range 8).find? fun w => ((Store.get none c.lines (set * 8 + w)).map (·.addr)) == some l
/-- A way of a set that holds nothing. -/
def Cache.freeWay (c : Cache) (set : Nat) : Option Nat :=
  (List.range 8).find? fun w => (Store.get none c.lines (set * 8 + w)).isNone

/-- Bit i of a set's tree. -/
def setBit7 (t : BitVec 7) (i : Nat) (v : Bool) : BitVec 7 :=
  if v then t ||| (1#7 <<< i) else t &&& ~~~(1#7 <<< i)
/-- Point the tree away from a way that was used (tree pseudo-LRU, R176; log entry 18). -/
def plruTouch (t : BitVec 7) (w : Nat) : BitVec 7 :=
  let b2 := w / 4
  let b1 := w / 2 % 2
  let t := setBit7 t 0 (b2 = 0)
  let t := setBit7 t (1 + b2) (b1 = 0)
  setBit7 t (3 + 2 * b2 + b1) (w % 2 = 0)
/-- The way that the tree points at. -/
def plruVictim (t : BitVec 7) : Nat :=
  let bit (i : Nat) : Nat := if t.getLsbD i then 1 else 0
  let b2 := bit 0
  let b1 := bit (1 + b2)
  4 * b2 + 2 * b1 + bit (3 + 2 * b2 + b1)

def Cache.touch (c : Cache) (set w : Nat) : Cache :=
  { c with plru := Store.modify 0 c.plru set (plruTouch · w) }

/-- A coherence message is sent: it is on its way, as a packet of VC1 or VC2 between the Room or home that sends it and the one it
goes to (R125, R181). -/
def State.send (s : State) (m : CohMsg) : State :=
  let site (e : Option Nat) : Site := match e with | some r => .room r | none => .stack (homeOf m.line)
  let s : State := { s with net := s.net ++ [m] }
  s.inject (if m.onVc1 then 1 else 2) (s.shareOf m.room) (if m.bytes.isSome then 2 else 1) (site m.ends.1) (site m.ends.2) (.coherence m)

/-- The home of a line caches it: its directory works (R193). -/
def State.cacheable (s : State) (r l : Nat) : Bool :=
  decide (0 < s.portion r) && (s.floor (homeOf l)).directoryWorks

/-- Make a way free in the set of a line: the victim of the tree is evicted, its PUTM, PUTE or PUTS on its way, a dirty
one held in the write-back buffer (R176 to R178, R181).  None while the buffer is full. -/
def State.makeRoom (s : State) (r l : Nat) : Option State :=
  let set := setOf (cacheSets (s.portion r)) l
  let c := (s.room r).cache
  if (c.wayOf set l).isSome || (c.freeWay set).isSome then some s
  else if 8 ≤ c.writeBack.length then none
  else
    let w := plruVictim (Store.get 0 c.plru set)
    match Store.get none c.lines (set * 8 + w) with
    | none => some s
    | some x =>
      let dropped (c : Cache) : Cache := { c with lines := Store.set none c.lines (set * 8 + w) none }
      if isDirty x.st then
        let s := s.modCache r fun c => { dropped c with writeBack := c.writeBack ++ [x] }
        let s := s.enqueue (cachePort r) (x.addr * 128) 128 true none (told := true)
        some (s.send { kind := .putm, room := r, line := x.addr, bytes := some x.data })
      else
        let s := s.modCache r dropped
        some (s.send { kind := if x.st == .e then .pute else .puts, room := r, line := x.addr })

/-- Ask the home for a line (R182). -/
def State.startMiss (s : State) (r l : Nat) (exclusive : Bool) : State :=
  match (s.room r).cache.miss with
  | some _ => s
  | none =>
    match s.makeRoom r l with
    | none => s
    | some s =>
      let s := s.modCache r fun c => { c with miss := some { line := l, exclusive } }
      let s := s.enqueue (cachePort r) (l * 128) 128 false none (told := (s.lineElsewhere l).isSome)
      s.send { kind := if exclusive then .getm else .gets, room := r, line := l }

/-- Put a line into a Room's cache, in the way that holds it or in a free one. -/
def Cache.install (c : Cache) (set : Nat) (x : CacheLine) : Cache :=
  match (c.wayOf set x.addr).orElse fun _ => c.freeWay set with
  | some w => { c with lines := Store.set none c.lines (set * 8 + w) (some x) }.touch set w
  | none => c

/-- Replace bytes from offset k of a list. -/
def splice (l : List Byte) (k : Nat) (b : List Byte) : List Byte := l.take k ++ b ++ l.drop (k + b.length)

/-- An operation on n bytes at a in the Room's own cache, or the miss that it starts (R177, R182, R187, R189). -/
def State.cachedOp (s : State) (r a n : Nat) (kind : AccKind) : Got (List Byte) × State :=
  let l := lineOf a
  let set := setOf (cacheSets (s.portion r)) l
  let c := (s.room r).cache
  match c.line? l with
  | none => (.wait, s.startMiss r l (writes kind))
  | some x =>
    let old := (x.data.drop (a % 128)).take n
    let touched := s.modCache r fun c => match c.wayOf set l with | some w => c.touch set w | none => c
    if writes kind then
      if x.st == .m || x.st == .e then
        match newBytes kind old with
        | some b =>
          let written := touched.modCache r (·.mapLine l fun y => some { y with st := .m, data := splice y.data (a % 128) b })
          (.ok old, written.wakeLine l)
        | none => (.ok old, touched)
      else (.wait, s.startMiss r l true)
    else match kind with
      | .await v => (if v.toNat ≤ leNat old then .ok old else .wait, touched)
      | _ => (.ok old, touched)

/-! ### The cache port (R159, R172, R173) -/

/-- How a cache-port access ends. -/
inductive Reach where
  | ok (old : List Byte)
  | wait (s : Nat)
  | retry
  | access
  | poisoned
  | scope
deriving DecidableEq, Repr

/-- The outcome of an operation on a line: a WAIT that is not met parks on its line (R189). -/
def reachOf (kind : AccKind) (line : Option Nat) : Got (List Byte) → Reach
  | .ok b => .ok b
  | .access => .access
  | .poisoned => .poisoned
  | .wait =>
    match kind, line with
    | .await _, some l => .wait l
    | _, _ => .retry

/-- An access of Room r's cache port to n bytes at a virtual address (R97, R172 to R174, R225, R242, R243). -/
def State.portAccess (s : State) (r va n : Nat) (kind : AccKind) : Reach × State :=
  let port := cachePort r
  let ctx := s.ctxOf r
  if s.stalled port ctx then (.retry, s)
  else match State.translateAll port ctx (writes kind) [(va, n)] s with
    | (.wait, s) => (.retry, s)
    | (.access, s) => (.access, s)
    | (.poisoned, s) => (.poisoned, s)
    | (.ok [(f, _, ev)], s) =>
      if writes kind && ev then (.scope, s)
      else if !s.pathOpen port ctx f then (.retry, s)
      else
        let does : AccKind := if s.listener r && writes kind then .read else kind
        match s.target ctx f with
        | .hbm a =>
          if s.cacheable r (lineOf a) then
            let held := ((s.room r).cache.line? (lineOf a)).isSome
            if !held && s.coherentPoison (lineOf a * 128) 128 then (.poisoned, s.enqueue port (lineOf a * 128) 128 false none (told := true))
            else
              let (g, s) := s.cachedOp r a n does
              let parks := ((s.room r).cache.line? (lineOf a)).isSome
              (reachOf does (if parks then some (lineOf a) else none) g, s)
          else
            let busy := s.isBusy (lineOf a)
            let (g, s) := s.homeOp a n does
            let s := match g with
              | .ok _ => (s.traffic port a n (writes does) .none none).enqueue port a n (writes does) none
              | .poisoned => (s.traffic port a n (writes does) .none none).enqueue port a n (writes does) none (told := true)
              | _ => s
            (reachOf does (if busy then none else some (lineOf a)) g, s)
        | .host _ _ => let (g, s) := s.hostOp port ctx f n does; (reachOf does none g, s)
        | .remote f => let (g, s) := s.remoteOp port ctx f n does; (reachOf does none g, s)
    | (.ok _, s) => (.access, s)

/-- What an instruction does with the end of its cache-port access: `k` takes the bytes read, every refusal is its fault
(R97, R116, R151), and what is not there yet is tried again. -/
def State.finish (r : Nat) (kind : AccKind) (k : List Byte → State → Issue) (x : Reach × State) : Issue :=
  match x with
  | (.ok b, s) => k b s
  | (.retry, s) => .stay s
  | (.access, s) => Issue.fault r faultAccess s
  | (.scope, s) => Issue.fault r faultSyncScope s
  | (.poisoned, s) => .stay (s.hardwareFault r)
  | (.wait l, s) =>
    match kind with
    | .await v => .stay (s.modForeman r ({ · with run := .waitSync l v }))
    | _ => .stay s

/-- Fold what a write left in its word into the Course (R102, log entry 19). -/
def State.noteWrite (s : State) (r va : Nat) (kind : AccKind) (old : List Byte) : State :=
  match newBytes kind old with
  | some b => s.modRoom r (·.note spaceDevice va b)
  | none => s

end Sys2Proof.Machine
end

