-- ==== Sys2Proof/Machine/Tiles.lean ====
section
/-! DEFINITION. Tile descriptors, the tile mover and the Room DMA engine: TDLD, TDSET, TDADV, TLOAD, TSTORE, DMAGET,
DMAPUT, DMAWAIT and the end of a transfer (R74, R83 to R87, R102, R110, R112, R240). -/

namespace Sys2Proof.Machine

/-! ### Lanes and their Hods (R74) -/

/-- The physical Brick that serves a lane; the map is rebuilt at every Dispatch Landing (R74). -/
def Room.brickOf (x : Room) (l : Nat) : Nat := (x.laneMap[l]?).getD l
def Room.brick (x : Room) (l : Nat) : Brick := Store.get {} x.bricks (x.brickOf l)
def Room.modBrick (x : Room) (l : Nat) (f : Brick → Brick) : Room :=
  { x with bricks := Store.set {} x.bricks (x.brickOf l) (f (x.brick l)) }

/-- The map of R74: lane l is served by the l-th working Brick. -/
def lanesMapOf (x : Room) (lanes : Nat) : List Nat := ((List.range 256).filter x.brickOk).take lanes

/-- The map is rebuilt, and the Brick that will serve a lane takes what the lane held (R75, R372). -/
def Room.relane (x : Room) (lanes : Nat) : Room :=
  let map := lanesMapOf x lanes
  let held := (List.range (min x.laneMap.length lanes)).map x.brick
  { x with laneMap := map, bricks := (map.zip held).foldl (fun b e => Store.set {} b e.1 e.2) x.bricks }

/-- A Brick is fenced: what it held is lost, and the lanes move at the next Dispatch Landing.  A SIMPLEX Suite that loses a lane's
contents loses data (R75, R372, R374). -/
def State.loseBrick (s : State) (g : Nat) : State :=
  let r := g / 256
  let b := g % 256
  let served := (s.room r).laneMap.contains b
  let s := s.planChange false 1 g fun s => s.modRoom r fun x =>
    { x with deadBricks := x.deadBricks ||| (1#256 <<< b), bricks := Store.set {} x.bricks b {} }
  match (s.room r).member with
  | some m =>
    if served then s.modSuite m.suite fun y => { y with holdNext := if y.mode == .simplex && y.holdNext = 0 then 1 else y.holdNext } else s
  | none => s

/-- Write bytes into a Hod, recorded at lane × 2^16 + offset (R102). -/
def Room.writeHod (x : Room) (l a : Nat) (bytes : List Byte) : Room :=
  (x.modBrick l fun b => { b with hod := Store.setRange 0 b.hod a bytes }).note spaceHod (l * 2 ^ 16 + a) bytes
/-- Write bytes into the Pantry. -/
def Room.writePantry (x : Room) (a : Nat) (bytes : List Byte) : Room :=
  { x with pantry := Store.setRange 0 x.pantry a bytes }.note spacePantry a bytes

/-- Write row m of a tile into the Hod of a lane, or into the Pantry. -/
def Room.putHodRow (x : Room) (l : Nat) (d : Desc) (m : Nat) (v : RowData) : Room :=
  (x.writeHod l (d.rowAddr m) v.elems).writeHod l (d.scaleAddr m).toNat v.scales
def Room.putPantryRow (x : Room) (d : Desc) (m : Nat) (v : RowData) : Room :=
  (x.writePantry (d.rowAddr m) v.elems).writePantry (d.scaleAddr m).toNat v.scales

/-- Copy row i of a Pantry tile to row j of the Hod tile of a lane, and back. -/
def Room.rowToHod (x : Room) (src dst : Desc) (l i j : Nat) : Room := x.putHodRow l dst j (src.readRow x.pantry i)
def Room.rowFromHod (x : Room) (src dst : Desc) (l i j : Nat) : Room := x.putPantryRow dst j (src.readRow (x.brick l).hod i)

/-! ### Descriptor registers (R81, R83, R84) -/

/-- t[TD] = 32 bytes at Pantry offset s[RS], 32-byte aligned (R81, R110). -/
def execTdld (r : Nat) (g : Guard) (td : BitVec 4) (rs : BitVec 5) (s : State) : Host.Outcome State Fault Refusal :=
  foremanOp r g (fun s =>
    let a := ((s.room r).foreman.reg rs).toNat
    if a % 32 != 0 then Issue.fault r faultAlignment s
    else if scratchBytes (s.portion r) < a + 32 then Issue.fault r faultBounds s
    else Issue.regs r s (·.setDesc td ⟨BitVec.ofNat 256 (Memory.readNat (s.room r).pantry a 32)⟩)) s

/-- Set one field of t[TD] from s[RS] (R84). -/
def execTdset (r : Nat) (g : Guard) (td : BitVec 4) (rs : BitVec 5) (mode : BitVec 5) (s : State) :
    Host.Outcome State Fault Refusal :=
  foremanOp r g (fun s =>
    let x := (s.room r).foreman
    match tdset (x.desc td) mode.toNat (x.reg rs) with
    | some d => Issue.regs r s (·.setDesc td d)
    | none => Issue.fault r faultIllegalInstruction s) s

/-- Advance the element base and the scale base of t[TD]; MODE[0] also adds 1 to TILE (R84). -/
def execTdadv (r : Nat) (g : Guard) (td : BitVec 4) (rs : BitVec 5) (mode : BitVec 5) (s : State) :
    Host.Outcome State Fault Refusal :=
  foremanOp r g (fun s => Issue.regs r s fun x => x.setDesc td (tdadv (x.desc td) (mode.getLsbD 0) (x.reg rs))) s

/-! ### TLOAD and TSTORE (R86) -/

/-- MODE[4:3]. -/
def modeHigh (mode : BitVec 5) : Nat := mode.toNat / 8

/-- The lanes that a distribution names: LANE, BCAST and COLUMN; SCATTER names every lane. -/
def lanesNamed (mode lanes : Nat) (v : W64) : List Nat :=
  if mode = 0 then [v.toNat % 256]
  else if mode = 3 then (List.range lanes).filter fun l => l % 16 == v.toNat % 16
  else List.range lanes

/-- The checks of a move between the Pantry tile p and the Hod tile h (R85, R86). -/
def moveFault (p h : Desc) (mode lanes cache : Nat) (v : W64) : Option Nat :=
  firstFault [p.check cache, h.check cache, must (p.space = 0 && h.space = 1) faultBadDescriptor,
    must (p.fmt = h.fmt) faultIllegalFormat,
    if mode = 1 then must (lanes != 0 && p.rows % lanes = 0 && h.rows = p.rows / lanes && h.cols = p.cols) faultShape
    else must (h.rows = p.rows && h.cols = p.cols) faultShape,
    if mode = 0 then must (v.toNat % 256 < lanes) faultBounds else none]

/-- Pantry tile t[TA] to the Hods as tile t[TD] (R86). -/
def execTload (r : Nat) (g : Guard) (td ta : BitVec 4) (rs : BitVec 5) (mode : BitVec 5) (s : State) :
    Host.Outcome State Fault Refusal :=
  foremanOp r g (fun s =>
    let x := (s.room r).foreman
    let p := x.desc ta
    let h := x.desc td
    let lanes := s.lanes r
    let m := modeHigh mode
    match moveFault p h m lanes (s.portion r) (x.reg rs) with
    | some c => Issue.fault r c s
    | none =>
      .done (s.modRoom r fun x =>
        (lanesNamed m lanes (s.room r |>.foreman.reg rs)).foldl (fun x l =>
          iterate (fun j x => x.rowToHod p h l (if m = 1 then l * h.rows + j else j) j) h.rows x) x)) s

/-- Hod tile t[TA] to the Pantry as tile t[TD]; collections 2 and 3 are reserved (R86). -/
def execTstore (r : Nat) (g : Guard) (td ta : BitVec 4) (rs : BitVec 5) (mode : BitVec 5) (s : State) :
    Host.Outcome State Fault Refusal :=
  foremanOp r g (fun s =>
    let x := (s.room r).foreman
    let p := x.desc td
    let h := x.desc ta
    let lanes := s.lanes r
    let m := modeHigh mode
    if 2 ≤ m then Issue.fault r faultIllegalInstruction s
    else match moveFault p h m lanes (s.portion r) (x.reg rs) with
    | some c => Issue.fault r c s
    | none =>
      .done (s.modRoom r fun x =>
        (lanesNamed m lanes (s.room r |>.foreman.reg rs)).foldl (fun x l =>
          iterate (fun j x => x.rowFromHod h p l j (if m = 1 then l * h.rows + j else j)) h.rows x) x)) s

/-! ### The Room DMA engine (R87, R112) -/

/-- The ranges of a tile, each row's elements in order and then each row's scales. -/
def Desc.ranges (d : Desc) : List (Nat × Nat) :=
  ((List.range d.rows).map fun m => (d.rowAddr m, d.rowBytes)) ++
    (if d.blocks = 0 then [] else (List.range d.rows).map fun m => ((d.scaleAddr m % 2 ^ 64).toNat, d.blocks))

/-- The bytes of a tile in the order of its ranges. -/
def Desc.gatherBytes (d : Desc) (mem : Memory) : List Byte := d.ranges.flatMap fun x => Store.range 0 mem x.1 x.2

/-- Hand bytes out to ranges in order. -/
def scatterBytes {σ : Type} (f : Nat → List Byte → σ → σ) : List (Nat × Nat) → List Byte → σ → σ
  | [], _, x => x
  | (a, n) :: rest, b, x => scatterBytes f rest (b.drop n) (f a (b.take n) x)

/-- The checks of a DMA between Pantry tile p and device tile d (R85, R87). -/
def dmaFault (p d : Desc) (cache : Nat) : Option Nat :=
  firstFault [p.check cache, d.check cache, must (p.space = 0 && d.space = 2) faultBadDescriptor,
    must (p.fmt = d.fmt) faultIllegalFormat, must (p.rows = d.rows && p.cols = d.cols) faultShape]

/-- A transfer is issued to the engine under its tag, and its requests wait at the DMA port (R87, R160). -/
def startDma (r : Nat) (isGet : Bool) (p d : Desc) (mode : BitVec 5) (s : State) : Issue :=
  match dmaFault p d (s.portion r) with
  | some c => Issue.fault r c s
  | none =>
    let t : DmaTransfer := { isGet, tag := mode.toNat % 16, pantry := p, device := d, ctx := s.ctxOf r }
    let s := s.modRoom r fun x => { x with dma := x.dma ++ [t] }
    if s.listener r && !isGet then .done s
    else .done (d.ranges.foldl (fun s x => s.enqueueVa (dmaPort r) t.ctx (!isGet) x (.dma r t.tag)) s)

def execDmaget (r : Nat) (g : Guard) (td ta : BitVec 4) (mode : BitVec 5) (s : State) : Host.Outcome State Fault Refusal :=
  foremanOp r g (fun s => startDma r true ((s.room r).foreman.desc td) ((s.room r).foreman.desc ta) mode s) s

def execDmaput (r : Nat) (g : Guard) (td ta : BitVec 4) (mode : BitVec 5) (s : State) : Host.Outcome State Fault Refusal :=
  foremanOp r g (fun s => startDma r false ((s.room r).foreman.desc ta) ((s.room r).foreman.desc td) mode s) s

/-- Whether a tag of the mask has a transfer outstanding (R87). -/
def Room.dmaBusy (x : Room) (mask : BitVec 16) : Bool := x.dma.any fun t => mask.getLsbD t.tag

/-- Wait until every tag of IMM16 has no transfer outstanding (R87). -/
def execDmawait (r : Nat) (g : Guard) (imm : BitVec 16) (s : State) : Host.Outcome State Fault Refusal :=
  foremanOp r g (fun s =>
    if (s.room r).dmaBusy imm then .stay (s.modForeman r ({ · with run := .waitDma imm }))
    else .done s) s

/-- A DMAWAIT whose tags are clear completes. -/
def State.wakeDma (s : State) (r : Nat) : State :=
  match (s.room r).foreman.run with
  | .waitDma mask =>
    if (s.room r).dmaBusy mask then s
    else (s.modForeman r ({ · with run := .running })).advance r
  | _ => s

/-- Remove the element at a position. -/
def removeAt {α : Type} : Nat → List α → List α
  | _, [] => []
  | 0, _ :: xs => xs
  | n + 1, x :: xs => x :: removeAt n xs

/-- A transfer that ends, whichever way, is no longer outstanding: DMAWAIT may complete, and the boundary of a killed
step may be reached (R87, R273). -/
def State.endDma (s : State) (r k : Nat) : State :=
  let s := s.modRoom r fun x => { x with dma := removeAt k x.dma }
  let s := s.wakeDma r
  match s.suiteOf r with
  | some n => s.settle n
  | none => s

/-- Change transfer k of a Room. -/
def State.modDma (s : State) (r k : Nat) (f : DmaTransfer → DmaTransfer) : State :=
  s.modRoom r fun x =>
    match x.dma[k]? with
    | some t => { x with dma := listSet x.dma k (f t) }
    | none => x

/-- Transfer k ends with a fault of its Room, whose Foreman stands where it waits (R116, R151); a transfer of a step that was
killed meanwhile only ends (R273). -/
def State.faultDma (s : State) (r k : Nat) (f : State → State) : State :=
  if (s.stepOf r).isSome then f (s.modRoom r fun x => { x with dma := removeAt k x.dma }) else s.endDma r k

/-- The requests of a transfer whose Room has taken its mark bring it no second one (R151). -/
def State.tellDma (s : State) (r k : Nat) : State :=
  match (s.room r).dma[k]? with
  | none => s
  | some t =>
    let tell (q : MemReq) : MemReq := if q.port == dmaPort r && q.tag == some t.tag then { q with told := true } else q
    let s := s.modReg (dmaPort r) fun g => { g with waiting := g.waiting.map tell }
    { s with pcs := Store.mapValues {} (fun x => { x with queue := x.queue.map tell, inService := x.inService.map tell }) s.pcs }

/-- How a transfer that could not be performed ends: it waits, or its Room faults (R116, R151, R240).  `faults` counts the stalled
ports before: the transfer that raised a new page fault is the one that is stalled, and one that only waits for its answers has
been translated (R238). -/
def State.failDma (s : State) (r k faults : Nat) : Got Unit → State
  | .ok _ => s.endDma r k
  | .wait =>
    if faults < s.stalls.length then s.modDma r k ({ · with stalled := true })
    else if s.stalls.any (·.port == dmaPort r) then s
    else s.modDma r k ({ · with sent := true })
  | .access => s.faultDma r k (·.programFault r faultAccess)
  | .poisoned => (s.tellDma r k).faultDma r k (·.hardwareFault r)

/-- Whether any piece of the ranges lies in an event page (R97, R216). -/
def State.hitsEvent (s : State) (port ctx : Nat) (ranges : List (Nat × Nat)) : Bool :=
  (ranges.flatMap fun x => piecesOf x.1 x.2).any fun x =>
    match (s.translate port ctx x.1 true).1 with
    | .ok _ ev => ev
    | _ => false

/-- Transfer k of a Room's DMA engine performs all its accesses (R87): a DMAGET fills its Pantry tile; a DMAPUT writes
device memory, unless its Room is a listener (R340).  One that lost a packet never ends (R124). -/
def execDmaTransferComplete (r k : Nat) (s : State) : Host.Outcome State Fault Refusal :=
  onUnits (isRoom r) s (
    match (s.room r).dma[k]? with
    | none => s
    | some t =>
      let port := dmaPort r
      let faults := s.stalls.length
      if t.lost then s
      else if t.isGet then
        match s.readMany port t.ctx t.device.ranges false t.sent with
        | (.ok b, s) =>
          (s.modRoom r fun x => scatterBytes (fun a b x => x.writePantry a b) t.pantry.ranges b x).endDma r k
        | (.wait, s) => s.failDma r k faults .wait
        | (.access, s) => s.failDma r k faults .access
        | (.poisoned, s) => s.failDma r k faults .poisoned
      else
        let bytes := t.pantry.gatherBytes (s.room r).pantry
        let noted (s : State) := s.modRoom r fun x => scatterBytes (fun a b x => x.note spaceDevice a b) t.device.ranges bytes x
        if s.listener r then (noted s).endDma r k
        else if s.hitsEvent port t.ctx t.device.ranges then s.faultDma r k (·.programFault r faultSyncScope)
        else
          let (g, s') := s.writeMany port t.ctx t.device.ranges bytes false t.sent
          (match g with | .ok _ => noted s' | _ => s').failDma r k faults g)

end Sys2Proof.Machine
end

