-- ==== Sys2Proof/Machine/Course.lean ====
section
/-! DEFINITION. Barriers (R99, R328, R330), the Course boundary and its digest (R96, R100 to R104, R190, R335), and the
Course overrun (R103). -/

namespace Sys2Proof.Machine

/-! ### Barriers (R99, R328) -/

/-- The release time T of a copy (R328, R330): RAMP after the last arrival, on the Suite's grid. -/
def State.releaseTime (s : State) (n : Nat) : Nat :=
  let t := s.time + 1000 * s.dictGet 0x2430 2
  let grid := 1000 * (s.suite n).grid
  if grid = 0 then t else ceilDiv t grid * grid

/-- The level of a Room's Grout at a time, in sixteenths (R328): it tapers from A by one every TAPER / 16, at once where TAPER is 0,
until the last Room has arrived, and then rises by one every RAMP / 16 so that it reaches A at T. -/
def Grout.levelAt (g : Grout) (now : Nat) : Nat :=
  let tapered (t : Nat) : Nat := if g.taper = 0 then 0 else g.level - (t - g.since) * 16 / g.taper
  match g.ramp with
  | none => tapered now
  | some (last, release, ramp) =>
    if release ≤ now then g.level
    else if ramp = 0 then tapered last
    else max (tapered last) (g.level - ceilDiv ((release - now) * 16) ramp)

/-- The last Room has arrived: every Room of the copy learns T, and its Grout stops tapering (R328). -/
def State.rampUp (s : State) (rooms : List Nat) (release : Nat) : State :=
  rooms.foldl (fun s r => s.modRoom r fun x =>
    { x with grout := x.grout.map fun g => { g with ramp := some (s.time, release, 1000 * s.dictGet 0x2430 2) } }) s

/-- BARRIER arrives and stalls, with Grout at the level A, which is a free value (log entry 89); the last arrival of the copy sets the
release time (R99, R328). -/
def execBarrier (r : Nat) (g : Guard) (imm : BitVec 12) (s : State) : Host.Outcome State Fault Refusal :=
  foremanOp r g (fun s =>
    let n := (s.suiteOf r).getD 0
    let copy := s.copyIdx r
    let b := imm.toNat % 16
    let k := Store.get 0 (s.room r).foreman.barriers b + 1
    let (a, s) := s.draw
    let s := s.modRoom r fun x =>
      { x with
        grout := some { since := s.time, level := a % 17, taper := 1000 * s.dictGet 0x2430 1 }
        foreman := { x.foreman with run := .barrier b, barriers := Store.set 0 x.foreman.barriers b k } }
    let arrived := (s.performers n copy).all fun q => decide (k ≤ Store.get 0 (s.room q).foreman.barriers b)
    let pending := (s.suite n).releases.any fun x => x.1 == copy && x.2.1 == b
    let s := s.control (s.shareOf r) (.room r) (.hall (s.decider n))
    if arrived && !pending then
      let s := (s.controlAll (s.suite n).share (.hall (s.decider n)) (s.performers n copy)).rampUp (s.performers n copy) (s.releaseTime n)
      .stay (s.modSuite n fun x => { x with releases := x.releases ++ [(copy, b, s.releaseTime n)] })
    else .stay s) s

/-- Release one Room from barrier b: Grout stops, its Room-ns are counted, and the program continues (R328, R329). -/
def State.releaseRoom (s : State) (r b : Nat) : State :=
  if (s.room r).foreman.run = .barrier b then
    ((s.endGrout r).modForeman r ({ · with run := .running })).advance r
  else s

/-- At the release time T a barrier completes in every Room of the copy (R328). -/
def execBarrierRelease (suite copy n : Nat) (s : State) : Host.Outcome State Fault Refusal :=
  onUnits (isSuite suite && isCopy copy && isQueue n) s (
    match (s.suite suite).releases.find? fun x => x.1 == copy && x.2.1 == n with
    | none => s
    | some (_, _, t) =>
      if s.time < t then s
      else
        let s := s.modSuite suite fun x => { x with releases := x.releases.filter fun y => !(y.1 == copy && y.2.1 == n) }
        let x := s.suite suite
        (x.members copy ++ x.spareRooms copy).foldl (fun s r => s.releaseRoom r n) s)

/-! ### The Course boundary (R100) -/

/-- The words of a checkpoint in the order in which the digest folds them (R100, R102, log entry 23). -/
def checkpointWords (f : Foreman) : List W64 :=
  let preds := ((List.range 8).map fun k => if f.pred k then 2 ^ k else 0).sum
  let loop (k : Nat) : List W64 :=
    match f.loops[k]? with
    | some l => [BitVec.ofNat 64 (l.first + l.last * 2 ^ 16), BitVec.ofNat 64 l.left]
    | none => [0, 0]
  [BitVec.ofNat 64 f.pc] ++ ((List.range 32).map fun k => f.reg (BitVec.ofNat 5 k)) ++ [BitVec.ofNat 64 preds] ++
    ((List.range 16).flatMap fun k => (List.range 4).map fun j => descWord (f.desc (BitVec.ofNat 4 k)) j) ++
    (List.range 4).flatMap loop

/-- The closed slots in the order in which they were opened, in which their words take their positions in the digest (DEDUCED,
R102 gives no order, log entry 23). -/
def CourseState.closedSlots (c : CourseState) : List GuardSlot := c.slots.reverse.filter fun x => !x.isOpen

/-- The Room's layer totals with those of the Course folded in (R55, R59, R96). -/
def foldTotals (c : CourseState) (t : Store LayerTotals) : Store LayerTotals :=
  let t := c.closedSlots.foldl (fun t x => Store.modify {} t x.layer (·.addWord x.word)) t
  c.relErr.foldl (fun t e => Store.modify {} t e.1 fun x => { x with relErr := maxErr x.relErr e.2 }) t

/-- The checkpoint at the start of a Course (R100, R141). -/
def checkpointOf (f : Foreman) (course : Nat) (totals : Store LayerTotals) : Checkpoint :=
  { course, pc := f.pc, s := f.s, t := f.t, p := f.p, loops := f.loops, barriers := f.barriers, sends := f.sends
    recvs := f.recvs, totals }

/-- Checkpoints that a Foreman keeps (R335). -/
def keptCheckpoints : Nat := 2

/-- A Room goes on into its next Course with the checkpoint of its boundary; the oldest of three is given up (R335).  While the Room
waits at the boundary its Foreman still holds what that checkpoint will hold (log entry 24). -/
def Room.proceed (x : Room) : Room :=
  { x with
    foreman := { x.foreman with run := .running }
    checkpoints := (checkpointOf x.foreman x.course.ordinal x.totals :: x.checkpoints).take keptCheckpoints }

/-- The states of the lane generators at the start of a Course (R50). -/
def seedLanes (seed : W64) (course ordinal lanes : Nat) : Store W64 :=
  iterate (fun l m => Store.set 0 m l (laneSeed seed course ordinal l)) lanes []

/-- A Room at the start of a Course: cleared accumulators, reseeded generators, no slots and no kept sources (R71, R96,
R100). -/
def Room.startCourse (x : Room) (seed : W64) (course ordinal lanes now : Nat) : Room :=
  { x with
    bricks := Store.mapValues {} (fun b => { b with acc := [] }) x.bricks
    rng := seedLanes seed course ordinal lanes
    course := { ordinal := course, start := now } }

/-- Whether every earlier instruction of the Room has completed (R100, R190). -/
def Room.quiet (x : Room) : Bool :=
  x.dma.isEmpty && x.gutter.isEmpty && x.cache.writeBack.isEmpty && x.cache.miss.isNone

/-- End the Course of Room r (R96, R100, R102): its digest is handed over on VC0, and the next Course starts.  `f` is the Foreman as
it goes on. -/
def State.endCourse (s : State) (r : Nat) (f : Foreman) : State :=
  let s := s.writeBackAll r
  let x := s.room r
  let words := x.course.closedSlots.map (·.word.encode) ++ checkpointWords f
  let c := words.foldl CourseState.addWord x.course
  let totals := foldTotals x.course x.totals
  let course := x.course.ordinal + 1
  let seed := ((s.stepOf r).map (·.desc.seed)).getD 0
  let ordinal := s.ordinalOf r
  let lanes := s.lanes r
  let x := { x with foreman := f, totals, digests := x.digests ++ [(x.course.ordinal, c.digest)] }
  (s.setRoom r (x.startCourse seed course ordinal lanes s.time)).control (s.shareOf r) (.room r) (.hall (hallOfRoom r))

/-- The Bricks whose ABFT check tripped in the Room's current Course, by global index (R336). -/
def Room.flaggedBricks (x : Room) (r : Nat) : List Nat := (x.course.flagged.map fun l => 256 * r + x.brickOf l).dedup

/-- Bricks flagged in a SIMPLEX Suite (R369): the step is killed at the end of its Course, and each takes the Brick rung before the
step runs again; one that was flagged in the run before too is fenced instead. -/
def State.killFlagged (s : State) (r : Nat) (bricks : List Nat) : State :=
  match s.suiteOf r, s.stepOf r with
  | some n, some st =>
    if bricks.isEmpty || (s.suite n).protected || st.committing then s
    else
      let bricks := (bricks ++ (s.suite n).running.flatMap fun q => (s.room q).flaggedBricks q).dedup
      let q : Queue := ((s.ctx? st.ctx).map fun c => c.queue st.queue).getD {}
      let again := if q.flagged.1 = q.kills then q.flagged.2 else []
      let s := s.killStep n
      let s := s.modQueue st.ctx st.queue fun q => { q with flagged := (q.kills, bricks) }
      bricks.foldl (fun s g => if again.contains g then s.loseBrick g else s.startRung 1 (.brick g)) s
  | _, _ => s

/-- Courses of the step that are confirmed: every one, unless two copies compare (R100, R333, R334). -/
def State.confirmed (s : State) (r : Nat) : Option Nat :=
  match s.suiteOf r with
  | some n =>
    let x := s.suite n
    if x.protected && x.has 0 && x.has 1 then x.step.map (·.compared) else none
  | none => none

/-- End the current Course; with CONFIRM the Room waits until it is confirmed, and in any case until the Course before
it is (R100, R335).  During a re-run every Room waits for its outcome (log entry 42). -/
def execCourse (r : Nat) (g : Guard) (imm : BitVec 16) (s : State) : Host.Outcome State Fault Refusal :=
  foremanOp r g (fun s =>
    let x := s.room r
    if !x.quiet then .stay s
    else if x.course.openSlots != 0 then Issue.fault r faultOpenGuard s
    else match x.foreman.after x.foreman.pc with
    | none => Issue.fault r faultBounds s
    | some f =>
      let k := x.course.ordinal
      let bricks := x.flaggedBricks r
      let s := s.endCourse r f
      let voting := ((s.suiteOf r).map fun n => (s.suite n).vote.isSome).getD false
      let need := if imm.getLsbD 0 || voting then k + 1 else k
      match s.confirmed r with
      | some c => if need ≤ c then .stay (s.modRoom r Room.proceed) else .stay (s.modForeman r ({ · with run := .confirm need }))
      | none => .stay ((s.modRoom r Room.proceed).killFlagged r bricks)) s

/-- Fold s[RA] into the Course digest (R102). -/
def execDigest (r : Nat) (g : Guard) (ra : BitVec 5) (s : State) : Host.Outcome State Fault Refusal :=
  foremanOp r g (fun s =>
    let w := (s.room r).foreman.reg ra
    .done (s.modRoom r fun x => { x with course := x.course.addWord w })) s

/-- End the Room's part of the step: a final COURSE without CONFIRM, after which the Room idles (R104). -/
def execCommit (r : Nat) (g : Guard) (s : State) : Host.Outcome State Fault Refusal :=
  foremanOp r g (fun s =>
    let x := s.room r
    if !x.quiet then .stay s
    else if x.course.openSlots != 0 then Issue.fault r faultOpenGuard s
    else
      let f := (x.foreman.after x.foreman.pc).getD x.foreman
      let bricks := x.flaggedBricks r
      let s := s.endCourse r f
      .stay ((s.modRoom r fun x => { x with foreman := { x.foreman with run := .committed } }).killFlagged r bricks)) s

/-- A Course that still runs 250 µs after its start is counted and recorded, once; nothing else changes (R103). -/
def execCourseOverrun (r : Nat) (s : State) : Host.Outcome State Fault Refusal :=
  onUnits (isRoom r) s (
    let x := s.room r
    match x.member with
    | none => s
    | some m =>
      if (s.stepOf r).isNone || x.foreman.run == .idle || x.foreman.run == .committed || x.course.overrun then s
      else if s.time ≤ x.course.start + 250000 then s
      else
        let excess := s.time - x.course.start - 250000
        let s := s.modRoom r fun x => { x with course := { x.course with overrun := true } }
        let s := s.modSuite m.suite fun x => { x with overruns := satAdd 32 x.overruns 1 }
        s.report 9 5 2 2 r (s.suite m.suite).owner (Config.detail x.course.ordinal excess))

end Sys2Proof.Machine
end

