-- ==== Sys2Proof/Machine/Gutter.lean ====
section
/-! DEFINITION. Gutter reduction: GSEND, GRECV, GWAIT and the reduction of one 64-byte piece at a node (R132 to
R142). -/

namespace Sys2Proof.Machine

/-! ### Trees and rounds (R133, R134, R136) -/

/-- A tree of the Room's step; a tree without nodes is undefined (R132, R136). -/
def State.tree (s : State) (n t : Nat) : Tree := ((s.suite n).step.map fun st => Store.get {} st.trees t).getD {}

/-- A node that has inputs (R134, R135). -/
def TreeNode.hasInputs (x : TreeNode) : Bool := x.isLocal || x.children != 0
/-- The index of the root: the node with inputs and TOP = 1 (R135). -/
def Tree.root (t : Tree) : Nat := t.nodes.findIdx fun x => x.top && x.hasInputs
/-- The children of a node in ascending SLOT. -/
def Tree.childrenOf (t : Tree) (k : Nat) : List Nat :=
  (List.range 4).filterMap fun slot =>
    (List.range t.nodes.length).find? fun i =>
      match t.nodes[i]? with
      | some x => !x.top && x.parent == k && x.slot == slot
      | none => false
/-- The node of this module where an ordinal contributes, and whether an ordinal receives. -/
def Tree.localNode (t : Tree) (ordinal : Nat) : Option Nat :=
  (List.range t.nodes.length).find? fun i =>
    match t.nodes[i]? with
    | some x => x.port == 0 && x.isLocal && x.ordinal == ordinal
    | none => false
def Tree.receives (t : Tree) (ordinal : Nat) : Bool := t.nodes.any fun x => x.port == 0 && x.recv && x.ordinal == ordinal
/-- Pieces of 64 bytes in a contribution. -/
def Tree.pieces (t : Tree) : Nat := t.bytes / 64

def GutterRound.is (x : GutterRound) (copy tree round : Nat) : Bool := x.copy == copy && x.tree == tree && x.round == round

/-- A round of a Suite, and its change. -/
def Suite.round (x : Suite) (copy tree round : Nat) : GutterRound :=
  (x.rounds.find? (·.is copy tree round)).getD { copy, tree, round }
def Suite.modRound (x : Suite) (copy tree round : Nat) (f : GutterRound → GutterRound) : Suite :=
  if x.rounds.any (·.is copy tree round) then { x with rounds := modifyFirst (·.is copy tree round) f x.rounds }
  else
    let fresh : GutterRound := f { copy, tree, round }
    { x with rounds := x.rounds ++ [fresh] }

/-- The bytes of a contribution or of a node's output for one piece. -/
def GutterRound.input (x : GutterRound) (ordinal piece : Nat) : Option (List Byte) :=
  match Store.get [] x.inputs ordinal with
  | [] => none
  | b => some ((b.drop (64 * piece)).take 64)
def GutterRound.out (x : GutterRound) (node piece : Nat) : Option (List Byte) :=
  if x.lost.contains (node * 65536 + piece) then none
  else match Store.get [] x.outs (node * 65536 + piece) with
  | [] => none
  | b => some b
/-- Whether a node has put out every piece. -/
def GutterRound.whole (x : GutterRound) (t : Tree) (node : Nat) : Bool :=
  (List.range t.pieces).all fun p => (x.out node p).isSome

/-! ### Folding one piece (R138, R139, R140) -/

/-- The 16 words of a piece. -/
def wordsOf (b : List Byte) : List W32 := (List.range 16).map fun i => BitVec.ofNat 32 (leNat ((b.drop (4 * i)).take 4))
def bytesOf (ws : List W32) : List Byte := ws.flatMap fun w => leBytes 4 w.toNat

/-- One operation on one element, and whether it overflowed or saturated (R42, R43, R138). -/
def gutterOp (fmt op : Nat) (a b : W32) : W32 × Bool :=
  if op = 0 then
    if fmt = 0x08 then
      let x := a.toInt + b.toInt
      (BitVec.ofInt 32 (clamp32 x), clamp32 x != x)
    else
      let y := fp32Add a b
      (y, fp32IsFinite a && fp32IsFinite b && fp32IsInf y)
  else if fmt = 0x08 then
    (if op = 1 then (if a.slt b then b else a) else (if b.slt a then b else a), false)
  else (if op = 1 then fp32Max a b else fp32Min a b, false)

/-- A left fold over the inputs of a piece, with the elements that overflowed. -/
def foldPieces (fmt op : Nat) : List (List Byte) → List W32 × List Bool
  | [] => ([], [])
  | x :: xs =>
    xs.foldl (fun acc y =>
      let zs := List.zipWith (gutterOp fmt op) acc.1 (wordsOf y)
      (zs.map (·.1), List.zipWith (fun a b => a || b) acc.2 (zs.map (·.2)))) (wordsOf x, List.replicate 16 false)

/-- The inputs of a node for one piece in the order of its fold: its own contribution and then its children, or with
ORDER = 1 the whole contributions as they finished arriving; none while one is missing (R138, R140). -/
def nodeInputs (x : GutterRound) (t : Tree) (node piece : Nat) : Option (List (List Byte)) :=
  match t.nodes[node]? with
  | none => none
  | some v =>
    let own := if v.isLocal then [(2 * node, x.input v.ordinal piece)] else []
    let kids := (t.childrenOf node).map fun k => (2 * k + 1, x.out k piece)
    let all := own ++ kids
    let order := if x.order == some true then x.arrived else all.map (·.1)
    if all.isEmpty || (all.any fun y => y.2.isNone) then none
    else if x.order == some true && !(all.all fun y => x.arrived.contains y.1) then none
    else some (order.filterMap fun k => (all.find? (·.1 == k)).bind (·.2))

/-! ### Operations on a Room's channels (R136, R137) -/

/-- The first operation of a channel: operations queue on it in program order (R137). -/
def Room.headOf (x : Room) (channel : Nat) : Option GutterOp := x.gutter.find? fun o => o.tree % 8 == channel

def GutterOp.is (o : GutterOp) (isSend : Bool) (tree round : Nat) : Bool :=
  o.isSend == isSend && o.tree == tree && o.round == round

/-- Whether a channel of the mask has an operation (R137). -/
def Room.gutterBusy (x : Room) (mask : Nat) : Bool := x.gutter.any fun o => bitOf mask (o.tree % 8)

/-- A GWAIT whose channels are idle completes. -/
def State.wakeGutter (s : State) (r : Nat) : State :=
  match (s.room r).foreman.run with
  | .waitGutter mask =>
    if (s.room r).gutterBusy mask.toNat then s else (s.modForeman r ({ · with run := .running })).advance r
  | _ => s

/-- The Floor of a node of this module (R134). -/
def State.nodeFloor (s : State) (n copy : Nat) (t : Tree) (k : Nat) : Option Nat :=
  (t.nodes[k]?).bind fun v => if v.port = 0 then (s.roomsAt n copy v.ordinal).head?.map floorOf else none

/-- Whether the links between two nodes of this module are up (R120). -/
def State.nodesLinked (s : State) (n copy : Nat) (t : Tree) (a b : Nat) : Bool :=
  match s.nodeFloor n copy t a, s.nodeFloor n copy t b with
  | some f, some g => s.pathUp f g
  | _, _ => true

/-- A send that stands first on its channel hands its contribution to the router: it arrives at its node (R137, R140, log entry
25). -/
def State.arriveHead (s : State) (n copy r channel : Nat) : State :=
  match (s.room r).headOf channel with
  | none => s
  | some o =>
    let own := 2 * ((s.tree n o.tree).localNode (s.ordinalOf r)).getD 0
    if !o.isSend || ((s.suite n).round copy o.tree o.round).arrived.contains own then s
    else s.modSuite n (·.modRound copy o.tree o.round fun x => { x with arrived := x.arrived ++ [own] })

/-- NaN elements of a tile in the Pantry (R139). -/
def Desc.nans (d : Desc) (pantry : Memory) : Nat :=
  ((List.range d.rows).map fun m => countIf (fun v => v.1 == .nan) (d.decodeRow (d.readRow pantry m))).sum

/-- A GRECV writes its tile and counts into the guard slot that it opened and closed at issue, so that no timing decides which slot
counts (R53, R102, R139, log entry 25). -/
def State.receive (s : State) (r : Nat) (o : GutterOp) (bytes : List Byte) (ovf : Nat) : State :=
  let d := o.tile
  s.modRoom r fun x =>
    let x := scatterBytes (fun a b x => x.writePantry a b) d.ranges bytes x
    { x with course := x.course.countAt o.slot { nan := d.nans x.pantry, accOvf := ovf } }

/-- Complete the receive at the head of a channel if its round has its result. -/
def State.deliverHead (s : State) (n copy r channel : Nat) : State :=
  match (s.room r).headOf channel with
  | none => s
  | some o =>
    if o.isSend then s
    else
      let t := s.tree n o.tree
      let x := (s.suite n).round copy o.tree o.round
      let linked := ((s.nodeFloor n copy t t.root).map fun f => s.pathUp f (floorOf r)).getD true
      if !x.whole t t.root || !linked then s
      else
        let bytes := (List.range t.pieces).flatMap fun p => (x.out t.root p).getD []
        let s := s.modRoom r fun x => { x with gutter := removeFirst (·.is false o.tree o.round) x.gutter }
        (s.receive r o bytes x.overflow.length).arriveHead n copy r channel

/-- Complete every receive of a Room that can complete, in program order on each channel. -/
def State.deliver (s : State) (n copy r : Nat) : State :=
  let tries := (s.room r).gutter.length
  let s := iterate (fun _ s => (List.range 8).foldl (fun s c => s.deliverHead n copy r c) s) tries s
  s.wakeGutter r

/-- All Rooms of a copy take what has arrived. -/
def State.deliverAll (s : State) (n copy : Nat) : State :=
  let x := s.suite n
  (x.members copy ++ x.spareRooms copy).foldl (fun s r => s.deliver n copy r) s

/-- A round whose orders are mixed, or whose crossing edge the modules describe differently, fails with BAD_DESCRIPTOR in the Rooms of
the round (R140, R142). -/
def State.failRound (s : State) (n copy tree round : Nat) : State :=
  let s := s.modSuite n (·.modRound copy tree round ({ · with failed := true }))
  let x := s.suite n
  let rooms := (x.members copy).filter fun r => (s.room r).gutter.any fun o => o.tree == tree && o.round == round
  rooms.foldl (fun s r => s.programFault r faultBadDescriptor) s

/-- The checks of GSEND and GRECV (R85, R136, R140). -/
def gutterFault (d : Desc) (t : Tree) (allowed order det : Bool) (cache : Nat) : Option Nat :=
  firstFault [d.check cache, must (!(order && det)) faultNondeterministic, must (!t.nodes.isEmpty) faultBadDescriptor,
    must allowed faultBounds, must (d.space = 0 && d.bytes = t.bytes) faultShape,
    must (t.op = 3 || d.fmt = t.fmt) faultIllegalFormat]

/-- Join a round: its ORDER is set by the first operation, and a different one, or a round that has failed, fails it (R140). -/
def State.joinRound (s : State) (n copy tree round : Nat) (order : Bool) : State × Bool :=
  let x := (s.suite n).round copy tree round
  match x.order with
  | none => (s.modSuite n (·.modRound copy tree round ({ · with order := some order })), !x.failed)
  | some o => (s, o == order && !x.failed)

/-- Send Pantry tile t[TA] into tree s[RS][11:0]; MODE[0] ORDER (R136, R137, R340).  The bytes sent are those of the issue: what
software writes over them before GWAIT is not interlocked (DESIGN CHOICE, R113, log entry 25).  A listener's send is not performed, and
a send leaves no line in the Course digest, of a listener or of its Room (R102; DEDUCED against R340's words, log entry 91). -/
def execGsend (r : Nat) (g : Guard) (ta : BitVec 4) (rs : BitVec 5) (mode : BitVec 5) (s : State) :
    Host.Outcome State Fault Refusal :=
  foremanOp r g (fun s =>
    let f := (s.room r).foreman
    let n := (s.suiteOf r).getD 0
    let copy := s.copyIdx r
    let tree := (f.reg rs).toNat % 4096
    let order := mode.getLsbD 0
    let d := f.desc ta
    let t := s.tree n tree
    let ordinal := s.ordinalOf r
    match gutterFault d t (t.localNode ordinal).isSome order (s.det r) (s.portion r) with
    | some c => Issue.fault r c s
    | none =>
      let round := Store.get 0 f.sends tree
      let s := s.modForeman r fun f => { f with sends := Store.set 0 f.sends tree (round + 1) }
      if s.listener r then .done s
      else
        let bytes := d.gatherBytes (s.room r).pantry
        let op : GutterOp := { isSend := true, tree, round, tile := d, order, piecesLeft := t.pieces }
        let s := s.modRoom r fun x => { x with gutter := x.gutter ++ [op] }
        let (s, same) := s.joinRound n copy tree round order
        if !same then .stay (s.failRound n copy tree round)
        else
          let s := s.modSuite n (·.modRound copy tree round fun x => { x with inputs := Store.set [] x.inputs ordinal bytes })
          .done (s.arriveHead n copy r (tree % 8))) s

/-- Receive the reduced result of tree s[RS][11:0] into Pantry tile t[TD]; MODE[0] ORDER (R136, R137).  Its guard slot is opened and
closed here, in program order, and counted into when the tile is delivered (R96, R139). -/
def execGrecv (r : Nat) (g : Guard) (td : BitVec 4) (rs : BitVec 5) (mode : BitVec 5) (s : State) :
    Host.Outcome State Fault Refusal :=
  foremanOp r g (fun s =>
    let f := (s.room r).foreman
    let n := (s.suiteOf r).getD 0
    let copy := s.copyIdx r
    let tree := (f.reg rs).toNat % 4096
    let order := mode.getLsbD 0
    let d := f.desc td
    let t := s.tree n tree
    match gutterFault d t (t.receives (s.ordinalOf r)) order (s.det r) (s.portion r) with
    | some c => Issue.fault r c s
    | none =>
      match (s.room r).course.openSlot d.layer d.tile with
      | none => Issue.fault r faultGuardSlots s
      | some c =>
      let round := Store.get 0 f.recvs tree
      let s := s.modForeman r fun f => { f with recvs := Store.set 0 f.recvs tree (round + 1) }
      let op : GutterOp := { isSend := false, tree, round, tile := d, order, piecesLeft := 0
                             slot := c.numberOf fun x => x.hasKey d.layer d.tile && x.isOpen }
      let s := s.modRoom r fun x => { x with gutter := x.gutter ++ [op], course := c.closeSlot d.layer d.tile }
      let (s, same) := s.joinRound n copy tree round order
      if !same then .stay (s.failRound n copy tree round)
      else
        let s' := s.deliver n copy r
        if (s'.room r).foreman.run == .running then .done s' else .stay s') s

/-- Wait until every Gutter channel of IMM16[7:0] is idle (R137). -/
def execGwait (r : Nat) (g : Guard) (imm : BitVec 16) (s : State) : Host.Outcome State Fault Refusal :=
  foremanOp r g (fun s =>
    let mask := imm.toNat % 256
    if (s.room r).gutterBusy mask then .stay (s.modForeman r ({ · with run := .waitGutter (BitVec.ofNat 8 mask) }))
    else .done s) s

/-! ### The reduction of one piece (R138, R142) -/

/-- Whether the Room that contributes at a node has that send at the head of its channel (R137). -/
def State.sendAtHead (s : State) (n copy tree round ordinal : Nat) : Bool :=
  (s.roomsAt n copy ordinal).any fun r =>
    match (s.room r).headOf (tree % 8) with
    | some o => o.is true tree round
    | none => false

/-- The contributing Room has handed one more piece to its router; after the last one its send is complete (R137). -/
def State.tookPiece (s : State) (n copy tree round ordinal : Nat) : State :=
  (s.roomsAt n copy ordinal).foldl (fun s r =>
    let s := s.modRoom r fun x =>
      let ops := modifyFirst (·.is true tree round) (fun o => { o with piecesLeft := o.piecesLeft - 1 }) x.gutter
      { x with gutter := ops.filter fun o => !(o.isSend && o.piecesLeft == 0) }
    let s : State := { s with packets := s.packets ++ [{ vc := 3, cls := s.shareOf r, flits := 1, hops := [{ link := linkOut r 5 }] }] }
    (s.arriveHead n copy r (tree % 8)).deliver n copy r) s

/-- The exclusive or of byte lists. -/
def xorBytes (a b : List Byte) : List Byte := List.zipWith (· ^^^ ·) a b

/-- A Gutter flit leaves through a Mortar port; one XOR parity flit follows every 8 data flits, or the last of a round (R142). -/
def State.sendGutter (s : State) (port suite tree round piece : Nat) (bytes : List Byte) (last : Bool) : State :=
  let s := s.emit (.gutterOut port suite tree round piece bytes)
  let sent := (s.port port).sent ++ [bytes]
  if last || decide (8 ≤ sent.length) then
    (s.emit (.gutterParity port (sent.foldl xorBytes (List.replicate 64 0)))).modPort port ({ · with sent := [] })
  else s.modPort port ({ · with sent })

/-- A piece crosses to another module: the first and the last of a round go with the edge's FMT, OP and BYTES, the last also with the
elements that overflowed so far (R139, R142, log entry 25). -/
def State.crossPiece (s : State) (n copy tree round node piece port : Nat) (bytes : List Byte) : State :=
  let t := s.tree n tree
  let x := (s.suite n).round copy tree round
  let last := x.whole t node
  let first := countIf (fun p => (x.out node p).isSome) (List.range t.pieces) == 1
  let s := if first || last then s.emit (.gutterEdge port n tree round t.fmt t.op t.bytes (if last then x.overflow else [])) else s
  s.sendGutter port n tree round piece bytes last

/-- The packets of one piece of the result: each flit at most once over any link of the routes to the receivers (R138). -/
def State.multicast (s : State) (n copy : Nat) (t : Tree) : State :=
  match (t.nodes[t.root]?).bind fun v => (s.roomsAt n copy v.ordinal).head? with
  | none => s
  | some q =>
    let rooms := (t.nodes.filter fun v => v.recv && v.port == 0).flatMap fun v => s.roomsAt n copy v.ordinal
    (rooms.foldl (fun (acc : List Nat × State) r =>
      let way := ((acc.2.wayOf (.room q) (.room r)).getD []).filter fun h => !acc.1.contains h.link
      if way.isEmpty then acc
      else (acc.1 ++ way.map (·.link), { acc.2 with packets := acc.2.packets ++ [{ vc := 3, cls := acc.2.shareOf r, flits := 1, hops := way }] }))
      ([], s)).2

/-- Where a piece comes from, for the network: the Room of its node, or the Hall of the port through which it arrived. -/
def State.nodeSite (s : State) (n copy : Nat) (v : TreeNode) : Option Site :=
  if v.port = 0 then (s.roomsAt n copy v.ordinal).head?.map .room else some (.hall ((v.port - 1) / 6))

/-- The packet of a piece on its way to the parent's node (R125, R127). -/
def State.sendUp (s : State) (n copy tree round node piece : Nat) (v p : TreeNode) : State :=
  match s.nodeSite n copy v, s.nodeSite n copy p with
  | some a, some b => s.inject 3 (s.suite n).share 1 a b (.piece n copy tree round node piece)
  | _, _ => s

/-- A piece of a node's output: it is kept for the parent, sent through the parent's Mortar port, or, at the root, on its
way to every receiver (R138, R142); a round that completes is counted on its root's Floor (R128). -/
def State.putOut (s : State) (n copy tree round node piece : Nat) (bytes : List Byte) : State :=
  let t := s.tree n tree
  let s := s.modSuite n (·.modRound copy tree round fun x =>
    let x := { x with outs := Store.set [] x.outs (node * 65536 + piece) bytes }
    if x.whole t node && !x.arrived.contains (2 * node + 1) then { x with arrived := x.arrived ++ [2 * node + 1] } else x)
  let s := match t.nodes[node]? with
    | some v =>
      if v.top then s
      else match t.nodes[v.parent]? with
        | some p =>
          let s := s.sendUp n copy tree round node piece v p
          if p.port = 0 then s else s.crossPiece n copy tree round node piece (p.port - 1) bytes
        | none => s
    | none => s
  if node = t.root then
    let s := s.multicast n copy t
    let s := match s.nodeFloor n copy t node with
      | some f => if ((s.suite n).round copy tree round).whole t node then s.bump (0x2820 + f) 4 64 else s
      | none => s
    s.deliverAll n copy
  else s

/-- Whether a node can work on a piece: its router works, its children's outputs reach it, and the piece was not lost (R120, R124). -/
def State.nodeReady (s : State) (n copy tree round node piece : Nat) : Bool :=
  let t := s.tree n tree
  let router := match (t.nodes[node]?).bind fun v => (s.roomsAt n copy v.ordinal).head? with
    | some r => !(s.room r).deadRouter
    | none => true
  router && ((t.childrenOf node).all fun k => s.nodesLinked n copy t k node) &&
    !((s.suite n).round copy tree round).lost.contains (node * 65536 + piece)

/-- A node of this module reduces one 64-byte piece as soon as all its inputs for the piece are present (R138). -/
def execGutterPieceReduce (suite copy tree round node piece : Nat) (s : State) : Host.Outcome State Fault Refusal :=
  onUnits (isSuite suite && isCopy copy && isTree tree node piece) s (
    let t := s.tree suite tree
    let x := (s.suite suite).round copy tree round
    match t.nodes[node]? with
    | none => s
    | some v =>
      if v.port != 0 || t.pieces ≤ piece || (x.out node piece).isSome || !s.nodeReady suite copy tree round node piece then s
      else if v.isLocal && !s.sendAtHead suite copy tree round v.ordinal then s
      else match nodeInputs x t node piece with
      | none => s
      | some ins =>
        let (ws, ovf) := foldPieces t.fmt t.op ins
        let bytes := if t.op = 3 then ins.headD [] else bytesOf ws
        let hits := (List.range 16).filterMap fun i => if ovf[i]? == some true && t.op = 0 then some (16 * piece + i) else none
        let s := s.modSuite suite (·.modRound copy tree round fun x =>
          { x with overflow := x.overflow ++ hits.filter (fun k => !x.overflow.contains k) })
        let s := s.putOut suite copy tree round node piece bytes
        if v.isLocal then s.tookPiece suite copy tree round v.ordinal else s)

end Sys2Proof.Machine
end

