-- ==== Sys2Proof/Machine/Dict.lean ====
section
/-! DEFINITION. The object dictionary: which objects there are, with their rights and lengths (R284 to R287 and the
object tables of every chapter), who may reach them (R288), the checks of a transfer in their order (R289), and how an
answer is sent (R290, R293, R295, R301). -/

namespace Sys2Proof.Machine

/-! ### Abort codes (R295) -/

def abTimeout : Nat := 0x05040000
def abCommand : Nat := 0x05040001
def abMemory : Nat := 0x05040005
def abSequence : Nat := 0x05030000
def abNotPermitted : Nat := 0x06010000
def abReadWo : Nat := 0x06010001
def abWriteRo : Nat := 0x06010002
def abNoObject : Nat := 0x06020000
def abLength : Nat := 0x06070010
def abNoSub : Nat := 0x06090011
def abRange : Nat := 0x06090030
def abHigh : Nat := 0x06090031
def abDisplaced : Nat := 0x08000000
def abState : Nat := 0x08000022

/-! ### Rights and lengths (R284, R285, 00_scope) -/

/-- The right of an object; `hh`, `hhRo` and `hhWo` are the household-scoped ones, and `house0` an entry of a
household's row that household 0 writes (R249). -/
inductive Right where
  | const | ro | rw | wo | boot | hh | hhRo | hhWo | house0
deriving DecidableEq, Repr

/-- The data lengths that an object accepts: exactly n bytes, or 1 to n. -/
inductive Len where
  | exact (n : Nat)
  | upTo (n : Nat)
deriving DecidableEq, Repr

def Len.accepts : Len → Nat → Bool
  | .exact n, k => k == n
  | .upTo n, k => decide (1 ≤ k) && decide (k ≤ n)

/-- An object: its subindex, right and length. -/
structure Obj where
  sub : Nat
  right : Right
  len : Len
deriving DecidableEq, Repr

def obj (right : Right) (n sub : Nat) : Obj := { sub, right, len := .exact n }
def objs (right : Right) (n : Nat) (subs : List Nat) : List Obj := subs.map (obj right n)
def objUpTo (right : Right) (n sub : Nat) : Obj := { sub, right, len := .upTo n }

/-- The index lies in [a, a + n). -/
def within (index a n : Nat) : Bool := decide (a ≤ index) && decide (index < a + n)

/-- An index that is one object, at subindex 0 (R284). -/
def isSingle (index : Nat) : Bool :=
  index == 0x1000 || index == 0x1001 || index == 0x1008 || index == 0x1014 || index == 0x1017 || within index 0x2500 256 ||
    within index 0x5C11 63 || within index 0x5D00 64

/-- Objects of 0x1000 to 0x23FF (R20, R223, R297, R417). -/
def objectsA (i : Nat) : List Obj :=
  if i = 0x1000 || i = 0x1014 then [obj .const 4 0]
  else if i = 0x1001 then [obj .ro 1 0]
  else if i = 0x1008 then [objUpTo .const 16 0]
  else if i = 0x1017 then [obj .rw 2 0]
  else if i = 0x1018 then objs .const 4 [1, 2, 3, 4]
  else if i = 0x2000 then [obj .const 1 1, obj .const 1 2, objUpTo .const 9 3, obj .const 16 4]
  else if i = 0x2001 then
    objs .const 1 [1, 2] ++ objs .const 2 [3, 4] ++ objs .const 4 [5, 6] ++ objs .const 2 [7] ++ objs .const 4 [8, 9] ++
      objs .const 2 [10, 11] ++ objs .const 4 [12]
  else if i = 0x2002 then [obj .const 1 1, obj .const 8 2, obj .const 1 3, obj .const 4 4, obj .const 2 5, obj .const 2 6]
  else if i = 0x2003 then
    [obj .const 1 1, obj .const 2 2, obj .const 2 3, obj .const 1 4, obj .const 2 5, obj .const 2 6, obj .const 1 7,
      obj .ro 1 8]
  else if i = 0x2004 then [obj .const 2 1, obj .const 1 2, obj .const 1 3, obj .ro 2 4, obj .ro 2 5]
  else if i = 0x2008 then [obj .ro 2 1, obj .ro 1 2, obj .ro 1 3]
  else if within i 0x2010 12 then [obj .ro 1 1, obj .ro 2 2, obj .ro 1 3, obj .ro 1 4]
  else if i = 0x2100 then
    [obj .const 1 1, obj .ro 1 2] ++ objs .ro 32 (span 0x10 11) ++ objs .ro 32 (span 0x20 11)
  else if within i 0x2110 2 then [obj .ro 1 1, obj .ro 4 2, obj .ro 48 3, obj .ro 4 4]
  else if i = 0x2200 then [obj .ro 1 1, obj .ro 4 2, obj .ro 2 3, obj .ro 4 4, obj .ro 8 5]
  else if within i 0x2201 4 then [obj .ro 4 1, obj .ro 2 2, obj .ro 2 3, obj .ro 4 4, obj .ro 1 5]
  else if within i 0x2220 80 then objs .ro 40 (span 1 16)
  else if within i 0x2290 4 then objs .ro 4 (span 1 32)
  else []

/-- Objects of 0x2400 to 0x2BFF (R128, R170, R194, R303, R332, R444). -/
def objectsB (i : Nat) : List Obj :=
  if i = 0x2400 || i = 0x2600 || i = 0x2800 || i = 0x2840 || i = 0x2850 || i = 0x2A00 then [obj .const 1 1]
  else if i = 0x2401 then
    [obj .rw 2 1, obj .wo 1 2, obj .rw 1 3, obj .rw 8 4, obj .boot 1 5, obj .boot 2 6, obj .rw 2 7]
  else if i = 0x2402 then objs .ro 2 [1, 2, 3, 4] ++ [obj .ro 8 5, obj .ro 2 6, obj .ro 1 7]
  else if i = 0x2410 then [obj .ro 4 1, obj .ro 8 2, obj .ro 8 3, obj .ro 4 4]
  else if within i 0x2420 4 then
    objs .ro 2 [1, 2, 3, 4] ++ [obj .ro 1 5, obj .ro 2 6, obj .ro 4 7, obj .ro 2 8, obj .ro 4 9]
  else if i = 0x2430 then [obj .rw 1 1, obj .rw 1 2, obj .ro 8 4]
  else if within i 0x2440 8 then [obj .ro 1 1, obj .ro 8 2, obj .ro 4 3]
  else if within i 0x2500 256 then [obj .hh 4 0]
  else if within i 0x2601 4 then
    [obj .boot 1 1, obj .ro 1 2, obj .ro 2 3, obj .ro 1 4, obj .ro 4 5, obj .const 1 6]
  else if within i 0x2610 128 then
    objs .ro 4 (span 1 6) ++ objs .ro 8 [7, 8] ++ objs .ro 1 [9, 10] ++ objs .ro 8 [11]
  else if within i 0x2690 4 then objs .ro 4 (span 1 8)
  else if within i 0x2700 162 then objs .ro 32 (span 1 16)
  else if within i 0x27C0 2 then objs .boot 8 (span 1 11)
  else if within i 0x2810 3 then objs .boot 1 (span 1 8)
  else if i = 0x2813 then [obj .boot 1 1]
  else if within i 0x2820 4 then [obj .ro 8 1, obj .ro 2 2, obj .ro 4 3, obj .ro 8 4]
  else if i = 0x2828 then objs .ro 4 [1, 2]
  else if within i 0x2841 4 then [obj .ro 4 1] ++ objs .ro 8 (span 2 5) ++ objs .ro 4 [7, 8]
  else if i = 0x2851 then objs .boot 1 [1, 2, 3] ++ [obj .rw 2 4, obj .rw 1 5]
  else if within i 0x2860 12 then [obj .boot 1 1, obj .ro 1 2, obj .ro 8 3, obj .ro 4 4]
  else if i = 0x2900 then objs .const 1 [1, 2, 3] ++ [obj .ro 1 4, obj .ro 4 5, obj .ro 4 6]
  else if i = 0x2901 then objs .boot 1 (span 1 5)
  else if within i 0x2910 2 then objs .boot 1 (span 1 16)
  else if within i 0x2920 2 then objs .boot 1 (span 1 127)
  else if within i 0x2930 4 then
    [obj .hh 2 1, obj .hh 8 2, obj .hh 1 3, obj .hh 8 4, obj .hh 4 5, obj .hhRo 4 6, obj .hhRo 4 7]
  else if i = 0x2950 then [obj .ro 1 1]
  else if i = 0x2A01 then objs .boot 1 (span 1 4) ++ [obj .ro 1 5, obj .ro 4 6]
  else if i = 0x2A02 then [obj .boot 2 1]
  else []

/-- Objects of 0x3000 to 0x4FFF: households, Suites and contexts (R60, R132, R200, R201, R226, R235, R236, R245, R249,
R255). -/
def objectsC (i : Nat) : List Obj :=
  if within i 0x3001 63 then
    [obj .hhRo 1 1, obj .house0 1 2, obj .hhRo 2 3, obj .hhRo 4 4, obj .hhRo 4 5, obj .hhRo 1 6, obj .hhRo 2 7,
      obj .hhWo 4 0x20, obj .hhRo 4 0x21, obj .hhWo 1 0x22, obj .house0 8 0x30, obj .hhWo 8 0x40, obj .hhRo 8 0x41,
      obj .hhWo 8 0x44, obj .hhWo 8 0x46, obj .hh 8 0x48, obj .hh 4 0x49, obj .hhRo 4 0x4A, obj .hh 4 0x4B,
      obj .hhRo 4 0x4C, obj .hhWo 32 0x50, obj .hhRo 2 0x51, obj .hhWo 2 0x52, obj .hhRo 2 0x53, obj .hhRo 4 0x54,
      obj .hhWo 1 0x60, obj .hhWo 8 0x61, obj .hhWo 8 0x62, obj .hhRo 4 0x63, obj .hhRo 8 0x64]
  else if within i 0x3100 256 then
    [obj .hhRo 1 1, obj .hhRo 1 2, obj .hhRo 1 3, obj .hh 2 4, obj .hh 1 5, obj .hh 1 6, obj .hh 1 7, obj .hh 2 8,
      obj .hh 8 9, obj .hh 8 10, obj .hh 1 11, obj .hh 1 12, objUpTo .hhWo 260 0x10, obj .hhWo 2 0x11, obj .hhWo 4 0x12,
      obj .hhWo 2 0x13, obj .hhWo 2 0x14, obj .hhWo 1 0x15, obj .hhWo 1 0x16, obj .hhRo 2 0x20, obj .hhRo 1 0x21,
      objUpTo .hhRo 8192 0x22, obj .hhRo 4 0x23, obj .hhRo 4 0x24, obj .hhRo 8 0x25, obj .hhRo 16 0x26, obj .hhRo 4 0x27,
      obj .hhRo 4 0x28, obj .hhRo 8 0x29, obj .hhRo 8 0x2A]
  else if within i 0x4000 4096 then
    [obj .hhRo 1 1, obj .hhRo 1 2, obj .hhRo 4 3, obj .hhRo 8 4, obj .hhWo 1 5, obj .hhWo 8 6, obj .hhWo 1 7,
      obj .hhWo 1 8, obj .hh 4 9, obj .hhRo 8 10, obj .hhRo 8 11, obj .hh 8 0x10, obj .hh 2 0x11, obj .hh 8 0x12,
      obj .hh 2 0x13] ++ objs .hhRo 32 (span 0x20 16)
  else []

/-- Objects of 0x5000 to 0x5FFF (R276, R355, R379, R387 to R390, R409). -/
def objectsD (i : Nat) : List Obj :=
  if i = 0x5000 then [obj .const 1 1, obj .rw 1 2, obj .rw 1 3]
  else if within i 0x5001 2 then
    [obj .ro 4 1, obj .rw 4 2, obj .ro 4 3, obj .ro 1 4, obj .ro 8 5, obj .ro 4 6]
  else if within i 0x5004 2 then objs .ro 4 (span 2 11)
  else if within i 0x5010 16 then objs .ro 32 (span 1 128)
  else if i = 0x5020 then objs .rw 4 (span 1 9)
  else if i = 0x5021 then objs .ro 8 (span 1 9)
  else if i = 0x5030 then [obj .wo 1 1]
  else if within i 0x5031 2 then objs .ro 4 (span 1 5)
  else if i = 0x5038 then [obj .ro 1 1]
  else if within i 0x5039 2 then objs .ro 32 (span 1 8)
  else if within i 0x5100 256 then [obj .hhRo 4 1, obj .hh 1 2, obj .hhRo 1 3, obj .hhWo 1 4, obj .hh 1 5]
  else if i = 0x5200 then [obj .const 1 1, obj .ro 4 2, obj .ro 1 3, obj .ro 4 4, obj .ro 1 5]
  else if i = 0x5201 then objs .ro 8 [1, 2] ++ objs .ro 4 [3, 4, 5] ++ objs .ro 8 [6]
  else if i = 0x5202 then [obj .rw 2 1]
  else if within i 0x5300 256 then [obj .hhRo 1 1, obj .hhRo 4 2, obj .hhRo 4 3, obj .hhRo 8 4]
  else if i = 0x5400 then [obj .const 1 1]
  else if i = 0x5401 then [obj .ro 1 1, obj .wo 176 2]
  else if i = 0x5402 then [obj .ro 1 1, obj .ro 1 2, obj .ro 48 3, obj .wo 96 4]
  else if i = 0x5410 then [obj .ro 1 1, obj .ro 1 2, obj .ro 16 3]
  else if i = 0x5440 then [obj .ro 97 1, objUpTo .boot 8192 2]
  else if within i 0x5501 63 then
    [obj .hhRo 8 1, obj .hhRo 48 2, obj .hhRo 48 3, objUpTo .hhRo 8192 4, obj .hhRo 1 5, objUpTo .hhWo 8192 0x10,
      objUpTo .hhRo 8192 0x11, obj .hhWo 33 0x20, objUpTo .hhRo 2032 0x21, obj .hhWo 1740 0x22, obj .hhWo 1 0x23,
      obj .hhWo 32 0x30, obj .hhRo 4 0x31]
  else if within i 0x5800 256 then [obj .const 1 1] ++ objs .hhRo 8 (span 2 8)
  else if i = 0x5C00 then [obj .ro 1 2, obj .ro 48 3, obj .boot 4 4, obj .boot 1 5]
  else if within i 0x5C11 63 then [obj .boot 64 0]
  else if within i 0x5D00 64 then [obj .boot 2 0]
  else []

/-- Every object of an index but subindex 0 of an index that has subindices. -/
def objectsAt (i : Nat) : List Obj :=
  if i < 0x2400 then objectsA i else if i < 0x3000 then objectsB i else if i < 0x5000 then objectsC i else objectsD i

/-- The object at an index and subindex; subindex 0 of an index with subindices is the highest one, CONST (R284). -/
def object? (i sub : Nat) : Option Obj :=
  if objectsAt i = [] then none
  else if sub = 0 && !isSingle i then some (obj .const 1 0)
  else (objectsAt i).find? (·.sub == sub)

/-! ### Rows and requesters (R288) -/

/-- The household that a channel is bound to; none for an unbound channel. -/
def State.boundTo (s : State) : Chan → Option Nat
  | .window h n => let v := s.dictGet (0x2910 + h) (1 + n); if v < 64 then some v else none
  | .can h node => let v := s.dictGet (0x2920 + h) node; if v < 64 then some v else none
  | .tunnel _ _ hh => some hh
  | .own => some 0

/-- The Hall that a channel belongs to. -/
def State.chanHall (s : State) : Chan → Nat
  | .window h _ => h
  | .can h _ => h
  | _ => s.senior

def publicRange (i : Nat) : Bool := within i 0x1000 0x1000 || within i 0x2000 0x400 || within i 0x2A00 0x200

/-- The Suite that binds an ingest port, hall × 2 + n (R260). -/
def State.portSuite (s : State) (p : Nat) : Option Nat := (s.suites.find? fun e => e.2.ports.contains (16 + p)).map (·.1)

def State.suiteOwner (s : State) (n : Nat) : Option Nat :=
  if (s.suite n).st == .free then none else some (s.suite n).owner

/-- Whether an index is a household-scoped row. -/
def isRow (i : Nat) : Bool :=
  within i 0x3001 63 || within i 0x5501 63 || within i 0x3100 256 || within i 0x5100 256 || within i 0x5300 256 ||
    within i 0x5800 256 || within i 0x2500 256 || within i 0x4000 4096 || within i 0x2930 4

/-- The household that owns a row (R288). -/
def State.rowOwner (s : State) (i : Nat) : Option Nat :=
  if within i 0x3001 63 then some (i - 0x3000)
  else if within i 0x5501 63 then some (i - 0x5500)
  else if within i 0x3100 256 || within i 0x5100 256 || within i 0x5300 256 || within i 0x5800 256 || within i 0x2500 256 then
    s.suiteOwner (i % 256)
  else if within i 0x4000 4096 then (s.ctx? (i - 0x4000)).map (·.household)
  else if within i 0x2930 4 then (s.portSuite (i - 0x2930)).bind s.suiteOwner
  else none

/-- Whether an index exists: those of contexts that do not exist, and of envelopes that the script did not write, do not
(R24, R281, R388). -/
def State.indexExists (s : State) (i : Nat) : Bool :=
  objectsAt i != [] && (!within i 0x4000 4096 || (s.ctx? (i - 0x4000)).isSome) &&
    (!within i 0x5C11 63 || s.blob i 0 != [])

/-- Check 1: the requester may reach the object; an absent entry of the public ranges is open to everyone (R288). -/
def State.reaches (s : State) (req : Option Nat) (i : Nat) (right : Option Right) (write : Bool) : Bool :=
  if isRow i then
    match req with
    | some 0 => !write || right == some .house0
    | some h => s.rowOwner i == some h && !(write && right == some .house0)
    | none => false
  else if publicRange i then
    match right with
    | none => true
    | some .const => !write
    | some .ro => !write
    | some .wo => req == some 0
    | some _ => !write || req == some 0
  else req == some 0

/-- The index ranges that are open before stage 9 (R304), and those that stay open once the module has stopped (R377,
R382, R405). -/
def openEarly (i : Nat) : Bool := within i 0x1000 0x1000 || within i 0x2000 0x200
def State.openStopped (s : State) (i : Nat) : Bool :=
  if s.security.lifecycle = 3 then openEarly i || within i 0x5400 0x20
  else within i 0x1000 0x1000 || within i 0x2100 0x100 || within i 0x5039 2 || (s.lockout && within i 0x5400 0x20)

/-- Whether the dictionary is closed to a transfer (R304, R377). -/
def State.closedTo (s : State) (q : Chan) (i : Nat) (write : Bool) : Bool :=
  match q with
  | .own => false
  | _ =>
    if s.failSilent then write || !s.openStopped i
    else decide ((s.hall (s.chanHall q)).up.stage < 9) && (write || !openEarly i)

/-- Whether a right lets a download through: BOOT objects only from the boot script (R289, R387, R414). -/
def Right.writable (q : Chan) : Right → Bool
  | .const => false
  | .ro => false
  | .hhRo => false
  | .boot => q == .own
  | _ => true

def Right.readable : Right → Bool
  | .wo => false
  | .hhWo => false
  | .house0 => false
  | _ => true

/-- Checks 1 to 3 of R289 with R304 before them; the abort code of the first that fails.  A stopped module answers the uploads
that are left to it whoever asks (R304, R377, R382, R405; log entry 62). -/
def State.gate (s : State) (q : Chan) (i sub : Nat) (write : Bool) : Option Nat :=
  let o := object? i sub
  if s.closedTo q i write then some abState
  else if !s.failSilent && !s.reaches (s.boundTo q) i (o.map (·.right)) write then some abNotPermitted
  else if !s.indexExists i then some abNoObject
  else match o with
    | none => some (if write && sub = 0xFF && !isSingle i then abWriteRo else abNoSub)
    | some o =>
      if write then (if o.right.writable q then none else some abWriteRo)
      else if o.right.readable then none else some abReadWo

/-! ### Serving a download (R289, R290, R293) -/

/-- Refuse a transfer; NOT_PERMITTED is withheld until its moment (R290). -/
def State.refuse (s : State) (q : Chan) (i sub code : Nat) : State :=
  if code = abNotPermitted then { s with withheld := s.withheld ++ [{ chan := q, index := i, sub, arrived := s.time }] }
  else s.reply q i sub code []

/-- What a download does once checks 1 to 4 have passed: the abort code of the first later check that fails, or the new
state and whether the transfer completes now (R293). -/
abbrev Act := State → Except Nat (State × Bool)

/-- An effect behind its checks, in the order of R289. -/
def judged (checks : List (Option Nat)) (s : State) (now : Bool := true) : Except Nat (State × Bool) :=
  match firstFault checks with
  | some c => .error c
  | none => .ok (s, now)

/-- A channel that carries nothing: one of a lost Hall, or any but CAN FD once the module is fail-silent (R292, R377). -/
def State.chanDead (s : State) : Chan → Bool
  | .window h _ => (s.hall h).lost || s.failSilent
  | .can h _ => (s.hall h).lost
  | .tunnel _ _ _ => s.failSilent
  | .own => false

/-- Serve a download (R289): checks 1 to 4, then the object's own checks and its effect.  What Hall E accepts while Hall W
is lost is noted, with the setting's old value (R347). -/
def State.download (q : Chan) (i sub : Nat) (data : List Byte) (act : Act) (s : State) : State :=
  if s.asleep || s.chanDead q then s
  else match s.gate q i sub true with
  | some c => s.refuse q i sub c
  | none =>
    if !((object? i sub).map (·.len.accepts data.length)).getD false then s.refuse q i sub abLength
    else match act s with
      | .error c => s.refuse q i sub c
      | .ok (t, now) =>
        let t := if (s.hall 0).lost && q != .own && t.withheld == s.withheld then { t with splitWrites := t.splitWrites ++ [(i, sub, s.dictGet i sub)] } else t
        if now then t.reply q i sub 0 [] else t

/-- Fields of a dictionary value. -/
def fieldOf (b : List Byte) (off n : Nat) : Nat := leNat ((b.drop off).take n)

/-- The version byte of a record, at the given bit (R305). -/
def versionAt (w lo : Nat) : Option Nat := must (bitsOf w (lo + 7) lo = 1) abRange

/-! ### Keystone envelopes (R388) -/

def State.envelope (s : State) (hh : Nat) : List Byte := s.blob (0x5C10 + hh) 0
def State.hasEnvelope (s : State) (hh : Nat) : Bool := s.envelope hh != []
def State.envFlag (s : State) (hh k : Nat) : Bool := bitOf (fieldOf (s.envelope hh) 1 1) k
def State.envModes (s : State) (hh : Nat) : Nat := fieldOf (s.envelope hh) 2 1
def State.envClass (s : State) (hh : Nat) : Nat := fieldOf (s.envelope hh) 3 1
def State.envShare (s : State) (hh : Nat) : Nat := fieldOf (s.envelope hh) 4 1
def State.envSuites (s : State) (hh : Nat) : Nat := fieldOf (s.envelope hh) 5 1
def State.envWindows (s : State) (hh : Nat) : Nat := fieldOf (s.envelope hh) 6 2
def State.envMinRooms (s : State) (hh : Nat) : Nat := fieldOf (s.envelope hh) 8 2
def State.envMaxRooms (s : State) (hh : Nat) : Nat := fieldOf (s.envelope hh) 10 2
def State.envMinPages (s : State) (hh : Nat) : Nat := fieldOf (s.envelope hh) 12 4
def State.envMaxPages (s : State) (hh : Nat) : Nat := fieldOf (s.envelope hh) 16 4
def State.envPorts (s : State) (hh : Nat) : Nat := fieldOf (s.envelope hh) 20 4
/-- POLICY (R389). -/
def State.policy (s : State) : Nat := s.dictGet 0x5C00 4

/-- A household that is served: not INACTIVE (R250). -/
def State.houseActive (s : State) (hh : Nat) : Bool := (s.house hh).st != .inactive

end Sys2Proof.Machine
end

