-- ==== Sys2Proof/Machine/Compose.lean ====
section
/-! DEFINITION. Composing Suites: what accepted changes make of a Suite (R13, R14, R255 to R260), which Rooms the
Steward chooses (R257, R259), the limits of R251 and R165, and how Rooms leave and join at a boundary (R262, R263). -/

namespace Sys2Proof.Machine

/-! ### A Suite after its accepted changes -/

/-- A setting of the Suite entry (R255); DETERMINISTIC and ABFT are ignored in DUPLEX and PAIRED Suites. -/
def Suite.applySetting (x : Suite) (sub v : Nat) : Suite :=
  if sub = 4 then { x with lanes := v }
  else if sub = 5 then { x with share := v }
  else if sub = 6 then { x with cache := v }
  else if sub = 7 then (if x.protected then x else { x with det := v != 0 })
  else if sub = 8 then { x with slice := v }
  else if sub = 9 then { x with dmaReg := BitVec.ofNat 64 v }
  else if sub = 10 then { x with cacheReg := BitVec.ofNat 64 v }
  else if sub = 11 then { x with notify := v }
  else if sub = 12 then (if x.protected then x else { x with abft := v != 0 })
  else x

/-- Put a Room at an ordinal of a copy; ordinals from ROOMS on name the spares (R258, R261). -/
def Suite.place (x : Suite) (copy ordinal : Nat) (r : Option Nat) : Suite :=
  let f (e : Option Nat × Option Nat) := if copy = 0 then (r, e.2) else (e.1, r)
  let n := x.rooms.length
  if ordinal < n then { x with rooms := listSet x.rooms ordinal (f ((x.rooms[ordinal]?).getD (none, none))) }
  else { x with spares := listSet x.spares (ordinal - n) (f ((x.spares[ordinal - n]?).getD (none, none))) }

/-- Who stands at an ordinal of a copy. -/
def Suite.at (x : Suite) (copy ordinal : Nat) : Option Nat :=
  ((x.rooms ++ x.spares)[ordinal]?).bind fun e => if copy = 0 then e.1 else e.2

/-- A group and, in a DUPLEX Suite, its mirror (R256). -/
def Suite.boundNames (x : Suite) (pc : Nat) : List Nat := if x.mode == .duplex then [pc, pc + 64] else [pc]

def Suite.applyChange (x : Suite) : Change → Suite
  | .setting sub v => x.applySetting sub v
  | .grid v => { x with grid := v }
  | .add false rooms _ => { x with rooms := x.rooms ++ rooms }
  | .add true rooms chosen =>
    if chosen then { x with spares := x.spares ++ rooms }
    else { x with spares := x.spares.take x.named ++ rooms ++ x.spares.drop x.named, named := x.named + rooms.length }
  | .remove n => { x with rooms := x.rooms.take (x.rooms.length - n) }
  | .move copy ordinal room => x.place copy ordinal (some room)
  | .bindGroup pc => { x with groups := x.groups ++ (x.boundNames pc).filter fun g => !x.groups.contains g }
  | .unbindGroup pc => { x with groups := x.groups.filter fun g => !(x.boundNames pc).contains g }
  | .bindPort port => { x with ports := if x.ports.contains port then x.ports else x.ports ++ [port] }
  | .unbindPort port => { x with ports := x.ports.filter (· != port) }

/-- Vote spares that a Suite needs per copy (R259). -/
def Suite.sparesNeeded (x : Suite) : Nat := if x.protected then sparesFor x.rooms.length else 0

/-- Spares beyond the number required are removed, highest first (R259). -/
def Suite.trim (x : Suite) : Suite :=
  { x with spares := x.spares.take x.sparesNeeded, named := min x.named x.sparesNeeded }

/-- The Suite with every accepted change applied in order (R14). -/
def Suite.projected (x : Suite) : Suite := (x.changes.foldl Suite.applyChange x).trim

/-- Rooms that a change names or reserves. -/
def pairRooms (l : List (Option Nat × Option Nat)) : List Nat := copyOf 0 l ++ copyOf 1 l
def Change.rooms : Change → List Nat
  | .add _ l _ => pairRooms l
  | .move _ _ r => [r]
  | _ => []

/-- Every Room that a Suite holds: members, spares, Rooms reserved by accepted changes, and Rooms that a move has not yet
given up (R249). -/
def Suite.holds (x : Suite) : List Nat := (x.allRooms ++ x.changes.flatMap Change.rooms ++ x.moves.map (·.1)).dedup

/-- The Suite that holds or has reserved a Room. -/
def State.claimant (s : State) (r : Nat) : Option Nat :=
  (s.suites.find? fun e => e.2.holds.contains r).map (·.1)

def State.roomsHeld (s : State) (hh : Nat) : Nat :=
  (s.suites.map fun e => if e.2.st != .free && e.2.owner == hh then e.2.holds.length else 0).sum

/-! ### Choosing Rooms (R257, R259) -/

def State.freeRoom (s : State) (r : Nat) : Bool := (s.room r).usable && (s.room r).isFree && !(s.hall (hallOfRoom r)).lost

/-- The free usable Room with the lowest index that has BRICKS ≥ L and lies in the Wing required. -/
def State.pick (s : State) (lanes : Nat) (wing : Option Nat) (taken : List Nat) : Option Nat :=
  (List.range 1280).find? fun r =>
    s.freeRoom r && !taken.contains r && wing.all (hallOfRoom r == ·) && decide (lanes ≤ (s.room r).bricksUp)

/-- The Wing that a copy of a Suite must lie in. -/
def Suite.wing (x : Suite) (copy : Nat) : Option Nat := if x.mode == .duplex then some copy else none

/-- Fill the open places of entries in order, copy 0 first; none when some place finds no Room. -/
def State.fill (s : State) (x : Suite) : List (Option Nat × Option Nat) → List Nat → Option (List (Option Nat × Option Nat))
  | [], _ => some []
  | (a, b) :: rest, taken =>
    match a.orElse fun _ => s.pick x.lanes (x.wing 0) taken with
    | none => none
    | some a =>
      if x.mode == .duplex then
        match b.orElse fun _ => s.pick x.lanes (x.wing 1) (a :: taken) with
        | none => none
        | some b => (s.fill x rest (a :: b :: taken)).map fun l => (some a, some b) :: l
      else (s.fill x rest (a :: taken)).map fun l => (some a, none) :: l

/-! ### Limits (R165, R251) -/

def State.freeRooms (s : State) : Nat := countIf s.freeRoom (List.range 1280)

/-- The total shortfall of Rooms of the ACTIVE households other than one (R251). -/
def State.roomShortfall (s : State) (hh : Nat) : Nat :=
  ((span 1 63).map fun h =>
    if h != hh && (s.house h).st == .active then s.envMinRooms h - s.roomsHeld h else 0).sum

/-- Whether a household may take so many more free Rooms (R251). -/
def State.roomsFit (s : State) (hh n : Nat) : Bool :=
  decide (s.roomsHeld hh + n ≤ s.envMaxRooms hh) && (n = 0 || decide (s.roomShortfall hh + n ≤ s.freeRooms))

/-- A Suite's claim on a group: the larger of what it reserves now and after its accepted changes. -/
def State.claimOn (s : State) (x : Suite) (g : Nat) : Nat := max (s.reservesOn x g) (s.reservesOn x.projected g)

/-- Whether every group bound to the Suite stays within its limit (R165). -/
def State.bandwidthFits (s : State) (n : Nat) (y : Suite) : Bool :=
  (y.groups ++ y.projected.groups).all fun g =>
    withinLimit (s.groupSize (g / 32))
      ((s.suites.map fun e => if e.1 = n then 0 else s.claimOn e.2 g).sum + s.claimOn y g)

/-! ### Acceptance (R13, R14, R259) -/

/-- Reserve Rooms for a Suite. -/
def State.reserve (s : State) (rooms : List Nat) (byChoice : Bool) : State :=
  rooms.foldl (fun s r => s.modRoom r ({ · with reserved := true, byChoice })) s

/-- The spares that a Suite still lacks once a change is applied, to be chosen by the Steward (R259). -/
def Suite.sparesMissing (x : Suite) : Nat :=
  let y := x.changes.foldl Suite.applyChange x
  y.sparesNeeded - y.spares.length

/-- Accept a change: it waits for the boundary, the spares it makes necessary are chosen, and ACCEPTED_GEN rises
(R255).  None when a spare is missing. -/
def State.withSpares (s : State) (n : Nat) (c : Change) (taken : List Nat) : Option Suite :=
  let x := s.suite n
  let x := { x with changes := x.changes ++ [c] }
  match s.fill x.projected (List.replicate x.sparesMissing (none, none)) taken with
  | none => none
  | some [] => some x
  | some l => some { x with changes := x.changes ++ [.add true l true] }

/-- Put an accepted Suite in force as accepted, with the Rooms it reserves. -/
def State.accepted (s : State) (n : Nat) (y : Suite) (named chosen : List Nat) : State :=
  let s := (s.reserve named false).reserve chosen true
  s.modSuite n fun _ => { y with acceptedGen := (y.acceptedGen + 1) % 2 ^ 32 }

/-! ### Leaving and joining at a boundary (R191, R262) -/

/-- Clear a Room to zero (R262, R393). -/
def Room.cleared (x : Room) : Room :=
  { x with
    pantry := [], bricks := [], microStore := [], foreman := {}, cache := {}, dma := [], gutter := [], micro := {}
    course := {}, totals := [], checkpoints := [], digests := [], marks := [], rng := [], laneMap := [], loading := false, grout := none }

/-- An ingest port that changes hands returns to its defaults (R294, R444, log entry 90); `p` is a bound port. -/
def State.resetFeed (s : State) (p : Nat) : State := if p < 16 then s else s.modFeed (p - 16) fun y => { up := y.up }

/-- A Room leaves its Suite: it gives its cache up, it is cleared, and it is free (R191, R262). -/
def State.leave (s : State) (r : Nat) : State :=
  let s := s.dropCache r
  s.modRoom r fun x =>
    { x.cleared with member := none, reserved := false, byChoice := false, joining := false, freeSince := s.time }

/-- The bucket of a port at its full depth, and clamped to a new depth (R162). -/
def fullBucket (setting : Nat) (s : State) (p : Nat) : State :=
  s.modReg p ({ · with tokens := regBurst setting * tokenUnit, upto := s.time })
def clampBucket (setting : Nat) (s : State) (p : Nat) : State :=
  s.modReg p fun g => { g with tokens := min g.tokens (regBurst setting * tokenUnit) }

/-- A Room joins a Suite: it starts its Whitewash, once its switch has closed if it is in DOZE (R262, R313). -/
def State.join (s : State) (x : Suite) (r : Nat) (m : Member) : State :=
  let s := s.modRoom r fun y =>
    { y.cleared with member := some m, reserved := false, joining := true, power := y.power.ungate }
  fullBucket x.cacheReg.toNat (fullBucket x.dmaReg.toNat s (dmaPort r)) (cachePort r)

/-- The place of every Room of a Suite. -/
def Suite.places (n : Nat) (x : Suite) : List (Nat × Member) :=
  let of (copy : Nat) (spare : Bool) (l : List (Option Nat × Option Nat)) : List (Nat × Member) :=
    (List.range l.length).filterMap fun k =>
      ((l[k]?).bind fun e => if copy = 0 then e.1 else e.2).map fun r => (r, { suite := n, copy, ordinal := k, spare })
  of 0 false x.rooms ++ of 1 false x.rooms ++ of 0 true x.spares ++ of 1 true x.spares

/-- Rooms of a Suite that have not finished their Whitewash. -/
def State.joiningRooms (s : State) (n : Nat) : List Nat := ((s.suite n).allRooms).filter fun r => (s.room r).joining

/-- The moved Room receives the scratch, the Hods and the micro-program store of the Room it replaces, by lane, and that
Room leaves (R258, R262 step 3). -/
def Room.withContents (y x : Room) (lanes : Nat) : Room :=
  let src := x.relane lanes
  let dst := { y with laneMap := lanesMapOf y lanes, pantry := x.pantry, microStore := x.microStore }
  (List.range lanes).foldl (fun z l => z.modBrick l fun b => { b with hod := (src.brick l).hod }) dst
def State.finishMove (lanes : Nat) (s : State) (m : Nat × Nat) : State :=
  (s.modRoom m.2 fun y => y.withContents (s.room m.1) lanes).leave m.1

/-- STATE of a Suite at a boundary (R255, R262, R333). -/
def Suite.settled (x : Suite) : SuiteState :=
  if x.st == .free || x.st == .releasing then x.st
  else if !x.complete then .empty
  else if x.protected && !(x.present.1 && x.present.2) then .degraded
  else .active

/-- The vector of a household's block on a Hall (R220). -/
def State.houseVector (s : State) (hall hh index : Nat) : State := s.sendVector hall (32 * hh + index)

/-- Once every joining Room has finished, moves are carried out, APPLIED_GEN takes the accepted value and the vector may
be sent (R262 steps 3 and 4). -/
def State.finishLanding (s : State) (n : Nat) : State :=
  match (s.suite n).applying with
  | none => s
  | some g =>
    if !(s.joiningRooms n).isEmpty then s
    else
      let x := s.suite n
      let s := x.moves.foldl (State.finishMove x.lanes) s
      let s := s.modSuite n fun x =>
        { x with applying := none, moves := [], appliedGen := g, appliedTime := s.time, st := x.settled }
      if bitOf x.notify 7 then s.houseVector s.senior x.owner (x.notify % 32) else s

/-- Which copies stand once a Suite is composed (R333, R344, R350, R419). -/
def State.copiesPresent (s : State) (x : Suite) : Bool × Bool :=
  match x.mode with
  | .simplex => (true, false)
  | .duplex =>
    if (s.hall 0).lost then (false, true) else if (s.hall 1).lost || s.lintelDown then (true, false) else (true, true)
  | .paired => (true, !s.pair.lost)

end Sys2Proof.Machine
end

