-- ==== Sys2Proof/Machine/Landing.lean ====
section
/-! DEFINITION. The Steward before a step runs: fetching and checking descriptors (R210 to R213), waits (R214, R215),
the choice of the next step (R264), the Configuration Landing (R262) and the end of a Whitewash. -/

namespace Sys2Proof.Machine

/-! ### Step descriptors (R211 to R213) -/

/-- A step descriptor from its 128 bytes. -/
def parseStep (b : List Byte) : StepDesc :=
  { version := fieldOf b 0 1, type := fieldOf b 1 1, irq := bitOf (fieldOf b 2 2) 15, freezePoint := bitOf (fieldOf b 2 2) 14
    codeWords := fieldOf b 4 2, microWords := fieldOf b 6 2, program := fieldOf b 8 8
    seed := BitVec.ofNat 64 (fieldOf b 16 8)
    args := (List.range 4).map fun k => BitVec.ofNat 64 (fieldOf b (24 + 8 * k) 8)
    wait0 := fieldOf b 56 8, wait0Value := BitVec.ofNat 64 (fieldOf b 64 8)
    wait1 := fieldOf b 72 8, wait1Value := BitVec.ofNat 64 (fieldOf b 80 8)
    event := fieldOf b 88 8, eventValue := BitVec.ofNat 64 (fieldOf b 96 8)
    commitList := fieldOf b 104 8, commitEntries := fieldOf b 112 2, completion := fieldOf b 120 8 }

/-- The checks of R213 that need no translation. -/
def StepDesc.bad (d : StepDesc) : Bool :=
  d.version != 1 || decide (1 < d.type) ||
    (d.type == 0 && (d.codeWords == 0 || decide (4096 < d.codeWords) || decide (256 < d.microWords))) ||
    d.program % 64 != 0 || d.completion % 64 != 0 || d.event % 8 != 0 || d.wait0 % 8 != 0 || d.wait1 % 8 != 0 ||
    decide (4096 < d.commitEntries) || (d.event != 0 && d.eventValue == 0)

/-- How a check that needs translation ends. -/
inductive Check where
  | ok
  | wait
  | bad (code : Nat)
deriving DecidableEq, Repr

/-- An event or wait address lies in an event page of the context (R213); a page fault stalls the Steward (R203). -/
def State.checkEvent (c : Nat) (s : State) (va : Nat) : Check × State :=
  let port := s.stewardOf c
  if va = 0 then (.ok, s)
  else if s.stalled port c then (.wait, s)
  else match s.translate port c va false with
    | (.ok _ ev, s) => (if ev then .ok else .bad faultBadStep, s)
    | (.fault np l, s) => if s.faultsRefused c then (.bad faultAccessEvent, s) else (.wait, s.stall port c va false np l)
    | (.wait, s) => (.wait, s)
    | (_, s) => (.bad faultAccessEvent, s)

/-- Checks one after another; the first that is not passed decides. -/
def State.checkEvents (c : Nat) : List Nat → State → Check × State
  | [], s => (.ok, s)
  | va :: rest, s =>
    match s.checkEvent c va with
    | (.ok, s) => checkEvents c rest s
    | r => r

/-- All of R213 for a descriptor. -/
def State.checkStep (s : State) (c : Nat) (d : StepDesc) : Check × State :=
  if d.bad then (.bad faultBadStep, s) else s.checkEvents c [d.event, d.wait0, d.wait1]

/-! ### Fetching (R210) -/

/-- Entries of a queue's ring and the address of a descriptor (R205, R206). -/
def Queue.entries (q : Queue) : Nat := 2 ^ (6 + q.value.toNat % 16)
def Queue.base (q : Queue) : Nat := bitsOf q.value.toNat 47 12 * 4096
def Queue.slotAddr (q : Queue) (n : Nat) : Nat := q.base + 128 * (n % q.entries)
def Queue.weight (q : Queue) : Nat := bitsOf q.value.toNat 7 4
/-- Descriptors that wait in the queue. -/
def Queue.waiting (q : Queue) : Nat := (q.tail - q.head).toNat
/-- The head descriptor, once fetched. -/
def Queue.headDesc (q : Queue) : Option StepDesc :=
  match Store.get [] q.fetched q.head.toNat with
  | [] => none
  | b => some (parseStep b)

/-- The count of the next descriptor to fetch: in count order, each once. -/
def Queue.nextFetch (q : Queue) : Option Nat :=
  ((List.range q.waiting).map fun i => (q.head + BitVec.ofNat 32 i).toNat).find? fun n => Store.get [] q.fetched n == []

/-- Whether the Steward that serves a context works (R346, R368, R377). -/
def State.served (s : State) (c : Context) : Bool :=
  !s.failSilent && !(s.hall c.serving).lost && !(s.hall c.serving).stewardStopped

/-- Fetch one descriptor and check it; what fails faults the context (R203, R210, R213). -/
def State.fetchStep (s : State) (c q : Nat) : State :=
  match s.ctx? c with
  | none => s
  | some x =>
    let u := x.queue q
    if u.st != .opened || (x.st != .opened && x.st != .faulted) || !s.served x then s
    else match u.nextFetch with
    | none => s
    | some n =>
      match s.stewardRead c (u.slotAddr n) 128 with
      | (.ok b, s) =>
        let s := s.modQueue c q fun u => { u with fetched := Store.set [] u.fetched n b }
        match s.checkStep c (parseStep b) with
        | (.bad code, s) => s.ctxFault c code q none n
        | (_, s) => s
      | (.wait, s) => s
      | (_, s) => s.ctxFault c faultAccessQueue q none n

/-- The Steward fetches and checks a step descriptor between HEAD and TAIL. -/
def execDescriptorFetch (ctx queue : Nat) (s : State) : Host.Outcome State Fault Refusal :=
  onUnits (isContext ctx && isQueue queue) s (s.fetchStep ctx queue)

/-! ### Waits and readiness (R214, R215, R264) -/

/-- Whether a queue is ready, apart from the waits being looked at again. -/
def Queue.ready (x : Context) (q : Queue) : Bool :=
  x.st == .opened && q.st == .opened && q.head != q.tail && q.waitsHold

/-- The contexts bound to a Suite. -/
def State.contextsOf (s : State) (n : Nat) : List (Nat × Context) :=
  s.contexts.filterMap fun e => e.2.bind fun c => if c.suite = n then some (e.1, c) else none

/-- The queues bound to a Suite as (context, number, context record, queue); a HELD Suite serves queues 15 only
(R374). -/
def State.queuesOf (s : State) (n : Nat) : List (Nat × Nat × Context × Queue) :=
  (s.contextsOf n).flatMap fun e => (e.2.queues.map fun q => (e.1, q.1, e.2, q.2)).filter fun q =>
    ((s.suite n).held = 0 || q.2.1 = 15) && s.served e.2

/-- A queue that was empty or blocked becomes ready: no credit is banked while idle (R264). -/
def State.becomeReady (s : State) (c q : Nat) : State :=
  match s.ctx? c with
  | none => s
  | some x =>
    let u := x.queue q
    let others := ((s.queuesOf x.suite).filter fun e => !(e.1 == c && e.2.1 == q) && Queue.ready e.2.2.1 e.2.2.2).map (·.2.2.2.vt)
    let vt := match others.min? with
      | some m => if u.blocked then max u.vt m else u.vt
      | none => u.vt
    s.modQueue c q ({ · with vt, waitsHold := true, blocked := false })

/-- One wait: the word at an address is at least a value (R214). -/
def State.waitHolds (s : State) (c va : Nat) (v : W64) : Got Bool × State :=
  if va = 0 then (.ok true, s)
  else match s.stewardRead c va 8 with
    | (.ok b, s) => (.ok (decide (v.toNat ≤ leNat b)), s)
    | (.wait, s) => (.wait, s)
    | (.access, s) => (.access, s)
    | (.poisoned, s) => (.poisoned, s)

/-- Look at the waits of a queue's head descriptor again (R215). -/
def State.recheck (s : State) (c q : Nat) : State :=
  match s.ctx? c with
  | none => s
  | some x =>
    let u := x.queue q
    if x.st != .opened || u.st != .opened || u.head == u.tail || u.waitsHold || !s.served x then s
    else match u.headDesc with
    | none => s
    | some d =>
      let block (s : State) := s.modQueue c q ({ · with blocked := true })
      let refused (s : State) := s.ctxFault c faultAccessEvent q none u.head.toNat
      match s.waitHolds c d.wait0 d.wait0Value with
      | (.ok true, s) =>
        match s.waitHolds c d.wait1 d.wait1Value with
        | (.ok true, s) => s.becomeReady c q
        | (.ok false, s) => block s
        | (.wait, s) => block s
        | (_, s) => refused s
      | (.ok false, s) => block s
      | (.wait, s) => block s
      | (_, s) => refused s

def execWaitRecheck (ctx queue : Nat) (s : State) : Host.Outcome State Fault Refusal :=
  onUnits (isContext ctx && isQueue queue) s (s.recheck ctx queue)

/-- Descriptors skipped out of turn are passed as soon as HEAD reaches them (R204). -/
def Queue.passSkipped : Nat → Queue → Queue
  | 0, q => q
  | n + 1, q =>
    if q.skipped.contains q.head.toNat then
      passSkipped n { q with head := q.head + 1, skipped := q.skipped.filter (· != q.head.toNat) }
    else q

/-- HEAD passes the head descriptor (R206). -/
def Queue.advance (q : Queue) : Queue :=
  let fetched := Store.set [] q.fetched q.head.toNat []
  let n := q.skipped.length
  let q := Queue.passSkipped n { q with head := q.head + 1, fetched, kills := 0, hangs := 0, sliced := false, flagged := (0, []) }
  { q with waitsHold := false, blocked := q.head == q.tail }

/-! ### The choice of the next step (R264) -/

/-- The better of two queues: lower vt, then context, then number. -/
def better (a b : Nat × Nat × Context × Queue) : Bool :=
  decide (a.2.2.2.vt < b.2.2.2.vt) || (a.2.2.2.vt == b.2.2.2.vt && (decide (a.1 < b.1) || (a.1 == b.1 && decide (a.2.1 < b.2.1))))

def bestOf : List (Nat × Nat × Context × Queue) → Option (Nat × Nat × Context × Queue)
  | [] => none
  | a :: l =>
    match bestOf l with
    | none => some a
    | some b => if better b a then some b else some a

/-- Whether the head of a queue is a MARKER, which is consumed without a choice (R264). -/
def Queue.markerHead (q : Queue) : Bool := ((q.headDesc).map (·.type == 1)).getD false

/-- The queue that is served next. -/
def State.choose (s : State) (n : Nat) : Option (Nat × Nat × Context × Queue) :=
  let ready := (s.queuesOf n).filter fun e => Queue.ready e.2.2.1 e.2.2.2 && !e.2.2.2.markerHead
  let front := ready.filter fun e => decide (0 < e.2.2.2.weight)
  bestOf (if front.isEmpty then ready else front)

/-! ### The Configuration Landing (R14, R262, R268, R374) -/

/-- The value-affecting settings of a PAIRED Suite as they would be in force after its accepted changes, digested
(R268). -/
def Suite.settingsDigest (x : Suite) : List Byte :=
  let y := x.projected
  Config.sha384 (leBytes 2 y.lanes ++ leBytes 1 y.cache ++ leBytes 2 y.rooms.length)

def Change.affectsValues : Change → Bool
  | .setting sub _ => sub == 4 || sub == 6
  | .add spares _ _ => !spares
  | .remove _ => true
  | _ => false

/-- A change of which Room has which ordinal. -/
def Change.places : Change → Bool
  | .add _ _ _ => true
  | .remove _ => true
  | .move _ _ _ => true
  | _ => false

/-- A change of ROOMS. -/
def Change.counts : Change → Bool
  | .add spares _ _ => !spares
  | .remove _ => true
  | _ => false

/-- Whether a PAIRED Suite has, or once composed will have, a copy on the other module (R256, R350). -/
def State.hasPartner (s : State) (x : Suite) : Bool :=
  x.mode == .paired && (if x.present = (false, false) then !s.pair.lost else x.has 1)

/-- Whether the partner of a PAIRED Suite agrees on the settings; a Suite with no partner needs none (R268). -/
def State.pairAgrees (s : State) (x : Suite) : Bool := !s.hasPartner x || x.pairDigest == some x.settingsDigest

/-- Bring Rent up to date before the Rooms held change, and the Suite's STATE after it (R255, R277). -/
def State.recompose (s : State) (n : Nat) (f : Suite → Suite) : State :=
  (s.accrue n).modSuite n fun x => let y := f x; { y with st := y.settled }

/-- A Room leaves its Suite; one that no route reaches is fenced (R123). -/
def State.expel (s : State) (r : Nat) : State := if (s.room r).cutOff then (s.leave r).fenceRoom r else s.leave r

/-- Members that may not run leave, namely those with too few working Bricks and those that are not usable, and places to
refill get Rooms as for 0xFFFF (R19, R75, R374). -/
def State.refillSuite (s : State) (n : Nat) : State :=
  let x := s.suite n
  let unfit (r : Nat) : Bool := decide ((s.room r).bricksUp < x.lanes) || !(s.room r).usable || (s.room r).cutOff
  let short (o : Option Nat) : Option Nat := o.bind fun r => if unfit r then none else some r
  let gone := x.allMembers.filter unfit
  if !x.refill && gone.isEmpty then s
  else
    let open' := x.rooms.map fun e => (short e.1, short e.2)
    match s.fill x open' [] with
    | none => (gone.foldl State.expel s).recompose n fun x => { x with rooms := open', refill := true }
    | some l =>
      let s := gone.foldl State.expel (s.accrue n)
      let s := s.modSuite n fun x => { x with rooms := l, refill := false, applying := some (x.applying.getD x.appliedGen) }
      let fresh := (s.suite n).places n |>.filter fun e => !x.allRooms.contains e.1 || gone.contains e.1
      fresh.foldl (fun s e => (s.join (s.suite n) e.1 e.2).modRoom e.1 ({ · with byChoice := true })) s

/-- Restore the spare count of a protected Suite (R259, R342). -/
def State.restoreSpares (s : State) (n : Nat) : State :=
  let x := s.suite n
  let fit (o : Option Nat) : Option Nat := o.bind fun r => if (s.room r).usable && decide (x.lanes ≤ (s.room r).bricksUp) then some r else none
  let gone := (x.spareRooms 0 ++ x.spareRooms 1).filter fun r => (fit (some r)).isNone
  let y := { x with spares := (x.spares.map fun e => (fit e.1, fit e.2)).filter fun e => e.1.isSome || e.2.isSome }
  let open' := y.spares ++ List.replicate (y.sparesNeeded - y.spares.length) (none, none)
  let whole (e : Option Nat × Option Nat) := e.1.isSome && (x.mode != .duplex || e.2.isSome)
  if gone.isEmpty && open'.all whole then s
  else match s.fill y open' [] with
    | none => (gone.foldl State.leave (s.accrue n)).modSuite n fun x => { x with spares := y.spares }
    | some l =>
      let s := gone.foldl State.leave (s.accrue n)
      let s := s.modSuite n fun x => { x with spares := l, applying := some (x.applying.getD x.appliedGen) }
      let fresh := (s.suite n).places n |>.filter fun e => !x.allRooms.contains e.1
      fresh.foldl (fun s e => (s.join (s.suite n) e.1 e.2).modRoom e.1 ({ · with byChoice := true })) s

/-- A SIMPLEX Suite becomes HELD, and any Suite after HANG_LIMIT; its vector is sent when enabled (R367, R374, R379). -/
def State.hold (s : State) (n : Nat) : State :=
  let x := s.suite n
  if x.holdNext = 0 then s
  else if x.held != 0 || (x.mode != .simplex && x.holdNext != 2) then s.modSuite n ({ · with holdNext := 0 })
  else
    let s := s.modSuite n fun x => { x with held := x.holdNext, holdNext := 0 }
    if bitOf x.heldNotify 7 then s.houseVector s.senior x.owner (x.heldNotify % 32) else s

/-- A Room that fails its Whitewash, or is not usable when it would join, is fenced; it is replaced where the Steward chose it,
and a named one leaves its ordinal empty (R19, R262). -/
def State.whitewashFailed (s : State) (r : Nat) : State :=
  match (s.room r).member with
  | none => s
  | some m =>
    let chosen := (s.room r).byChoice
    let s := s.accrue m.suite
    let s := if (s.room r).usable then s.fenceRoom r else s.modRoom r fun x => { x with member := none, joining := false, reserved := false }
    let x := s.suite m.suite
    let other := if chosen then s.pick x.lanes (x.wing m.copy) [] else none
    let s := s.modSuite m.suite fun x =>
      { x.replace r other with buildFail := x.buildFail || other.isNone
                               moves := x.moves.filter (·.2 != r) }
    let s := ((x.moves.filter (·.2 == r)).map (·.1)).foldl State.leave s
    match other with
    | some q => (s.join (s.suite m.suite) q m).modRoom q ({ · with byChoice := true })
    | none => s

/-- Whether a Room that an accepted change has reserved can join: it may have been fenced, lost at a test or lost with its
Hall meanwhile (R19). -/
def State.canJoin (s : State) (r : Nat) : Bool := (s.room r).usable && !(s.hall (hallOfRoom r)).lost

/-- APPLIED_GEN once the changes `now` are in force and `later` are held back: the accepted value, or the one before the first
change held (R255, R262, R268). -/
def Suite.heldFrom (x : Suite) (later : List Change) : Option Nat :=
  if later.isEmpty then none
  else some (x.heldGen.getD (x.appliedGen + 1 +
    countIf (fun c => match c with | .add true _ chosen => !chosen | _ => true) (x.changes.takeWhile fun c => some c != later.head?)))

/-- Apply a set of changes at a boundary: Rooms leave, Rooms join, moves are noted, and Rooms that were reserved for nothing are
free again (R14, R259, R262 steps 1 and 2). -/
def State.applyChanges (s : State) (n : Nat) (now later : List Change) : State :=
  let s := s.accrue n
  let x := s.suite n
  let y := (now.foldl Suite.applyChange x).trim
  let old := x.allRooms
  let new := y.allRooms
  let moves := now.filterMap fun c =>
    match c with
    | .move copy k r => ((x.at copy k).bind fun q => if old.contains q && !new.contains q && new.contains r then some (q, r) else none)
    | _ => none
  let leaving := old.filter fun r => !new.contains r && !(moves.any (·.1 == r))
  let s := old.foldl (fun s r => (s.refill (dmaPort r)).refill (cachePort r)) s
  let s := if y.cache = x.cache then s else old.foldl State.dropCache s
  let s := leaving.foldl State.leave s
  let s := moves.foldl (fun s m => (s.writeBackAll m.1).modRoom m.1 ({ · with reserved := true })) s
  let kept := new ++ later.flatMap Change.rooms ++ old
  let s := ((now.flatMap Change.rooms).filter fun r => !kept.contains r).foldl
    (fun s r => s.modRoom r ({ · with reserved := false, byChoice := false })) s
  let present := if x.present = (false, false) then s.copiesPresent y else y.present
  let held := x.heldFrom later
  let s := ((x.ports ++ y.ports).filter fun p => x.ports.contains p != y.ports.contains p).foldl State.resetFeed s
  let gen := (held.map fun g => (g + 2 ^ 32 - 1) % 2 ^ 32).getD y.acceptedGen
  let s := s.modSuite n fun _ => { y with changes := later, moves, applying := some gen, heldGen := held, buildFail := false, present }
  let places := (s.suite n).places n
  let s := (places.filter fun e => old.contains e.1).foldl (fun s e => s.modRoom e.1 ({ · with member := some e.2 })) s
  let fresh := places.filter fun e => !old.contains e.1
  let s := fresh.foldl (fun s e => s.join y e.1 e.2) s
  let s := (places.filter fun e => old.contains e.1).foldl (fun s e =>
    clampBucket y.cacheReg.toNat (clampBucket y.dmaReg.toNat s (dmaPort e.1)) (cachePort e.1)) s
  ((fresh.map (·.1)).filter fun r => !s.canJoin r).foldl State.whitewashFailed s

/-- The changes that take effect and those that are held back while the settings of a pair differ: the changes that affect
values, and, after one of ROOMS, every further change of which Room has which ordinal, since it is judged against the Suite
that the earlier one leaves (R268, log entry 33).  `rooms` says whether a change of ROOMS is held already. -/
def splitHeld : Bool → List Change → List Change × List Change
  | _, [] => ([], [])
  | rooms, c :: l =>
    let rest := splitHeld (rooms || c.counts) l
    if c.affectsValues || (rooms && c.places) then (rest.1, c :: rest.2) else (c :: rest.1, rest.2)

/-- What a Suite brings into effect at a boundary, and what waits (R268). -/
def State.dueChanges (s : State) (x : Suite) : List Change × List Change :=
  if s.pairAgrees x then (x.changes, []) else splitHeld false x.changes

/-- At a Suite's step boundary, accepted changes are applied in order, Rooms leave and are cleared, and joining Rooms
are woken and whitewashed (R262). -/
def State.configure (s : State) (n : Nat) : State :=
  let x := s.suite n
  if x.st == .free || x.st == .releasing || !x.atBoundary || x.applying.isSome then s
  else
    let s := s.hold n
    let s := if s.hasPartner x then s.toPartner fun p e => .pairSettings p e n x.settingsDigest else s
    let agrees := s.pairAgrees x
    let s := s.modSuite n fun x =>
      { x with waitSince := if agrees then 0 else if x.waitSince = 0 then s.time else x.waitSince
               settingsRecorded := x.settingsRecorded && !agrees }
    let (now, later) := s.dueChanges (s.suite n)
    let s := if now.isEmpty then s else s.applyChanges n now later
    let s := (s.refillSuite n).restoreSpares n
    s.finishLanding n

/-- A wait for equal PAIRED settings that reaches 100 ms is recorded once (R268). -/
def execPairedSettingsWait (suite : Nat) (s : State) : Host.Outcome State Fault Refusal :=
  onUnits (isSuite suite) s (
    let x := s.suite suite
    if x.mode != .paired || x.waitSince = 0 || x.settingsRecorded || s.time < x.waitSince + 100000000 then s
    else (s.modSuite suite ({ · with settingsRecorded := true })).report 9 6 2 9 suite x.owner suite)

/-! ### The end of a Whitewash (R262) -/

/-- A joining Room has finished its march test, which leaves every word zero (R262). -/
def execRoomWhitewashComplete (r : Nat) (pass : Bool) (s : State) : Host.Outcome State Fault Refusal :=
  onUnits (isRoom r) s (
    if !(s.room r).joining || (s.room r).power == .doze then s
    else
      let n := (s.suiteOf r).getD 0
      let s := if pass then s.modRoom r fun x => { x.cleared with joining := false } else s.whitewashFailed r
      s.finishLanding n)

end Sys2Proof.Machine
end

