-- ==== Sys2Proof/Machine/Launch.lean ====
section
/-! DEFINITION. The Dispatch Landing: what the Steward reads and checks for a step (R61, R62, R132 to R135, R213, R269),
the inventory of the image (R397), the agreement of a PAIRED Suite (R267, R268), and how the Rooms start (R10, R74, R76,
R131). -/

namespace Sys2Proof.Machine

/-! ### Reads of the Steward -/

/-- How a read and check at the Dispatch Landing ends; `refused` is the refusal of a tree (R135). -/
inductive Load (α : Type) where
  | ok (x : α)
  | wait
  | bad (code : Nat)
  | refused

/-- Read n bytes for a context; a refusal is ACCESS_QUEUE (R203). -/
def State.load (s : State) (c va n : Nat) : Load (List Byte) × State :=
  if n = 0 then (.ok [], s)
  else match s.stewardRead c va n with
    | (.ok b, s) => (.ok b, s)
    | (.wait, s) => (.wait, s)
    | (_, s) => (.bad faultAccessQueue, s)

/-- Answers that a read took before another read had to wait stay at hand. -/
def State.keepAnswers (before s : State) : State :=
  { s with
    hostReads := before.hostReads ++ (s.hostReads.filter fun x => !before.hostReads.contains x)
    remotes := before.remotes ++ (s.remotes.filter fun x => !before.remotes.contains x) }

/-! ### The Ladder (R61, R62) -/

def parseLadder (b : List Byte) : LadderEntry :=
  { ctrl := fieldOf b 1 1, curRung := fieldOf b 2 1, maxRung := fieldOf b 3 1, plumbRate := fieldOf b 4 1 % 16
    refFmt := fieldOf b 5 1, plumbThresh := fieldOf b 6 2, satLimit := fieldOf b 8 4, poisonLimit := fieldOf b 12 4
    refAddr := fieldOf b 16 8 }

/-- The conditions of R62; `version` is byte 0 of the entry. -/
def LadderEntry.bad (e : LadderEntry) (version : Nat) : Bool :=
  version != 1 || decide (3 < e.maxRung) || decide (e.maxRung < e.curRung) || e.plumbRate == 13 || e.plumbRate == 14 ||
    (e.plumbRate != 15 && e.refFmt != 3 && e.refFmt != 6)

/-- Consecutive pieces of n bytes. -/
def chunksOf (n : Nat) : Nat → List Byte → List (List Byte)
  | 0, _ => []
  | k + 1, b => b.take n :: chunksOf n k (b.drop n)

def State.loadLadder (s : State) (c : Nat) (x : Context) : Load (List LadderEntry) × State :=
  if x.ladderBase = 0 then (.ok [], s)
  else if x.ladderBase % 128 != 0 then (.bad faultBadStep, s)
  else match s.load c x.ladderBase (128 * x.ladderEntries) with
    | (.ok b, s) =>
      let raw := chunksOf 128 x.ladderEntries b
      if raw.any fun e => (parseLadder e).bad (fieldOf e 0 1) then (.bad faultBadStep, s) else (.ok (raw.map parseLadder), s)
    | (.wait, s) => (.wait, s)
    | (.bad k, s) => (.bad k, s)
    | (.refused, s) => (.refused, s)

/-! ### Gutter trees (R132 to R135) -/

/-- The header of a tree descriptor: VERSION, NODES and the tree without its nodes (R133). -/
def parseTree (w : Nat) : Nat × Nat × Tree :=
  (bitsOf w 63 56, bitsOf w 47 37, { fmt := bitsOf w 55 51, op := bitsOf w 50 48, bytes := bitsOf w 31 0 })

/-- A node entry (R134). -/
def parseNode (w : Nat) : TreeNode :=
  { ordinal := bitsOf w 63 53, parent := bitsOf w 52 43, slot := bitsOf w 42 41, isLocal := bitOf w 40, recv := bitOf w 39
    children := bitsOf w 38 36, port := bitsOf w 35 32, top := bitOf w 31 }

/-- Whether VERSION, NODES, OP, FMT and BYTES are legal (R133). -/
def headerOk (version nodes : Nat) (t : Tree) : Bool :=
  version == 1 && decide (1 ≤ nodes) && decide (nodes ≤ 1024) && decide (t.op ≤ 3) && (t.op == 3 || t.fmt == 7 || t.fmt == 8) &&
    t.bytes % 64 == 0 && decide (64 ≤ t.bytes) && decide (t.bytes ≤ 262144)

/-- Entries that name node k as their parent. -/
def Tree.namedBy (t : Tree) (k : Nat) : List TreeNode := t.nodes.filter fun y => !y.top && y.parent == k

/-- Whether following PARENT from a node reaches the root within `fuel` steps. -/
def Tree.climbs (t : Tree) : Nat → Nat → Bool
  | 0, _ => false
  | fuel + 1, k =>
    match t.nodes[k]? with
    | none => false
    | some v => if v.top then v.hasInputs else climbs t fuel v.parent

/-- The conditions of R135 on the nodes of one tree, for a Suite with so many Rooms in a copy and these bound ports; a
protected Suite has no node at a peer. -/
def Tree.legal (t : Tree) (nrooms : Nat) (ports : List Nat) (isProtected : Bool) : Bool :=
  let idx := List.range t.nodes.length
  let here := t.nodes.filter (·.port == 0)
  countIf (fun v : TreeNode => v.hasInputs && v.top) t.nodes == 1 &&
  t.nodes.all (fun v => v.hasInputs || v.top) &&
  t.nodes.all (fun v => v.top || ((t.nodes[v.parent]?).map (·.hasInputs)).getD false) &&
  idx.all (fun k => t.climbs t.nodes.length k || ((t.nodes[k]?).map (·.top)).getD false) &&
  idx.all (fun k =>
    let kids := t.namedBy k
    let children := ((t.nodes[k]?).map (·.children)).getD 0
    kids.length == children && decide (children ≤ 4) && kids.all (fun y => decide (y.slot < children)) &&
      decide ((kids.map (·.slot)).Nodup)) &&
  decide (((here.filter (·.isLocal)).map (·.ordinal)).Nodup) &&
  decide (((here.filter (·.recv)).map (·.ordinal)).Nodup) &&
  (t.op != 3 || (countIf (fun v : TreeNode => v.isLocal) t.nodes == 1 && t.nodes.all fun v => decide (v.children ≤ 1))) &&
  here.all (fun v => decide (v.ordinal < nrooms)) &&
  t.nodes.all fun v => v.port == 0 || (!isProtected && decide (v.port ≤ 12) && ports.contains (v.port - 1))

/-- Read one tree: the header, then as many nodes as it names; a header that is not legal is refused. -/
def State.loadTree (s : State) (c va : Nat) : Load Tree × State :=
  if va % 32 != 0 then (.bad faultBadStep, s)
  else match s.load c va 32 with
    | (.ok b, s) =>
      let (version, nodes, t) := parseTree (fieldOf b 0 8)
      if !headerOk version nodes t then (.refused, s)
      else match s.load c (va + 32) (8 * nodes) with
        | (.ok b, s) => (.ok { t with nodes := (chunksOf 8 nodes b).map fun e => parseNode (leNat e) }, s)
        | (.wait, s) => (.wait, s)
        | (.bad k, s) => (.bad k, s)
        | (.refused, s) => (.refused, s)
    | (.wait, s) => (.wait, s)
    | (.bad k, s) => (.bad k, s)
    | (.refused, s) => (.refused, s)

/-- Read and check every tree that the pointer table names; a value of 0 leaves its tree undefined (R132). -/
def State.loadTrees (c : Nat) (x : Suite) : List (Nat × Nat) → State → Load (Store Tree) × State
  | [], s => (.ok [], s)
  | (t, va) :: rest, s =>
    if va = 0 then loadTrees c x rest s
    else match s.loadTree c va with
      | (.ok tree, s) =>
        if !tree.legal x.ordinals x.ports x.protected then (.refused, s)
        else match loadTrees c x rest s with
          | (.ok l, s) => (.ok (Store.set {} l t tree), s)
          | r => r
      | (.wait, s) => (.wait, s)
      | (.bad k, s) => (.bad k, s)
      | (.refused, s) => (.refused, s)

/-- The trees of a context's step (R132, R135). -/
def State.loadGutter (s : State) (c : Nat) (x : Context) (y : Suite) : Load (Store Tree) × State :=
  if x.gutterBase = 0 then (.ok [], s)
  else if x.gutterBase % 8 != 0 then (.bad faultBadStep, s)
  else match s.load c x.gutterBase (8 * x.gutterTrees) with
    | (.ok b, s) =>
      let table := (List.range x.gutterTrees).map fun t => (t, fieldOf b (8 * t) 8)
      match s.loadTrees c y table with
      | (.ok l, s) => if 16384 < ((l.map fun e => e.2.nodes.length).sum) then (.refused, s) else (.ok l, s)
      | r => r
    | (.wait, s) => (.wait, s)
    | (.bad k, s) => (.bad k, s)
    | (.refused, s) => (.refused, s)

/-! ### The commit list (R269, R402) -/

def parseCommit (b : List Byte) : CommitEntry :=
  { kind := fieldOf b 1 1, count := fieldOf b 4 4, a := fieldOf b 8 8, b := fieldOf b 16 8 }

/-- The rules of R269 that need no translation; `version` is byte 0 of the entry. -/
def CommitEntry.bad (e : CommitEntry) (version : Nat) : Bool :=
  version != 1 || (e.kind != 1 && e.kind != 2) ||
    (e.kind == 2 && (e.count == 0 || e.count % 64 != 0 || e.a % 64 != 0 || e.b % 64 != 0))

/-- The first address of [va, va + n) in each 4 KiB page that it touches. -/
def pageStarts (va n : Nat) : List Nat :=
  if n = 0 then [] else (span (va / 4096) ((va + n - 1) / 4096 - va / 4096 + 1)).map fun p => max va (p * 4096)

/-- Whether a Fabric Address lies in local HBM, and whether it lies in a host window (R230). -/
def fabricHbm (f : Nat) : Bool := !fabricRemote f && decide (fabricLocal f < 2 ^ 38)
def fabricHost (f : Nat) : Bool :=
  !fabricRemote f && decide (0x080000000000 ≤ fabricLocal f) && decide (fabricLocal f < 0x100000000000)

/-- Every page translates to a place that satisfies p, else BAD_STEP; a refusal is ACCESS_QUEUE and a page fault stalls
the Steward (R203, R269). -/
def State.checkRange (c : Nat) (write : Bool) (p : State → Nat → Bool) : List Nat → State → Check × State
  | [], s => (.ok, s)
  | va :: rest, s =>
    let port := s.stewardOf c
    if s.stalled port c then (.wait, s)
    else match s.translate port c va write with
      | (.ok f _, s) => if p s f then checkRange c write p rest s else (.bad faultBadStep, s)
      | (.fault np l, s) => if s.faultsRefused c then (.bad faultAccessQueue, s) else (.wait, s.stall port c va write np l)
      | (.wait, s) => (.wait, s)
      | (_, s) => (.bad faultAccessQueue, s)

/-- The source of a COPY lies in local HBM and touches no PROTECTED page; its destination lies in a host window. -/
def State.checkCopy (c : Nat) (e : CommitEntry) (s : State) : Check × State :=
  if e.kind != 2 then (.ok, s)
  else match s.checkRange c false (fun s f => fabricHbm f && !(s.page (fabricLocal f / 4096)).isProtected) (pageStarts e.a e.count) with
    | (.ok, s) => s.checkRange c true (fun _ f => fabricHost f) (pageStarts e.b e.count)
    | r => r

def State.checkCopies (c : Nat) : List CommitEntry → State → Check × State
  | [], s => (.ok, s)
  | e :: rest, s =>
    match s.checkCopy c e with
    | (.ok, s) => checkCopies c rest s
    | r => r

/-- The commit list of a step. -/
def State.loadCommit (s : State) (c : Nat) (d : StepDesc) : Load (List CommitEntry) × State :=
  if d.commitList = 0 then (.ok [], s)
  else match s.load c d.commitList (32 * d.commitEntries) with
    | (.ok b, s) =>
      let raw := chunksOf 32 d.commitEntries b
      if raw.any fun e => (parseCommit e).bad (fieldOf e 0 1) then (.bad faultBadStep, s)
      else match s.checkCopies c (raw.map parseCommit) with
        | (.ok, s) => (.ok (raw.map parseCommit), s)
        | (.wait, s) => (.wait, s)
        | (.bad k, s) => (.bad k, s)
    | (.wait, s) => (.wait, s)
    | (.bad k, s) => (.bad k, s)
    | (.refused, s) => (.refused, s)

/-! ### The program image (R76, R78, R211, R397) -/

/-- Foreman code and micro-program as bytes. -/
structure Image where
  code : List Byte
  micro : List Byte
deriving DecidableEq, Repr

def State.loadImage (s : State) (c : Nat) (d : StepDesc) : Load Image × State :=
  match s.load c d.program (4 * d.codeWords) with
  | (.ok code, s) =>
    match s.load c (d.program + ceilDiv (4 * d.codeWords) 8 * 8) (8 * d.microWords) with
    | (.ok micro, s) => (.ok { code, micro }, s)
    | (.wait, s) => (.wait, s)
    | (.bad k, s) => (.bad k, s)
    | (.refused, s) => (.refused, s)
  | (.wait, s) => (.wait, s)
  | (.bad k, s) => (.bad k, s)
  | (.refused, s) => (.refused, s)

def Image.program (i : Image) : Store W32 :=
  Store.setRange 0 [] 0 ((chunksOf 4 (i.code.length / 4) i.code).map fun e => BitVec.ofNat 32 (leNat e))
def Image.microStore (i : Image) : Store W64 :=
  Store.setRange 0 [] 0 ((chunksOf 8 (i.micro.length / 8) i.micro).map fun e => BitVec.ofNat 64 (leNat e))

/-- A digest enters a household's inventory log: KIND 1 program, 2 blob (R397). -/
def Household.inventory (h : Household) (kind suite now : Nat) (digest : List Byte) : Household :=
  if h.log.any (·.digest == digest) then
    { h with log := modifyFirst (·.digest == digest) (fun e => { e with seen := satAdd 32 e.seen 1 }) h.log }
  else
    let chain (l : List Byte) := Config.sha384 (l ++ digest)
    let h := if kind = 1 then { h with programChain := chain h.programChain } else { h with blobChain := chain h.blobChain }
    if 64 ≤ h.log.length then { h with overflow := true }
    else { h with log := h.log ++ [{ kind, suite, seen := 1, first := now, digest }] }

/-! ### Everything that the Steward reads -/

/-- What was read for a step. -/
structure Plan where
  ladderBase : Nat
  ladder : List LadderEntry
  trees : Store Tree
  commit : List CommitEntry
  image : Image
deriving DecidableEq, Repr

/-- Read and check all of it (R62, R135, R213, R269). -/
def State.plan (s : State) (c : Nat) (x : Context) (y : Suite) (d : StepDesc) : Load Plan × State :=
  match s.checkStep c d with
  | (.bad k, s) => (.bad k, s)
  | (.wait, s) => (.wait, s)
  | (.ok, s) =>
    match s.loadLadder c x with
    | (.wait, s) => (.wait, s)
    | (.bad k, s) => (.bad k, s)
    | (.refused, s) => (.refused, s)
    | (.ok ladder, s) =>
      match s.loadGutter c x y with
      | (.wait, s) => (.wait, s)
      | (.bad k, s) => (.bad k, s)
      | (.refused, s) => (.refused, s)
      | (.ok trees, s) =>
        match s.loadCommit c d with
        | (.wait, s) => (.wait, s)
        | (.bad k, s) => (.bad k, s)
        | (.refused, s) => (.refused, s)
        | (.ok commit, s) =>
          match s.loadImage c d with
          | (.wait, s) => (.wait, s)
          | (.bad k, s) => (.bad k, s)
          | (.refused, s) => (.refused, s)
          | (.ok image, s) => (.ok { ladderBase := x.ladderBase, ladder, trees, commit, image }, s)

/-! ### Starting the Rooms (R10, R74, R76, R131) -/


/-- A Room at the start of a step: the image is installed, lanes are mapped, the Foreman is cleared and stands at
instruction 0, and Course 0 begins (R71, R74, R76). -/
def Room.launch (x : Room) (i : Image) (seed : W64) (ordinal lanes now : Nat) : Room :=
  let f : Foreman := { program := i.program, run := .running }
  let x : Room := { x.relane lanes with
    foreman := f, microStore := i.microStore, micro := {}, dma := [], gutter := []
    totals := [], digests := [], marks := [], checkpoints := [checkpointOf f 0 []], grout := none
    power := x.power.ungate }
  x.startCourse seed 0 ordinal lanes now

/-- A spare receives the image as well (R76), and idles. -/
def Room.standBy (x : Room) (i : Image) (lanes : Nat) : Room :=
  { x.relane lanes with
    power := x.power.ungate, foreman := { program := i.program }, microStore := i.microStore, totals := [], digests := [], marks := []
    checkpoints := [] }

/-- Start a step in every Room of every copy that is present. -/
def State.start (s : State) (n c q : Nat) (u : Queue) (d : StepDesc) (p : Plan) : State :=
  let s := s.accrue n
  let x := s.suite n
  let s := s.modHouse x.owner (·.inventory 1 n s.time (Config.sha384 (p.image.code ++ p.image.micro)))
  let s := (x.places n).foldl (fun s e =>
    if e.2.spare then s.modRoom e.1 (·.standBy p.image x.lanes)
    else if x.has e.2.copy then s.modRoom e.1 (·.launch p.image d.seed e.2.ordinal x.lanes s.time)
    else s) s
  let s := (s.controlAll x.share (.hall (s.decider n)) x.allRooms).broadcast (s.decider n) x.share
    (p.image.code.length + p.image.micro.length) x.allRooms
  let step : Step :=
    { ctx := c, queue := q, count := u.head.toNat, desc := d, dispatched := s.time, det := x.deterministic, lanes := x.lanes
      nrooms := x.ordinals, cacheBytes := x.cache * 0x10000, ladderBase := p.ladderBase, ladder := p.ladder, trees := p.trees, commit := p.commit }
  let s := s.modSuite n fun x => { x with step := some step, vote := none, rounds := [], releases := [], pairHead := none
                                          pairDigest := none, pairCourses := [] }
  if s.power.st == .idle then { s with power := { s.power with st := .active } } else s

/-! ### The pair (R267, R348) -/

/-- The module's role in a pair (0x2008.03): 0 none, 1 senior, 2 junior. -/
def State.pairRole (s : State) : Nat := s.dictGet 0x5C00 5
/-- The pair state of 0x5200.05: 0 none, 1 joined, 2 claiming, 3 granted, 4 island (R348, R349). -/
def State.pairState (s : State) : Nat :=
  if s.pairRole = 0 then 0 else if !s.pair.lost then 1 else s.dictGet 0x5200 5

/-- What the partner's head says of the head chosen here: agreement, a wait, or a mismatch (R267). -/
inductive PairWord where
  | agree | wait | mismatch
deriving DecidableEq, Repr

def Suite.pairWord (x : Suite) (q count : Nat) (digest : List Byte) : PairWord :=
  if x.mode != .paired || !x.has 1 then .agree
  else match x.pairHead with
    | some (q', c', d') => if q' = q && c' = count then (if d' = digest then .agree else .mismatch) else .wait
    | none => .wait

/-! ### DISPATCH_LANDING -/

/-- Whether no Brick of a Room is in a Brick rung (R369). -/
def State.bricksReady (s : State) (r : Nat) : Bool :=
  (List.range 2).all fun h => (s.hall h).warden.rungs.all fun x => match x.2.1 with
    | .brick g => g / 256 != r
    | _ => true

/-- Whether a Suite may dispatch a step now (R12, R250, R255, R262, R349, R374, R377, R419). -/
def State.mayDispatch (s : State) (n : Nat) : Bool :=
  let x := s.suite n
  let h := s.hall (s.decider n)
  (x.st == .active || x.st == .degraded) && x.atBoundary && x.applying.isNone && x.complete && !x.running.isEmpty &&
    (s.joiningRooms n).isEmpty && (s.dueChanges x).1.isEmpty && s.pairAgrees x && !x.refill && decide (10 ≤ h.up.stage) &&
    !s.failSilent && !h.stewardStopped && (s.power.st == .idle || s.power.st == .active) &&
    (s.pairState != 4 || s.envFlag x.owner 1) && x.running.all fun r =>
      (s.room r).foreman.run != .hold && s.pathUp (4 + s.decider n) (floorOf r) && s.bricksReady r && (s.room r).usable && decide (x.lanes ≤ (s.room r).bricksUp) && !(s.hall (hallOfRoom r)).lost && (s.floor (floorOf r)).powerGood

/-- A step whose trees were refused: a program fault BAD_DESCRIPTOR at instruction 0 of ordinal 0 (R116, R135). -/
def State.refuseTrees (s : State) (n c q count : Nat) : State :=
  let x := s.suite n
  let r := x.running.headD 0
  (s.report 1 faultBadDescriptor 3 2 r x.owner (c * 4096)).ctxFault c faultBadDescriptor q (some (r, 0)) count

/-- The Steward chooses a step and starts it (R10, R264, R266). -/
def State.dispatch (s : State) (n : Nat) : State :=
  if !s.mayDispatch n then s
  else
    let s := (s.queuesOf n).foldl (fun s e => s.recheck e.1 e.2.1) s
    match s.choose n with
    | none => s
    | some (c, q, x, u) =>
      match u.headDesc with
      | none => s
      | some d =>
        let y := s.suite n
        let digest := Config.sha384 (Store.get [] u.fetched u.head.toNat)
        let s := if y.mode == .paired && y.has 1 then s.toPartner fun p e => .pairHead p e n q u.head.toNat digest else s
        match y.pairWord q u.head.toNat digest with
        | .wait => s
        | .mismatch => s.ctxFault c faultBadStep q none u.head.toNat
        | .agree =>
          match s.plan c x y d with
          | (.ok p, s) => s.start n c q u d p
          | (.wait, s') => s.keepAnswers s'
          | (.bad k, s) => s.ctxFault c k q none u.head.toNat
          | (.refused, s) => s.refuseTrees n c q u.head.toNat

def execDispatchLanding (suite : Nat) (s : State) : Host.Outcome State Fault Refusal :=
  onUnits (isSuite suite) s ((s.settle suite).dispatch suite)

end Sys2Proof.Machine
end

