-- ==== Sys2Proof/Machine/Commit.lean ====
section
/-! DEFINITION. The Commit Landing (R11, R272): flips and copies (R269 to R271), Ladder statistics and Step-up (R55, R59,
R61, R64, R65), the completion record (R219), event publication (R216, R217), and with it MARKER descriptors, the slice
(R265) and KILL (R273). -/

namespace Sys2Proof.Machine

/-! ### What the Steward writes -/

/-- Where the Steward writes a local HBM address of a context: in a DUPLEX Suite in the images of the copies that are
present, the West one first (R231, R346; log entry 40). -/
def State.imagesOf (s : State) (c a : Nat) : List Nat :=
  match s.ctx? c with
  | some x =>
    let y := s.suite x.suite
    let west := if mirror ≤ a then a - mirror else a
    if y.mode == .duplex then (if y.has 0 then [west] else []) ++ (if y.has 1 then [west + mirror] else []) else [a]
  | none => [a]

/-- One piece of a Steward write: `kind` is what it does with its bytes. -/
def State.putPiece (c : Nat) (kind : List Byte → AccKind) (s : State) (f : Nat) (bytes : List Byte) : Got Unit × State :=
  let port := s.stewardOf c
  let unit : Got (List Byte) × State → Got Unit × State := fun r =>
    match r with
    | (.ok _, s) => (.ok (), s)
    | (.wait, s) => (.wait, s)
    | (.access, s) => (.access, s)
    | (.poisoned, s) => (.poisoned, s)
  match s.target c f with
  | .hbm a =>
    (s.imagesOf c a).foldl (fun acc a =>
      match unit (acc.2.homeOp a bytes.length (kind bytes)) with
      | (g, s) => (joinUnit [acc.1, g], s)) (.ok (), s)
  | .host hall addr =>
    if s.hostLink hall then (.ok (), s.postHost c hall addr bytes) else (.poisoned, s)
  | .remote f => unit (s.remoteOp port c f bytes.length (kind bytes))

def State.putPieces (c : Nat) (kind : List Byte → AccKind) : List (Nat × Nat × Bool) → List Byte → State → Got Unit × State
  | [], _, s => (.ok (), s)
  | (f, n, _) :: rest, bytes, s =>
    match s.putPiece c kind f (bytes.take n) with
    | (.ok _, s) => putPieces c kind rest (bytes.drop n) s
    | r => r

/-- The Steward writes ranges of a context's addresses (R217, R219, R65). -/
def State.stewardPut (s : State) (c : Nat) (kind : List Byte → AccKind) (ranges : List (Nat × Nat)) (bytes : List Byte) :
    Got Unit × State :=
  let port := s.stewardOf c
  if s.stalled port c then (.wait, s)
  else match State.translateAll port c true (ranges.flatMap fun x => piecesOf x.1 x.2) s with
    | (.ok ps, s) =>
      match State.putPieces c kind ps bytes s with
      | (.wait, s') => (.wait, s.keepAnswers s')
      | r => r
    | (.wait, s) => (.wait, s)
    | (.access, s) => (.access, s)
    | (.poisoned, s) => (.poisoned, s)

/-- Publish an event word: a maximum in device memory, a posted write in host memory (R217). -/
def State.publish (s : State) (c va : Nat) (v : W64) : Got Unit × State :=
  if va = 0 then (.ok (), s)
  else s.stewardPut c (fun b => .event (BitVec.ofNat 64 (leNat b))) [(va, 8)] (leBytes 8 v.toNat)

/-- How a phase of the commit ends; a refusal of an address is a context fault with a code (R203). -/
def phaseOf (code : Nat) : Got Unit × State → Load Unit × State
  | (.ok _, s) => (.ok (), s)
  | (.wait, s) => (.wait, s)
  | (_, s) => (.bad code, s)

/-! ### Flips (R270, R351) -/

/-- The leaf slot of a virtual address. -/
inductive Leaf where
  | slot (addr size level : Nat)
  | absent (level : Nat)
  | refused
  | washing
deriving DecidableEq, Repr

/-- The address of the entry that a walk reads at a level. -/
def State.slotFrom (s : State) (duplex east : Bool) (va level : Nat) : Nat → Nat → Nat
  | 0, _ => 0
  | l + 1, table =>
    let a := imaged duplex east table + 8 * (va / 2 ^ (12 + 9 * l) % 512)
    if l + 1 = level then a else s.slotFrom duplex east va level l (pteFrame (leNat (s.coherentBytes a 8)))

/-- The slot of a local HBM leaf; the West image is walked, or the mirror image while copy 0 is lost (R231). -/
def State.leafSlot (s : State) (x : Context) (east : Bool) (va : Nat) : Leaf :=
  match (State.walk { s with walks := [] } 0 x (if east then 5 else 4) va false).1 with
  | .leaf f _ _ _ size level =>
    if fabricHbm f then .slot (s.slotFrom (s.isDuplex x) east va level 4 x.root) size level else .refused
  | .fault _ level => .absent level
  | .washing _ => .washing
  | _ => .refused

/-- The slots that a FLIP exchanges, once every one of them is found. -/
inductive FlipRead where
  | ok (pairs : List (Nat × Nat)) (size : Nat)
  | absent (va level : Nat)
  | refused
  | washing
deriving DecidableEq, Repr

def State.flipPairs (s : State) (x : Context) (east : Bool) (e : CommitEntry) (size level : Nat) : List Nat → FlipRead
  | [] => .ok [] size
  | i :: rest =>
    match s.leafSlot x east (e.a + i * size), s.leafSlot x east (e.b + i * size) with
    | .slot pa sa la, .slot pb sb lb =>
      if sa = size && sb = size && la = level && lb = level then
        match s.flipPairs x east e size level rest with
        | .ok l z => .ok ((pa, pb) :: l) z
        | r => r
      else .refused
    | .absent l, _ => .absent (e.a + i * size) l
    | .slot _ _ _, .absent l => .absent (e.b + i * size) l
    | .washing, _ => .washing
    | .slot _ _ _, .washing => .washing
    | _, _ => .refused

/-- The slots of a FLIP: all its leaves have the size and level of the first, and both ranges are aligned to it. -/
def State.flipRead (s : State) (x : Context) (east : Bool) (e : CommitEntry) : FlipRead :=
  if e.count = 0 then .ok [] 4096
  else match s.leafSlot x east e.a with
    | .slot _ size level =>
      if e.a % size != 0 || e.b % size != 0 then .refused
      else s.flipPairs x east e size level (List.range e.count)
    | .absent l => .absent e.a l
    | .refused => .refused
    | .washing => .washing

/-- Exchange two 64-bit entries; none while a home still has to finish a transaction of one of their lines (R186). -/
def State.swapEntries (s : State) (p : Nat × Nat) : Option State :=
  if s.isBusy (lineOf p.1) || s.isBusy (lineOf p.2) then none
  else
    let a := s.coherentBytes p.1 8
    let b := s.coherentBytes p.2 8
    (s.uncachedWrite p.1 b).bind fun x => (x.1.uncachedWrite p.2 a).map (·.1)

/-- Exchange every pair of slots, or none of them. -/
def State.swapAll (s : State) (slots : List (Nat × Nat)) : Option State :=
  if slots.any fun p => s.isBusy (lineOf p.1) || s.isBusy (lineOf p.2) then none
  else slots.foldl (fun s p => s.bind (·.swapEntries p)) (some s)

/-- Drop a context's TLB entries that overlap [va, va + n) in every Porter (R235). -/
def State.tlbDropRange (s : State) (c va n : Nat) : State :=
  s.tlbDrop fun e => e.ctx == c && decide (e.base < va + n) && decide (va < e.base + e.size)

/-- The slots of a FLIP in each page-table image that is present, the West image first (R231, R270). -/
def State.flipSlots (s : State) (c : Nat) (pairs : List (Nat × Nat)) : List (Nat × Nat) :=
  pairs.flatMap fun p => (s.imagesOf c p.1).zip (s.imagesOf c p.2)

/-- Exchange the slots of a FLIP and drop the translations of both ranges (R235, R270). -/
def State.flip (s : State) (c : Nat) (e : CommitEntry) (slots : List (Nat × Nat)) (size : Nat) : Option State :=
  (s.swapAll slots).map fun s => (s.tlbDropRange c e.a (e.count * size)).tlbDropRange c e.b (e.count * size)

def State.modStep (s : State) (n : Nat) (f : Step → Step) : State := s.modSuite n fun x => { x with step := x.step.map f }

/-- Perform one FLIP of the commit list and note it, with the value of the first leaf at A before it (R270, R351). -/
def State.commitFlip (s : State) (n : Nat) (st : Step) (k : Nat) (e : CommitEntry) : Load Unit × State :=
  if e.kind != 1 then (.ok (), s)
  else match s.ctx? st.ctx with
    | none => (.bad faultAccessQueue, s)
    | some x =>
      let port := s.stewardOf st.ctx
      let east := s.isDuplex x && !(s.suite n).has 0
      if s.stalled port st.ctx then (.wait, s)
      else match s.flipRead x east e with
        | .ok pairs size =>
          let slots := s.flipSlots st.ctx pairs
          let old := (pairs.head?).map fun p => BitVec.ofNat 64 (leNat (s.coherentBytes p.1 8))
          match s.flip st.ctx e slots size with
          | some s => (.ok (), s.modStep n fun y => { y with flips := y.flips ++ [{ place := k, old := old.getD 0, slots, size }] })
          | none => (.wait, s)
        | .absent va level =>
          if s.faultsRefused st.ctx then (.bad faultAccessQueue, s) else (.wait, s.stall port st.ctx va false true level)
        | .refused => (.bad faultAccessQueue, s)
        | .washing => (.wait, s)

/-- Undo the flips that the step has made, in reverse list order, by exchanging the same leaf entries back (R271); the state
with those that could be undone, and whether all were. -/
def State.undoFlips (n : Nat) (st : Step) : List Flipped → State → State × Bool
  | [], s => (s, true)
  | f :: rest, s =>
    match s.flip st.ctx ((st.commit[f.place]?).getD { kind := 1, count := 0, a := 0, b := 0 }) f.slots.reverse f.size with
    | none => (s, false)
    | some s => undoFlips n st rest (s.modStep n fun y => { y with flips := rest.reverse })

/-! ### Copies (R271) -/

/-- The Steward port whose translations name the staging of a DUPLEX Suite: copy 0's, or copy 1's while copy 0 is lost. -/
def State.stagingPort (s : State) (n c : Nat) : Nat :=
  let x := s.suite n
  if x.mode == .duplex then stewardPort (if x.has 0 then 0 else 1) else s.stewardOf c

/-- The Steward port that carries the copies of a context: its home Hall's, or the serving Hall's while that Hall is lost
(R271, R346). -/
def State.copyingPort (s : State) (c : Nat) : Nat :=
  match s.ctx? c with
  | some x => stewardPort (if (s.hall x.home).lost then x.serving else x.home)
  | none => stewardPort 0

/-- The host bytes whose reads flush the posted writes of a range: the last one in each host window (R271, log entry 67). -/
def State.flushPoints (s : State) (ctx va n : Nat) : List (Nat × Nat × Bool) :=
  let last (p : Nat × Nat) : Option (Nat × Nat × Bool) :=
    match (s.translate (s.stewardOf ctx) ctx p.1 true).1 with
    | .ok f _ => match s.target ctx f with | .host _ _ => some (f + p.2 - 1, 1, false) | _ => none
    | _ => none
  let hallOf (p : Nat × Nat × Bool) : Nat := match s.target ctx p.1 with | .host h _ => h | _ => 2
  let all := (piecesOf va n).filterMap last
  (List.range 2).filterMap fun h => all.reverse.find? fun p => hallOf p == h

/-- The posted writes of a COPY are flushed by a read of each host window that they went to: the host's refusal of it is a
refusal of the COPY (R271, log entry 67). -/
def State.flushCopy (s : State) (ctx va n : Nat) : Load Unit × State :=
  let port := s.stewardOf ctx
  let ps := s.flushPoints ctx va n
  match joinGot (ps.map fun x => s.peek port ctx x.1 x.2.1 false) with
  | .ok _ => (.ok (), ps.foldl (State.consume port ctx false) s)
  | .wait => (.wait, ps.foldl (State.request port ctx) s)
  | _ => (.bad faultAccessQueue, ps.foldl (State.consume port ctx false) s)

/-- One COPY: its bytes are read and written once, and then its posted writes are flushed. -/
def State.commitCopy (s : State) (n : Nat) (st : Step) (e : CommitEntry) : Load Unit × State :=
  if e.kind != 2 then (.ok (), s)
  else if ((s.suite n).step.map (·.copied)).getD false then s.flushCopy st.ctx e.b e.count
  else match State.charged (s.copyingPort st.ctx) st.ctx false [(e.a, e.count)]
      (s.readVa (s.stagingPort n st.ctx) st.ctx e.a e.count true) with
    | (.ok b, s) =>
      match phaseOf faultAccessQueue (s.stewardWrite st.ctx e.b b) with
      | (.ok _, s) => State.flushCopy (s.modStep n ({ · with copied := true })) st.ctx e.b e.count
      | r => r
    | (.wait, s) => (.wait, s)
    | (_, s) => (.bad faultAccessQueue, s)

/-- Perform the entries of the commit list from the cursor on; `f` performs one. -/
def State.commitEntries (n : Nat) (f : State → Nat → CommitEntry → Load Unit × State) :
    List (Nat × CommitEntry) → State → Load Unit × State
  | [], s => (.ok (), s)
  | (k, e) :: rest, s =>
    match f s k e with
    | (.ok _, s) => commitEntries n f rest (s.modStep n ({ · with cursor := k + 1, copied := false }))
    | r => r

/-! ### Ladder statistics and Step-up (R55, R59, R61, R64, R65) -/

/-- The layer totals of the step: those of every Room of one copy together. -/
def State.stepTotals (s : State) (n : Nat) : Store LayerTotals :=
  let x := s.suite n
  let rooms := if x.has 0 then x.members 0 else x.members 1
  rooms.foldl (fun t r => (s.room r).totals.foldl (fun t e => Store.modify {} t e.1 (·.merge e.2)) t) []

/-- Whether a Step-up trigger of a layer fires (R64). -/
def LadderEntry.fires (e : LadderEntry) (t : LayerTotals) : Bool :=
  bitOf e.ctrl 7 && ((bitOf e.ctrl 6 && decide (0 < t.breaches)) || (bitOf e.ctrl 5 && decide (e.satLimit < satAdd 32 t.sat 0)) ||
    (bitOf e.ctrl 4 && decide (e.poisonLimit < satAdd 32 t.poison 0)))

/-- The rung of a layer after the commit. -/
def LadderEntry.nextRung (e : LadderEntry) (t : LayerTotals) : Nat :=
  if e.fires t && decide (e.curRung < e.maxRung) then e.curRung + 1 else e.curRung

/-- Bytes 80 to 115 of a Ladder entry (R61). -/
def ladderStats (t : LayerTotals) (now : Nat) : List Byte :=
  leBytes 4 (satAdd 32 t.tiles 0) ++ leBytes 4 (satAdd 32 t.sat 0) ++ leBytes 4 (satAdd 32 t.ufl 0) ++
    leBytes 4 (satAdd 32 t.poison 0) ++ leBytes 4 (satAdd 32 t.nan 0) ++ leBytes 2 (satAdd 16 t.samples 0) ++
    leBytes 2 (satAdd 16 t.breaches 0) ++ leBytes 4 t.relErr.toNat ++ leBytes 8 now

/-- What the commit writes into the Ladder table: the statistics of every entry, and a rung that rises. -/
def ladderWrites (st : Step) (t : Store LayerTotals) (now : Nat) : List ((Nat × Nat) × List Byte) :=
  ((List.range st.ladder.length).zip st.ladder).flatMap fun e =>
    let x := Store.get {} t e.1
    let a := st.ladderBase + 128 * e.1
    let rung := e.2.nextRung x
    ((a + 80, 36), ladderStats x now) :: (if rung = e.2.curRung then [] else [((a + 2, 1), [BitVec.ofNat 8 rung])])

/-- The step guard summary (R55). -/
def guardSummary (st : Step) (t : Store LayerTotals) : Nat :=
  let layers := (List.range st.ladder.length).zip st.ladder
  let taken := layers.any fun e => e.2.fires (Store.get {} t e.1) && decide (e.2.curRung < e.2.maxRung)
  let blocked := layers.any fun e => e.2.fires (Store.get {} t e.1) && e.2.curRung == e.2.maxRung
  let breach := t.find? fun e => decide (0 < e.2.breaches)
  let bit (b : Bool) (k : Nat) := if b then 2 ^ k else 0
  bit breach.isSome 31 + bit taken 30 + bit blocked 29 + bit (t.any fun e => decide (0 < e.2.nan)) 28 +
    bit (t.any fun e => decide (0 < e.2.accOvf)) 27 + bit (t.any fun e => e.2.sticky) 26 +
    (breach.map (·.1)).getD 0 % 4096 * 2 ^ 12

/-! ### The completion record (R219) -/

/-- Courses of the committed run. -/
def State.coursesRun (s : State) (n : Nat) : Nat :=
  ((s.suite n).running.map fun r => (s.room r).course.ordinal).foldl max 0

def State.completionRecord (s : State) (st : Step) : List Byte :=
  let kills := ((s.ctx? st.ctx).map fun x => (x.queue st.queue).kills).getD 0
  leBytes 1 1 ++ leBytes 1 st.queue ++ leBytes 2 0 ++ leBytes 4 st.count ++ leBytes 8 st.dispatched ++ leBytes 8 s.time ++
    leBytes 4 (guardSummary st st.totals) ++ leBytes 4 st.courses ++ leBytes 2 st.votes ++
    leBytes 2 kills ++ leBytes 4 0 ++ leBytes 8 (if st.desc.event = 0 then 0 else st.desc.eventValue.toNat) ++ leBytes 16 0

/-! ### The commit in its order (R272) -/

/-- The context's completion vector, when it is enabled (R220). -/
def State.doneVector (s : State) (c : Nat) : State :=
  match s.ctx? c with
  | some x => if bitOf x.vectors 15 then s.sendVector x.serving (32 * x.household + x.vectors % 32) else s
  | none => s

/-- The end of a commit: HEAD advances and the Suite is at a boundary, where a deferred root, a closing queue and a
freeze point take effect (R206, R207, R226, R272, R278). -/
def State.finishCommit (s : State) (n : Nat) (st : Step) : State :=
  let s := s.accrue n
  let s := (s.suite n).allRooms.foldl (fun s r => s.modRoom r fun x =>
    { x with foreman := { x.foreman with run := if x.foreman.run == .hold then .hold else .idle } }) s
  let s := s.modSuite n fun x => { x with step := none, vote := none, rounds := [], releases := [], committed := satAdd 64 x.committed 1 }
  let s := s.modCtx st.ctx fun c => { c with committed := satAdd 64 c.committed 1 }
  let s := s.modQueue st.ctx st.queue fun q =>
    let q := { q with lastCommit := s.time }
    if q.st == .opened then q.advance else q
  let s := (s.takeRoot st.ctx).closeQueue st.ctx st.queue
  let hh := s.houseOf st.ctx
  let s := if (s.house hh).st == .freezing && (s.house hh).freezeAtPoint && st.desc.freezePoint then
    (s.modCtx st.ctx freezeCtx).settleFreeze hh else s
  ((s.freeClosed n).freezeBound n).settlePower

/-- A refusal during the commit: the flips are undone, which may have to wait for a home, and then the step ends and the
context faults; the descriptor stays at the head of its queue (R204, R271). -/
def State.failCommit (s : State) (n : Nat) (st : Step) (code : Nat) : State :=
  let s := s.modStep n ({ · with failing := some code })
  match State.undoFlips n st ((((s.suite n).step.map (·.flips)).getD []).reverse) s with
  | (s, true) => (s.killStep n).ctxFault st.ctx code st.queue none st.count
  | (s, false) => s

/-- Whether a Steward write of n bytes at an address can be performed: it is looked at before anything is published, since a
faulted step publishes nothing (R204, R219). -/
def State.writable (s : State) (c va n code : Nat) : Load Unit × State :=
  let port := s.stewardOf c
  if va = 0 then (.ok (), s)
  else if s.stalled port c then (.wait, s)
  else match State.translateAll port c true (piecesOf va n) s with
    | (.ok ps, s) =>
      let dead (p : Nat × Nat × Bool) : Bool :=
        match s.target c p.1 with
        | .hbm a => s.coherentPoison a p.2.1 && (n < 64 || (unitsOf a p.2.1).any fun u => !s.usableAt (u * 64))
        | .host h _ => !s.hostLink h
        | .remote f =>
          if s.isOwn f then (s.allow (s.ownAccess c f p.2.1 (if n = 8 then .event 0 else .write (List.replicate p.2.1 0)))).isNone
          else (s.route (requesterHall port) (fabricPlane f) (fabricNode f)).isNone
      (if ps.any dead then .bad code else .ok (), s)
    | (.wait, s) => (.wait, s)
    | (_, s) => (.bad code, s)

/-- The addresses of the completion record and of the event word are both good (R204, R219). -/
def State.publishable (s : State) (st : Step) : Load Unit × State :=
  match s.writable st.ctx st.desc.completion 64 faultAccessQueue with
  | (.ok _, s) => s.writable st.ctx st.desc.event 8 faultAccessEvent
  | r => r

/-- Before each entry of the commit list, the deciding Steward sends its cursor to the other Hall on VC0 (R351). -/
def State.sendCursor (s : State) (n : Nat) : State :=
  s.control s.moduleClass (.hall (s.decider n)) (.hall (1 - s.decider n))

/-- Phase k of the commit. -/
def State.commitPhase (s : State) (n : Nat) (st : Step) (k : Nat) : Load Unit × State :=
  let cursor := ((s.suite n).step.map (·.cursor)).getD 0
  let rest := ((List.range st.commit.length).zip st.commit).drop cursor
  if k = 1 then State.commitEntries n (fun s i e => (if e.kind = 1 then s.sendCursor n else s).commitFlip n st i e) rest s
  else if k = 2 then State.commitEntries n (fun s _ e => (if e.kind = 2 then s.sendCursor n else s).commitCopy n st e) rest s
  else if k = 3 then
    let ws := ladderWrites st st.totals s.time
    match s.publishable st with
    | (.ok _, s) => phaseOf faultAccessQueue (s.stewardPut st.ctx .write (ws.map (·.1)) (ws.flatMap (·.2)))
    | r => r
  else if k = 4 then
    (.ok (), (s.accrue n).modQueue st.ctx st.queue fun q => chargeQueue q (s.time - st.dispatched))
  else if k = 5 then
    if st.desc.completion = 0 then (.ok (), s)
    else match s.publishable st with
      | (.ok _, s) => phaseOf faultAccessQueue (s.stewardPut st.ctx .write [(st.desc.completion, 64)] (s.completionRecord st))
      | r => r
  else if k = 6 then phaseOf faultAccessEvent (s.publish st.ctx st.desc.event st.desc.eventValue)
  else (.ok (), if st.desc.irq then s.doneVector st.ctx else s)

/-- Run the phases in order until one waits or fails; a phase that is done is not done again. -/
def State.commitFrom (n : Nat) (st : Step) : List Nat → State → State
  | [], s => s.finishCommit n st
  | k :: rest, s =>
    match s.commitPhase n st k with
    | (.ok _, s) => commitFrom n st rest (s.modStep n ({ · with phase := k + 1, cursor := 0 }))
    | (.bad code, s) => s.failCommit n st code
    | (_, s) => s

/-- A step commits when every Room of every copy has executed COMMIT and every digest is confirmed (R104, R272). -/
def State.mayCommit (s : State) (n : Nat) (st : Step) : Bool :=
  let x := s.suite n
  let both := x.protected && x.has 0 && x.has 1
  x.vote.isNone && !x.running.isEmpty && !s.failSilent && !(s.hall (s.decider n)).stewardStopped &&
    x.running.all fun r =>
      (s.room r).foreman.run == .committed && (!both || decide ((s.room r).course.ordinal ≤ st.compared))

def State.commit (s : State) (n : Nat) : State :=
  match (s.suite n).step with
  | none => s
  | some st =>
    match st.failing with
    | some code => s.failCommit n st code
    | none =>
      if st.committing then State.commitFrom n st ((span 1 7).filter fun k => decide (st.phase ≤ k)) s
      else if s.mayCommit n st then
        let st := { st with phase := 1, cursor := 0, totals := s.stepTotals n, courses := s.coursesRun n }
        State.commitFrom n st (span 1 7) (s.modStep n fun _ => st)
      else s

def execCommitLanding (suite : Nat) (s : State) : Host.Outcome State Fault Refusal :=
  onUnits (isSuite suite) s (s.commit suite)

/-! ### MARKER descriptors (R211, R216, R264) -/

/-- A MARKER at the head of its queue is consumed once its waits hold: its event is published, its vector sent, and HEAD
passes it, without a choice and without a charge. -/
def State.marker (s : State) (c q : Nat) : State :=
  let s := s.recheck c q
  match s.ctx? c with
  | none => s
  | some x =>
    let u := x.queue q
    if !Queue.ready x u || !u.markerHead || ((s.suite x.suite).held != 0 && q != 15) || !s.served x then s
    else match u.headDesc with
    | none => s
    | some d =>
      match s.checkStep c d with
      | (.bad k, s) => s.ctxFault c k q none u.head.toNat
      | (.wait, s) => s
      | (.ok, s) =>
        match s.publish c d.event d.eventValue with
        | (.ok _, s) => (if d.irq then s.doneVector c else s).modQueue c q Queue.advance
        | (.wait, s) => s
        | (_, s) => s.ctxFault c faultAccessEvent q none u.head.toNat

def execMarkerPublish (ctx queue : Nat) (s : State) : Host.Outcome State Fault Refusal :=
  onUnits (isContext ctx && isQueue queue) s (s.marker ctx queue)

/-! ### Slices and KILL (R265, R273, R275) -/

/-- A step that has run its slice is killed when a queue of another context is ready, once in its descriptor's life
(R265). -/
def execSliceExpiry (suite : Nat) (s : State) : Host.Outcome State Fault Refusal :=
  onUnits (isSuite suite) s (
    let x := s.suite suite
    match x.step with
    | none => s
    | some st =>
      let u := ((s.ctx? st.ctx).map (·.queue st.queue)).getD {}
      if x.slice = 0 || st.committing || u.sliced || s.time < st.dispatched + x.slice * 100000 then s
      else
        let s := ((s.queuesOf suite).filter (·.1 != st.ctx)).foldl (fun s e => s.recheck e.1 e.2.1) s
        if !(s.queuesOf suite).any (fun e => e.1 != st.ctx && Queue.ready e.2.2.1 e.2.2.2) then s
        else (s.killStep suite).modQueue st.ctx st.queue ({ · with sliced := true }))

/-- KILL: the running step is killed and stays at the head of its queue; 1 is the only value (R255, R273). -/
def actKill (suite v : Nat) : Act := fun s =>
  match firstFault [must (v ≤ 1) abHigh, must (v = 1) abRange] with
  | some c => .error c
  | none => .ok (s.killUnlessCommitting suite, true)

def execKill (q : Chan) (suite : Nat) (s : State) : Host.Outcome State Fault Refusal :=
  onUnits (isChan q && isSuite suite) s (s.download q (0x3100 + suite) 0x16 [1] (actKill suite 1))

end Sys2Proof.Machine
end

