-- ==== Sys2Proof/Machine/Contexts.lean ====
section
/-! DEFINITION. Contexts and queues (R199 to R207, R281), doorbells (R208 to R210, R239), MSI-X unmasking (R221), the BAR4
aperture (R198), page-table roots and TLB invalidation (R226, R235), page walks, the fault queue (R236 to R240), Windows
and remote arrivals (R244 to R247). -/

namespace Sys2Proof.Machine

/-- Check 8 for a household's entries: nothing is written while it is INACTIVE (R250). -/
def State.awake (s : State) (hh : Nat) : Option Nat := must (s.houseActive hh) abState

/-! ### Contexts (R200 to R204) -/

/-- The lowest free context number. -/
def State.freeContextNumber (s : State) : Option Nat := (List.range 4096).find? fun c => (s.ctx? c).isNone

/-- The Hall that serves a new context (R199, R346). -/
def State.servingHall (s : State) (suite home : Nat) : Nat :=
  let down := (s.hall home).lost || !(s.hall home).hostUp
  if (s.suite suite).mode == .duplex && down && !(s.hall (1 - home)).lost then 1 - home else home

/-- CTX_REQUEST (R200). -/
def actCtxRequest (hh : Nat) (w : W64) : Act := fun s =>
  let w := w.toNat
  let suite := bitsOf w 55 48
  let x := s.suite suite
  let home := bitsOf w 28 28
  match firstFault [must (s.suiteOwner suite == some hh) abNotPermitted, versionAt w 56, s.awake hh,
      must (x.st != .releasing && (s.house hh).st != .closing) abState,
      must (x.mode != .paired || (s.contextsOf suite).isEmpty) abState], s.freeContextNumber with
  | some c, _ => .error c
  | none, none => .error abMemory
  | none, some c =>
    let s := s.setCtx c (some { household := hh, suite, pasid := bitsOf w 19 0, home, serving := s.servingHall suite home })
    .ok (s.modHouse hh ({ · with ctxResult := BitVec.ofNat 64 (2 ^ 56 + bitsOf w 47 32 * 2 ^ 32 + c) }), true)

def execCtxRequest (q : Chan) (hh : Nat) (w : W64) (s : State) : Host.Outcome State Fault Refusal :=
  onUnits (isChan q && isHousehold hh) s (s.download q (0x3000 + hh) 0x40 (leBytes 8 w.toNat) (actCtxRequest hh w))

/-- SKIP: the faulting descriptor is consumed, at once at the head of its queue or when HEAD reaches it; a
QUEUE_OVERFLOW names none (R203, R204). -/
def Queue.skip (q : Queue) (slot : Nat) : Queue :=
  let n := q.head + ((BitVec.ofNat 16 slot - q.head.setWidth 16).setWidth 32)
  if q.head == q.tail then q
  else if n == q.head then q.advance
  else { q with skipped := q.skipped ++ [n.toNat] }

/-- CLEAR_FAULT: 1 RETRY, 2 SKIP (R202, R204). -/
def actClearFault (ctx v : Nat) : Act := fun s =>
  match s.ctx? ctx with
  | none => .error abState
  | some x =>
    let w := x.fault.toNat
    let q := bitsOf w 47 44
    judged [must (v ≠ 0) abRange, must (v ≤ 2) abHigh, must (x.st == .faulted) abState]
      (let s := s.setCtx ctx (some { x with st := .opened, fault := 0 })
       if v = 2 && bitsOf w 55 48 != faultQueueOverflow then s.modQueue ctx q (·.skip (bitsOf w 15 0)) else s)

def execRetry (q : Chan) (ctx : Nat) (s : State) : Host.Outcome State Fault Refusal :=
  onUnits (isChan q && isContext ctx) s (s.download q (0x4000 + ctx) 5 [1] (actClearFault ctx 1))

def execSkip (q : Chan) (ctx : Nat) (s : State) : Host.Outcome State Fault Refusal :=
  onUnits (isChan q && isContext ctx) s (s.download q (0x4000 + ctx) 5 [2] (actClearFault ctx 2))

/-! ### Queues (R205 to R207) -/

/-- The lowest closed queue of a context. -/
def Context.closedQueue (x : Context) : Option Nat := (List.range 16).find? fun q => (x.queue q).st == .closed

/-- QUEUE_OPEN (R205, R206). -/
def actQueueOpen (ctx : Nat) (w : W64) : Act := fun s =>
  match s.ctx? ctx with
  | none => .error abState
  | some x =>
    let w := w.toNat
    let slot := bitsOf w 63 59
    let q := if slot = 31 then x.closedQueue else some slot
    match firstFault [must (slot < 16 || slot = 31) abRange, must (bitsOf w 3 0 ≤ 10) abRange, must (x.st == .opened) abState,
        must (slot = 31 || (x.queue slot).st == .closed) abState], q with
    | some c, _ => .error c
    | none, none => .error abMemory
    | none, some q =>
      let value := slot * 2 ^ 59 + bitsOf w 47 12 * 2 ^ 12 + bitsOf w 7 0
      .ok (s.modQueue ctx q fun _ => { st := .opened, value := BitVec.ofNat 64 value }, true)

def execQueueOpen (q : Chan) (ctx : Nat) (w : W64) (s : State) : Host.Outcome State Fault Refusal :=
  onUnits (isChan q && isContext ctx) s (s.download q (0x4000 + ctx) 6 (leBytes 8 w.toNat) (actQueueOpen ctx w))

/-- Descriptors not yet dispatched are discarded (R207, R281). -/
def Queue.discard (q : Queue) : Queue :=
  if q.st == .closed then q
  else { q with st := .closing, head := q.tail, fetched := [], skipped := [], waitsHold := false, blocked := true }

/-- QUEUE_CLOSE: the transfer completes when no step of the queue is in flight (R207). -/
def actQueueClose (ch : Chan) (ctx : Nat) (v : Nat) : Act := fun s =>
  match s.ctx? ctx with
  | none => .error abState
  | some x =>
    let busy := s.inFlight ctx v
    judged [must (v < 16) abHigh, must ((x.queue v).st == .opened) abState]
      (let s := s.modQueue ctx v fun q => { q.discard with closer := if busy then some ch else none }
       if busy then s else s.closeQueue ctx v) (!busy)

def execQueueClose (q : Chan) (ctx : Nat) (queue : Byte) (s : State) : Host.Outcome State Fault Refusal :=
  onUnits (isChan q && isContext ctx) s (s.download q (0x4000 + ctx) 7 [queue] (actQueueClose q ctx queue.toNat))

/-! ### The instance reset of a context (R281) -/

/-- Close a context: dispatch stops, what waits is discarded, and its running step is killed unless it has begun to commit
(R273, R275, R281). -/
def State.closeContext (s : State) (c : Nat) : State :=
  match s.ctx? c with
  | none => s
  | some x =>
    let running : Bool := ((s.suite x.suite).step.map (·.ctx)) == some c
    let s := s.setCtx c (some { x with st := .closing, queues := Store.mapValues {} Queue.discard x.queues })
    let s := if running then s.killUnlessCommitting x.suite else s
    let s := (List.range 16).foldl (fun s q => if s.inFlight c q then s else s.closeQueue c q) s
    let going : Bool := ((s.suite x.suite).step.map (·.ctx)) == some c
    let keep (y : PortStall) : Bool := y.ctx != c || going
    let s := { s with stalls := s.stalls.filter keep }
    s.freeClosed x.suite

def actClose (ctx v : Nat) : Act := fun s =>
  match s.ctx? ctx with
  | none => .error abState
  | some x => judged [must (v ≤ 1) abHigh, must (v = 1) abRange, must (x.st != .closing) abState] (s.closeContext ctx)

def execClose (q : Chan) (ctx : Nat) (s : State) : Host.Outcome State Fault Refusal :=
  onUnits (isChan q && isContext ctx) s (s.download q (0x4000 + ctx) 8 [1] (actClose ctx 1))

/-! ### Doorbells (R208 to R210) -/

/-- A doorbell write that is discarded and counted (R197, R209). -/
def State.dropBell (s : State) (hall : Nat) : State := s.modHall hall fun h => { h with drops := satAdd 32 h.drops 1 }

/-- Whether the doorbell page of a context is live in a Hall's BAR2 (R199, R209). -/
def State.bellLive (s : State) (hall ctx : Nat) : Bool :=
  match s.ctx? ctx with
  | some x => x.st != .closing && x.serving == hall && decide (10 ≤ (s.hall hall).up.stage) && !s.failSilent
  | none => false

/-- A tail doorbell write of `size` bytes with the value v (R209). -/
def State.ringTail (s : State) (hall ctx queue size : Nat) (v : W32) : State :=
  match s.ctx? ctx with
  | none => s.dropBell hall
  | some x =>
    let q := x.queue queue
    if !s.bellLive hall ctx || size != 4 || q.st != .opened then s.dropBell hall
    else
      let d := (v - q.tail).toNat
      if d = 0 then s.recheck ctx queue
      else if d ≤ q.entries - q.waiting then s.modQueue ctx queue ({ · with tail := v })
      else if 2 ^ 31 ≤ d then s
      else s.ctxFault ctx faultQueueOverflow queue none q.tail.toNat

def execTailDoorbell (hall ctx queue size : Nat) (v : W32) (s : State) : Host.Outcome State Fault Refusal :=
  onUnits (isHall hall && isContext ctx && isQueue queue) s (s.ringTail hall ctx queue size v)

/-! ### Stalled accesses (R238 to R240) -/

/-- The descriptor that a stalled Steward access belongs to, and the code of its refusal (R203). -/
def State.stewardTarget (s : State) (x : PortStall) : Nat × Nat × Nat :=
  match s.ctx? x.ctx with
  | none => (faultAccessQueue, 0, 0)
  | some c =>
    let named := (c.queues.filterMap fun e => e.2.headDesc.map fun d => (e.1, e.2.head.toNat, d)).find? fun y =>
      y.2.2.wait0 == x.va || y.2.2.wait1 == x.va || y.2.2.event == x.va
    match named with
    | some (q, n, _) => (faultAccessEvent, q, n)
    | none =>
      match (s.suite c.suite).step with
      | some st => if st.ctx == x.ctx then (faultAccessQueue, st.queue, st.count) else (faultAccessQueue, 0, 0)
      | none =>
        match c.queues.find? fun e => e.2.st == .opened && e.2.head != e.2.tail with
        | some e => (faultAccessQueue, e.1, e.2.head.toNat)
        | none => (faultAccessQueue, 0, 0)

/-- The stall of a port ends. -/
def State.release (s : State) (x : PortStall) : State :=
  let s := { s with stalls := s.stalls.filter (· != x) }
  if x.port < 1280 then s.modRoom x.port fun r => { r with dma := r.dma.map fun t => { t with stalled := false } } else s

/-- A stalled access completes as an ACCESS refusal (R238 to R240). -/
def State.refuseStall (s : State) (x : PortStall) : State :=
  let s := if x.port < 1280 then s.modRoom x.port fun y => { y with dma := removeFirst (·.stalled) y.dma } else s
  let s := s.release x
  if x.port < 2560 then
    let r := x.port % 1280
    if (s.stepOf r).isSome then s.programFault r faultAccess
    else match s.suiteOf r with
      | some n => s.settle n
      | none => s
  else if x.steward then
    let (code, q, n) := s.stewardTarget x
    match (s.ctx? x.ctx).bind fun c => ((s.suite c.suite).step.map fun st => (c.suite, st)) with
    | some (suite, st) =>
      if st.ctx == x.ctx && st.committing then s.failCommit suite st code else s.ctxFault x.ctx code q none n
    | none => s.ctxFault x.ctx code q none n
  else
    let p := (x.port - 2560) / 16 * 2 + (x.port - 2560) % 16 - 7
    s.modFeed p fun y => { y with dropped := satAdd 32 y.dropped 1, buffer := y.buffer.drop 1 }

/-- Whether a replay doorbell with SEQ k covers a stalled access (R239). -/
def PortStall.covered (x : PortStall) (ctx : Nat) (k : W32) : Bool :=
  x.ctx == ctx && (match x.seq with | some n => decide ((k - n).toNat < 2 ^ 31) | none => false)

/-- REPLAY for one stalled port: the TLB forgets the page, and the access is tried again (R239). -/
def State.replayStall (s : State) (x : PortStall) : State := (s.tlbDropRange x.ctx x.va 1).release x

def State.replayBell (s : State) (hall ctx size : Nat) (version : Byte) (f : State → PortStall → State) (k : W32) : State :=
  if !s.bellLive hall ctx || size != 8 || version != 1 then s.dropBell hall
  else (s.stalls.filter (·.covered ctx k)).foldl f s

def execReplay (hall ctx size : Nat) (version : Byte) (seq : W32) (s : State) : Host.Outcome State Fault Refusal :=
  onUnits (isHall hall && isContext ctx) s (s.replayBell hall ctx size version State.replayStall seq)

def execAbort (hall ctx size : Nat) (version : Byte) (seq : W32) (s : State) : Host.Outcome State Fault Refusal :=
  onUnits (isHall hall && isContext ctx) s (s.replayBell hall ctx size version State.refuseStall seq)

/-! ### MSI-X (R221) -/

/-- The host clears the mask bit of a vector; a pending message is sent (R221). -/
def State.unmask (s : State) (hall vec : Nat) : State :=
  let e := (s.hall hall).vector vec
  let s := s.modHall hall (·.modVector vec ({ · with masked := false, isPending := e.isPending && s.failSilent }))
  if e.isPending && !s.failSilent then s.emit (.msix hall vec) else s

def execVectorUnmask (hall vec : Nat) (s : State) : Host.Outcome State Fault Refusal :=
  onUnits (isHall hall && isVector vec) s (s.unmask hall vec)

/-! ### Accesses that wait at a home (R186, R246) -/

/-- Answer an arrived access.  A posted host write gets no completion, so one that meets a bad unit is recorded only (R148). -/
def State.answerAccess (s : State) (acc : RemoteAccess) (ok poisoned : Bool) (data : List Byte) : State :=
  if acc.port < 12 then s.emit (.remoteAnswer acc ok poisoned data)
  else match acc.kind with
    | .write _ => if ok then s else s.emit (.hostAnswer (acc.port - 12) ok poisoned [])
    | _ => s.emit (.hostAnswer (acc.port - 12) ok poisoned data)

/-- Whether an access that one of these Windows admitted is still being performed (R245). -/
def State.admitted (s : State) (windows : List Nat) : Bool :=
  (s.waiters ++ s.heldAnswers.map (·.waiter)).any fun w => (w.window.map windows.contains).getD false

/-- Removals of Windows whose last admitted access has ended complete (R245). -/
def State.endRemovals (s : State) : State :=
  let done (r : Removal) := !s.admitted r.windows
  (s.removals.filter done).foldl (fun s r => s.reply r.chan r.index r.sub 0 [])
    { s with removals := s.removals.filter fun r => !done r }

/-- The master port of an arrived access. -/
def arrivalPort (acc : RemoteAccess) : Nat := if acc.port < 12 then mortarMaster acc.port else hostPort (acc.port - 12)

/-- Whether a request touches [a, a + n). -/
def MemReq.touches (q : MemReq) (a n : Nat) : Bool := decide (q.lpa < a + n) && decide (a < q.lpa + q.len)

/-- Whether a request of a port for a part of [a, a + n) waits at its regulator or at its pseudo-channel. -/
def State.awaitsHbm (s : State) (port a n : Nat) : Bool :=
  (s.reg port).waiting.any (·.touches a n) ||
    (unitsOf a n).any fun u =>
      let x := s.pc (s.pcOf (u * 64))
      (x.queue ++ x.inService.toList).any fun q => q.port == port && q.touches a n

/-- An arrived access has been performed: it is answered once HBM has ended its requests, for they may bring the mark of a bad unit
(R151, log entry 65). -/
def State.answerLater (s : State) (w : Waiter) (data : List Byte) : State :=
  if s.awaitsHbm (arrivalPort w.acc) w.addr w.acc.len then
    { s with heldAnswers := s.heldAnswers ++ [{ port := arrivalPort w.acc, waiter := w, data }] }
  else s.answerAccess w.acc true false data

/-- The answers whose requests have ended go out. -/
def State.releaseAnswers (s : State) : State :=
  let due (h : HeldAnswer) : Bool := !s.awaitsHbm h.port h.waiter.addr h.waiter.acc.len
  let s' : State := { s with heldAnswers := s.heldAnswers.filter fun h => !due h }
  ((s.heldAnswers.filter due).foldl
    (fun s h => s.answerAccess h.waiter.acc true h.poisoned (if h.poisoned then [] else h.data)) s').endRemovals

/-- The pages of an arrived access that are still being washed. -/
def State.washingPages (s : State) (w : Waiter) : List Nat :=
  if w.window.isNone then [] else ((pageStarts w.addr w.acc.len).map (· / 4096)).filter s.isWashing

/-- Perform an arrived access at its home; what has to wait is kept: a page on which it waits is washed next (R253), and a WAIT
whose word is too small is read again after the next write to its line (R186). -/
def State.performArrived (s : State) (w : Waiter) : State :=
  let washing := s.washingPages w
  if !washing.isEmpty then
    washing.foldl (fun s p => s.modPage p ({ · with awaited := true })) { s with waiters := s.waiters ++ [w] }
  else
    let busy := (linesOf w.addr w.acc.len).any s.isBusy
    match s.homeOp w.addr w.acc.len w.acc.kind with
    | (.ok b, s) => (s.answerLater w b).endRemovals
    | (.poisoned, s) => (s.answerAccess w.acc true true []).endRemovals
    | (.access, s) => (s.answerAccess w.acc false false []).endRemovals
    | (.wait, s) => { s with waiters := s.waiters ++ [{ w with parked := !busy }] }

/-- Every waiting access that is not parked looks at its line again (R186). -/
def State.serveWaiters (s : State) : State :=
  (s.waiters.filter fun w => !w.parked).foldl State.performArrived { s with waiters := s.waiters.filter (·.parked) }

/-! ### BAR4 (R145, R198, R402) -/

/-- log2 of the BAR4 size of a Hall; 0 when BAR4 is withheld, and before configuration space is served in stage 3 (R197, R198, R389,
R420). -/
def State.bar4Log2 (s : State) (h : Nat) : Nat :=
  if bitOf s.policy 0 && decide (3 ≤ (s.hall h).up.stage) then (s.hall h).bar4Size.getD (28 + Config.bar4Log2.val) else 0

/-- An access of the host through BAR4: coherent, never to a PROTECTED page or an unpopulated address, and an Unsupported Request
before stage 9 (R198, R402, R420). -/
def State.bar4 (s : State) (hall off len : Nat) (data : Option (List Byte)) : State :=
  let a := (s.hall hall).bar4Base + off
  let kind : AccKind := match data with | some b => .write b | none => .read
  let n := match data with | some b => b.length | none => len
  let acc : RemoteAccess := { port := 12 + hall, plane := 0, node := 0, household := 0, addr := a, len := n, kind }
  if s.bar4Log2 hall = 0 || 2 ^ s.bar4Log2 hall < off + n || n = 0 || !s.hostLink hall then s
  else if s.failSilent || decide ((s.hall hall).up.stage < 9) || !populatedRange a n || (pageStarts a n).any (fun p => (s.page (p / 4096)).isProtected) then
    s.answerAccess acc false false []
  else (s.enqueue (hostPort hall) a n data.isSome none).performArrived { window := none, addr := a, acc }

def execBar4Access (hall off len : Nat) (data : Option (List Byte)) (s : State) : Host.Outcome State Fault Refusal :=
  onUnits (isHall hall) s (s.bar4 hall off len data)

/-! ### Page-table roots and TLB invalidation (R226, R235) -/

def State.ownsCtx (s : State) (hh c : Nat) : Option Nat :=
  must (((s.ctx? c).map (·.household)) == some hh) abNotPermitted

/-- PT_ROOT: at once, or when the context's dispatched step ends (R226). -/
def actPtRoot (hh : Nat) (w : W64) : Act := fun s =>
  let w := w.toNat
  let c := bitsOf w 55 44
  let root := bitsOf w 37 12 * 4096
  let dispatched := (List.range 16).any (s.inFlight c)
  judged [s.ownsCtx hh c, versionAt w 56, s.awake hh]
    (if dispatched then s.modCtx c ({ · with nextRoot := some root })
     else (s.modCtx c ({ · with root, nextRoot := none })).tlbDrop (·.ctx == c))

def execPtRoot (q : Chan) (hh : Nat) (w : W64) (s : State) : Host.Outcome State Fault Refusal :=
  onUnits (isChan q && isHousehold hh) s (s.download q (0x3000 + hh) 0x44 (leBytes 8 w.toNat) (actPtRoot hh w))

/-- TLB_INVAL (R235). -/
def actTlbInval (hh : Nat) (w : W64) : Act := fun s =>
  let w := w.toNat
  let c := bitsOf w 55 44
  let va := bitsOf w 35 0 * 4096
  let scope := bitsOf w 43 42
  let size := if scope = 0 then 4096 else if scope = 1 then 2 ^ 21 else 2 ^ 30
  judged [s.ownsCtx hh c, versionAt w 56, s.awake hh]
    (if scope = 3 then s.tlbDrop (·.ctx == c) else s.tlbDropRange c (va / size * size) size)

def execTlbInval (q : Chan) (hh : Nat) (w : W64) (s : State) : Host.Outcome State Fault Refusal :=
  onUnits (isChan q && isHousehold hh) s (s.download q (0x3000 + hh) 0x46 (leBytes 8 w.toNat) (actTlbInval hh w))

/-- A walk at a master port: a leaf enters the TLB, and a page fault stalls the port (R226 to R234, R238). -/
def State.walkAt (s : State) (port ctx va : Nat) (write : Bool) : State :=
  if s.stalled port ctx then s
  else match s.translate port ctx va write with
    | (.fault np l, s) => if s.faultsRefused ctx then s else s.stall port ctx va write np l
    | (_, s) => s

def execPageWalk (port ctx va : Nat) (write : Bool) (s : State) : Host.Outcome State Fault Refusal :=
  onUnits (isMaster port && isContext ctx) s (s.walkAt port ctx va write)

/-! ### The fault queue (R236 to R240) -/

/-- The bytes of a fault record (R237). -/
def faultRecord (x : PortStall) (seq : Nat) : List Byte :=
  let flags := (if x.write then 1 else 0) + (if x.east then 2 else 0) + (if x.steward then 4 else 0)
  [1, if x.notPresent then 1 else 2, BitVec.ofNat 8 x.level, BitVec.ofNat 8 flags] ++ leBytes 2 x.ctx ++ leBytes 2 x.port ++
    leBytes 8 x.va ++ leBytes 4 seq ++ leBytes 4 0 ++ leBytes 8 x.time

/-- The oldest fault of a household that has no record yet. -/
def State.nextFault (s : State) (hh : Nat) : Option PortStall :=
  s.stalls.find? fun x => x.seq.isNone && s.houseOf x.ctx == hh

/-- Records that meet a full ring are counted, each once (R236). -/
def State.countWaits (s : State) (hh : Nat) : State :=
  let meets (x : PortStall) : Bool := s.houseOf x.ctx == hh && x.seq.isNone && !x.waited
  let n := countIf meets s.stalls
  let s := { s with stalls := s.stalls.map fun x => if meets x then { x with waited := true } else x }
  s.modHouse hh fun h => { h with faultqWaits := satAdd 32 h.faultqWaits n }

/-- The record of a page fault is written once the ring has space; while the host link is down the access is refused
instead (R238). -/
def State.writeFault (s : State) (hh : Nat) : State :=
  let h := s.house hh
  match s.nextFault hh with
  | none => s
  | some x =>
    let hall := bitsOf h.faultqBase.toNat 4 4
    if faultqFull h then s.countWaits hh
    else if !s.hostLink hall then s.refuseStall x
    else
      let k := (h.faultqTail + 1).toNat
      let addr := h.faultqBase.toNat / 4096 * 4096 + 32 * ((k + faultqEntries h - 1) % faultqEntries h)
      let s := s.emit (.hostWrite hall addr none (faultRecord x k))
      let s := s.modHouse hh ({ · with faultqTail := h.faultqTail + 1 })
      let s := { s with stalls := modifyFirst (· == x) (fun y => { y with seq := some (h.faultqTail + 1), time := s.time }) s.stalls }
      let s := if h.faultqCtrl.getLsbD 31 then s.houseVector hall hh (bitsOf h.faultqCtrl.toNat 20 16) else s
      if faultqFull (s.house hh) then s.countWaits hh else s

def execFaultRecordWrite (hh : Nat) (s : State) : Host.Outcome State Fault Refusal :=
  onUnits (isHousehold hh) s (s.writeFault hh)

/-- FAULTQ_BASE (R236). -/
def actFaultqBase (hh : Nat) (w : W64) : Act := fun s =>
  let w := w.toNat
  judged [must (w % 16 < 12) abRange, s.awake hh, must (!s.stalls.any fun x => s.houseOf x.ctx == hh) abState]
    (s.modHouse hh ({ · with faultqBase := BitVec.ofNat 64 (w / 4096 * 4096 + bitsOf w 4 0), faultqHead := 0, faultqTail := 0 }))

def execFaultqBase (q : Chan) (hh : Nat) (w : W64) (s : State) : Host.Outcome State Fault Refusal :=
  onUnits (isChan q && isHousehold hh) s (s.download q (0x3000 + hh) 0x48 (leBytes 8 w.toNat) (actFaultqBase hh w))

/-- A fault of a port that has no replay within TIMEOUT of its record is handled as ABORT (R240). -/
def State.expired (s : State) (x : PortStall) : Bool :=
  let t := (s.house (s.houseOf x.ctx)).faultqCtrl.toNat % 65536
  x.seq.isSome && t != 0 && decide (x.time + 100000 * t ≤ s.time)

def execFaultTimeout (port : Nat) (s : State) : Host.Outcome State Fault Refusal :=
  onUnits (isMaster port) s ((s.stalls.filter fun x => x.port == port && s.expired x).foldl State.refuseStall s)

/-! ### Windows (R244, R245) -/

def parseWindow (owner : Nat) (b : List Byte) : Window :=
  { owner, rights := fieldOf b 1 1 % 16, srcHousehold := fieldOf b 2 2, srcNode := fieldOf b 4 4, base := fieldOf b 8 8
    len := fieldOf b 16 8, target := fieldOf b 24 8 }

/-- Whether some requester matches both entries, and their address ranges overlap (R245). -/
def Window.clashes (a b : Window) : Bool :=
  (bitOf a.srcHousehold 15 || bitOf b.srcHousehold 15 || a.srcHousehold % 64 == b.srcHousehold % 64) &&
    (bitOf a.srcNode 31 || bitOf b.srcNode 31 ||
      (bitsOf a.srcNode 16 16 == bitsOf b.srcNode 16 16 && a.srcNode % 32768 == b.srcNode % 32768)) &&
    decide (a.base < b.base + b.len) && decide (b.base < a.base + a.len)

/-- Window entries of a household. -/
def State.windowsOf (s : State) (hh : Nat) : Nat := countIf (fun e : Nat × Option Window => (e.2.map (·.owner)) == some hh) s.windows

/-- WINDOW_ADD (R245, R402). -/
def actWindowAdd (hh : Nat) (b : List Byte) : Act := fun s =>
  let w := parseWindow hh b
  let free := (List.range 4096).find? fun k => (Store.get none s.windows k).isNone
  match firstFault [must (w.len = 0 || s.holds hh w.target w.len) abNotPermitted,
      must (!(pageStarts w.target w.len).any fun p => (s.page (p / 4096)).isProtected) abNotPermitted,
      must (!s.windows.any fun e => (e.2.map w.clashes).getD false) abNotPermitted,
      must (fieldOf b 0 1 = 1) abRange,
      must (w.base % 64 = 0 && w.target % 64 = 0 && w.len % 64 = 0 && w.len != 0 && decide (w.base + w.len ≤ 2 ^ 44)) abRange,
      s.awake hh, must (s.windowsOf hh < s.envWindows hh) abMemory], free with
  | some c, _ => .error c
  | none, none => .error abMemory
  | none, some k =>
    .ok (State.modHouse { s with windows := Store.set none s.windows k (some w) } hh ({ · with windowResult := k }), true)

def execWindowAdd (q : Chan) (hh : Nat) (data : List Byte) (s : State) : Host.Outcome State Fault Refusal :=
  onUnits (isChan q && isHousehold hh) s (s.download q (0x3000 + hh) 0x50 data (actWindowAdd hh data))

/-- WINDOW_REMOVE: the transfer completes when no access that the entry admitted is still being performed (R245). -/
def actWindowRemove (q : Chan) (hh k : Nat) : Act := fun s =>
  let busy := s.admitted [k]
  let s' := { s with windows := Store.set none s.windows k none }
  judged [must (k < 4096 && ((Store.get none s.windows k).map (·.owner)) == some hh) abNotPermitted, s.awake hh]
    (if busy then { s' with removals := s'.removals ++ [{ chan := q, index := 0x3000 + hh, sub := 0x52, windows := [k] }] } else s')
    (!busy)

def execWindowRemove (q : Chan) (hh : Nat) (idx : BitVec 16) (s : State) : Host.Outcome State Fault Refusal :=
  onUnits (isChan q && isHousehold hh) s
    (s.download q (0x3000 + hh) 0x52 (leBytes 2 idx.toNat) (actWindowRemove q hh idx.toNat))

/-! ### Remote arrivals (R246, R247) -/

/-- The Window that admits an access. -/
def State.admitter (s : State) (acc : RemoteAccess) : Option Nat :=
  (s.windows.find? fun e => ((State.allow { s with windows := [e] } acc)).isSome).map (·.1)

/-- An access arrives through Mortar: one Window admits it whole, or it is refused before any byte moves (R246). -/
def State.arrive (s : State) (acc : RemoteAccess) : State :=
  let acc := { acc with len := AccKind.size acc.kind acc.len }
  if !s.portUp acc.port || s.failSilent then s
  else match s.allow acc with
    | some a =>
      (s.enqueue (mortarMaster acc.port) a acc.len (writes acc.kind) none).performArrived
        { window := s.admitter acc, addr := a, acc }
    | none => State.countRefused { s with windowRefusals := s.windowRefusals ++ [{ acc, arrived := s.time }] } acc

def execRemoteAccessArrival (acc : RemoteAccess) (s : State) : Host.Outcome State Fault Refusal :=
  onUnits (isMortar acc.port) s (s.arrive acc)

/-- A refused access is answered 2 µs after it arrived, whatever the cause (R247). -/
def execWindowRefusal (k : Nat) (s : State) : Host.Outcome State Fault Refusal :=
  onUnits true s (
    match s.windowRefusals[k]? with
    | none => s
    | some x =>
      if s.time < x.arrived + 2000 then s
      else State.answerAccess { s with windowRefusals := removeAt k s.windowRefusals } x.acc false false [])

end Sys2Proof.Machine
end

