-- ==== Sys2Proof/Machine/Households.lean ====
section
/-! DEFINITION. Households: activation and the instance reset (R250, R282), page grants and washing (R252, R253, R394),
creating, changing and releasing Suites (R254 to R263), and freezing (R278). -/

namespace Sys2Proof.Machine

/-! ### Page grants (R252, R253) -/

def State.pagesHeld (s : State) (hh : Nat) : Nat := countIf (fun e : Nat × Page => e.2.holder == hh) s.pages
def State.freePages (s : State) : Nat := 4 * stackPages - countIf (fun e : Nat × Page => e.2.holder != 0) s.pages
/-- The total shortfall of pages of the ACTIVE households other than one (R251). -/
def State.pageShortfall (s : State) (hh : Nat) : Nat :=
  ((span 1 63).map fun h => if h != hh && (s.house h).st == .active then s.envMinPages h - s.pagesHeld h else 0).sum

/-- Porters and Windows forget a run of pages, which is washed where its group is usable (R253). -/
def State.withdrawRun (s : State) (frame count : Nat) : State :=
  let lo := frame * 4096
  let hi := (frame + count) * 4096
  let s := s.tlbDrop fun e => fabricHbm e.fabric && decide (fabricLocal e.fabric < hi) && decide (lo < fabricLocal e.fabric + e.size)
  let touches (w : Window) : Bool := decide (w.target < hi) && decide (lo < w.target + w.len)
  let s := { s with windows := s.windows.filter fun e => !((e.2.map touches).getD false) }
  (span frame count).foldl (fun s p => s.modPage p fun x =>
    { x with holder := 0, isProtected := false, awaited := false, washing := x.washing || s.usableAt (p * 4096) }) s

/-- The Windows whose target touches a run. -/
def State.windowsOn (s : State) (frame count : Nat) : List Nat :=
  s.windows.filterMap fun e => e.2.bind fun w =>
    if decide (w.target < (frame + count) * 4096) && decide (frame * 4096 < w.target + w.len) then some e.1 else none

/-- A running BLOB_DECRYPT ends as FAILED with cause ACCESS; its transfer is answered as a wrong state (R401, R410). -/
def State.failBlob (s : State) (hh : Nat) : State :=
  match (s.house hh).blob with
  | some b => (s.modHouse hh ({ · with blob := none, blobStatus := 0x01330000 })).reply b.requester (0x5500 + hh) 0x30 abState []
  | none => s

/-- Whether a BLOB_DECRYPT reads or writes a run of pages. -/
def BlobJob.touches (b : BlobJob) (frame count : Nat) : Bool :=
  let hits (a n : Nat) : Bool := decide (a < (frame + count) * 4096) && decide (frame * 4096 < a + n)
  hits b.src (b.length + 80) || hits b.dst b.length

/-- GRANT and WITHDRAW (R251 to R253). -/
def actGrant (q : Chan) (hh : Nat) (w : W64) : Act := fun s =>
  let w := w.toNat
  let action := bitsOf w 55 54
  let count := bitsOf w 47 26
  let frame := bitsOf w 25 0
  let run := span frame count
  let form := [versionAt w 56, must (action = 1 || action = 2) abRange, must (bitsOf w 53 48 = hh) abRange, must (count != 0) abRange,
    must (populatedRange (frame * 4096) (count * 4096)) abRange, s.awake hh]
  if action = 1 then
    judged (form ++ [must (run.all fun p => s.usableAt (p * 4096) && (s.page p).holder == 0) abState,
        must (s.pagesHeld hh + count ≤ s.envMaxPages hh) abMemory, must (s.pageShortfall hh + count ≤ s.freePages) abMemory])
      (run.foldl (fun s p => s.modPage p ({ · with holder := hh })) s)
  else
    let gone := s.windowsOn frame count
    let busy := s.admitted gone
    judged (form ++ [must (run.all fun p => (s.page p).holder == hh) abState])
      (let s := if ((s.house hh).blob.map fun b => b.touches frame count).getD false then s.failBlob hh else s
       let s := s.withdrawRun frame count
       if busy then { s with removals := s.removals ++ [{ chan := q, index := 0x3000 + hh, sub := 0x30, windows := gone }] } else s)
      (!busy)

def execGrant (q : Chan) (hh : Nat) (w : W64) (s : State) : Host.Outcome State Fault Refusal :=
  onUnits (isChan q && isHousehold hh) s
    (let v : W64 := w &&& ~~~(0x00C0000000000000#64) ||| 0x0040000000000000#64
     s.download q (0x3000 + hh) 0x30 (leBytes 8 v.toNat) (actGrant q hh v))

def execWithdraw (q : Chan) (hh : Nat) (w : W64) (s : State) : Host.Outcome State Fault Refusal :=
  onUnits (isChan q && isHousehold hh) s
    (let v : W64 := w &&& ~~~(0x00C0000000000000#64) ||| 0x0080000000000000#64
     s.download q (0x3000 + hh) 0x30 (leBytes 8 v.toNat) (actGrant q hh v))

/-! ### Whitewash of pages (R253, R394) -/

/-- The next page of a stack to wash: one on which an access waits, else the lowest (R253). -/
def State.nextWash (s : State) (stack : Nat) : Option Nat :=
  let mine := (s.pages.filter fun e => e.1 / 2 ^ 24 == stack && s.isWashing e.1).map fun e => (e.1, e.2.awaited)
  let left := Store.get 0 s.washFrom stack
  let listed := (mine.map (·.1)).min?
  let swept := if left = 0 then none else some (stack * 2 ^ 24 + (stackPages - left))
  match mine.find? (·.2) with
  | some e => some e.1
  | none =>
    match listed, swept with
    | some a, some b => some (min a b)
    | some a, none => some a
    | none, b => b

/-- A page counts as washed: the sweep passes it when it stands next in the sweep, and skips it later otherwise. -/
def State.markWashed (s : State) (p : Nat) : State :=
  let stack := p / 2 ^ 24
  let left := Store.get 0 s.washFrom stack
  let place := p % 2 ^ 24
  let s := s.modPage p ({ · with washing := false, awaited := false })
  if left = 0 || place + left < stackPages then s
  else if place + left = stackPages then
    State.modPage { s with washFrom := Store.set 0 s.washFrom stack (left - 1) } p ({ · with ahead := false })
  else s.modPage p ({ · with ahead := true })

/-- The sweep passes pages that were washed ahead of it. -/
def State.washNext (s : State) (stack : Nat) : State :=
  match s.nextWash stack with
  | none => s
  | some p =>
    if !s.isWashing p || !s.usableAt (p * 4096) then s.markWashed p
    else
      let s := s.copyMove (p * 4096) 4096 true
      (s.hbmWrite (p * 4096) (List.replicate 4096 0)).1.markWashed p

def execWashPage (stack : Nat) (s : State) : Host.Outcome State Fault Refusal :=
  onUnits (isFloor stack) s (s.washNext stack)

/-! ### Activation and the household reset (R250, R282, R397) -/

/-- ACTIVATE (R24, R250, R386, R397). -/
def activate (hh : Nat) (s : State) : Except Nat (State × Bool) :=
  judged [must ((s.house hh).st == .inactive) abState, must (s.hasEnvelope hh) abState,
      must (!(s.security.openHouse && s.envFlag hh 0)) abState]
    (s.modHouse hh fun _ => { st := .active, programChain := List.replicate 48 0, blobChain := List.replicate 48 0 })

def State.suitesOf (s : State) (hh : Nat) : List Nat :=
  s.suites.filterMap fun e => if e.2.st != .free && e.2.owner == hh then some e.1 else none
def State.contextsHeld (s : State) (hh : Nat) : List Nat :=
  s.contexts.filterMap fun e => e.2.bind fun c => if c.household = hh then some e.1 else none

/-- A released Suite: its Rooms and spares leave, its groups and ports are unbound, and it is FREE; its Rent keeps its final
values (R263). -/
def State.finishRelease (s : State) (n : Nat) : State :=
  let s := s.accrue n
  let s := (s.suite n).ports.foldl State.resetFeed s
  let s := (s.suite n).holds.foldl State.leave s
  s.modSuite n fun x => { rent := x.rent }

/-- Clear a key slot (R393, R400). -/
def State.clearSlot (s : State) (k : Nat) : State :=
  { s with security := { s.security with keys := Store.set none s.security.keys k none } }
/-- KIND and HOUSEHOLD of a key slot (R390). -/
def State.slotKind (s : State) (k : Nat) : Nat := bitsOf (s.dictGet (0x5D00 + k) 0) 15 14
def State.slotHouse (s : State) (k : Nat) : Nat := s.dictGet (0x5D00 + k) 0 % 64
def State.slotsOf (s : State) (hh : Nat) : List Nat :=
  (List.range 64).filter fun k => s.slotKind k != 0 && s.slotHouse k == hh

/-- MIGRATION (R280). -/
def migrationWord (st cause first : Nat) : W32 := BitVec.ofNat 32 (2 ^ 24 + st * 2 ^ 20 + cause * 2 ^ 16 + first)

/-- Once its contexts are gone a CLOSING household gives up its Suites, Windows, fault queue and pages, and is INACTIVE
(R282). -/
def State.progressClosing (s : State) (hh : Nat) : State :=
  if (s.house hh).st != .closing || !(s.contextsHeld hh).isEmpty then s
  else
    let s := (s.suitesOf hh).foldl State.finishRelease s
    let owned (e : Nat × Option Window) : Bool := match e.2 with | some w => w.owner == hh | none => false
    let s : State := { s with windows := s.windows.filter fun e => !owned e }
    let mine : List Nat := s.pages.filterMap fun e => if e.2.holder == hh then some e.1 else none
    let s := mine.foldl (fun s p => s.withdrawRun p 1) s
    let s := (s.slotsOf hh).foldl State.clearSlot s
    s.modHouse hh fun h => { ({} : Household) with migration := h.migration, blobStatus := h.blobStatus }

/-- DEACTIVATE: a running SAVE, RESTORE or BLOB_DECRYPT fails, every context is closed, and the rest follows (R275, R282,
R410). -/
def deactivate (hh : Nat) (s : State) : Except Nat (State × Bool) :=
  judged [must (s.houseActive hh && (s.house hh).st != .closing) abState]
    (let s := s.modHouse hh fun h =>
       { h with st := .closing, image := none, latch := none
                migration := if h.image.isSome then migrationWord 5 5 0 else h.migration }
     let s := s.failBlob hh
     let s := (s.contextsHeld hh).foldl State.closeContext s
     s.progressClosing hh)

/-- CONTROL: 1 ACTIVATE, 2 DEACTIVATE (R249). -/
def actControl (hh v : Nat) : Act := fun s =>
  if v = 1 then activate hh s else if v = 2 then deactivate hh s else .error (if v = 0 then abRange else abHigh)

def execActivate (q : Chan) (hh : Nat) (s : State) : Host.Outcome State Fault Refusal :=
  onUnits (isChan q && isHousehold hh) s (s.download q (0x3000 + hh) 2 [1] (actControl hh 1))

def execDeactivate (q : Chan) (hh : Nat) (s : State) : Host.Outcome State Fault Refusal :=
  onUnits (isChan q && isHousehold hh) s (s.download q (0x3000 + hh) 2 [2] (actControl hh 2))

/-! ### Creating and releasing Suites (R254, R263) -/

def modeOf (v : Nat) : Mode := if v = 0 then .simplex else if v = 1 then .duplex else .paired

/-- SUITE_REQUEST (R254). -/
def actSuiteRequest (hh : Nat) (w : W32) : Act := fun s =>
  let w := w.toNat
  let mode := bitsOf w 23 22
  let free := (List.range 256).find? fun n => (s.suite n).st == .free
  match firstFault [must (bitsOf w 31 24 = 1) abRange, must (mode != 3 && bitOf (s.envModes hh) mode) abRange, s.awake hh,
      must ((s.house hh).st != .closing) abState, must (mode != 2 || s.pairRole != 0) abState,
      must ((s.suitesOf hh).length < s.envSuites hh) abMemory], free with
  | some c, _ => .error c
  | none, none => .error abMemory
  | none, some n =>
    let fresh : Suite := { st := .empty, owner := hh, mode := modeOf mode, rent := { created := s.time, upto := s.time } }
    .ok ((s.modSuite n fun _ => fresh).modHouse hh
      ({ · with suiteResult := BitVec.ofNat 32 (2 ^ 24 + n * 2 ^ 16 + bitsOf w 15 0) }), true)

def execSuiteRequest (q : Chan) (hh : Nat) (w : W32) (s : State) : Host.Outcome State Fault Refusal :=
  onUnits (isChan q && isHousehold hh) s (s.download q (0x3000 + hh) 0x20 (leBytes 4 w.toNat) (actSuiteRequest hh w))

/-- SUITE_RELEASE: the Suite is RELEASING until its Rooms have left at the Configuration Landing (R263). -/
def actSuiteRelease (hh n : Nat) : Act := fun s =>
  judged [must (s.suiteOwner n == some hh) abNotPermitted, s.awake hh,
      must ((s.contextsOf n).isEmpty && (s.suite n).st != .releasing) abState]
    (s.modSuite n ({ · with st := .releasing }))

def execSuiteRelease (q : Chan) (hh : Nat) (suite : Byte) (s : State) : Host.Outcome State Fault Refusal :=
  onUnits (isChan q && isHousehold hh) s (s.download q (0x3000 + hh) 0x22 [suite] (actSuiteRelease hh suite.toNat))

/-- The Configuration Landing of a Suite; a RELEASING Suite becomes FREE, and a CLOSING household goes on (R262, R263,
R282). -/
def execConfigurationLanding (suite : Nat) (s : State) : Host.Outcome State Fault Refusal :=
  onUnits (isSuite suite) s (
    let s := s.settle suite
    let x := s.suite suite
    let s := if x.st == .releasing && x.atBoundary then s.finishRelease suite else s.configure suite
    s.progressClosing x.owner)

/-! ### Changes of a Suite (R13, R255 to R261) -/

/-- Check 8 for a Suite's entries. -/
def State.suiteOpen (s : State) (n : Nat) : Option Nat :=
  firstFault [s.awake (s.suite n).owner, must ((s.suite n).st != .releasing) abState]

/-- A named Room belongs to, or is reserved by, a Suite of another household (R261). -/
def State.foreignRoom (s : State) (n r : Nat) : Bool :=
  ((s.claimant r).map fun m => (s.suite m).owner != (s.suite n).owner).getD false

/-- A Room that may be named in a change (R261). -/
def State.roomFree (s : State) (lanes r : Nat) : Bool := s.freeRoom r && decide (lanes ≤ (s.room r).bricksUp)

/-- Accept a change of a Suite: spares are found, and the limits of the envelope, R251 and R165 hold (R13, R259, R261). -/
def State.acceptChange (s : State) (n : Nat) (c : Change) (named chosen : List Nat) : Except Nat (State × Bool) :=
  match s.withSpares n c (named ++ chosen) with
  | none => .error abMemory
  | some y =>
    let fresh := y.holds.filter fun r => !(s.suite n).holds.contains r
    judged [must (s.roomsFit (s.suite n).owner fresh.length) abMemory, must (s.bandwidthFits n y) abMemory]
      (s.accepted n y named (fresh.filter fun r => !named.contains r))

/-- The entries of a ROOM_ADD value; index 0xFFFF asks the Steward to choose, and copy 1 counts in DUPLEX mode only
(R257). -/
def addEntries (duplex : Bool) (b : List Byte) : List (Option Nat × Option Nat) :=
  (List.range ((b.length - 4) / 4)).map fun k =>
    let f (off : Nat) : Option Nat := let v := fieldOf b (4 + 4 * k + off) 2; if v = 0xFFFF then none else some v
    (f 0, if duplex then f 2 else none)

/-- ROOM_ADD (R257, R259, R261). -/
def actRoomAdd (n : Nat) (b : List Byte) : Act := fun s =>
  let x := s.suite n
  let y := x.projected
  let duplex := x.mode == .duplex
  let spares := bitOf (fieldOf b 2 1) 0
  let count := fieldOf b 1 1
  let l := addEntries duplex b
  let named := copyOf 0 l ++ copyOf 1 l
  let wings := (copyOf 0 l).all (fun r => !duplex || hallOfRoom r == 0) && (copyOf 1 l).all fun r => hallOfRoom r == 1
  match firstFault [must (!named.any (s.foreignRoom n)) abNotPermitted, must (fieldOf b 0 1 = 1) abRange, must (count != 0) abRange,
      must (count ≤ 64) abHigh, must (b.length = 4 + 4 * count) abRange, must (!(spares && !x.protected)) abRange,
      must (named.all fun r => decide (r < 1280)) abRange, must wings abRange, s.suiteOpen n,
      must (named.all (s.roomFree y.lanes) && decide named.Nodup) abState] with
  | some c => .error c
  | none =>
    match s.fill y l named with
    | none => .error abMemory
    | some rooms =>
      let all := copyOf 0 rooms ++ copyOf 1 rooms
      s.acceptChange n (.add spares rooms false) named (all.filter fun r => !named.contains r)

def execRoomAdd (q : Chan) (suite : Nat) (data : List Byte) (s : State) : Host.Outcome State Fault Refusal :=
  onUnits (isChan q && isSuite suite) s (s.download q (0x3100 + suite) 0x10 data (actRoomAdd suite data))

/-- ROOM_REMOVE (R258, R261). -/
def actRoomRemove (n v : Nat) : Act := fun s =>
  match firstFault [must (v ≤ (s.suite n).projected.ordinals) abHigh, s.suiteOpen n] with
  | some c => .error c
  | none => s.acceptChange n (.remove v) [] []

def execRoomRemove (q : Chan) (suite : Nat) (v : BitVec 16) (s : State) : Host.Outcome State Fault Refusal :=
  onUnits (isChan q && isSuite suite) s (s.download q (0x3100 + suite) 0x11 (leBytes 2 v.toNat) (actRoomRemove suite v.toNat))

/-- ROOM_MOVE (R258, R261). -/
def actRoomMove (n : Nat) (w : W32) : Act := fun s =>
  let w := w.toNat
  let x := s.suite n
  let y := x.projected
  let copy := bitsOf w 31 31
  let ordinal := bitsOf w 30 20
  let r := bitsOf w 10 0
  match firstFault [must (!s.foreignRoom n r) abNotPermitted, must (copy = 0 || x.mode == .duplex) abRange,
      must (ordinal < y.rooms.length + y.spares.length) abHigh, must (r < 1280) abHigh,
      must (x.mode != .duplex || hallOfRoom r == copy) abRange, s.suiteOpen n, must (s.roomFree y.lanes r) abState] with
  | some c => .error c
  | none => s.acceptChange n (.move copy ordinal r) [r] []

def execRoomMove (q : Chan) (suite : Nat) (w : W32) (s : State) : Host.Outcome State Fault Refusal :=
  onUnits (isChan q && isSuite suite) s (s.download q (0x3100 + suite) 0x12 (leBytes 4 w.toNat) (actRoomMove suite w))

/-- GROUP_BIND: any household's Suites may share a group (R256, R260, R261). -/
def actGroupBind (n v : Nat) : Act := fun s =>
  let x := s.suite n
  match firstFault [must (v ≤ 128 - s.groupSize 3) abHigh, must (s.groupName v = v) abRange,
      must (x.mode != .duplex || decide (v < 64)) abRange, s.suiteOpen n, must ((x.boundNames v).all s.groupOk) abState] with
  | some c => .error c
  | none => s.acceptChange n (.bindGroup v) [] []

def execGroupBind (q : Chan) (suite : Nat) (v : BitVec 16) (s : State) : Host.Outcome State Fault Refusal :=
  onUnits (isChan q && isSuite suite) s (s.download q (0x3100 + suite) 0x13 (leBytes 2 v.toNat) (actGroupBind suite v.toNat))

/-- GROUP_UNBIND (R255, R261); a group that is not bound is a wrong state (log entry 41). -/
def actGroupUnbind (n v : Nat) : Act := fun s =>
  match firstFault [must (v ≤ 128 - s.groupSize 3) abHigh, must (s.groupName v = v) abRange, s.suiteOpen n,
      must ((s.suite n).projected.groups.contains v) abState] with
  | some c => .error c
  | none => s.acceptChange n (.unbindGroup v) [] []

def execGroupUnbind (q : Chan) (suite : Nat) (v : BitVec 16) (s : State) : Host.Outcome State Fault Refusal :=
  onUnits (isChan q && isSuite suite) s (s.download q (0x3100 + suite) 0x14 (leBytes 2 v.toNat) (actGroupUnbind suite v.toNat))

/-- The Suite, other than one, that binds a port or will bind it. -/
def State.portHolder (s : State) (n port : Nat) : Option Nat :=
  (s.suites.find? fun e => e.1 != n && (e.2.ports.contains port || e.2.projected.ports.contains port)).map (·.1)

/-- PORT_BIND; bit 7 unbinds (R255, R260, R261, R388). -/
def actPortBind (n v : Nat) : Act := fun s =>
  let port := v % 32
  let unbind := bitOf v 7
  let ingest := decide (16 ≤ port)
  let holder := if ingest && !unbind then s.portHolder n port else none
  let foreign := (holder.map fun m => (s.suite m).owner != (s.suite n).owner).getD false
  match firstFault [must (!foreign) abNotPermitted, must (port < 12 || (decide (16 ≤ port) && decide (port < 20))) abRange,
      s.suiteOpen n, must (unbind || holder.isNone) abState,
      must (!unbind || (s.suite n).projected.ports.contains port) abState,
      must (unbind || bitOf (s.envPorts (s.suite n).owner) port) abMemory] with
  | some c => .error c
  | none => s.acceptChange n (if unbind then .unbindPort port else .bindPort port) [] []

def execPortBind (q : Chan) (suite : Nat) (port : BitVec 5) (s : State) : Host.Outcome State Fault Refusal :=
  onUnits (isChan q && isSuite suite) s (s.download q (0x3100 + suite) 0x15 (leBytes 1 port.toNat) (actPortBind suite port.toNat))

def execPortUnbind (q : Chan) (suite : Nat) (port : BitVec 5) (s : State) : Host.Outcome State Fault Refusal :=
  onUnits (isChan q && isSuite suite) s
    (s.download q (0x3100 + suite) 0x15 (leBytes 1 (128 + port.toNat)) (actPortBind suite (128 + port.toNat)))

/-- The checks of a regulator setting (R161, R162). -/
def regChecks (w lowest : Nat) : List (Option Nat) :=
  [versionAt w 56, must (4 ≤ regBurst w) abRange, must (1 ≤ regRate w) abRange, must (lowest ≤ regClass w) abHigh]

/-- A setting of the Suite entry, subindices 4 to 12 (R255, R261). -/
def actSuiteSetting (n sub v : Nat) : Act := fun s =>
  let x := s.suite n
  let checks : List (Option Nat) :=
    if sub = 4 then
      [must (v ≤ 256) abHigh, must (v % 16 = 0 && v != 0) abRange, s.suiteOpen n,
        must ((x.projected.allRooms ++ x.allRooms).all fun r => decide (v ≤ (s.room r).bricksUp)) abState]
    else if sub = 5 then [must (v ≤ min 7 (s.envShare x.owner)) abHigh]
    else if sub = 6 then [must (v ≤ 8) abHigh]
    else if sub = 7 || sub = 12 then [must (v ≤ 1) abRange]
    else if sub = 9 || sub = 10 then regChecks v (s.envClass x.owner)
    else []
  match firstFault (checks ++ [s.suiteOpen n]) with
  | some c => .error c
  | none =>
    if (sub = 7 || sub = 12) && x.protected then .ok (s, true) else s.acceptChange n (.setting sub v) [] []

/-- GRID (R330). -/
def actGrid (n v : Nat) : Act := fun s =>
  match s.suiteOpen n with
  | some c => .error c
  | none => s.acceptChange n (.grid v) [] []

/-! ### Freezing (R278) -/

/-- Whether some queue of a context is ready to run. -/
def Context.anyReady (x : Context) : Bool := x.queues.any fun e => Queue.ready x e.2

/-- AT_FREEZE_POINT: contexts with nothing to run freeze at once, the others at their next freeze point. -/
def State.freezeAtPoint (s : State) (hh : Nat) : State :=
  let s := s.modHouse hh ({ · with st := .freezing, freezeAtPoint := true })
  let queues := (s.contextsHeld hh).flatMap fun c => ((((s.ctx? c).map (·.queues)).getD []).map fun q => (c, q.1))
  let s := queues.foldl (fun s e => s.recheck e.1 e.2) s
  let idle (c : Nat) (x : Context) : Bool := !((List.range 16).any (s.inFlight c)) && !x.anyReady
  let s := (s.contextsHeld hh).foldl (fun s c => s.modCtx c fun x => if idle c x then freezeCtx x else x) s
  s.settleFreeze hh

/-- AT_NEXT_BOUNDARY: running steps are killed, and every context freezes at its Suite's boundary. -/
def State.freezeNow (s : State) (hh : Nat) : State :=
  let s := s.modHouse hh ({ · with st := .freezing, freezeAtPoint := false })
  let suites := s.suitesOf hh
  let s := suites.foldl (fun s n => s.killUnlessCommitting n) s
  let s := suites.foldl (fun s n => s.freezeBound n) s
  s.settleFreeze hh

/-- THAW: every FROZEN context returns to the state that it held before, those that RESTORE has created in an ACTIVE household
among them (R278, R280). -/
def State.thaw (s : State) (hh : Nat) : State :=
  let s := (s.contextsHeld hh).foldl (fun s c => s.modCtx c fun x => if x.st == .frozen then { x with st := x.before } else x) s
  s.modHouse hh ({ · with st := .active, freezeAtPoint := false })

/-- FREEZE: 1 AT_FREEZE_POINT, 2 AT_NEXT_BOUNDARY, 3 THAW (R249, R278). -/
def actFreeze (hh v : Nat) : Act := fun s =>
  let st := (s.house hh).st
  let form := [must (v != 0) abRange, must (v ≤ 3) abHigh]
  if v = 3 then judged (form ++ [must (st == .active || st == .freezing || st == .frozen) abState]) (s.thaw hh)
  else judged (form ++ [must (st == .active || st == .freezing) abState]) (if v = 1 then s.freezeAtPoint hh else s.freezeNow hh)

def execAtFreezePoint (q : Chan) (hh : Nat) (s : State) : Host.Outcome State Fault Refusal :=
  onUnits (isChan q && isHousehold hh) s (s.download q (0x3000 + hh) 0x60 [1] (actFreeze hh 1))

def execAtNextBoundary (q : Chan) (hh : Nat) (s : State) : Host.Outcome State Fault Refusal :=
  onUnits (isChan q && isHousehold hh) s (s.download q (0x3000 + hh) 0x60 [2] (actFreeze hh 2))

def execThaw (q : Chan) (hh : Nat) (s : State) : Host.Outcome State Fault Refusal :=
  onUnits (isChan q && isHousehold hh) s (s.download q (0x3000 + hh) 0x60 [3] (actFreeze hh 3))

/-- RELEASE returns a HELD Suite to normal choice (R374, R379). -/
def actRelease (n v : Nat) : Act := fun s =>
  judged [must (v = 1) (if v = 0 then abRange else abHigh), s.awake (s.suite n).owner, must ((s.suite n).held != 0) abState]
    (s.modSuite n ({ · with held := 0 }))

def execRelease (q : Chan) (suite : Nat) (s : State) : Host.Outcome State Fault Refusal :=
  onUnits (isChan q && isSuite suite) s (s.download q (0x5100 + suite) 4 [1] (actRelease suite 1))

end Sys2Proof.Machine
end

