-- ==== Sys2Proof/Machine/Vote.lean ====
section
/-! DEFINITION. Courses in two copies: the comparison of digests (R334), the vote (R337 to R342) and the loads of vote
spares (R339). -/

namespace Sys2Proof.Machine

/-! ### Results of a Course (R102, R334, R337) -/

/-- The result of a copy at an ordinal: of the Room that performs it, or of the partner module's Room (R334). -/
def State.copyResult (s : State) (n copy o k : Nat) : Option CourseResult :=
  let x := s.suite n
  if x.mode == .paired && copy == 1 then (x.pairCourses.find? fun e => e.1 == k && e.2.1 == o).map (·.2.2)
  else match (s.roomsAt n copy o).find? fun r => !s.listener r with
    | some r => (s.room r).courseResult k
    | none => none

def State.hasResult (s : State) (n o k : Nat) : Bool := (s.copyResult n 0 o k).isSome && (s.copyResult n 1 o k).isSome

/-- Digests agree at an ordinal; a failed Course agrees with nothing. -/
def State.agreeAt (s : State) (n o k : Nat) : Bool :=
  match s.copyResult n 0 o k, s.copyResult n 1 o k with
  | some (.digest a), some (.digest b) => a == b
  | _, _ => false

/-- Whether the Course of an ordinal has failed by a hardware fault in a copy, and whether both copies have raised a program fault
in it (R117, R337). -/
def State.failedAt (s : State) (n o k : Nat) : Bool := s.copyResult n 0 o k == some .failed || s.copyResult n 1 o k == some .failed
def State.bothFaulted (s : State) (n o k : Nat) : Bool := s.copyResult n 0 o k == some .faulted && s.copyResult n 1 o k == some .faulted

/-- Ordinals that differ between the copies in Course k (R337). -/
def State.differ (s : State) (n k : Nat) : List Nat :=
  (List.range (s.suite n).ordinals).filter fun o => s.failedAt n o k || (s.hasResult n o k && !s.agreeAt n o k)

/-- Whether the comparison of Course k can end: every Room has its result, or a fault in one copy only has come first, behind which
Rooms of that copy may wait for ever (R334, R337). -/
def State.comparable (s : State) (n k : Nat) : Bool :=
  let faulted (o c : Nat) : Bool := s.copyResult n c o k == some .faulted
  (List.range (s.suite n).ordinals).all (fun o => s.hasResult n o k) ||
    (List.range (s.suite n).ordinals).any fun o => s.failedAt n o k || (s.hasResult n o k && (faulted o 0 || faulted o 1))

/-- Copies whose Rooms are Rooms of this module. -/
def Suite.localCopies (x : Suite) : List Nat := if x.mode == .paired then [0] else [0, 1]

/-! ### The order of suspects (R338) -/

/-- Whether an ordinal has a hardware indication in Course k, in a copy of this module. -/
def State.markedAt (s : State) (n o k : Nat) : Bool :=
  (s.suite n).localCopies.any fun c => (s.roomsAt n c o).any fun r => (s.room r).marks.contains k || (s.room r).course.hungAt.isSome

/-- A node and the nodes above it. -/
def Tree.above (t : Tree) : Nat → Nat → List Nat
  | 0, _ => []
  | fuel + 1, i =>
    match t.nodes[i]? with
    | none => []
    | some v => i :: (if v.top then [] else t.above fuel v.parent)

/-- Whether ordinal a feeds a node that ordinal b holds. -/
def Tree.feeds (t : Tree) (a b : Nat) : Bool :=
  (List.range t.nodes.length).any fun i =>
    match t.nodes[i]? with
    | some v => v.port == 0 && v.ordinal == a &&
        ((t.above t.nodes.length i).any fun j => match t.nodes[j]? with | some w => w.port == 0 && w.ordinal == b | none => false)
    | none => false

/-- Repeatedly the lowest ordinal that no other remaining one feeds; on a cycle, the lowest. -/
def gutterOrder (feeds : Nat → Nat → Bool) : Nat → List Nat → List Nat
  | 0, l => l
  | fuel + 1, l =>
    let free := l.find? fun b => !(l.any fun a => a != b && feeds a b)
    match (match free with | some b => some b | none => l.head?) with
    | none => []
    | some b => b :: gutterOrder feeds fuel (l.filter (· != b))

/-- The suspects in order (R338). -/
def State.orderSuspects (s : State) (n k : Nat) (l : List Nat) : List Nat :=
  let trees := ((s.suite n).step.map (·.trees)).getD []
  let feeds (a b : Nat) : Bool := trees.any fun e => e.2.feeds a b
  let order (l : List Nat) := gutterOrder feeds l.length l
  order (l.filter fun o => s.markedAt n o k) ++ order (l.filter fun o => !s.markedAt n o k)

/-! ### Starting a vote (R339) -/

/-- A Room stops for the rewind: what it has not issued is discarded, what it has issued goes on.  One whose Course failed is known
by that until the suspects have their spares. -/
def Room.rewind (x : Room) : Room :=
  { x with
    foreman := { x.foreman with run := if x.foreman.run == .failed then .failed else .rewound }
    dma := x.dma.filter fun t => !t.stalled && !t.lost
    gutter := [], micro := {} }
def Room.rewound (x : Room) : Room := if x.foreman.run == .failed then { x with foreman := { x.foreman with run := .rewound } } else x

/-- Give a spare the place of a Room that has been fenced. -/
def State.stepIn (s : State) (n r q : Nat) (m : Member) : State :=
  let s := s.modSuite n fun x =>
    { x.replace r (some q) with
      spares := x.spares.map fun e => (if e.1 = some q then none else e.1, if e.2 = some q then none else e.2), refill := true }
  s.modRoom q ({ · with member := some m })

/-- What a spare takes from the other module of a pair: scratch and Hods are free bytes; its checkpoints and its store
are those that the Room it replaces held, which the other module's Room holds alike (R69, log entry 43). -/
def Room.fromPartner (y x : Room) (draw lanes : Nat) : Room :=
  let bytes (at' n : Nat) : List Byte := (List.range n).map fun k => Config.partnerByte draw (at' + k)
  let y := { y with laneMap := lanesMapOf y lanes, microStore := x.microStore, checkpoints := x.checkpoints
                    pantry := Store.setRange 0 [] 0 (bytes 0 0x100000) }
  (List.range lanes).foldl (fun z l => z.modBrick l fun b => { b with hod := Store.setRange 0 [] 0 (bytes (0x100000 + 12288 * l) 12288) }) y

/-- One chosen suspect of one copy, by ordinal, with the spare that has its place in ROOM_MAP: a Room whose Course failed by a hardware
fault is fenced at once and its spare steps in, else the spare is paired with it. -/
def State.assign (s : State) (n k copy : Nat) (e : Nat × Nat) : State :=
  let q := e.2
  match ((s.suite n).members copy)[e.1]? with
  | some r =>
    if (s.room r).foreman.run == .failed && (s.room r).course.ordinal == k && (s.room r).course.hungAt.isNone then
      match (s.room r).member with
      | none => s
      | some m =>
        let x := s.room r
        let s := if (s.suite n).mode == .paired then
            let (d, s) := s.draw
            s.modRoom q fun y => y.fromPartner x d ((s.suite n).lanes)
          else s
        let s := ((s.fenceRoom r).stepIn n r q m).bump 0x5201 3 32
        let s := s.modSuite n fun x =>
          { x with fencedByVote := satAdd 32 x.fencedByVote 1, vote := x.vote.map fun v => { v with loading := v.loading ++ [q] } }
        s.modRoom q ({ · with loading := true })
    else
      (s.modSuite n fun x =>
        { x with vote := x.vote.map fun v => { v with suspects := v.suspects ++ [(r, q)], loading := v.loading ++ [q] } }).modRoom q
        ({ · with loading := true })
  | none => s

/-- The re-run starts once every load is done and every transfer that a Room had issued has ended: each Room stands at its
checkpoint of the start of Course k (R339). -/
def Room.restore (x : Room) (k : Nat) (seed : W64) (ordinal lanes now : Nat) : Room :=
  match x.checkpoints.find? (·.course == k) with
  | none => x
  | some c =>
    let f : Foreman := { x.foreman with
      s := c.s, t := c.t, p := c.p, pc := c.pc, loops := c.loops, barriers := c.barriers, sends := c.sends, recvs := c.recvs
      run := .running }
    { x with
      power := x.power.ungate, foreman := f, totals := c.totals, digests := x.digests.filter fun e => decide (e.1 < k)
      marks := x.marks.filter fun j => decide (j < k)
      checkpoints := x.checkpoints.filter fun c => decide (c.course ≤ k) }.startCourse seed k ordinal lanes now

def State.tryRerun (s : State) (n : Nat) : State :=
  let x := s.suite n
  match x.vote, x.step with
  | some v, some st =>
    let run := (s.performers n 0 ++ s.performers n 1 ++ v.suspects.map (·.1)).dedup
    if v.rerun || !v.loading.isEmpty || run.any fun r => !(s.room r).dma.isEmpty || (s.room r).cache.miss.isSome then s
    else
      let s := run.foldl (fun s r =>
        let o := s.ordinalOf r
        s.modRoom r (·.restore v.course st.desc.seed o st.lanes s.time)) s
      s.modSuite n fun x => { x with rounds := [], releases := [], pairCourses := x.pairCourses.filter fun e => decide (e.1 < v.course)
                                     vote := some { v with rerun := true } }
  | _, _ => s

/-- Where a spare loads from: its suspect, or, when it has taken the place of a fenced Room, the Room of the other copy
with the same ordinal. -/
def State.loadSource (s : State) (n q : Nat) : Option Nat :=
  match ((s.suite n).vote.map (·.suspects)).getD [] |>.find? (·.2 == q) with
  | some (r, _) => some r
  | none => if (s.suite n).mode == .paired then none else (s.twins q).head?

/-- The load of a spare crosses the network on VC3 in the module share class: Pantry scratch, Hods and micro-program store (R130,
R339). -/
def State.sendLoad (n : Nat) (s : State) (q : Nat) : State :=
  match s.loadSource n q with
  | some r => s.inject 3 s.moduleClass (flitsOf (0x100000 + 12288 * (s.suite n).lanes + 2048)) (.room r) (.room q)
  | none => s

/-- A suspect of the other module whose Course failed is fenced there, and its spare loads from this module's Room with the
ordinal, on a pair-link port (R130, R339). -/
def State.sendContents (n k : Nat) (s : State) (e : Nat × Nat) : State :=
  if s.copyResult n 1 e.1 k != some .failed then s
  else match ((s.suite n).members 0)[e.1]?, s.pairPorts.find? s.portUp with
    | some r, some p =>
      let x := s.room r
      s.emit (.pairContents p s.pairEpoch n e.1 x.pantry ((List.range (s.suite n).lanes).map fun l => (x.brick l).hod) x.microStore x.checkpoints)
    | _, _ => s

/-- A vote on Course k (R337 to R339). -/
def State.startVote (s : State) (n k : Nat) (suspects : List Nat) : State :=
  let x := s.suite n
  let spares := (x.localCopies.map fun c => (x.spareRooms c).length).foldl min (sparesFor x.ordinals)
  let chosen := (s.orderSuspects n k suspects).take spares
  let s := (s.bump 0x5201 1 64).modSuite n fun x =>
    { x with votes := satAdd 32 x.votes 1, releases := [], step := x.step.map fun st => { st with votes := satAdd 16 st.votes 1 }
             vote := some { course := k, suspects := [], loading := [] } }
  let s := (x.localCopies.flatMap x.members).foldl (fun s r => s.haltRoom r Room.rewind) s
  let s := x.localCopies.foldl (fun s c => (chosen.zip (x.spareRooms c)).foldl (fun s e => s.assign n k c e) s) s
  let s := ((s.suite n).localCopies.flatMap (s.suite n).members).foldl (fun s r => s.modRoom r Room.rewound) s
  let s := ((s.suite n).vote.map (·.loading)).getD [] |>.foldl (State.sendLoad n) s
  let s := if x.mode == .paired then chosen.foldl (State.sendContents n k) s else s
  s.tryRerun n

/-! ### SPARE_LOAD_COMPLETE (R339, R351) -/

def execSpareLoadComplete (r : Nat) (s : State) : Host.Outcome State Fault Refusal :=
  onUnits (isRoom r) s (
    match s.suiteOf r with
    | none => s
    | some n =>
      match (s.suite n).vote with
      | none => s
      | some v =>
        if !v.loading.contains r then s
        else
          let lanes := ((s.suite n).step.map (·.lanes)).getD 0
          let s := match s.loadSource n r with
            | some q => s.modRoom r fun y =>
                let x := s.room q
                { y.withContents x lanes with checkpoints := x.checkpoints, foreman := { y.foreman with program := x.foreman.program } }
            | none => s
          let s := (s.modRoom r ({ · with loading := false })).modSuite n ({ · with vote := some { v with loading := v.loading.filter (· != r) } })
          s.tryRerun n)

/-! ### Outcomes (R341) -/

/-- The result of the comparison reaches every Room on VC0: Course k is confirmed (R334, R335). -/
def State.confirm (s : State) (n k : Nat) (mismatched : List Nat) : State :=
  let s := (s.modStep n ({ · with compared := k + 1 })).emit (.courseResult n k mismatched)
  let s := s.controlAll (s.suite n).share (.hall (s.decider n)) (s.suite n).allRooms
  (s.suite n).allRooms.foldl (fun s r => s.modRoom r fun x =>
    match x.foreman.run with
    | .confirm upto => if upto ≤ k + 1 then x.proceed else x
    | _ => x) s

/-- Whether a listener agrees with its spare. -/
def State.listenerAgrees (s : State) (k : Nat) (e : Nat × Nat) : Bool :=
  (s.room e.1).courseResult k == (s.room e.2).courseResult k && ((s.room e.1).courseResult k).isSome

/-- What becomes of a suspect and its spare (R341).  A suspect that agrees resumes its ordinal, and its spare is a spare again.
Otherwise the spare keeps the ordinal: where the member digests agreed the suspect is outvoted and fenced; else, where R341 fences
nobody, it takes the spare's place (DESIGN CHOICE, log entry 85). -/
def State.settleListener (n k : Nat) (outvotes : Bool) (s : State) (e : Nat × Nat) : State :=
  if s.listenerAgrees k e then s.modRoom e.2 fun x => { x with foreman := { x.foreman with run := .idle } }
  else match (s.room e.1).member with
    | none => s
    | some m =>
      if outvotes then
        let s := ((s.fenceRoom e.1).stepIn n e.1 e.2 m).bump 0x5201 3 32
        s.modSuite n fun x => { x with fencedByVote := satAdd 32 x.fencedByVote 1 }
      else
        let place := (s.room e.2).member
        let s := (s.modSuite n (·.exchange e.1 e.2)).modRoom e.2 ({ · with member := some m })
        s.modRoom e.1 fun x => { x with member := place, foreman := { x.foreman with run := .idle } }

/-- Whether every listener agrees with its spare. -/
def State.listenersAgree (s : State) (v : Vote) : Bool := v.suspects.all (s.listenerAgrees v.course)

/-- ABFT flags and hardware indications of a copy in the re-run, a Course whose Tally fired among them. -/
def State.marksIn (s : State) (n copy k : Nat) : Nat :=
  if (s.suite n).mode == .paired && copy == 1 then Config.partnerMarks s.free
  else (((s.suite n).members copy ++ (s.suite n).spareRooms copy).map fun r =>
    let x := s.room r
    countIf (· == k) x.marks + if x.course.hungAt.isSome && x.course.ordinal == k then 1 else 0).sum

/-- The vote is over: its record, its time, and what becomes of its Rooms (R341, R342, R358). -/
def State.endVote (s : State) (n : Nat) (v : Vote) (row : Nat) : State :=
  let s := v.suspects.foldl (State.settleListener n v.course (decide (row ≤ 2))) s
  let s := s.modSuite n fun x => { x with vote := none, voteTime := s.time }
  s.report 9 1 3 9 n (s.suite n).owner (row + v.course % 256 * 256)

/-- The end of a re-run (R341); `larger` says which copies' Wardens have reported a fault in a region larger than a Room
since Course k began. -/
def State.judge (s : State) (n : Nat) (v : Vote) (larger : List Bool) (mismatched : List Nat) : State :=
  let k := v.course
  if mismatched.isEmpty then
    let transient := s.listenersAgree v
    let s := if transient then s.bump 0x5201 2 64 else s
    (s.endVote n v (if transient then 1 else 2)).confirm n k []
  else
    let big (c : Nat) : Bool := larger[c]? == some true
    if big 0 != big 1 then
      let lost := if big 0 then 0 else 1
      ((s.endVote n v 3).dropCopy n lost).confirm n k mismatched
    else
      let a := s.marksIn n 0 k
      let b := s.marksIn n 1 k
      let s := { s with free := s.free + 1 }
      if a = b then ((s.endVote n v 4).bump 0x5201 5 32).killStep n
      else ((s.endVote n v 4).dropCopy n (if b < a then 0 else 1)).confirm n k mismatched

/-- What this module tells the other of a pair about a Course (R334). -/
def State.ownResults (s : State) (n k : Nat) : List (Nat × CourseResult) :=
  (List.range (s.suite n).ordinals).filterMap fun o => (s.copyResult n 0 o k).map fun d => (o, d)

/-- The exchange of results: across the Lintel on VC0, or to the partner on every pair-link port (R130, R334). -/
def State.exchangeResults (s : State) (n k : Nat) : State :=
  let x := s.suite n
  let l := s.ownResults n k
  if x.mode != .paired then ((List.range x.ordinals).foldl (fun s _ => (s.control x.share (.hall 0) (.hall 1)).control x.share (.hall 1) (.hall 0)) s)
  else if l.length = x.ordinals || l.any fun e => e.2 == .failed || e.2 == .faulted then s.toPartner fun p e => .pairDigests p e n k l
  else s

/-- A program fault that both copies have raised stands (R116, R117). -/
def State.faultBoth (s : State) (n o : Nat) : State :=
  match (s.roomsAt n 0 o).find? fun r => !s.listener r with
  | some r => match (s.room r).foreman.run with
    | .faulted code => s.faultStep r code (s.room r).foreman.pc
    | _ => s
  | none => s

/-- COURSE_DIGEST_COMPARE (R334, R337, R341): nothing happens before the results are there. -/
def State.compare (s : State) (n : Nat) (larger : List Bool) : State :=
  let x := s.suite n
  match x.step with
  | none => s
  | some st =>
    let k := st.compared
    let voting := (x.vote.map fun v => !v.rerun).getD false
    if !x.compares || voting then s
    else
      let listeners := ((x.vote.map (·.suspects)).getD []).all fun e => ((s.room e.1).courseResult k).isSome
      let s := if x.mode == .paired || s.comparable n k then s.exchangeResults n k else s
      match (List.range x.ordinals).find? fun o => s.bothFaulted n o k with
      | some o => s.faultBoth n o
      | none =>
        let mismatched := s.differ n k
        if !s.comparable n k || (mismatched.isEmpty && !listeners) then s
        else match x.vote with
          | some v => s.judge n v larger mismatched
          | none =>
            if mismatched.isEmpty then s.confirm n k []
            else ((s.emit (.courseResult n k mismatched)).controlAll x.share (.hall (s.decider n)) x.allRooms).startVote n k mismatched

def execCourseDigestCompare (suite : Nat) (larger : List Bool) (s : State) : Host.Outcome State Fault Refusal :=
  onUnits (isSuite suite) s (s.compare suite larger)

end Sys2Proof.Machine
end

