-- ==== Sys2Proof/Machine/Errors.lean ====
section
/-! DEFINITION. Losing Rooms, routers, Wings and the whole module: the Error Ledger's recording and storms (R359, R360), the
Tallies (R365 to R367), the reset ladder (R368 to R374), the Wardens (R375, R376) and fail-silent (R377). -/

namespace Sys2Proof.Machine

/-! ### LEDGER_RECORD and STORM_END (R359, R360) -/

/-- The report that a Hall records next: during a storm those of severity DEGRADED and above go first. -/
def Ledger.next (l : Ledger) : Option Report :=
  if l.storm then (match l.queue.find? fun r => decide (2 ≤ r.severity) with | some r => some r | none => l.queue.head?) else l.queue.head?

def execLedgerRecord (hall : Nat) (s : State) : Host.Outcome State Fault Refusal :=
  onUnits (isHall hall) s (
    match (s.hall hall).ledger.next with
    | none => s
    | some r =>
      if s.failSilent then s
      else
        let s := s.modLedger hall fun l =>
          let queue := removeFirst (· == r) l.queue
          { l with queue, calmSince := if l.storm && decide (queue.length < 8) then some (l.calmSince.getD s.time) else l.calmSince }
        s.writeRecord hall r)

def execStormEnd (hall : Nat) (s : State) : Host.Outcome State Fault Refusal :=
  onUnits (isHall hall) s (
    let l := (s.hall hall).ledger
    match l.calmSince with
    | none => s
    | some t =>
      if !l.storm || s.time < t + 1000000 || s.failSilent then s
      else
        let s := (s.modLedger hall ({ · with storm := false, calmSince := none })).bump (0x5004 + hall) 12 32
        s.writeRecord hall { cls := 11, code := 2, severity := 0, kind := 6, index := hall, detail := l.stormLost, time := s.time })

/-! ### Fencing a Room, a Brick or a router in service (R22, R124, R339, R351, R370, R374) -/

/-- A Room is fenced wherever it stands.  While two copies compare a step, a member only fails its Course here and is fenced
by the vote (R333, R339); elsewhere its step is killed.  A SIMPLEX Suite that loses a member loses data (R374). -/
def State.loseRoom (s : State) (r : Nat) : State :=
  match (s.room r).member with
  | none => s.fenceRoom r
  | some m =>
    let x := s.suite m.suite
    if (s.room r).joining then (s.whitewashFailed r).finishLanding m.suite
    else if x.compares && x.step.isSome && !m.spare then s.hardwareFault r
    else
      let stands := ((x.vote.map (·.suspects)).getD []).any (·.2 == r)
      let s := if m.spare && !stands then s else if x.compares && m.spare then s else s.killUnlessCommitting m.suite
      let s := ((s.accrue m.suite).fenceRoom r).modSuite m.suite fun x =>
        let y := x.replace r none
        { y with
          refill := true
          st := if x.step.isNone && !m.spare then y.settled else x.st
          holdNext := if x.mode == .simplex && !m.spare && x.holdNext = 0 then 1 else x.holdNext
          vote := x.vote.map fun v => { v with suspects := v.suspects.filter (·.2 != r), loading := v.loading.filter (· != r) } }
      (s.settle m.suite).tryRerun m.suite

/-! ### Routes on a Floor (R118 to R124) -/

/-- Usable Rooms of a Floor, by place, that no earlier check has cut off. -/
def State.livePlaces (s : State) (f : Nat) : List Nat :=
  (List.range 320).filter fun p => (s.room (320 * f + p)).usable && !(s.room (320 * f + p)).cutOff

/-- The source endpoints of a Floor: the routers of its usable Rooms and the selected edge endpoints (R121, R123). -/
def sourceEndpoints (dead : Nat → Bool) (live : List Nat) : List Nat := (live ++ live.flatMap (edgesOf dead)).dedup

/-- Usable Rooms of a Floor, by place, that cannot stay: their own router is lost, some endpoint finds no route to them, or
they find none to an edge endpoint selected for them (R123). With no dead router every route exists. -/
def State.unreachable (s : State) (f : Nat) : List Nat :=
  let lost := s.deadPlaces f
  let dead (p : Nat) : Bool := lost.contains p
  let usable := s.livePlaces f
  let live := usable.filter fun p => !dead p
  if lost.isEmpty then []
  else if live.length < usable.length then usable.filter dead
  else
    let sources := sourceEndpoints dead live
    live.filter fun p => (sources.any fun a => !routeOk dead a p) || (edgesOf dead p).any fun e => !routeOk dead p e

/-- Every endpoint computes its routes; those on class B or through a waypoint are counted (R123, R128). -/
def State.noteRoutes (s : State) (f : Nat) : State :=
  let lost := s.deadPlaces f
  let dead (p : Nat) : Bool := lost.contains p
  s.dictSet (0x2820 + f) 2 (if lost.isEmpty then 0 else detouring dead (sourceEndpoints dead (s.livePlaces f)))

/-- Fence unreachable Rooms until every usable Room of the Floor reaches every other (R123).  A Room whose Suite compares a step is
fenced by the vote, or at the step boundary (R339, log entry 86). -/
def State.checkRoutes (f : Nat) : Nat → State → State
  | 0, s => s
  | fuel + 1, s =>
    match s.unreachable f with
    | [] => s.noteRoutes f
    | l => checkRoutes f fuel (l.foldl (fun s p =>
        let s := s.report 3 2 2 2 (320 * f + p) 0 (320 * f + p)
        (s.modRoom (320 * f + p) ({ · with cutOff := true })).loseRoom (320 * f + p)) s)

/-- A router is fenced, and the packets that depend on it are lost (R22, R124). -/
def State.loseRouter (s : State) (r : Nat) : State :=
  if (s.room r).deadRouter then s
  else
    let f := floorOf r
    let s := s.planChange false 3 r fun s => (s.modRoom r ({ · with deadRouter := true })).modFloor f fun x => { x with lostRouters := x.lostRouters + 1 }
    State.checkRoutes f 320 (s.losePackets r)

/-- DUPLEX and PAIRED Suites bound to the group of a pseudo-channel lose the copy that it carries (R333). -/
def State.dropGroup (s : State) (p : Nat) : State :=
  let g := s.groupName p
  (s.suites.map (·.1)).foldl (fun s n =>
    let x := s.suite n
    if !x.groups.contains g then s
    else if x.mode == .duplex then s.dropCopy n (p / 64)
    else if x.mode == .paired then s.dropCopy n 0
    else s) s

/-- A pseudo-channel is fenced: its group becomes unusable, and DUPLEX and PAIRED Suites bound to the group lose the copy that it
carries (R148, R333). -/
def State.losePc (s : State) (p : Nat) : State :=
  if (s.pc p).failed then s
  else
    (s.planChange false 4 p fun s => s.modPc p ({ · with failed := true })).dropGroup p

/-! ### Losing a Wing (R345, R346, R373) -/

/-- The contexts of DUPLEX Suites that a Hall serves go over to the other Hall (R346). -/
def State.takeover (s : State) (h : Nat) : State :=
  { s with contexts := s.contexts.map fun e =>
      (e.1, e.2.map fun c => if c.serving = h && (s.suite c.suite).mode == .duplex then { c with serving := 1 - h } else c) }

/-- Steps that use a unit of a Wing are killed, unless they commit (R373). -/
def State.killIn (s : State) (uses : Nat → Bool) : State :=
  ((s.suites.map (·.1)).filter uses).foldl State.killUnlessCommitting s

/-- Whether a Suite uses a Wing: by a Room that runs steps, or by the context whose step runs. -/
def State.usesWing (s : State) (h n : Nat) : Bool :=
  let x := s.suite n
  (x.running.any fun r => hallOfRoom r == h) || ((x.step.bind fun st => s.ctx? st.ctx).map fun c => c.serving == h).getD false

/-- Transfers that are open on the channels of a lost Hall are lost, between the frames of a segmented one too (R292). -/
def State.loseChannels (s : State) (h : Nat) : State :=
  let isOpen (n : Nat) : Bool := (s.hall h).sessions.any (·.chan == .window h n)
  let lose (n : Nat) (c : WindowChannel) : WindowChannel := if c.busy || isOpen n then c.lose else c
  let own (q : Chan) : Bool := match q with
    | .window g _ => g == h
    | .can g _ => g == h
    | _ => false
  let s := s.modHall h fun x => { x with channels := iterate (fun n l => Store.set {} l n (lose n (Store.get {} l n))) 16 x.channels, sessions := [] }
  { s with withheld := s.withheld.filter fun w => !own w.chan }

/-- A Hall is declared lost, and the other takes the whole module (R345, R346). -/
def State.loseHall (s : State) (h : Nat) : State :=
  if (s.hall h).lost || (s.hall (1 - h)).lost then s
  else
    let s := s.bump 0x5200 2 32
    let s := (s.modHall h ({ · with lost := true })).loseChannels h
    let s := (s.report 9 3 2 6 h 0 (s.dictGet 0x5200 2)).dropWing h
    (((s.takeover h).killIn fun n => s.usesWing h n)).refresh

/-! ### HBM training (R155) -/

/-- The fields of a half of a lane record: one bad lane takes the spare of its half. -/
def spareField (lanes : List Nat) (used lane : Nat) : Nat :=
  match lanes with
  | [l] => 2 ^ used + l * 2 ^ lane
  | _ => 0

/-- HBM training of a pseudo-channel: the lanes found bad, and the one that waits for its repair, take the spares; more than one in
a half, or more than one command/address lane of the channel, leaves it out (R150, R155). -/
def State.trainPc (bad : Nat → List Nat × List Nat) (lost : List Nat) (s : State) (p : Nat) : State :=
  let twin := if p % 2 = 0 then p + 1 else p - 1
  let data := ((bad p).1 ++ (s.pc p).repair.toList).dedup
  let lo := data.filter (· < 18)
  let hi := data.filter fun l => decide (18 ≤ l) && decide (l < 36)
  let ca := (((bad p).2 ++ (bad twin).2).filter (· < 18)).dedup
  let short := decide (1 < lo.length) || decide (1 < hi.length)
  let out := short || decide (1 < ca.length) || lost.contains p
  let word := (if short then 0 else spareField lo 23 17 + spareField hi 16 10) + spareField ca 9 4 + (if out then 0 else 8)
  s.modPc p fun x => { x with lostAtTest := out, repair := none, laneRecord := BitVec.ofNat 32 (2 ^ 24 + word) }

/-! ### The whole module: MODULE_RESET and the state that survives it (R294, R364, R368) -/

/-- What the Hearths, the OTP and the wires keep when everything else returns to its starting value; stages run again from
`stage`. -/
def State.rebooted (s : State) (stage cause : Nat) : State :=
  let hall (h : Nat) : Hall :=
    let x := s.hall h
    { ledger := { lastWords := x.ledger.lastWords }, up := HallBringUp.at stage s.time, perst := x.perst, svcLow := x.svcLow
      svcSince := s.time }
  let floor (f : Nat) : Floor := { junctions := (s.floor f).junctions, stackTemp := (s.floor f).stackTemp }
  let power : Power :=
    { upStep := if stage = 1 then 2 else 0, brakePin := s.power.brakePin, millivolts := s.power.millivolts
      milliamps := s.power.milliamps, energy := s.power.energy, inlet := s.power.inlet, hallJunctions := s.power.hallJunctions
      sleepAt := s.power.sleepAt, wakeAt := s.power.wakeAt, wakes := s.power.wakes, wakeRecord := s.power.wakeRecord
      wakeMask := s.power.wakeMask, hot := s.power.hot, upFailed := s.power.upFailed }
  let security : Security :=
    { lcTest := s.security.lcTest, lcSealed := s.security.lcSealed, lcRetired := s.security.lcRetired
      tokens := s.security.tokens, secret := s.security.secret, rootHash := s.security.rootHash
      identity := s.security.identity, serial := s.security.serial, tamperSeen := s.security.tamperSeen }
  { ({} : State) with
    time := s.time, halls := Store.setRange {} [] 0 [hall 0, hall 1]
    floors := Store.setRange {} [] 0 [floor 0, floor 1, floor 2, floor 3], power, security
    pcs := Store.mapValues {} (fun x => { repair := x.repair }) s.pcs
    pair := { arbiterIn := s.pair.arbiterIn }, resetCause := cause, failSilent := s.failSilent, lockout := s.lockout, faultPin := s.failSilent
    out := s.out, free := s.free }

/-- A report that is recorded at this very moment, for nothing but its last words may survive it (R356, R364, R368). -/
def State.lastWord (s : State) (h : Nat) (r : Report) : State := s.writeRecord h r

/-- The module rung: everything but the Hearths is reset, and bring-up runs from stage 1 (R368). -/
def State.moduleRung (s : State) (cause : Nat) : State :=
  let h := s.senior
  let s := s.lastWord h { cls := 7, code := 1, severity := 3, kind := 0, index := 0, detail := 5, time := s.time }
  (s.rebooted 1 cause).modWarden h fun w => { w with rungs := [(5, .wing h, s.time)] }

/-! ### Wakes (R310 to R312) -/

/-- Whether wake source n, 1 to 4, is enabled (R311, R332). -/
def State.wakeEnabled (s : State) (n : Nat) : Bool := bitOf (s.dictGet 0x2401 3) (n - 1)

/-- The Hearth alarm has been reached and is enabled. -/
def State.alarmDue (s : State) : Bool := s.wakeEnabled 4 && s.dictGet 0x2401 4 != 0 && decide (s.dictGet 0x2401 4 ≤ s.time)

/-- The wake record: the sources that were pending, and the lowest-numbered one as SOURCE (R312). -/
def wakeWord (thermal : Bool) (pending : Nat) : W32 :=
  let source := (((List.range 6).find? (bitOf pending)).map (· + 1)).getD 0
  BitVec.ofNat 32 (2 ^ 24 + 2 ^ 23 + (if thermal then 2 ^ 22 else 0) + pending * 2 ^ 8 + source)

/-- A wake from SLEEP by the sources of a mask is a reset of the module with the WAKE flag (R311, R312).  Fail-silent outlasts it,
unless a failed power-up step had brought it about (R314, R377). -/
def State.wakeWith (s : State) (pending : Nat) : State :=
  if s.power.st != .sleep then s
  else
    let power := { s.power with
      wakeRecord := wakeWord s.power.thermalShutdown pending, wakeAt := s.time, wakes := satAdd 32 s.power.wakes 1
      wakeMask := s.dictGet 0x2401 3 }
    let silent := s.failSilent && !s.power.upFailed
    let t := State.rebooted { s with power, failSilent := silent, lockout := s.lockout && silent } 0 1
    let tamper := bitOf pending 4
    { t with
      power := { t.power with tamperWake := tamper, upFailed := false }
      security := { t.security with tamperSeen := t.security.tamperSeen || tamper, latest := if tamper then s.security.latest else t.security.latest } }

/-- A wake by one source, and by the alarm if that is due. -/
def State.wake (s : State) (source : Nat) : State := s.wakeWith (2 ^ (source - 1) ||| (if s.alarmDue then 8 else 0))

/-- A further source in the same 40 ns step as the wake joins its record; the sources 1 to 3 only where they were enabled (R311,
R312). -/
def State.joinWake (s : State) (n : Nat) : State :=
  let word := s.power.wakeRecord.toNat
  if s.resetCause != 1 || s.power.st != .powerUp || s.power.wakeAt / 40 != s.time / 40 || !bitOf word 23 ||
      !(4 < n || bitOf s.power.wakeMask (n - 1)) then s
  else { s with power := { s.power with wakeRecord := wakeWord (bitOf word 22) (bitsOf word 13 8 ||| 2 ^ (n - 1)) } }

/-! ### MODULE_RESET -/

/-- MODULE_RESET (R368, R379): 1 is the only value. -/
def actModuleReset (q : Chan) (v : Nat) : Act := fun s =>
  judged [must (v = 1) abRange] ((s.reply q 0x5030 1 0 []).moduleRung 2) false

/-- The transfer is answered, and the module resets. -/
def execModuleReset (q : Chan) (s : State) : Host.Outcome State Fault Refusal :=
  onUnits (isChan q) s (s.download q 0x5030 1 [1] (actModuleReset q 1))

/-! ### Fail-silent (R377) -/

/-- One Hall stops: its EMCY, its heartbeat state, its Steward. -/
def State.silenceHall (h : Nat) (s : State) : State :=
  let s := s.modHall h fun x => { x with nmt := .stopped, stewardStopped := true }
  let reg := BitVec.ofNat 8 (s.errorBits h)
  (s.modHall h ({ · with errorRegister := reg })).emit (.emcy h 0xFF00 reg)

/-- Every Mortar port sends a fault ordered set and is held down. -/
def State.silencePort (p : Nat) (s : State) : State :=
  let s := if (s.port p).st = 0 then s else s.emit (.mortarFault p)
  (s.modPort p ({ · with st := 3 })).loseTunnels (· == p)

/-- What a Hall was told at this very moment is recorded before FAULT# is asserted (R360, R378, log entry 64). -/
def State.recordLast (h : Nat) (s : State) : State :=
  let due := (s.hall h).ledger.queue.filter fun r => r.time == s.time
  let s := s.modLedger h fun l => { l with queue := l.queue.filter fun r => r.time != s.time }
  due.foldl (fun s r => s.writeRecord h r) s

def State.goSilent (s : State) : State :=
  if s.failSilent then s
  else
    let s := iterate State.recordLast 2 s
    let s := { s with failSilent := true, faultPin := true }
    let s := iterate State.silenceHall 2 s
    let s := iterate State.silencePort 12 s
    iterate (fun k s => s.modFeed k ({ · with up := false })) 4 s

/-- A Hearth whose own Warden has stopped and that has heard no lease for 150 µs goes silent. -/
def execFailSilent (hall : Nat) (s : State) : Host.Outcome State Fault Refusal :=
  onUnits (isHall hall) s (
    let w := (s.hall hall).warden
    if w.running || s.time < max w.lintelLease w.lineLease + 150000 then s else s.goSilent)

/-! ### Stage records and failures (R415, R416, R418, R419) -/

/-- The limit of each stage in ns (R415). -/
def stageLimit (s : State) (stage : Nat) : Nat :=
  if stage = 9 && s.power.tamperWake then 55000000
  else [20000000, 5000000, 30000000, 25000000, 10000000, 1000000, 60000000, 5000000, 40000000, 5000000].getD stage 0

def State.modUp (s : State) (h : Nat) (f : HallBringUp → HallBringUp) : State := s.modHall h fun x => { x with up := f x.up }

/-- The record of the stage that a Hall runs is rewritten at its end. -/
def HallBringUp.close (u : HallBringUp) (result code detail now : Nat) : HallBringUp :=
  { u with records := Store.set none u.records u.stage (some { result, code, start := u.start, finish := now, detail }) }

/-- The next stage starts with a record of its own. -/
def HallBringUp.next (u : HallBringUp) (now : Nat) : HallBringUp :=
  { u with stage := u.stage + 1, start := now, suspendedFor := 0
           records := Store.set none u.records (u.stage + 1) (some { result := 0, start := now }) }

/-- The failure codes whose scope is the Wing in which they arise (R418). -/
def wingScope (code : Nat) : Bool :=
  code = 3 || (decide (6 ≤ code) && decide (code ≤ 9)) || (decide (0x0D ≤ code) && decide (code ≤ 0x10))

/-- A stage fails: its Wing is held in reset, or the module goes fail-silent, in lockout for 0x04, 0x05 and 0x12; when both
Wings have failed the module has (R419). -/
def State.stageFailIn (s : State) (wing : Bool) (h code detail : Nat) : State :=
  let s := s.modUp h fun u => { u.close 2 code detail s.time with ended := true, held := wing }
  if wing && !(s.hall (1 - h)).up.held then ((s.modHall h ({ · with lost := true })).loseChannels h).refresh
  else
    let s := s.goSilent
    State.refresh { s with lockout := s.lockout || code = 4 || code = 5 || code = 0x12 }

def State.stageFail (s : State) (h code detail : Nat) : State := s.stageFailIn (wingScope code) h code detail

/-- Whether a Hall that is lost now is lost between stages 4 and 9 of bring-up (R422). -/
def State.lostInBringUp (s : State) (h : Nat) : Bool :=
  !s.ready && !(s.hall h).up.ended && decide (4 ≤ (s.hall h).up.stage) && decide ((s.hall h).up.stage ≤ 9)

/-- A Hall is lost: in bring-up as a failure of its Wing with code TIMEOUT, and in service with a takeover (R345, R346, R422). -/
def State.hallLost (s : State) (h : Nat) : State :=
  if s.lostInBringUp h then s.stageFailIn true h 0x11 (stageLimit s (s.hall h).up.stage / 1000) else s.loseHall h

/-! ### Rungs (R368 to R372) -/

/-- Timeouts of the rungs, in ns; the module rung has those of the bring-up stages (R368, R415). -/
def rungTimeout (rung : Nat) : Nat :=
  if rung = 1 then 5000 else if rung = 2 then 50000 else if rung = 3 then 500000 else if rung = 4 then 20000000 else 256000000

/-- The Suites that use a segment (R373). -/
def State.usesSegment (s : State) (u : UnitRef) (n : Nat) : Bool :=
  let x := s.suite n
  match u with
  | .floorBlock f => (x.groups.any fun g => g / 32 == f) || x.running.any fun r => floorOf r == f
  | .clock f => x.running.any fun r => floorOf r == f
  | .steward h => s.decider n == h
  | _ => false

/-- The Wing of a segment whose loss drops a copy (R333). -/
def segmentWing : UnitRef → Option Nat
  | .floorBlock f => some (f / 2)
  | .clock f => some (f / 2)
  | _ => none

/-- Start the segment rung of a unit: a directory forgets its lines, and a Floor without power what its Rooms' caches hold;
then copies in its Wing are dropped and other steps that use it are killed (R193, R333, R368, R373). -/
def State.startSegment (s : State) (u : UnitRef) : State :=
  let s := match u with
    | .floorBlock f => s.loseDirectory f
    | .clock f => if (s.floor f).powerGood then s else ((span (320 * f) 320).filter fun r => s.rooms.any fun e => e.1 == r).foldl State.forgetRoom s
    | _ => s
  let s := match segmentWing u with
    | some w => s.dropWing w
    | none => s
  let s := match u with
    | .steward h => s.modHall h ({ · with stewardStopped := true })
    | _ => s
  (s.killIn (s.usesSegment u)).startRung 3 u

/-- Start the Wing rung: the Wing is lost to the module while it runs, and its Rooms are held GATED (R345, R368, R373). -/
def State.startWing (s : State) (h : Nat) : State :=
  let s := (s.loseDirectory (2 * h)).loseDirectory (2 * h + 1)
  let s := s.hallLost h
  let s := if (s.hall h).lost then s else s.killIn (s.usesWing h)
  let hold (r : Nat) (x : Room) : Room := if hallOfRoom r == h && x.power == .clocked then { x with power := .gated } else x
  let s := (s.rooms.map (·.1)).foldl (fun s r => s.modRoom r (hold r)) s
  (s.modHall h ({ · with stewardStopped := true })).startRung 4 (.wing h)

/-- A rung that a Warden holds. -/
def State.heldRung (s : State) (rung : Nat) (u : UnitRef) : Option (Nat × Nat) :=
  ((List.range 2).filterMap fun h =>
    ((s.hall h).warden.rungs.find? fun x => x.1 == rung && x.2.1 == u).map fun x => (h, x.2.2)).head?

def State.dropRung (s : State) (h rung : Nat) (u : UnitRef) : State :=
  s.modWarden h fun w => { w with rungs := w.rungs.filter fun x => !(x.1 == rung && x.2.1 == u) }

/-- A rung finishes (R368, R376); a Wing then rejoins by reintegration (R354). -/
def execRungComplete (rung : Nat) (u : UnitRef) (s : State) : Host.Outcome State Fault Refusal :=
  onUnits (isRung rung && isUnit u) s (
    match s.heldRung rung u with
    | none => s
    | some (h, t) =>
      if rung = 5 && s.ready == false then s
      else
        let s := (s.dropRung h rung u).report 7 2 3 (unitSource u).1 (unitSource u).2 0 (rung + (s.time - t) * 8)
        match rung, u with
        | 2, .room r => s.modForeman r fun f => if f.run == .hold then { f with run := .idle } else f
        | 3, .steward k => s.modHall k ({ · with stewardStopped := false })
        | 3, .clock f => s.modFloor f ({ · with powerGood := true })
        | 3, .floorBlock f => s.modFloor f ({ · with directoryDown := false })
        | 4, .wing k => [2 * k, 2 * k + 1].foldl (fun s f => s.modFloor f ({ · with directoryDown := false }))
            (s.modHall k ({ · with stewardStopped := false }))
        | _, _ => s)

/-- A rung times out and the next takes over (R368, R370). -/
def execRungTimeout (rung : Nat) (u : UnitRef) (s : State) : Host.Outcome State Fault Refusal :=
  onUnits (isRung rung && isUnit u) s (
    match s.heldRung rung u with
    | none => s
    | some (h, t) =>
      if s.time < t + rungTimeout rung then s
      else
        let s := (s.dropRung h rung u).report 7 3 3 (unitSource u).1 (unitSource u).2 0 (rung + (s.time - t) * 8)
        let s := s.bump 0x5032 rung 32
        match rung, u with
        | 1, .brick g => s.loseBrick g
        | 2, .room r => s.loseRoom r
        | 3, u => s.startWing (s.unitWing u)
        | 4, .wing k =>
          if (s.hall (1 - k)).lost then s.moduleRung 2 else ((s.modHall k ({ · with lost := true })).loseChannels k).refresh
        | 5, _ => s.goSilent
        | _, _ => s)

/-! ### Tallies (R365 to R367) -/

/-- Whether any DUPLEX or PAIRED Suite exists. -/
def State.anyProtected (s : State) : Bool := s.suites.any fun e => e.2.st != .free && e.2.protected

/-- Whether a Room is a member or spare of a DUPLEX or PAIRED Suite. -/
def State.inProtected (s : State) (r : Nat) : Bool := ((s.suiteOf r).map fun n => (s.suite n).protected).getD false

/-- The window of a Tally, in µs (R366). -/
def State.tallyWindow (s : State) (kind : Nat) (u : UnitRef) : Nat :=
  let w := s.dictGet 0x5020 kind
  match u with
  | .room r => if kind ≤ 4 && s.inProtected r then 100 else w
  | .link l =>
    let near := decide (32 ≤ l) || (decide (l < 12) && s.portDirection l == 6)
    if near && s.anyProtected then min w 100 else w
  | _ => if (kind = 5 || kind = 6) && s.anyProtected then min w 100 else w

/-- Whether the unit of a Tally of kind 1 to 4 has work pending and is not suspended (R365, R378). -/
def State.stuckRoom (s : State) (kind r : Nat) : Bool :=
  let x := s.room r
  let stalled (port : Nat) : Bool := s.stalls.any (·.port == port)
  if kind = 1 then
    match x.foreman.run with
    | .running => true
    | .waitGutter _ => true
    | .waitSync _ _ => true
    | .waitDma _ => !stalled (dmaPort r)
    | _ => false
  else if kind = 2 then (!x.dma.isEmpty || x.loading) && !stalled (dmaPort r)
  else if kind = 3 then x.cache.miss.isSome && !stalled (cachePort r)
  else !x.gutter.isEmpty

/-- The Rooms that a Tally of kind 1 to 4 resets: the Room, or for a Gutter channel those whose contribution to the round is
missing. -/
def State.tallyRooms (s : State) (kind r : Nat) : List Nat :=
  if kind != 4 then [r]
  else
    let n := (s.suiteOf r).getD 0
    let copy := s.copyIdx r
    match (s.room r).gutter.head? with
    | none => [r]
    | some o =>
      let t := s.tree n o.tree
      let x := (s.suite n).round copy o.tree o.round
      let missing := t.nodes.filterMap fun v =>
        if v.isLocal && v.port == 0 && (x.input v.ordinal 0).isNone then some v.ordinal else none
      missing.flatMap fun k => (s.roomsAt n copy k).filter fun q => !s.listener q

/-- The step is killed by a Tally; the HANG_LIMIT-th such kill of one descriptor in a row holds the Suite (R374). -/
def State.hangKill (s : State) (n : Nat) : State :=
  match (s.suite n).step with
  | none => s
  | some st =>
    if st.committing then s
    else
    let hangs := ((s.ctx? st.ctx).map fun c => (c.queue st.queue).hangs + 1).getD 1
    let s := (s.killStep n).modQueue st.ctx st.queue ({ · with hangs })
    s.modSuite n fun x =>
      { x with tallyKills := satAdd 32 x.tallyKills 1, holdNext := if x.holdNext = 0 && decide (x.hangLimit ≤ hangs) then 2 else x.holdNext }

/-- The SOURCE of a Tally of kind 1 to 4: a Room DMA engine and a cache port are master ports (R159, R356, log entry 63). -/
def tallySource (kind r : Nat) : Nat × Nat :=
  if kind = 2 then (8, dmaPort r) else if kind = 3 then (8, cachePort r) else (2, r)

/-- A Tally of kind 1 to 4 (R365, R367, R369). -/
def State.tallyRoom (s : State) (kind r : Nat) : State :=
  if !s.stuckRoom kind r then s
  else
    let s := (s.report 6 1 3 (tallySource kind r).1 (tallySource kind r).2 (((s.suiteOf r).map fun n => (s.suite n).owner).getD 0) (kind + s.tallyWindow kind (.room r) * 16)).bump 0x5021 kind 64
    match (s.room r).member with
    | none => s.startRoomRung r
    | some m =>
      let x := s.suite m.suite
      if m.spare && (s.room r).loading then s.loseRoom r
      else if x.compares then
        let both := (s.twins r).any fun t =>
          match (s.room t).course.hungAt with
          | some at' => decide (s.time ≤ at' + 100000) && (s.room t).foreman.run == .failed
          | none => false
        if both && !s.listener r then s.hangKill m.suite
        else s.modRoom r fun x =>
          { x with foreman := { x.foreman with run := .failed }, course := { x.course with hungAt := some s.time } }
      else
        let rooms := s.tallyRooms kind r
        rooms.foldl State.startRoomRung (s.hangKill m.suite)

/-- A link with no progress retrains; one that copies depend on is down meanwhile (R353, R365). -/
def State.retrain (s : State) (l : Nat) : State :=
  let s : State := { s with retraining := (s.retraining.filter fun e => e.1 != l) ++ [(l, s.time)] }
  if l < 12 then (s.modPort l ({ · with st := 1 })).loseTunnels (· == l)
  else if l < 20 then s.modFeed (l - 16) ({ · with up := false })
  else if l < 26 then s.modHall (l - 24) ({ · with hostUp := false, hostRate := 0, hostWidth := 0 })
  else if !s.anyProtected then s
  else if l = 40 then
    let s : State := { s with lintelDown := true }
    if s.lineDown then s else s.dropDuplex 1
  else s.dropWing (s.linkHall l)

/-- Whether the Tally of a link is suspended: the link has retrained for less than 10 ms, and it is none of those that protected
Suites depend on (R365, R366). -/
def State.linkSuspended (s : State) (l : Nat) : Bool :=
  (s.retraining.any fun e => e.1 == l && decide (s.time < e.2 + 10000000)) &&
    !((decide (32 ≤ l) || (decide (l < 12) && s.portDirection l == 6)) && s.anyProtected)

/-- Whether a Steward engine has work: a descriptor to fetch, or a commit of a Suite for which it decides (R365). -/
def State.stewardBusy (s : State) (h : Nat) : Bool :=
  (s.contexts.any fun e => (e.2.map fun c =>
    c.serving == h && c.queues.any fun q => q.2.st == .opened && q.2.nextFetch.isSome).getD false) ||
    s.suites.any fun e => s.decider e.1 == h && ((e.2.step.map (·.committing)).getD false)

/-- Whether a copy engine has work: requests at its port, pages to wash in the stacks of its Wing, or a blob to decrypt there
(R365). -/
def State.copyBusy (s : State) (h : Nat) : Bool :=
  !(s.reg (copyPort h)).waiting.isEmpty || (s.pages.any fun e => e.2.washing && e.1 / 2 ^ 25 == h) ||
    [2 * h, 2 * h + 1].any (fun k => Store.get 0 s.washFrom k != 0) ||
    s.households.any fun e => (e.2.blob.map fun b => b.dst / 2 ^ 37 == h).getD false

/-- A Tally fires, where its unit has work pending and is not suspended (R365).  Kinds 5 to 9 name their own units; what waits
inside a router or at a link that has stopped only the hardware sees (log entry 63). -/
def State.tally (s : State) (kind : Nat) (u : UnitRef) : State :=
  let count (s : State) : State :=
    (s.report 6 1 3 (unitSource u).1 (unitSource u).2 0 (kind + s.tallyWindow kind u * 16)).bump 0x5021 kind 64
  match kind, u with
  | 5, .pc p => if (s.pc p).queue.isEmpty && (s.pc p).inService.isNone then s else (count s).startSegment (.floorBlock (p / 32))
  | 6, .router r => if (s.room r).deadRouter then s else (count s).loseRouter r
  | 7, .link l => if s.linkSuspended l then s else (count s).retrain l
  | 8, .steward h => if s.stalls.any (·.port == stewardPort h) || !s.stewardBusy h then s else (count s).startSegment (.steward h)
  | 9, .copyEngine h => if s.copyBusy h then (count s).startSegment (.copyEngine h) else s
  | k, .room r => if 1 ≤ k && k ≤ 4 then s.tallyRoom k r else s
  | _, _ => s

def execTallyFire (kind : Nat) (u : UnitRef) (s : State) : Host.Outcome State Fault Refusal :=
  onUnits (isTally kind && isUnit u) s (s.tally kind u)

/-! ### The Wardens (R375, R376) -/

/-- A lockstep mismatch: the Warden stops, abandons its rungs, and its Hearth writes a last-words record, whose code the
manual does not give (log entry 2). -/
def execWardenMismatch (hall : Nat) (s : State) : Host.Outcome State Fault Refusal :=
  onUnits (isHall hall) s (
    if !(s.hall hall).warden.running then s
    else
      let (code, s) := s.draw
      let s := s.lastWord hall { cls := 7, code := code % 65536, severity := 4, kind := 6, index := hall, time := s.time }
      s.modWarden hall fun w => { w with running := false, rungs := [], mismatches := w.mismatches + 1 })

/-- A rung of the partner that has run for twice its timeout: the surviving Warden takes the module and resets that Wing. -/
def execWardenRungOverdue (hall : Nat) (s : State) : Host.Outcome State Fault Refusal :=
  onUnits (isHall hall) s (
    let overdue := (s.hall (1 - hall)).warden.rungs.any fun x => decide (x.2.2 + 2 * rungTimeout x.1 ≤ s.time)
    if !(s.hall hall).warden.running || !overdue then s
    else (s.hallLost (1 - hall)).startWing (1 - hall))

end Sys2Proof.Machine
end

