-- ==== Sys2Proof/Machine/Failover.lean ====
section
/-! DEFINITION. Leases between the Halls and between the modules of a pair (R343 to R350), links that go down or come up
(R333, R344, R353, R421), and background reintegration (R354). -/

namespace Sys2Proof.Machine

/-! ### Leases between the Halls (R343 to R345, R347) -/

/-- Whether a Hall lives and its Warden runs. -/
def State.leases (s : State) (h : Nat) : Bool := (s.hall h).warden.running && !(s.hall h).lost && !s.failSilent

/-- A lease goes out on the Lintel and on the Lintel line, and arrives on those that are up. -/
def execHallLease (hall : Nat) (s : State) : Host.Outcome State Fault Refusal :=
  onUnits (isHall hall) s (
    if !s.leases hall then s
    else (if s.lintelDown then s else s.control s.moduleClass (.hall hall) (.hall (1 - hall))).modWarden (1 - hall) fun w =>
      { w with lintelLease := if s.lintelDown then w.lintelLease else s.time, lineLease := if s.lineDown then w.lineLease else s.time })

/-- A Hall that has heard no lease on either channel for 150 µs declares its partner lost. -/
def execHallLeaseTimeout (hall : Nat) (s : State) : Host.Outcome State Fault Refusal :=
  onUnits (isHall hall) s (
    let w := (s.hall hall).warden
    if s.asleep || !s.leases hall || s.time < max w.lintelLease w.lineLease + 150000 then s else s.hallLost (1 - hall))

/-- Leases have stopped on the Lintel line alone (R344). -/
def execLineDown (s : State) : Host.Outcome State Fault Refusal := onUnits true s { s with lineDown := true }

/-- The East image of pages that a DUPLEX household holds in both images becomes the West image: both copies wrote the same
(R69, R231, R347). -/
def State.imageFrom (s : State) (east : Bool) (hh : Nat → Bool) : State :=
  let lo := if east then mirror else 0
  let paired (a : Nat) : Bool :=
    let h := (s.page (a / 4096)).holder
    hh h && (s.page ((if mirror ≤ a then a - mirror else a + mirror) / 4096)).holder == h
  let inImage (lo a : Nat) : Bool := decide (lo ≤ a) && decide (a < lo + mirror) && paired a
  let source := s.hbm.filter fun e => inImage lo e.1
  let kept := s.hbm.filter fun e => !inImage (mirror - lo) e.1
  let pages := (s.pages.map (·.1 * 4096)).filter (inImage lo)
  let s := pages.foldl (fun s a => (s.copyMove a 4096 false).copyMove (if east then a - mirror else a + mirror) 4096 true) s
  { s with hbm := source.foldl (fun m e => Store.set 0 m (if east then e.1 - mirror else e.1 + mirror) e.2) kept }

/-- Households that own a DUPLEX Suite. -/
def State.hasDuplex (s : State) (hh : Nat) : Bool := hh != 0 && s.suites.any fun e => e.2.mode == .duplex && e.2.owner == hh

/-- Hall W prevails: a download that Hall E accepted meanwhile is listed and does not stand (R347). -/
def State.void (s : State) (e : Nat × Nat × Nat) : State :=
  (s.report 9 4 2 6 1 0 (Config.detail e.1 e.2.1)).dictSet e.1 e.2.1 e.2.2

/-- Leases arrive again after a split: Hall E resets its Wing, which is then reintegrated under Hall W (R347, log entry
45). -/
def execHallRejoin (s : State) : Host.Outcome State Fault Refusal :=
  onUnits true s (
    if s.failSilent then s
    else if (s.hall 1).lost then (s.modWarden 0 fun w => { w with lintelLease := s.time, lineLease := s.time }).startWing 1
    else if !(s.hall 0).lost then s
    else
      let s := State.imageFrom s true s.hasDuplex
      let s := s.splitWrites.foldl State.void s
      let s := { s with splitWrites := [] }
      let s := s.killIn fun n => s.usesWing 1 n
      let s := (s.modHall 0 ({ · with lost := false })).modHall 1 ({ · with lost := true })
      let s := (s.suites.map (·.1)).foldl (fun s n => s.modSuite n fun x =>
        if x.mode == .duplex && x.present.2 then { x with present := (true, false) } else x) s
      let s := (s.takeover 1).modHall 1 ({ · with stewardStopped := true })
      (s.startRung 4 (.wing 1)).refresh)

/-! ### The pair (R348 to R350) -/

/-- A lease leaves on a pair-link port, and the partner's arrives with its epoch; an older epoch is discarded, a newer one is
taken over (R348, log entry 46). -/
def execPairLease (port epoch : Nat) (s : State) : Host.Outcome State Fault Refusal :=
  onUnits (isMortar port) s (
    if s.failSilent || s.pairRole = 0 || s.portDirection port != 6 || !s.portUp port then s
    else
      let s := s.emit (.pairLease port s.pairEpoch)
      if epoch < s.pairEpoch then s
      else
        let s := if s.dictGet 0x5200 5 = 0 then s.dictSet 0x5200 5 1 else s
        (s.dictSet 0x5200 4 epoch).modPort port ({ · with lastLease := s.time }))

/-- Drop the partner's copy of every PAIRED Suite that satisfies p; this module commits alone (R349). -/
def State.dropPartner (s : State) (p : Suite → Bool) : State :=
  (s.suites.map (·.1)).foldl (fun s n => if (s.suite n).mode == .paired && p (s.suite n) then s.dropCopy n 1 else s) s

/-- The arbiter's grant stands (R349). -/
def State.granted (s : State) : State := (s.dictSet 0x5200 5 3).dropPartner fun _ => true

/-- The partner is lost: the epoch rises and ARBITER_OUT is asserted (R348, R349). -/
def State.losePartner (s : State) : State :=
  if s.failSilent || s.pairRole = 0 || s.pair.lost then s
  else
    let s := (s.bump 0x5200 4 32).dictSet 0x5200 5 2
    let s := { s with pair := { s.pair with lost := true, arbiterOut := true, claimAt := s.time } }
    let s := s.report 9 3 2 0 0 0 s.pairEpoch
    if s.pair.arbiterIn then s.granted else s

/-- No lease on any pair-link port for 200 µs. -/
def execPairLeaseTimeout (s : State) : Host.Outcome State Fault Refusal :=
  onUnits true s (if s.pairPorts.any fun p => decide (s.time < (s.port p).lastLease + 200000) then s else s.losePartner)

/-- ARBITER_IN is asserted; it is ignored while the pair lease holds. -/
def execArbiterGrant (s : State) : Host.Outcome State Fault Refusal :=
  onUnits true s (
    let s := { s with pair := { s.pair with arbiterIn := true } }
    if s.pair.lost && !s.failSilent then s.granted else s)

/-- Island mode: only households that the Keystone marks ISLAND are served (R349, R388). -/
def State.island (s : State) : State :=
  let s := s.dictSet 0x5200 5 4
  let s := s.killIn fun n => !s.envFlag (s.suite n).owner 1
  s.dropPartner fun x => s.envFlag x.owner 1

def execArbiterWithdraw (s : State) : Host.Outcome State Fault Refusal :=
  onUnits true s (
    let s := { s with pair := { s.pair with arbiterIn := false } }
    if s.pair.lost && s.pairState = 3 && !s.failSilent then s.island else s)

/-- No grant 100 µs after ARBITER_OUT was asserted. -/
def execIslandModeEntry (s : State) : Host.Outcome State Fault Refusal :=
  onUnits true s (if s.pair.lost && s.pairState = 2 && !s.pair.arbiterIn && !s.failSilent && decide (s.pair.claimAt + 100000 ≤ s.time) then s.island else s)

/-- This module's copies of PAIRED Suites are dropped; the partner keeps its own (R350). -/
def State.dropOwn (s : State) : State :=
  (s.suites.map (·.1)).foldl (fun s n =>
    if (s.suite n).mode != .paired then s
    else
      let s := (s.killUnlessCommitting n).accrue n
      s.modSuite n fun x => { x with present := (false, true), st := if x.st == .active then .degraded else x.st }) s

/-- Pair leases resume: the module that holds the grant keeps its copies, else the senior one does (R350). -/
def execPairRejoin (s : State) : Host.Outcome State Fault Refusal :=
  onUnits true s (
    if s.failSilent || !s.pair.lost then s
    else
      let other := Config.partnerGranted s.free
      let keep := s.pairState = 3 || (s.pairRole = 1 && !other)
      let s := { s with free := s.free + 1, pair := { s.pair with lost := false, arbiterOut := false } }
      let s := s.dictSet 0x5200 5 1
      if keep then s else s.dropOwn)

/-! ### Links (R333, R344, R346, R353, R421) -/

/-- The peer that a LINK record names, when it is known (R358). -/
def State.linkPeer (s : State) (l : Nat) : Nat := if l < 12 then Config.detail (s.port l).peerPlane (s.port l).peerNode else 0

/-- A Mortar port is down: pair traffic goes by the pair-link ports that are left, and losing the last one counts as the loss of the
partner (R333). -/
def State.portLost (s : State) (p : Nat) : State :=
  if s.portDirection p == 6 && !(s.pairPorts.any s.portUp) then s.losePartner else s

/-- A link that was up goes down.  With the Lintel line down as well, the leases between the Halls have stopped, and the loss of the
Hall follows instead of the loss of the Lintel alone (R333, R344).  A Stairwell or the Lintel that fails to retrain takes the segment
rung (R365). -/
def State.linkDown (s : State) (link : Nat) : State :=
  if s.failSilent || s.asleep || s.linksLost.contains link then s
  else
    let s := s.report 4 1 2 7 link 0 (s.linkPeer link)
    let failed := decide (32 ≤ link) && s.retraining.any (·.1 == link)
    let s := { s with linksLost := s.linksLost ++ [link], retraining := s.retraining.filter fun e => e.1 != link }
    let s :=
      if link < 12 then ((s.modPort link ({ · with st := 0, lanes := 0 })).loseTunnels (· == link)).portLost link
      else if link < 20 then s.modFeed (link - 16) ({ · with up := false })
      else if link < 26 then
        (s.modHall (link - 24) ({ · with hostUp := false, hostRate := 0, hostWidth := 0 })).takeover (link - 24)
      else if link = 40 then
        let s : State := { s with lintelDown := true }
        if s.lineDown then s else s.dropDuplex 1
      else s.dropWing (s.linkHall link)
    (if failed then s.startSegment (.link link) else s).refresh

def execLinkDown (link : Nat) (s : State) : Host.Outcome State Fault Refusal := onUnits (isLink link) s (s.linkDown link)

/-- A host, ingest, Stairwell or Lintel link comes up, and the capability table shows it (R223, R358, R421). -/
def execLinkUp (link rate width : Nat) (s : State) : Host.Outcome State Fault Refusal :=
  onUnits (isLink link) s (
    if s.failSilent || s.asleep || link < 12 then s
    else
      let s := s.report 4 2 0 7 link
      let s := { s with linksLost := s.linksLost.filter (· != link), retraining := s.retraining.filter fun e => e.1 != link }
      let s :=
        if link < 20 then s.modFeed (link - 16) ({ · with up := true })
        else if link < 26 then
          if (s.hall (link - 24)).perst || !(s.hall (link - 24)).up.selfTested then s
          else s.modHall (link - 24) ({ · with hostUp := true, hostRate := rate, hostWidth := width })
        else if link = 40 then { s with lintelDown := false }
        else s
      s.refresh)

/-- A Floor loses power-good in service: the copy in its Wing is dropped, other steps that use it are killed and the contents
of its Rooms are lost; its rail controller takes the segment rung (R333, R353, R368, R374). -/
def State.losePower (f : Nat) (s : State) (r : Nat) : State :=
  if floorOf r != f then s
  else
    let s := (s.forgetRoom r).dropStalls r
    let s := s.modRoom r fun x => { x.cleared with power := if x.power == .fenced then .fenced else .gated }
    match (s.room r).member with
    | some m => s.modSuite m.suite fun x =>
        { x with holdNext := if x.mode == .simplex && !m.spare && x.holdNext = 0 then 1 else x.holdNext }
    | none => s

def execFloorPowerGoodLoss (floor : Nat) (s : State) : Host.Outcome State Fault Refusal :=
  onUnits (isFloor floor) s (
    if s.failSilent || !(s.floor floor).powerGood then s
    else
      let s := (s.modFloor floor ({ · with powerGood := false })).startSegment (.clock floor)
      ((s.rooms.map (·.1)).foldl (State.losePower floor) s).refresh)

/-! ### Background reintegration (R354) -/

/-- The contents of a copy rebuilt from the survivor, Room by Room (R354). -/
def State.rebuildRooms (s : State) (n copy : Nat) : State :=
  let x := s.suite n
  ((x.members copy).zip (x.members (1 - copy))).foldl (fun s e => s.modRoom e.1 fun y => y.withContents (s.room e.2) x.lanes) s

/-- A DEGRADED Suite gets its lost copy back: its empty places are filled and washed first; then, at a boundary, the final
pass completes it (R354, log entry 47). -/
def State.reintegrate (s : State) (n copy : Nat) (fits : Bool) : State :=
  let x := s.suite n
  let open' := if x.mode == .duplex then !((s.hall copy).lost) && !s.lintelDown else x.mode == .paired && !s.pair.lost
  if x.st != .degraded || x.has copy || !x.has (1 - copy) || !open' then s
  else
    let s := s.modSuite n ({ · with reintegrating := true })
    let whole := x.rooms.all fun e => if x.mode == .paired || copy = 0 then e.1.isSome else e.2.isSome
    if !x.atBoundary then s
    else if !whole then (s.modSuite n ({ · with refill := true })).configure n
    else if !fits || !(s.joiningRooms n).isEmpty || x.applying.isSome then s
    else
      let s := if x.mode == .duplex then (State.imageFrom s (copy == 0) fun h => h == x.owner).rebuildRooms n copy
        else if copy = 0 then
          (x.members 0).foldl (fun s r => let (d, s) := s.draw; s.modRoom r fun y => y.fromPartner y d x.lanes) s
        else s
      (s.accrue n).modSuite n fun x =>
        { x with present := (true, true), reintegrating := false, st := if x.st == .degraded then .active else x.st }

/-- A Suite with a Room that is not usable any more gives it up at its next Configuration Landing (R19). -/
def State.dropUnusable (s : State) (n : Nat) : State :=
  if (s.suite n).allRooms.any fun r => !(s.room r).usable then s.modSuite n ({ · with refill := true }) else s

/-- The lost Hall's Wing has passed stages 1 to 8 alone, but for the Rooms in `dead`: its Rooms are cleared, and it serves
again (R354). -/
def State.wingBack (s : State) (h : Nat) (dead : List Nat) : State :=
  let tested (s : State) (r : Nat) : State := s.modRoom r fun x =>
    if x.life == .fencedInService then x else { x with life := if dead.contains r then .lostAtTest else .working }
  let s := s.planChange true 6 h fun s =>
    (span (64 * h) 64).foldl (State.trainPc (fun _ => ([], [])) []) ((span (640 * h) 640).foldl tested s)
  let clear (s : State) (r : Nat) : State :=
    if hallOfRoom r != h then s
    else
      let s := ((s.forgetRoom r).dropStalls r).modRoom r Room.cleared
      match (s.room r).member with
      | some m => s.modSuite m.suite fun x =>
          { x with holdNext := if x.mode == .simplex && !m.spare && x.holdNext = 0 then 1 else x.holdNext }
      | none => s
  let s := (s.rooms.map (·.1)).foldl clear s
  let s := State.checkRoutes (2 * h) 320 (State.checkRoutes (2 * h + 1) 320 s)
  let s := (s.suites.map (·.1)).foldl State.dropUnusable s
  let s := s.modHall h fun x =>
    { x with lost := false, stewardStopped := false
             warden := { lintelLease := s.time, lineLease := s.time }, up := { x.up with stage := 10, ended := true } }
  (s.modWarden (1 - h) fun w => { w with lintelLease := s.time, lineLease := s.time }).refresh

/-- A background self-test ends: a unit that passes returns; for a Suite's copy, whether the final pass fits (R354). -/
def State.selfTest (s : State) (u : UnitRef) (pass : Bool) (dead : List Nat) : State :=
  match u with
  | .room r =>
    if (s.room r).life != .fencedInService || !pass then s
    else State.checkRoutes (floorOf r) 320 (s.planChange true 2 r fun s => s.modRoom r fun x =>
      { x with life := .working, power := .gated, freeSince := s.time
               deadBricks := dead.foldl (fun m b => m ||| (1#256 <<< b)) x.deadBricks })
  | .router r =>
    if !(s.room r).deadRouter || !pass then s
    else State.checkRoutes (floorOf r) 320 (s.planChange true 3 r fun s =>
      (s.modRoom r ({ · with deadRouter := false })).modFloor (floorOf r) fun f => { f with lostRouters := f.lostRouters - 1 })
  | .wing h => if (s.hall h).lost && pass && !(s.hall (1 - h)).lost then s.wingBack h dead else s
  | .suiteCopy n c => s.reintegrate n c pass
  | _ => s

def execReintegrationSelfTest (u : UnitRef) (pass : Bool) (dead : List Nat) (s : State) : Host.Outcome State Fault Refusal :=
  onUnits (isUnit u) s (if s.failSilent then s else s.selfTest u pass dead)

end Sys2Proof.Machine
end

