-- ==== Sys2Proof/Machine/Power.lean ====
section
/-! DEFINITION. Power, clocks and thermal control: SLEEP and wakes (R310 to R312), the power cap (R319 to R322), current and
droop (R323, R324), temperatures (R325, R326), Settlement (R327), and the power states of Rooms (R308, R309). -/

namespace Sys2Proof.Machine

/-! ### SLEEP and wakes (R310 to R312, R326) -/

/-- The module enters SLEEP: only the Hearths keep power, with the wake settings that they watch (R310).  A source that is
pending already wakes it at once; one of the sources 1 to 3 that was observed in service may still be pending (log entry 88). -/
def State.enterSleep (s : State) (thermal : Bool) : State :=
  let seen := s.dictGet 0x2401 3 % 8 &&& s.power.wakeSeen
  let (d, s) := if seen = 0 then (0, s) else s.draw
  let t := State.rebooted { s with power := { s.power with sleepAt := s.time } } 0 1
  let t := { t with dict := s.dict, faultPin := t.faultPin || thermal, power := { t.power with st := .sleep, thermalShutdown := thermal } }
  let pending := (d &&& seen) ||| (if t.alarmDue then 8 else 0)
  if pending = 0 then t else t.wakeWith pending

/-- SLEEP request (R310, R332): 1 is the only value. -/
def actSleep (q : Chan) (v : Nat) : Act := fun s =>
  judged [must (v = 1) abRange,
      must (!(s.households.any fun e => e.2.st == .active) && s.suites.all fun e => e.2.st == .free) abState]
    ((s.reply q 0x2401 2 0 []).enterSleep false) false

def execSleepRequest (q : Chan) (s : State) : Host.Outcome State Fault Refusal :=
  onUnits (isChan q) s (s.download q 0x2401 2 [1] (actSleep q 1))

/-- A source from 1 to 3 is observed: it wakes the module from SLEEP, is added to the record of the wake of the same 40 ns, or is
remembered in service, since it may still be pending at the next SLEEP; during bring-up it is ignored (R310 to R312, R422). -/
def State.seeWake (s : State) (n : Nat) : State :=
  if s.power.st == .sleep then (if s.wakeEnabled n then s.wake n else s)
  else if !s.ready then s.joinWake n
  else
    { s with power := { s.power with wakeSeen := s.power.wakeSeen ||| 2 ^ (n - 1) } }

def execWakePin (s : State) : Host.Outcome State Fault Refusal := onUnits true s (s.seeWake 1)

def execCanWakeFrame (hall : Nat) (s : State) : Host.Outcome State Fault Refusal :=
  onUnits (isHall hall) s (s.seeWake 2)

def execPcieWake (hall : Nat) (s : State) : Host.Outcome State Fault Refusal :=
  onUnits (isHall hall) s (s.seeWake 3)

def execHearthAlarm (s : State) : Host.Outcome State Fault Refusal := onUnits true s (if s.alarmDue then s.wake 4 else s)

/-- Every reading of the junction, Hall and stack sensors, in 0.5 °C. -/
def State.dieTemps (s : State) : List Int :=
  (s.floors.flatMap fun e => e.2.stackTemp :: e.2.junctions.map (·.2)) ++ s.power.hallJunctions.map (·.2)

/-- After a thermal shutdown the module wakes once every junction and stack is below 85 °C and the inlet below 60 °C. -/
def execThermalWake (s : State) : Host.Outcome State Fault Refusal :=
  onUnits true s (if s.power.thermalShutdown && s.dieTemps.all (fun t => decide (t < 170)) && decide (s.power.inlet < 120) then s.wake 6 else s)

/-- The number of a sensor: junctions by Floor, then those of the Halls, the stacks and the inlet (log entry 88). -/
def Sensor.number : Sensor → Nat
  | .junction f k => 64 * f + k
  | .hallJunction h k => 256 + 8 * h + k
  | .stack k => 272 + k
  | .inlet => 276

/-- What a sensor reads. -/
def State.reading (s : State) (n : Nat) : Int :=
  if n < 256 then Store.get 0 (s.floor (n / 64)).junctions (n % 64)
  else if n < 272 then Store.get 0 s.power.hallJunctions (n - 256)
  else if n < 276 then (s.floor (n - 272)).stackTemp
  else s.power.inlet

/-- A sensor that calls for thermal shutdown, with its reading: a junction or stack that has stood at 115 °C or above for 10 µs, or the
inlet at 80 °C or above (R325). -/
def State.tooHot (s : State) : Option (Nat × Int) :=
  let long := s.power.hot.find? fun e => (e.2.map fun t => decide (t + 10000 ≤ s.time)).getD false
  (long.map fun e => (e.1, s.reading e.1)).orElse fun _ =>
    if 160 ≤ s.power.inlet then some (276, s.power.inlet) else none

/-- FAULT# is asserted, a record is written, and the module enters SLEEP whatever its households do (R326, R364). -/
def execThermalShutdown (s : State) : Host.Outcome State Fault Refusal :=
  onUnits true s (
    match s.tooHot with
    | none => s
    | some (sensor, t) =>
      if s.asleep then s
      else
        let detail := Config.detail sensor t.toNat
        (s.lastWord s.senior { cls := 5, code := 3, severity := 4, kind := 0, index := 0, detail, time := s.time }).enterSleep true)

/-! ### The power cap (R319 to R322) -/

/-- A measurement, every 1 µs.  Both Halls report the same figures, so that of the senior Hall, which runs the cap
controller, counts (R319). -/
def meanOf (l : List Nat) : Nat := if l.isEmpty then 0 else l.sum / l.length

def execPowerSample (hall mV mA : Nat) (s : State) : Host.Outcome State Fault Refusal :=
  onUnits (isHall hall) s (
    if s.asleep || hall != s.senior then s
    else
      let samples := (mV * mA :: s.power.samples).take 1000
      let power := { s.power with
        millivolts := mV, milliamps := mA, samples, energy := s.power.energy + mV * mA
        means10 := meanOf (samples.take 10), means1000 := meanOf samples }
      State.refresh { s with power })

/-- One step down: the clock limit, then the duty, and at the end of both CAP_UNREACHABLE, recorded when it becomes set. -/
def State.capDown (s : State) : State :=
  if 0 < s.power.clockLimit then { s with power := { s.power with clockLimit := s.power.clockLimit - 1 } }
  else if 1 < s.power.duty then { s with power := { s.power with duty := s.power.duty - 1 } }
  else if s.power.unreachable then s
  else State.report { s with power := { s.power with unreachable := true } } 5 1 2 0 0 0 s.effectiveCap

/-- One step up; CAP_UNREACHABLE no longer stands (R321). -/
def State.capUp (s : State) : State :=
  let p := { s.power with ticksSinceUp := 0, unreachable := false }
  if p.duty < 16 then { s with power := { p with duty := p.duty + 1 } }
  else if p.clockLimit < 30 then { s with power := { p with clockLimit := p.clockLimit + 1 } }
  else s

/-- The cap controller, every 10 µs; powers are compared in µW (R320). -/
def execCapTick (s : State) : Host.Outcome State Fault Refusal :=
  onUnits true s (
    if s.asleep then s
    else
      let cap := s.effectiveCap
      let s := { s with power := { s.power with ticksSinceUp := min 10 (s.power.ticksSinceUp + 1) } }
      let w := 1000000
      let s :=
        if 5 * cap * w < 4 * s.power.means10 then iterate (fun _ s => s.capDown) 4 s
        else if cap * w < s.power.means1000 then s.capDown
        else if 50 * s.power.means1000 + max 250 cap * w < 50 * cap * w && 10 ≤ s.power.ticksSinceUp then s.capUp
        else s
      s.refresh)

/-- POWER_BRAKE limits every Floor to BRAKE_CLOCK; without power nothing follows the pin (R307, R322, R331). -/
def execPowerBrakeAssert (s : State) : Host.Outcome State Fault Refusal :=
  onUnits true s (
    let s : State := { s with power := { s.power with brakePin := true } }
    if s.asleep then s else s.refresh)

/-- Once no brake holds, the clock limit climbs back from BRAKE_CLOCK (R322). -/
def State.fromBrake (s : State) : State :=
  if s.braked then s.refresh
  else State.refresh { s with power := { s.power with clockLimit := min s.power.clockLimit (s.dictGet 0x2401 5) } }

def execPowerBrakeRelease (s : State) : Host.Outcome State Fault Refusal :=
  onUnits true s (
    let t : State := { s with power := { s.power with brakePin := false } }
    if !s.power.brakePin then s else if s.asleep then t else t.fromBrake)

/-- The brown-out band after READY acts as POWER_BRAKE (R424). -/
def execBrownOut (enter : Bool) (s : State) : Host.Outcome State Fault Refusal :=
  onUnits true s (
    if s.asleep || !s.ready || enter == s.power.brownOut then s
    else if enter then State.refresh { s with power := { s.power with brownOut := true } }
    else State.fromBrake { s with power := { s.power with brownOut := false } })

/-! ### Current and droop (R323, R324) -/

/-- A current measurement of a Floor in 0.1 A: the highest value of the last µs and the mean over 1 ms (R323, log entry
44). -/
def Floor.current (x : Floor) (now peak mean : Nat) : Floor :=
  let high := if x.phaseLost then 950 else 1100
  let low := if x.phaseLost then 950 else 1050
  let over' := if high < mean then true else if mean < low then false else x.currentOver
  let x := { x with railMean := mean, currentOver := over', halfDutyUntil := if 1800 < peak then now + 10000 else x.halfDutyUntil }
  if over' && 0 < x.currentLimit && x.currentMoved + 10000 ≤ now then { x with currentLimit := x.currentLimit - 1, currentMoved := now }
  else if !over' && x.currentLimit < 30 && x.currentMoved + 100000 ≤ now then
    { x with currentLimit := x.currentLimit + 1, currentMoved := now }
  else x

def execCurrentSample (floor peak mean : Nat) (s : State) : Host.Outcome State Fault Refusal :=
  onUnits (isFloor floor) s (if s.asleep then s else (s.modFloor floor (·.current s.time peak mean)).refresh)

/-- The phase that a record names is free: the command does not say which was lost (R323, R358). -/
def execPhaseLoss (floor : Nat) (s : State) : Host.Outcome State Fault Refusal :=
  onUnits (isFloor floor) s (
    if s.asleep || (s.floor floor).phaseLost then s
    else
      let (d, s) := s.draw
      ((s.modFloor floor ({ · with phaseLost := true })).report 5 4 2 5 floor 0 (Config.detail floor d)))

def execPhaseRestore (floor : Nat) (s : State) : Host.Outcome State Fault Refusal :=
  onUnits (isFloor floor) s (if s.asleep then s else s.modFloor floor ({ · with phaseLost := false }))

/-- A droop stretches the Room's clock; it counts on its Floor and marks the Room's Course (R324, R338). -/
def execDroopDetect (r : Nat) (s : State) : Host.Outcome State Fault Refusal :=
  onUnits (isRoom r) s (
    let x := s.room r
    if s.asleep || x.stretched || x.power == .doze || x.power == .fenced then s
    else
      let s := s.modRoom r fun x => { x with stretched := true, marks := if (s.stepOf r).isSome then x.marks ++ [x.course.ordinal] else x.marks }
      (s.bump (0x2420 + floorOf r) 7 32).refresh)

def execDroopRelease (r : Nat) (s : State) : Host.Outcome State Fault Refusal :=
  onUnits (isRoom r) s (if (s.room r).stretched then (s.modRoom r ({ · with stretched := false })).refresh else s)

/-! ### Temperatures (R325, R157) -/

/-- The thermal limit of a Floor: at 105 °C the lowest clock at once; from 100 °C one step down every 100 µs; below 97 °C
everywhere, one step up every 1 ms. -/
def Floor.thermal (x : Floor) (now : Nat) : Floor :=
  let temps := x.junctions.map (·.2)
  if temps.any fun t => decide (210 ≤ t) then { x with thermalLimit := 0, thermalMoved := now }
  else if temps.any fun t => decide (200 ≤ t) then
    if 0 < x.thermalLimit && x.thermalMoved + 100000 ≤ now then { x with thermalLimit := x.thermalLimit - 1, thermalMoved := now } else x
  else if (temps.all fun t => decide (t < 194)) && x.thermalLimit < 30 && x.thermalMoved + 1000000 ≤ now then
    { x with thermalLimit := x.thermalLimit + 1, thermalMoved := now }
  else x

/-- The HBM level of a stack, cleared 3 °C below its threshold, and its refresh multiplier. -/
def hbmLevelOf (old : Nat) (t : Int) : Nat :=
  if 210 ≤ t || (old = 2 && 204 < t) then 2 else if 190 ≤ t || (1 ≤ old && 184 < t) then 1 else 0
def Floor.stack (x : Floor) (t : Int) : Floor :=
  { x with stackTemp := t, hbmLevel := hbmLevelOf x.hbmLevel t
           refresh := if 170 < t then 2 else if t < 164 then 1 else x.refresh }

/-- Since when a junction or a stack has stood at 115 °C or above (R325). -/
def Power.noteHot (p : Power) (sensor : Sensor) (half : Int) (now : Nat) : Power :=
  match sensor with
  | .inlet => p
  | _ => { p with hot := Store.modify none p.hot (Sensor.number sensor) fun x => if 230 ≤ half then some (x.getD now) else none }

def execThermalSensorChange (sensor : Sensor) (half : Int) (s : State) : Host.Outcome State Fault Refusal :=
  onUnits (isSensor sensor) s (
    let s := match sensor with
      | .junction f k => s.modFloor f fun x => { x with junctions := Store.set 0 x.junctions k half }
      | .hallJunction h k => { s with power := { s.power with hallJunctions := Store.set 0 s.power.hallJunctions (8 * h + k) half } }
      | .stack k => s.modFloor k ({ · with stackTemp := half })
      | .inlet => { s with power := { s.power with inlet := half } }
    let s : State := { s with power := s.power.noteHot sensor half s.time }
    if s.asleep then s
    else
      let s := match sensor with
        | .stack k => s.modFloor k (·.stack half)
        | .junction f _ => s.modFloor f (·.thermal s.time)
        | _ => s
      s.refresh)

/-! ### Settlement (R327) -/

/-- The worst Room margin of a Floor, in ps, and whether it is short of its target. -/
def execSettlementMeasure (floor worst : Nat) (short : Bool) (s : State) : Host.Outcome State Fault Refusal :=
  onUnits (isFloor floor) s (
    let x := s.floor floor
    if s.asleep then s
    else
      let s := s.modFloor floor ({ · with worstMargin := worst })
      let settled := (x.offsetRaised.map fun t => decide (t + 10000000000 ≤ s.time)).getD true
      if !short then s
      else if x.offset < 60 then
        if settled then s.modFloor floor fun x => { x with offset := min 60 (x.offset + 5), offsetRaised := some s.time } else s
      else
        ((s.modFloor floor fun x => { x with ageingLimit := x.ageingLimit - 1 }).report 5 2 2 5 floor 0 (Config.detail floor x.offset)).refresh)

/-! ### Power states of a Room (R308, R309) -/

/-- A free Room is put into DOZE: it has been free for DOZE_DELAY and no change has reserved it. -/
def execRoomDozeEntry (r : Nat) (s : State) : Host.Outcome State Fault Refusal :=
  onUnits (isRoom r) s (
    let x := s.room r
    if s.asleep || !s.ready || !x.isFree || !(x.power == .clocked || x.power == .gated) ||
        s.time < x.freeSince + 1000 * s.dictGet 0x2401 7 then s
    else s.modRoom r fun x => { x.cleared with power := .doze })

/-- A Room with nothing to do has its clock gated. -/
def Room.atRest (x : Room) : Bool :=
  x.dma.isEmpty && x.gutter.isEmpty && !x.micro.active && x.cache.miss.isNone && !x.loading && !x.joining &&
    match x.foreman.run with
    | .idle => true
    | .committed => true
    | .faulted _ => true
    | .failed => true
    | _ => false

def execRoomClockGate (r : Nat) (s : State) : Host.Outcome State Fault Refusal :=
  onUnits (isRoom r) s (if (s.room r).power == .clocked && (s.room r).atRest then s.modRoom r ({ · with power := .gated }) else s)

end Sys2Proof.Machine
end

