-- ==== Sys2Proof/Machine/Security.lean ====
section
/-! DEFINITION. Security and life cycle: the OTP (R380 to R382), Open House (R385, R386), SPDM (R395, R396), Latchkey (R398
to R400) and BLOB_DECRYPT (R401, R402).  The algorithms of other standards are constants of `Config`. -/

namespace Sys2Proof.Machine

/-! ### OTP fields (R380, R381) -/

/-- How a field of n bits, k of which are 1, reads. -/
inductive Fuse where
  | programmed | blank | invalid
deriving DecidableEq, Repr

def fuseOf (n k : Nat) : Fuse := if 3 * n ≤ 4 * k then .programmed else if 4 * k ≤ n then .blank else .invalid

/-- Open House tokens remaining: those that are not programmed and not invalid (R380). -/
def State.tokensLeft (s : State) : Nat := countIf (fun k => fuseOf 4 k == .blank) s.security.tokens

/-- The life-cycle code that the fields give, and the number of the field that makes it INVALID (R381). -/
def Security.readLife (x : Security) : Nat × Option Nat :=
  let a := fuseOf 8 x.lcTest
  let b := fuseOf 8 x.lcSealed
  let c := fuseOf 8 x.lcRetired
  if a == .invalid then (0xFF, some 0)
  else if b == .invalid then (0xFF, some 1)
  else if c == .invalid then (0xFF, some 2)
  else if b == .programmed && a == .blank then (0xFF, some 1)
  else if c == .programmed && (a == .blank || b == .blank) then (0xFF, some 2)
  else (if c == .programmed then 3 else if b == .programmed then 2 else if a == .programmed then 1 else 0, none)

/-- Key operations are permitted in TEST and SEALED, outside an Open House session (R383). -/
def State.keysPermitted (s : State) : Bool :=
  (s.security.lifecycle = 1 || s.security.lifecycle = 2) && !s.security.openHouse

/-- The key that verifies the boot script and LC_ADVANCE; none in RETIRED (R383). -/
def State.trustKey (s : State) : Option (List Byte) :=
  if s.security.lifecycle = 0 then some (Config.romKey 0)
  else if s.security.lifecycle = 1 then some (Config.romKey 1)
  else if s.security.lifecycle = 2 then some (Config.rootKey s.security.rootHash)
  else none

/-- A failed authentication writes a SECURITY record, and its transfer is answered with NOT_PERMITTED (R407, R408). -/
def State.authFail (s : State) (q : Chan) (i sub hh : Nat) : State :=
  (s.report 10 7 2 0 0 hh (sub + hh * 256)).refuse q i sub abNotPermitted

/-! ### LC_ADVANCE (R382) -/

/-- Program the fields of the next state. -/
def State.advanceLife (s : State) (target : Nat) (token : List Byte) : State :=
  let x := s.security
  if target = 1 then { s with security := { x with lcTest := 8 } }
  else if target = 2 then
    let (n, s) := s.draw
    let secret := Config.random n 34
    { s with security := { x with lcSealed := 8, secret, rootHash := (token.drop 32).take 48, identity := Config.identityOf secret } }
  else { s with security := { x with lcRetired := 8, secret := List.replicate 34 0xFF } }

def actLcAdvance (q : Chan) (b : List Byte) : Act := fun s =>
  let target := fieldOf b 1 1
  let key := s.trustKey
  let serial := decide ((b.drop 4).take 16 = s.security.serial)
  let signed := (key.map fun k => Config.ecdsaVerify k (b.take 80) (b.drop 80)).getD false
  if s.security.alarm then .error abNotPermitted
  else if !serial || !signed then .ok (s.authFail q 0x5401 2 0, false)
  else match firstFault [must (fieldOf b 0 1 = 1) abRange, must (target = s.security.lifecycle + 1 && decide (target ≤ 3)) abRange,
      must (!s.security.openHouse) abState] with
  | some c => .error c
  | none =>
    let s := (s.advanceLife target b).report 10 3 0 0 0 0 target
    .ok ({ s with security := { s.security with resetAt := some (s.time + 1000000) } }, true)

def execLcAdvance (q : Chan) (data : List Byte) (s : State) : Host.Outcome State Fault Refusal :=
  onUnits (isChan q) s (s.download q 0x5401 2 data (actLcAdvance q data))

/-- The module reset 1 ms after an accepted advance. -/
def execLcAdvanceReset (s : State) : Host.Outcome State Fault Refusal :=
  onUnits true s (
    match s.security.resetAt with
    | some t => if s.time < t || s.asleep then s else s.moduleRung 3
    | none => s)

/-! ### Open House (R385, R386) -/

/-- A fresh challenge (R385). -/
def State.freshChallenge (s : State) : State :=
  let (n, s) := s.draw
  { s with security := { s.security with challenge := some (Config.random n 32 ++ s.security.serial, s.time) } }

/-- The challenge as it reads. -/
def State.challengeBytes (s : State) : List Byte := (s.security.challenge.map (·.1)).getD (List.replicate 48 0)

/-- Reading the challenge makes a fresh one (R385); the alarm refuses it (R406). -/
def execOpenHouseChallenge (q : Chan) (s : State) : Host.Outcome State Fault Refusal :=
  onUnits (isChan q) s (
    if s.asleep || s.chanDead q then s
    else match s.gate q 0x5402 3 false with
    | some c => s.refuse q 0x5402 3 c
    | none =>
      if s.security.alarm then s.refuse q 0x5402 3 abNotPermitted
      else s.freshChallenge.reply q 0x5402 3 0 s.freshChallenge.challengeBytes)

/-- A challenge expires 60 s after it was read. -/
def State.challengeOld (s : State) : Bool :=
  match s.security.challenge with
  | some (_, t) => decide (t + 60000000000 ≤ s.time)
  | none => true

def execChallengeExpiry (s : State) : Host.Outcome State Fault Refusal :=
  onUnits true s (if s.challengeOld then { s with security := { s.security with challenge := none } } else s)

/-- Spend the lowest token that is left. -/
def spendToken : List Nat → List Nat
  | [] => []
  | k :: l => if fuseOf 4 k == .blank then 4 :: l else k :: spendToken l

def actOpenHouse (q : Chan) (b : List Byte) : Act := fun s =>
  let x := s.security
  let signed := match x.challenge with
    | some (c, _) => !s.challengeOld && Config.ecdsaVerify (Config.rootKey x.rootHash) c b
    | none => false
  let safety := s.households.any fun e => e.2.st == .active && s.envFlag e.1 0
  if x.lifecycle != 2 || x.openHouse || x.alarm || !bitOf s.policy 1 then .error abNotPermitted
  else if !signed then .ok (s.authFail q 0x5402 4 0, false)
  else match firstFault [must (0 < s.tokensLeft) abState, must (!safety) abState] with
  | some c => .error c
  | none =>
    let s := { s with security := { x with tokens := spendToken x.tokens, openHouse := true, challenge := none } }
    let s := { s with households := Store.mapValues {} (fun h => { h with latch := none }) s.households }
    .ok (s.report 10 5 2 0 0 0 s.tokensLeft, true)

def execOpenHouseResponse (q : Chan) (data : List Byte) (s : State) : Host.Outcome State Fault Refusal :=
  onUnits (isChan q) s (s.download q 0x5402 4 data (actOpenHouse q data))

/-! ### SPDM (R395, R396) -/

def spdmError : Nat := 0
/-- Whether a certificate slot is served in the life-cycle state (R383, R384). -/
def State.spdmSlot (s : State) (slot : Nat) : Bool :=
  let x := s.security
  if slot = 0 then x.lifecycle = 2 && !x.openHouse && x.chainMatches
  else slot = 1 && (x.lifecycle = 1 || (x.lifecycle = 2 && x.openHouse))
def State.spdmChain (s : State) (slot : Nat) : List Byte :=
  if !s.spdmSlot slot then [] else if slot = 0 then s.security.certificate else Config.testChain s.security.serial

/-- The inventory log as bytes (R397). -/
def InventoryEntry.bytes (e : InventoryEntry) : List Byte :=
  leBytes 1 1 ++ leBytes 1 e.kind ++ leBytes 1 e.suite ++ leBytes 1 0 ++ leBytes 4 e.seen ++ leBytes 8 e.first ++ e.digest

/-- The flags of measurement 3 and of every Deed. -/
def State.deedFlags (s : State) : List Byte :=
  let bit (b : Bool) (k : Nat) := if b then 2 ^ k else 0
  leBytes 1 s.security.lifecycle ++ leBytes 1 (bit s.security.openHouse 0 + bit s.security.tamperSeen 1 + bit s.security.alarm 2) ++
    leBytes 1 s.tokensLeft ++ leBytes 5 0

/-- The household of an SPDM requester, when it comes through the dictionary as a household (R395, R396). -/
def spdmHouse : SpdmVia → Option Nat
  | .doe _ => none
  | .dict _ hh => if hh = 0 then none else some hh

/-- A measurement, when the requester may have it (R396). -/
def State.measurement (s : State) (via : SpdmVia) (index : Nat) : Option (List Byte) :=
  if index = 1 then some s.security.scriptDigest
  else if index = 2 then some s.security.keystoneDigest
  else if index = 3 then some s.deedFlags
  else match spdmHouse via with
  | none => none
  | some hh =>
    let h := s.house hh
    if index = 4 then some h.programChain
    else if index = 5 then some h.blobChain
    else if index = 6 then some (h.log.flatMap InventoryEntry.bytes)
    else none

/-- Send an SPDM response: on the DOE mailbox, or as SPDM_RESPONSE with the answer to the transfer (R293, R395). -/
def State.spdmAnswer (s : State) (via : SpdmVia) (body : List Byte) : State :=
  match via with
  | .doe _ => s.emit (.spdm via body)
  | .dict q hh => (s.modHouse hh ({ · with spdmResponse := body })).reply q (0x5500 + hh) 0x10 0 []

/-- Serve an SPDM request: through the DOE mailbox of a Hall whose link is up, or as a download of SPDM_REQUEST. -/
def State.spdm (s : State) (via : SpdmVia) (request : List Byte) (serve : State → List Byte × State) : State :=
  let act : Act := fun s => let r := serve s; .ok (r.2.spdmAnswer via r.1, false)
  if s.asleep then s
  else match via with
  | .doe h =>
    if s.failSilent || !s.hostLink h then s
    else let r := serve s; r.2.spdmAnswer via r.1
  | .dict q hh => s.download q (0x5500 + hh) 0x10 request act

/-- The versions that are served after GET_VERSION: 1.2 and 1.3. -/
def spdmKnown (version : Byte) : Bool := version == 0x12 || version == 0x13

def errorBody (version : Byte) : List Byte := Config.spdmBody spdmError version.toNat [0x07]

/-- A response that needs a known version. -/
def State.versioned (version : Byte) (f : State → List Byte × State) (s : State) : List Byte × State :=
  if spdmKnown version then f s else (errorBody version, s)

def execGetVersion (via : SpdmVia) (version : Byte) (s : State) : Host.Outcome State Fault Refusal :=
  onUnits (isVia via) s (s.spdm via [version] fun s => (Config.spdmBody 1 version.toNat [0x12, 0x13], s))

def execGetCapabilities (via : SpdmVia) (version : Byte) (s : State) : Host.Outcome State Fault Refusal :=
  onUnits (isVia via) s (s.spdm via [version] (State.versioned version fun s => (Config.spdmBody 2 version.toNat [], s)))

def execNegotiateAlgorithms (via : SpdmVia) (version : Byte) (s : State) : Host.Outcome State Fault Refusal :=
  onUnits (isVia via) s (s.spdm via [version] (State.versioned version fun s => (Config.spdmBody 3 version.toNat [], s)))

/-- The digests of the chains that are served. -/
def execGetDigests (via : SpdmVia) (version : Byte) (s : State) : Host.Outcome State Fault Refusal :=
  onUnits (isVia via) s (s.spdm via [version] (State.versioned version fun s =>
    (Config.spdmBody 4 version.toNat (([0, 1].filter s.spdmSlot).flatMap fun k => BitVec.ofNat 8 k :: Config.sha384 (s.spdmChain k)), s)))

/-- A part of the chain of a slot. -/
def execGetCertificate (via : SpdmVia) (version : Byte) (slot offset len : Nat) (s : State) : Host.Outcome State Fault Refusal :=
  onUnits (isVia via) s (s.spdm via [version] (State.versioned version fun s =>
    if s.spdmSlot slot then
      (Config.spdmBody 5 version.toNat (leBytes 1 slot ++ (((s.spdmChain slot).drop offset).take len)), s)
    else (errorBody version, s)))

/-- A signed response of the identity of a slot. -/
def State.signed (slot kind : Nat) (version : Byte) (params : List Byte) (s : State) : List Byte × State :=
  let (n, s) := s.draw
  let body := params ++ Config.random n 32
  (Config.spdmBody kind version.toNat (body ++ Config.ecdsaSign slot body n), s)

/-- CHALLENGE_AUTH with the flags that every Deed reports. -/
def execChallenge (via : SpdmVia) (version : Byte) (slot : Nat) (nonce : List Byte) (s : State) : Host.Outcome State Fault Refusal :=
  onUnits (isVia via) s (s.spdm via [version] (State.versioned version fun s =>
    if s.spdmSlot slot then
      State.signed slot 6 version (leBytes 1 slot ++ nonce ++ Config.sha384 (s.spdmChain slot) ++ s.deedFlags) s
    else (errorBody version, s)))

/-- The measurements that a request names: one index, or 0xFF for every one that the requester may have. -/
def State.measured (s : State) (via : SpdmVia) (index : Nat) : List Byte :=
  let l := if index = 0xFF then span 1 6 else [index]
  l.flatMap fun k => match s.measurement via k with | some b => leBytes 1 k ++ leBytes 2 b.length ++ b | none => []

def execGetMeasurements (via : SpdmVia) (version : Byte) (index slot : Nat) (nonce : List Byte) (s : State) :
    Host.Outcome State Fault Refusal :=
  onUnits (isVia via) s (s.spdm via [version] (State.versioned version fun s =>
    let known := index = 0xFF || (s.measurement via index).isSome
    if s.spdmSlot slot && known then State.signed slot 7 version (leBytes 1 slot ++ nonce ++ s.measured via index ++ s.deedFlags) s
    else (errorBody version, s)))

/-! ### Latchkey (R398 to R400) -/

/-- Whether a slot is the household's and of a kind that holds keys (R390, R399). -/
def State.ownsSlot (s : State) (hh slot : Nat) : Bool := decide (slot < 64) && s.slotKind slot != 0 && s.slotKind slot != 3 && s.slotHouse slot == hh

/-- The offer (R398). -/
def State.latchOffer (s : State) (hh slot number n : Nat) (nonce : List Byte) : List Byte :=
  let h := s.house hh
  let body := leBytes 1 1 ++ leBytes 1 slot ++ leBytes 1 hh ++ leBytes 1 s.security.lifecycle ++ leBytes 4 number ++ nonce ++
    Config.random n 32 ++ h.programChain ++ h.blobChain ++ s.security.keystoneDigest ++ s.security.scriptDigest ++
    Config.kemPublic number ++ Config.ecdhPublic number ++ leBytes 7 0
  body ++ Config.ecdsaSign (if s.security.lifecycle = 2 then 0 else 1) body n

def actLatchOpen (hh : Nat) (b : List Byte) : Act := fun s =>
  let slot := fieldOf b 0 1
  judged [must (!s.security.alarm) abNotPermitted, must (s.ownsSlot hh slot) abNotPermitted, s.awake hh, must s.keysPermitted abState]
    (let number := s.security.sessions + 1
     let (n, s) := s.draw
     let offer := s.latchOffer hh slot number n (b.drop 1)
     let h := s.house hh
     let latch : LatchSession :=
       { number, opened := s.time, slot, offer, programChain := h.programChain, blobChain := h.blobChain, lifecycle := s.security.lifecycle }
     State.modHouse { s with security := { s.security with sessions := number } } hh ({ · with latch := some latch, latchOffer := offer }))

def execLatchOpen (q : Chan) (hh : Nat) (data : List Byte) (s : State) : Host.Outcome State Fault Refusal :=
  onUnits (isChan q && isHousehold hh) s (s.download q (0x5500 + hh) 0x20 data (actLatchOpen hh data))

/-- The session that a release names is open, young, and nothing it offered has changed (R399). -/
def State.latchStands (s : State) (hh : Nat) (b : List Byte) (l : LatchSession) : Bool :=
  l.number % 2 ^ 32 == fieldOf b 4 4 && decide (s.time ≤ l.opened + 10000000000) && s.ownsSlot hh l.slot &&
    l.programChain == (s.house hh).programChain && l.blobChain == (s.house hh).blobChain &&
    l.lifecycle == s.security.lifecycle && !s.security.alarm && s.keysPermitted

/-- The key that a release carries; none when decapsulation or the tag fails. -/
def latchKey (hh : Nat) (b : List Byte) (l : LatchSession) : Option (List Byte) :=
  let info : List Byte := [0x6C, 0x61, 0x74, 0x63, 0x68, 0x6B, 0x65, 0x79] ++ leBytes 1 l.slot ++ leBytes 1 hh
  match Config.latchKek l.number l.offer ((b.drop 8).take 1568) ((b.drop 1576).take 97) info with
  | some kek => Config.gcmOpen kek ((b.drop 1680).take 12) ((b.drop 4).take 4) ((b.drop 1692).take 32) ((b.drop 1724).take 16)
  | none => none

def actLatchRelease (q : Chan) (hh : Nat) (b : List Byte) : Act := fun s =>
  let close (s : State) : State := s.modHouse hh ({ · with latch := none })
  match (s.house hh).latch with
  | none => .error abNotPermitted
  | some l =>
    if !s.latchStands hh b l then .ok ((close s).refuse q (0x5500 + hh) 0x22 abNotPermitted, false)
    else match latchKey hh b l with
    | none => .ok ((close s).authFail q (0x5500 + hh) 0x22 hh, false)
    | some key =>
      if fieldOf b 0 1 != 1 then .error abRange else
      let s := { s with security := { s.security with keys := Store.set none s.security.keys l.slot (some key) } }
      .ok ((close s).report 10 8 0 0 0 hh (Config.detail l.slot hh), true)

def execLatchRelease (q : Chan) (hh : Nat) (data : List Byte) (s : State) : Host.Outcome State Fault Refusal :=
  onUnits (isChan q && isHousehold hh) s (s.download q (0x5500 + hh) 0x22 data (actLatchRelease q hh data))

def actSlotClear (hh slot : Nat) : Act := fun s =>
  judged [must (s.ownsSlot hh slot) abNotPermitted, s.awake hh] (s.clearSlot slot)

def execSlotClear (q : Chan) (hh : Nat) (slot : Byte) (s : State) : Host.Outcome State Fault Refusal :=
  onUnits (isChan q && isHousehold hh) s (s.download q (0x5500 + hh) 0x23 [slot] (actSlotClear hh slot.toNat))

/-! ### BLOB_DECRYPT (R401, R402) -/

def State.slotKey (s : State) (slot : Nat) : Option (List Byte) := Store.get none s.security.keys slot

def actBlobDecrypt (q : Chan) (hh : Nat) (b : List Byte) : Act := fun s =>
  let slot := fieldOf b 1 1
  let length := fieldOf b 4 4
  let src := fieldOf b 8 8
  let dst := fieldOf b 16 8
  let apart := decide (src + length + 80 ≤ dst) || decide (dst + length ≤ src)
  judged [must (!s.security.alarm) abNotPermitted, must (s.holds hh src (length + 80) && s.holds hh dst (max 1 length)) abNotPermitted,
      must (s.ownsSlot hh slot && s.slotKind slot == 1) abNotPermitted, must (fieldOf b 0 1 = 1) abRange,
      must (length % 64 = 0 && src % 64 = 0 && dst % 4096 = 0 && apart) abRange, s.awake hh, must s.keysPermitted abState,
      must (s.slotKey slot).isSome abState, must (s.house hh).blob.isNone abState]
    (s.modHouse hh ({ · with blob := some { slot, length, src, dst, requester := q }, blobStatus := 0x01100000 })) false

def execBlobDecrypt (q : Chan) (hh : Nat) (data : List Byte) (s : State) : Host.Outcome State Fault Refusal :=
  onUnits (isChan q && isHousehold hh) s (s.download q (0x5500 + hh) 0x30 data (actBlobDecrypt q hh data))

/-- Wash the destination of a decrypt. -/
def State.washBlob (s : State) (b : BlobJob) : State := (s.hbmWrite b.dst (List.replicate b.length 0)).1

/-- The plaintext of a blob: its header is legal and its tag holds (R401). -/
def State.openBlob (s : State) (b : BlobJob) (key : List Byte) : Option (List Byte) :=
  let header := s.hbmRead b.src 64
  let legal := fieldOf header 0 1 = 1 && fieldOf header 1 1 = 1 && fieldOf header 16 4 = b.length
  if legal then
    Config.gcmOpen key ((header.drop 4).take 12) header (s.hbmRead (b.src + 64) b.length) (s.hbmRead (b.src + 64 + b.length) 16)
  else none

/-- A decrypt ends: DST is written and PROTECTED and the blob is logged, or DST is washed (R397, R401, R402, R408). -/
def State.blobDone (s : State) (hh : Nat) (b : BlobJob) : State :=
  let answer (s : State) (code status : Nat) : State :=
    let s := s.modHouse hh ({ · with blob := none, blobStatus := BitVec.ofNat 32 status })
    if code = 0 then s.reply b.requester (0x5500 + hh) 0x30 0 [] else s.refuse b.requester (0x5500 + hh) 0x30 code
  let s := (s.copyMove b.src (b.length + 80) false).copyMove b.dst b.length true
  if s.poisonedAt b.src (b.length + 80) then answer (s.washBlob b) abState 0x01330000
  else match (s.slotKey b.slot).bind (s.openBlob b) with
  | some plain =>
    let whole := s.hbmRead b.src (b.length + 80)
    let (s, ok) := s.hbmWrite b.dst (plain.take b.length)
    if !ok then answer s abState 0x01330000
    else
      let pages := if b.length = 0 then [] else span (b.dst / 4096) (ceilDiv b.length 4096)
      let s := pages.foldl (fun s p => s.modPage p ({ · with isProtected := true })) s
      let s := s.modHouse hh (·.inventory 2 0 s.time (Config.sha384 whole))
      answer s 0 0x01200000
  | none => answer ((s.washBlob b).report 10 9 2 0 0 hh (Config.detail b.slot hh)) abNotPermitted 0x01310000

def execBlobDecryptDone (hh : Nat) (s : State) : Host.Outcome State Fault Refusal :=
  onUnits (isHousehold hh) s (
    match (s.house hh).blob with
    | some b => if s.failSilent then s else s.blobDone hh b
    | none => s)

end Sys2Proof.Machine
end

