-- ==== Sys2Proof/Machine/Migration.lean ====
section
/-! DEFINITION. Migration: the image of a household (R279), SAVE and RESTORE with their ends (R279, R280, R403, R405).  The
places of the fields inside Suite and context records are a choice (log entry 51). -/

namespace Sys2Proof.Machine

/-! ### The image (R279) -/

def modeCode : Mode → Nat
  | .simplex => 0
  | .duplex => 1
  | .paired => 2

/-- Context STATE as R201 codes it. -/
def ctxCode : CtxState → Nat
  | .opened => 1
  | .faulted => 2
  | .frozen => 3
  | .closing => 4
def ctxStateOf (v : Nat) : CtxState := if v = 2 then .faulted else if v = 3 then .frozen else if v = 4 then .closing else .opened

def queueCode : QueueState → Nat
  | .closed => 0
  | .opened => 1
  | .closing => 2
def queueStateOf (v : Nat) : QueueState := if v = 1 then .opened else if v = 2 then .closing else .closed

/-- A queue record (R206). -/
def Queue.record (q : Queue) : List Byte :=
  leBytes 1 1 ++ leBytes 1 (queueCode q.st) ++ leBytes 6 0 ++ leBytes 8 q.value.toNat ++ leBytes 4 q.head.toNat ++
    leBytes 4 q.tail.toNat ++ leBytes 8 q.lastCommit

/-- A 64-byte Suite record. -/
def Suite.record (x : Suite) : List Byte :=
  leBytes 1 (modeCode x.mode) ++ leBytes 1 0 ++ leBytes 2 x.lanes ++ leBytes 1 x.share ++ leBytes 1 x.cache ++
    leBytes 1 (if x.deterministic then 1 else 0) ++ leBytes 1 0 ++ leBytes 2 x.slice ++ leBytes 6 0 ++ leBytes 8 x.dmaReg.toNat ++
    leBytes 8 x.cacheReg.toNat ++ leBytes 2 x.rooms.length ++ leBytes 30 0

/-- A 1,024-byte context record; `k` is its image Suite index. -/
def Context.record (c : Context) (k : Nat) : List Byte :=
  leBytes 2 k ++ leBytes 1 c.home ++ leBytes 1 (ctxCode (if c.st == .frozen then c.before else c.st)) ++ leBytes 4 c.pasid ++
    leBytes 8 c.fault.toNat ++ leBytes 4 c.vectors ++ leBytes 4 c.ladderEntries ++ leBytes 8 c.ladderBase ++
    leBytes 4 c.gutterTrees ++ leBytes 4 0 ++ leBytes 8 c.gutterBase ++ leBytes 8 c.committed ++ leBytes 8 c.killed ++
    ((List.range 16).flatMap fun q => (c.queue q).record ++ leBytes 8 (c.queue q).vt) ++ leBytes 320 0

/-- Bytes of Pantry scratch of a Room of the Suite (R110). -/
def Suite.scratch (x : Suite) : Nat := 1048576 - 65536 * x.cache

/-- A Room record: Pantry scratch, then the Hods of lanes 0 to L − 1. -/
def Suite.roomRecord (x : Suite) (r : Room) : List Byte :=
  Store.range 0 r.pantry 0 x.scratch ++ (List.range x.lanes).flatMap fun l => Store.range 0 (r.brick l).hod 0 12288

def Suite.roomRecordBytes (x : Suite) : Nat := x.scratch + x.lanes * 12288

/-- Suites and contexts of a household in ascending number. -/
def State.imageSuites (s : State) (hh : Nat) : List Nat := (List.range 256).filter fun n => (s.suite n).st != .free && (s.suite n).owner == hh
def State.imageContexts (s : State) (hh : Nat) : List Nat := (s.contexts.filter fun e => (e.2.map (·.household)) == some hh).map (·.1)

/-- Bytes of the image that SAVE would write now (0x3000 + household, subindex 0x64). -/
def State.imageBytes (s : State) (hh : Nat) : Nat :=
  64 + 64 * (s.imageSuites hh).length + 1024 * (s.imageContexts hh).length +
    ((s.imageSuites hh).map fun n => (s.suite n).rooms.length * (s.suite n).roomRecordBytes).sum + 16

/-- The plaintext of an image: Suite, context and Room records. -/
def State.imageBody (s : State) (hh : Nat) : List Byte :=
  let suites := s.imageSuites hh
  (suites.flatMap fun n => (s.suite n).record) ++
    ((s.imageContexts hh).flatMap fun c =>
      match s.ctx? c with
      | some x => x.record (suites.idxOf x.suite)
      | none => []) ++
    suites.flatMap fun n => ((s.suite n).members 0).flatMap fun r => (s.suite n).roomRecord (s.room r)

/-- The header of an image, which is its additional data. -/
def State.imageHeader (s : State) (hh : Nat) (nonce : List Byte) : List Byte :=
  leBytes 1 1 ++ leBytes 1 1 ++ leBytes 2 (s.imageSuites hh).length ++ leBytes 2 (s.imageContexts hh).length ++ leBytes 2 0 ++
    leBytes 8 (s.imageBytes hh) ++ s.security.serial ++ leBytes 8 s.time ++ nonce ++ leBytes 12 0

/-- The household's MIGRATION slot (R390, R391, R403). -/
def State.migrationSlot (s : State) (hh : Nat) : Option Nat := (s.slotsOf hh).find? fun k => s.slotKind k == 2
def State.migrationKey (s : State) (hh : Nat) : Option (List Byte) := (s.migrationSlot hh).bind s.slotKey

def imageAddr (w : W64) : Nat := w.toNat / 4096 * 4096
def imageHall (w : W64) : Nat := bitsOf w.toNat 4 4

/-- The job of a household ends with a MIGRATION word. -/
def State.migrated (s : State) (hh : Nat) (word : W32) : State := s.modHouse hh ({ · with image := none, migration := word })

/-! ### SAVE (R279, R403) -/

def actSave (hh : Nat) (w : W64) : Act := fun s =>
  judged [must (!s.security.alarm) abNotPermitted, must ((s.house hh).st == .frozen && (s.house hh).image.isNone) abState,
      must (s.keysPermitted && (s.migrationKey hh).isSome) abState]
    (s.modHouse hh ({ · with image := some (w, true), migration := migrationWord 1 0 0 }))

/-- SAVE is accepted; the image is written when the job ends (R280). -/
def execSave (q : Chan) (hh : Nat) (w : W64) (s : State) : Host.Outcome State Fault Refusal :=
  onUnits (isChan q && isHousehold hh) s (s.download q (0x3000 + hh) 0x61 (leBytes 8 w.toNat) (actSave hh w))

/-- The image is sealed and written without a PASID through the host port that the request names. -/
def State.saveImage (s : State) (hh : Nat) (w : W64) : State :=
  match s.migrationKey hh with
  | none => s.migrated hh (migrationWord 5 5 0)
  | some key =>
    if (s.house hh).st != .frozen then s.migrated hh (migrationWord 5 1 0)
    else if !s.hostLink (imageHall w) then s.migrated hh (migrationWord 5 4 0)
    else
      let (n, s) := s.draw
      let nonce := Config.random n 12
      let header := s.imageHeader hh nonce
      let sealed' := Config.gcmSeal key nonce header (s.imageBody hh)
      (s.emit (.hostWrite (imageHall w) (imageAddr w) none (header ++ sealed'.1 ++ sealed'.2))).migrated hh (migrationWord 2 0 0)

/-- SAVE ends: with the image written, or with the cause that stopped it. -/
def execSaveDone (hh cause : Nat) (s : State) : Host.Outcome State Fault Refusal :=
  onUnits (isHousehold hh && isCause cause) s (
    match (s.house hh).image with
    | some (w, true) =>
      if s.failSilent then s else if cause = 0 then s.saveImage hh w else s.migrated hh (migrationWord 5 cause 0)
    | _ => s)

/-! ### RESTORE (R280) -/

def actRestore (hh : Nat) (w : W64) : Act := fun s =>
  judged [must (!s.security.alarm) abNotPermitted,
      must ((s.house hh).st == .active && (s.contextsHeld hh).isEmpty && (s.house hh).image.isNone) abState,
      must s.keysPermitted abState]
    (s.modHouse hh ({ · with image := some (w, false), migration := migrationWord 3 0 0 }))

def execRestore (q : Chan) (hh : Nat) (w : W64) (s : State) : Host.Outcome State Fault Refusal :=
  onUnits (isChan q && isHousehold hh) s (s.download q (0x3000 + hh) 0x62 (leBytes 8 w.toNat) (actRestore hh w))

/-- A read of host memory by the module itself, without a PASID (R280). -/
def State.hostFetch (s : State) (hall addr n : Nat) : Got (List Byte) × State :=
  match s.hostReads.find? fun x => x.is hall addr n && x.ctx.isNone with
  | none =>
    if !s.hostLink hall then (.poisoned, s)
    else
      let q : HostRead := { hall, addr, len := n }
      (.wait, State.emit { s with hostReads := s.hostReads ++ [q] } (.hostRead hall addr n none))
  | some x =>
    if x.poisoned then (.poisoned, { s with hostReads := removeFirst (fun x => x.is hall addr n && x.ctx.isNone) s.hostReads })
    else match x.answer with
    | none => (.wait, s)
    | some (.data b) => (.ok b, { s with hostReads := removeFirst (fun x => x.is hall addr n && x.ctx.isNone) s.hostReads })
    | some _ => (.access, { s with hostReads := removeFirst (fun x => x.is hall addr n && x.ctx.isNone) s.hostReads })

/-- Whether an image Suite record fits a Suite of the household, which must be composed: nothing of its composition is under
way. -/
def Suite.fits (x : Suite) (b : List Byte) : Bool :=
  fieldOf b 0 1 == modeCode x.mode && fieldOf b 2 2 == x.lanes && fieldOf b 32 2 == x.rooms.length && x.complete &&
    x.settled == .active && x.applying.isNone && !x.refill

/-- A Suite with the settings of its image record. -/
def Suite.withRecord (x : Suite) (b : List Byte) : Suite :=
  { x with
    share := fieldOf b 4 1, cache := fieldOf b 5 1, det := fieldOf b 6 1 != 0, slice := fieldOf b 8 2
    dmaReg := BitVec.ofNat 64 (fieldOf b 16 8), cacheReg := BitVec.ofNat 64 (fieldOf b 24 8) }

/-- Load the settings of an image record into a Suite (R280): Rent and the Rooms' buckets are brought up to date first, and a
cache whose size changes is given up (R14, R162, R191, R277). -/
def State.loadSettings (s : State) (n : Nat) (b : List Byte) : State :=
  let x := s.suite n
  let y := x.withRecord b
  let s := s.accrue n
  let s := x.allRooms.foldl (fun s r => (s.refill (dmaPort r)).refill (cachePort r)) s
  let s := if y.cache = x.cache then s else x.allRooms.foldl State.dropCache s
  let s := s.modSuite n fun _ => { y with rent := (s.suite n).rent }
  x.allRooms.foldl (fun s r => clampBucket y.cacheReg.toNat (clampBucket y.dmaReg.toNat s (dmaPort r)) (cachePort r)) s

/-- A queue as its image record gives it. -/
def queueFrom (b : List Byte) : Queue :=
  { st := queueStateOf (fieldOf b 1 1), value := BitVec.ofNat 64 (fieldOf b 8 8), head := BitVec.ofNat 32 (fieldOf b 16 4)
    tail := BitVec.ofNat 32 (fieldOf b 20 4), lastCommit := fieldOf b 24 8, vt := fieldOf b 32 8 }

/-- A context as its image record gives it: FROZEN, with no page tables. -/
def State.contextFrom (s : State) (hh : Nat) (suites : List Nat) (b : List Byte) : Context :=
  let suite := suites.getD (fieldOf b 0 2) 0
  let home := fieldOf b 2 1 % 2
  { household := hh, suite, pasid := fieldOf b 4 4, home, serving := s.servingHall suite home, st := .frozen
    before := ctxStateOf (fieldOf b 3 1), fault := BitVec.ofNat 64 (fieldOf b 8 8), vectors := fieldOf b 16 4
    ladderEntries := fieldOf b 20 4, ladderBase := fieldOf b 24 8, gutterTrees := fieldOf b 32 4, gutterBase := fieldOf b 40 8
    committed := fieldOf b 48 8, killed := fieldOf b 56 8
    queues := Store.setRange {} [] 0 ((List.range 16).map fun q => queueFrom ((b.drop (64 + 40 * q)).take 40)) }

/-- A Room receives a Room record. -/
def Suite.fillRoom (x : Suite) (b : List Byte) (y : Room) : Room :=
  (List.range x.lanes).foldl
    (fun y l => y.modBrick l fun k => { k with hod := Store.setRange 0 [] 0 ((b.drop (x.scratch + 12288 * l)).take 12288) })
    { y with pantry := Store.setRange 0 [] 0 (b.take x.scratch) }

/-- Give a Suite its Room records; both copies of a DUPLEX Suite receive those of copy 0. -/
def State.fillSuite (s : State) (n : Nat) (b : List Byte) : State :=
  let x := s.suite n
  let size := x.roomRecordBytes
  (List.range x.rooms.length).foldl (fun s o =>
    let part := (b.drop (size * o)).take size
    let e := x.rooms.getD o (none, none)
    let put (s : State) (r : Option Nat) : State :=
      match r with
      | some r => s.modRoom r fun y => x.fillRoom part { y with laneMap := lanesMapOf y x.lanes }
      | none => s
    put (put s e.1) e.2) s

/-- Give every Suite its Room records, one after the other. -/
def State.fillSuites : State → List Nat → List Byte → State
  | s, [], _ => s
  | s, n :: l, b => fillSuites (s.fillSuite n b) l (b.drop ((s.suite n).rooms.length * (s.suite n).roomRecordBytes))

/-- Load a decrypted image body, or the cause that forbids it. -/
def State.loadHousehold (s : State) (hh nctx : Nat) (b : List Byte) : Except Nat State :=
  let suites := s.imageSuites hh
  let records := b.drop (64 * suites.length)
  let rooms := records.drop (1024 * nctx)
  let free := (List.range 4096).filter fun c => (s.ctx? c).isNone
  let record (k : Nat) : List Byte := (b.drop (64 * k)).take 64
  let settled (n : Nat) : Bool := (s.suite n).allRooms.all fun r => !(s.room r).joining
  let shape := (List.range suites.length).all fun k =>
    (s.suite (suites.getD k 0)).fits (record k) && settled (suites.getD k 0)
  let s' := (List.range suites.length).foldl (fun s k => s.loadSettings (suites.getD k 0) (record k)) s
  let admitted := suites.all fun n => (s'.suite n).groups.all fun g => withinLimit (s'.groupSize (g / 32)) (s'.groupTotal g)
  let named := (List.range nctx).all fun k => decide (fieldOf (records.drop (1024 * k)) 0 2 < suites.length)
  let size := (suites.map fun n => (s'.suite n).rooms.length * (s'.suite n).roomRecordBytes).sum
  if !shape || !named || !admitted || rooms.length != size then .error 2
  else if free.length < nctx then .error 6
  else
    let s := s'.fillSuites suites rooms
    let s := (List.range nctx).foldl (fun s k =>
      s.setCtx (free.getD k 0) (some (s.contextFrom hh suites ((records.drop (1024 * k)).take 1024)))) s
    .ok (s.migrated hh (migrationWord 4 0 (if nctx = 0 then 0 else free.getD 0 0)))

/-- The image arrives: its header, then the rest under the length that the header gives. -/
def State.restoreImage (s : State) (hh : Nat) (w : W64) : State :=
  let fail (s : State) (cause : Nat) : State := s.migrated hh (migrationWord 5 cause 0)
  match s.hostFetch (imageHall w) (imageAddr w) 64 with
  | (.wait, s) => s
  | (.ok header, t) =>
    let total := fieldOf header 8 8
    if fieldOf header 0 1 != 1 || fieldOf header 1 1 != 1 || fieldOf header 2 2 != (s.imageSuites hh).length || total < 80 then fail t 2
    else match s.hostFetch (imageHall w) (imageAddr w + 64) (total - 64) with
    | (.wait, s) => s
    | (.ok rest, s) =>
      let s : State := { s with hostReads := removeFirst (fun x => x.is (imageHall w) (imageAddr w) 64 && x.ctx.isNone) s.hostReads }
      let text := rest.take (total - 80)
      match (s.migrationKey hh).bind fun key => Config.gcmOpen key ((header.drop 40).take 12) header text (rest.drop (total - 80)) with
      | none => fail s 3
      | some body => match s.loadHousehold hh (fieldOf header 4 2) body with
        | .ok s => s
        | .error c => fail s c
    | (_, _) => fail t 4
  | (_, s) => fail s 4

/-- RESTORE ends: with the household loaded, or with the cause that stopped it. -/
def execRestoreDone (hh cause : Nat) (s : State) : Host.Outcome State Fault Refusal :=
  onUnits (isHousehold hh && isCause cause) s (
    match (s.house hh).image with
    | some (w, false) =>
      if s.failSilent then s else if cause = 0 then s.restoreImage hh w else s.migrated hh (migrationWord 5 cause 0)
    | _ => s)

end Sys2Proof.Machine
end

