-- ==== Sys2Proof/Machine/Values.lean ====
section
/-! DEFINITION. What each dictionary object reads as (R284 to R286 and the object tables of every chapter).  Settings and
counters are the table `dict`; every other object reads the structure that holds it. -/

namespace Sys2Proof.Machine

/-- A flag as a number. -/
def flag (b : Bool) : Nat := if b then 1 else 0

/-- A signed number in n bits. -/
def signedIn (bits : Nat) (v : Int) : Nat := (BitVec.ofInt bits v).toNat

/-! ### Records -/

/-- SOURCE, SEVERITY and the rest of an Error Ledger record (R356). -/
def LedgerRecord.bytes (x : LedgerRecord) : List Byte :=
  let r := x.report
  leBytes 1 1 ++ leBytes 1 r.cls ++ leBytes 1 (r.severity + 16 * flag x.storm) ++ leBytes 1 r.household ++ leBytes 2 r.code ++
    leBytes 2 x.repeats ++ leBytes 4 (r.kind * 2 ^ 28 + r.index) ++ leBytes 4 x.seq ++ leBytes 8 r.time ++ leBytes 8 r.detail

/-- A record slot that holds nothing reads as zero. -/
def recordBytes (x : Option LedgerRecord) : List Byte := (x.map LedgerRecord.bytes).getD (List.replicate 32 0)

/-- A stage record (R416). -/
def StageRecord.bytes (stage : Nat) (x : StageRecord) : List Byte :=
  leBytes 1 1 ++ leBytes 1 stage ++ leBytes 1 x.result ++ leBytes 1 x.code ++ leBytes 4 0 ++ leBytes 8 x.start ++ leBytes 8 x.finish ++
    leBytes 8 x.detail

def roomLifeCode : RoomLife → Nat
  | .working => 0
  | .lostAtTest => 1
  | .fencedInService => 2

/-- A Room record (R21). -/
def Room.record (x : Room) : List Byte :=
  let ok (dead : Bool) (k : Nat) : Nat := if dead then 0 else 2 ^ k
  leBytes 4 (2 ^ 24 + ok x.deadRouter 15 + ok x.deadForeman 14 + ok x.deadPantry 13 + ok x.deadDma 12 + ok x.deadGutter 11 +
    roomLifeCode x.life * 2 ^ 9 + x.bricksUp) ++ leBytes 4 0 ++ leBytes 32 (~~~x.deadBricks).toNat

/-- The Suite that a master port serves (R171, R260). -/
def State.portServes (s : State) (p : Nat) : Option Nat :=
  if p < 2560 then (s.room (p % 1280)).member.map (·.suite)
  else
    let k := p % 16
    let hall := (p - 2560) / 16
    let name : Option Nat := if 1 ≤ k && k ≤ 6 then some (6 * hall + k - 1) else if k = 7 || k = 8 then some (16 + 2 * hall + k - 7) else none
    name.bind fun n => (s.suites.find? fun e => e.2.ports.contains n).map (·.1)

/-- A port record (R171); the reserved port numbers of R159 read as zero. -/
def State.portRecord (s : State) (p : Nat) : List Byte :=
  let g := s.reg p
  if !isMaster p then List.replicate 32 0
  else
    let bound := match s.portServes p with | some n => 2 ^ 23 + n * 2 ^ 15 | none => 0
    leBytes 8 (s.portSetting p) ++ leBytes 4 (2 ^ 24 + bound + s.portLevel p * 2 ^ 13) ++ leBytes 4 0 ++ leBytes 8 g.granted ++
      leBytes 4 g.misses ++ leBytes 4 g.clamped

/-! ### Parts of the tables -/

/-- The usable-group mask of a stack (R170). -/
def State.groupMask (s : State) (stack : Nat) : Nat :=
  ((List.range (32 / s.groupSize stack)).map fun g => if s.groupOk (32 * stack + g * s.groupSize stack) then 2 ^ g else 0).sum

/-- The usable pseudo-channel mask of a Floor (R20). -/
def State.pcMask (s : State) (f : Nat) : Nat := ((List.range 32).map fun n => if s.pcOk (32 * f + n) then 2 ^ n else 0).sum

/-- The clock of a step number in MHz, and the rail of a clock step in mV (R318, R332, log entry 44). -/
def clockMHz (n : Nat) : Nat :=
  let q := 1250 + 125 * n
  if q % 4 = 0 then q / 4 else if Config.clockRoundsUp n then q / 4 + 1 else q / 4
def railMillivolts (n : Nat) : Nat := if n = 0 then 550 else if n = 30 then 750 else 550 + (Config.railStep n).val

/-- The level of a pseudo-channel by the occupancy of its queue (R163). -/
def PseudoChannel.level (x : PseudoChannel) : Nat :=
  let n := x.queue.length
  if n < 16 then 0 else if n < 32 then 1 else if n < 48 then 2 else 3

/-- Directory entries in use on a Floor (R194). -/
def State.dirUsed (s : State) (f : Nat) : Nat := countIf (fun e => e.1 / 131072 == f && e.2.isSome) s.directory

/-- 0x5200.03 (R355). -/
def State.halfFlags (s : State) : Nat :=
  flag ((s.hall 0).lost || (s.hall 1).lost) + 2 * flag s.degradedHalf + 4 * flag s.lintelDown + 8 * flag s.lineDown

/-- 0x5038 (R379). -/
def State.wardenFlags (s : State) : Nat :=
  flag (s.hall 0).warden.running + 2 * flag (s.hall 1).warden.running + 4 * flag s.failSilent

def suiteCode : SuiteState → Nat
  | .free => 0
  | .empty => 1
  | .active => 2
  | .degraded => 3
  | .releasing => 4
def houseCode : HouseState → Nat
  | .inactive => 0
  | .active => 1
  | .freezing => 2
  | .frozen => 3
  | .closing => 4

/-- ROOM_MAP (R255). -/
def roomMap (x : Suite) : List Byte :=
  (x.rooms ++ x.spares).flatMap fun e => leBytes 2 (e.1.getD 0xFFFF) ++ leBytes 2 (e.2.getD 0xFFFF)

/-- The bits of bound groups (R255). -/
def State.boundGroups (s : State) (x : Suite) : List Byte :=
  let pcs := x.groups.flatMap fun g => span g (s.groupSize (g / 32))
  leBytes 16 ((List.range 128).map fun n => if pcs.contains n then 2 ^ n else 0).sum

def portBits (x : Suite) : Nat := (x.ports.dedup.map fun p => 2 ^ p).sum

/-! ### Objects by range -/

/-- 0x1000 to 0x1FFF, as the Hall of the channel reports them (R297). -/
def State.valueComm (s : State) (q : Chan) (i sub : Nat) : List Byte :=
  let h := s.chanHall q
  if i = 0x1001 then [(s.hall h).errorRegister]
  else if i = 0x1008 then [0x43, 0x69, 0x68, 0x6F, 0x68, 0x61, 0x6C, 0x20, 0x4D, 0x31]
  else if i = 0x1014 then leBytes 4 (0x80 + s.dictGet 0x2901 (1 + h))
  else if i = 0x1017 then leBytes 2 (s.dictGet 0x1017 0)
  else if i = 0x1018 then
    (if sub = 1 then leBytes 4 0x3C7 else if sub = 2 then leBytes 4 0x1A144 else if sub = 3 then leBytes 4 0x10000
      else s.security.serial.take 4)
  else leBytes 4 0

/-- The constants of the capability table (R223). -/
def capability (i sub : Nat) : Nat :=
  if i = 0x2000 then 1
  else if i = 0x2001 then [0, 2, 4, 1280, 256, 327680, 307200, 1216, 1250, 0x37FFF, 4096, 256, 250000].getD sub 0
  else if i = 0x2002 then [0, 4, 0x900000000, 32, 1048576, 12288, 128].getD sub 0
  else if i = 0x2003 then [0, 63, 256, 4096, 16, 4096, 2048, 32].getD sub 0
  else [0, 4096, 128, 64].getD sub 0

/-- 0x2000 to 0x20FF (R223). -/
def State.valueCap (s : State) (i sub n : Nat) : List Byte :=
  let host (h : Nat) : Nat := let x := s.hall h; if x.hostUp then x.hostRate * 256 + x.hostWidth else 0
  if i = 0x2000 && sub = 3 then [0x43, 0x48, 0x4D, 0x31, 0x2D, 0x41, 0x31, 0x34, 0x34]
  else if i = 0x2000 && sub = 4 then s.security.serial
  else if i = 0x2003 && sub = 8 then leBytes 1 s.tokensLeft
  else if i = 0x2004 && 4 ≤ sub then leBytes 2 (host (sub - 4))
  else if i = 0x2008 then (if sub = 1 then leBytes 2 s.node else if sub = 2 then leBytes 1 s.plane else leBytes 1 (s.dictGet 0x5C00 5))
  else if within i 0x2010 12 then
    let p := i - 0x2010
    (if sub = 1 then leBytes 1 (s.portDirection p) else if sub = 2 then leBytes 2 (s.port p).peerNode
      else if sub = 3 then leBytes 1 (s.port p).peerPlane else leBytes 1 (s.port p).st)
  else leBytes n (capability i sub)

/-- 0x2100 to 0x21FF (R417). -/
def State.valueBoot (s : State) (i sub : Nat) : List Byte :=
  if i = 0x2100 then
    (if sub = 1 then [1]
      else if sub = 2 then leBytes 1 s.resetCause
      else
        let h := if sub < 0x20 then 0 else 1
        let k := sub % 16
        ((Store.get none (s.hall h).up.records k).map (StageRecord.bytes k)).getD (List.replicate 32 0))
  else
    let u := (s.hall (i - 0x2110)).up
    if sub = 1 then leBytes 1 u.copyUsed else if sub = 2 then leBytes 4 u.sequence
    else if sub = 3 then (u.digest ++ List.replicate 48 0).take 48 else leBytes 4 u.applied

/-- 0x2200 to 0x23FF (R19 to R21, R155). -/
def State.valuePlan (s : State) (i sub : Nat) : List Byte :=
  if i = 0x2200 then
    (if sub = 1 then [1] else if sub = 2 then leBytes 4 (s.workingBricks 0 1280) else if sub = 3 then leBytes 2 (s.usableRooms 0 1280)
      else if sub = 4 then leBytes 4 (s.dictGet i sub) else leBytes 8 (s.dictGet i sub))
  else if i < 0x2205 then
    let f := i - 0x2201
    (if sub = 1 then leBytes 4 (s.workingBricks (320 * f) 320) else if sub = 2 then leBytes 2 (s.usableRooms (320 * f) 320)
      else if sub = 3 then leBytes 2 (s.floor f).lostRouters else if sub = 4 then leBytes 4 (s.pcMask f)
      else leBytes 1 (flag (s.floor f).directoryWorks))
  else if i < 0x2270 then (s.room ((i - 0x2220) * 16 + sub - 1)).record
  else leBytes 4 (2 ^ 24 + (s.pc (32 * (i - 0x2290) + sub - 1)).laneRecord.toNat % 2 ^ 24)

/-- 0x2400 to 0x25FF, where the table does not hold the value (R332). -/
def State.valuePower (s : State) (i sub n : Nat) : List Byte :=
  let p := s.power
  if i = 0x2402 then
    leBytes n (if sub = 1 then p.millivolts else if sub = 2 then p.milliamps else if sub = 3 then p.means10 / 100000
      else if sub = 4 then p.means1000 / 100000 else if sub = 5 then min (p.energy / 1000000) (2 ^ 64 - 1) else if sub = 6 then signedIn 16 p.inlet
      else flag p.unreachable)
  else if i = 0x2410 then
    leBytes n (if sub = 1 then p.wakeRecord.toNat else if sub = 2 then p.wakeAt else if sub = 3 then p.sleepAt else p.wakes)
  else if within i 0x2420 4 && sub != 7 && sub != 9 then
    let x := s.floor (i - 0x2420)
    let hottest : Int := x.junctions.foldl (fun m e => if m < e.2 then e.2 else m) (if x.junctions.length < 64 then 0 else -1000)
    leBytes n (if sub = 1 then clockMHz x.applied else if sub = 2 then railMillivolts x.applied + x.offset else if sub = 3 then x.railMean
      else if sub = 4 then signedIn 16 hottest else if sub = 5 then x.offset else if sub = 6 then x.worstMargin
      else countIf (fun k => (s.room (320 * (i - 0x2420) + k)).power == .doze) (List.range 320))
  else if within i 0x2500 256 then leBytes 4 (s.suite (i - 0x2500)).grid
  else if i = 0x2400 then [1]
  else leBytes n (s.dictGet i sub)

/-- 0x2600 to 0x28FF and the link and time objects (R128, R170, R194, R444). -/
def State.valueUnits (s : State) (i sub n : Nat) : List Byte :=
  if i = 0x2600 || i = 0x2800 || i = 0x2840 || i = 0x2850 || i = 0x2A00 then [1]
  else if within i 0x2601 4 && 2 ≤ sub && sub != 5 then
    let k := i - 0x2601
    leBytes n (if sub = 2 then s.groupMask k else if sub = 3 then signedIn 16 (s.floor k).stackTemp else if sub = 4 then (s.floor k).refresh else 60)
  else if within i 0x2610 128 && sub = 9 then leBytes 1 (s.pc (i - 0x2610)).level
  else if within i 0x2690 4 then
    let k := i - 0x2690
    let g := sub - 1
    leBytes 4 (if g < 32 / s.groupSize k then s.groupTotal (32 * k + g * s.groupSize k) / 1024 else 0)
  else if within i 0x2700 162 then s.portRecord ((i - 0x2700) * 16 + sub - 1)
  else if within i 0x2841 4 && sub = 1 then leBytes 4 (s.dirUsed (i - 0x2841))
  else if within i 0x2860 12 && 2 ≤ sub then
    let x := s.port (i - 0x2860)
    leBytes n (if sub = 2 then x.lanes else if sub = 3 then x.fec else x.replays)
  else if i = 0x2900 then
    leBytes n (if sub ≤ 3 then 1 else if sub = 4 then s.senior else s.dictGet i sub)
  else if within i 0x2930 4 then
    let x := s.feed (i - 0x2930)
    leBytes n (if sub = 1 then x.ctx else if sub = 2 then x.ringBase else if sub = 3 then x.ringLog2 else if sub = 4 then x.stream.toNat
      else if sub = 5 then x.head.toNat else if sub = 6 then x.tail.toNat else x.dropped)
  else if i = 0x2950 then leBytes 1 (flag s.power.brakePin + 2 * flag s.pair.arbiterIn + 4 * (Config.pins s.time).val)
  else if i = 0x2A01 && 5 ≤ sub then (if sub = 5 then leBytes 1 s.clock.source else leBytes 4 (signedIn 32 s.clock.offset))
  else leBytes n (s.dictGet i sub)

/-- A household's index 0x3000 + household (R200, R236, R245, R249). -/
def State.valueHouse (s : State) (hh sub : Nat) : List Byte :=
  let h := s.house hh
  let pages := s.pages.filter fun e => e.2.holder == hh
  if sub = 1 then leBytes 1 (houseCode h.st)
  else if sub = 3 then leBytes 2 (s.roomsHeld hh)
  else if sub = 4 then leBytes 4 pages.length
  else if sub = 5 then leBytes 4 (countIf (fun e => s.isWashing e.1) pages)
  else if sub = 6 then leBytes 1 (s.suitesOf hh).length
  else if sub = 7 then leBytes 2 (s.contextsHeld hh).length
  else if sub = 0x21 then leBytes 4 (2 ^ 24 + h.suiteResult.toNat % 2 ^ 24)
  else if sub = 0x41 then leBytes 8 (2 ^ 56 + h.ctxResult.toNat % 2 ^ 56)
  else if sub = 0x48 then leBytes 8 h.faultqBase.toNat
  else if sub = 0x49 then leBytes 4 h.faultqHead.toNat
  else if sub = 0x4A then leBytes 4 h.faultqTail.toNat
  else if sub = 0x4B then leBytes 4 h.faultqCtrl.toNat
  else if sub = 0x4C then leBytes 4 h.faultqWaits
  else if sub = 0x51 then leBytes 2 h.windowResult
  else if sub = 0x53 then leBytes 2 (countIf (fun e => (e.2.map (·.owner)) == some hh) s.windows)
  else if sub = 0x54 then leBytes 4 h.windowRefused
  else if sub = 0x63 then leBytes 4 h.migration.toNat
  else leBytes 8 (s.imageBytes hh)

/-- A Suite's index 0x3100 + Suite (R255). -/
def State.valueSuite (s : State) (n sub : Nat) : List Byte :=
  let x := s.suite n
  if sub = 1 then leBytes 1 (suiteCode x.st)
  else if sub = 2 then leBytes 1 x.owner
  else if sub = 3 then leBytes 1 (modeCode x.mode)
  else if sub = 4 then leBytes 2 x.lanes
  else if sub = 5 then leBytes 1 x.share
  else if sub = 6 then leBytes 1 x.cache
  else if sub = 7 then leBytes 1 (flag x.deterministic)
  else if sub = 8 then leBytes 2 x.slice
  else if sub = 9 then leBytes 8 x.dmaReg.toNat
  else if sub = 10 then leBytes 8 x.cacheReg.toNat
  else if sub = 11 then leBytes 1 x.notify
  else if sub = 12 then leBytes 1 (flag (x.protected || x.abft))
  else if sub = 0x20 then leBytes 2 x.rooms.length
  else if sub = 0x21 then leBytes 1 x.spares.length
  else if sub = 0x22 then roomMap x
  else if sub = 0x23 then leBytes 4 x.acceptedGen
  else if sub = 0x24 then leBytes 4 x.appliedGen
  else if sub = 0x25 then leBytes 8 x.appliedTime
  else if sub = 0x26 then s.boundGroups x
  else if sub = 0x27 then leBytes 4 (portBits x)
  else if sub = 0x28 then leBytes 4 x.overruns
  else if sub = 0x29 then leBytes 8 x.committed
  else leBytes 8 x.killed

/-- A context's index 0x4000 + context (R60, R132, R201, R206). -/
def Context.value (c : Context) (sub : Nat) : List Byte :=
  if sub = 1 then leBytes 1 (ctxCode c.st)
  else if sub = 2 then leBytes 1 c.suite
  else if sub = 3 then leBytes 4 (c.pasid + c.home * 2 ^ 20)
  else if sub = 4 then leBytes 8 c.fault.toNat
  else if sub = 9 then leBytes 4 c.vectors
  else if sub = 10 then leBytes 8 c.committed
  else if sub = 11 then leBytes 8 c.killed
  else if sub = 0x10 then leBytes 8 c.ladderBase
  else if sub = 0x11 then leBytes 2 c.ladderEntries
  else if sub = 0x12 then leBytes 8 c.gutterBase
  else if sub = 0x13 then leBytes 2 c.gutterTrees
  else (c.queue (sub - 0x20)).record

/-- 0x5000 to 0x53FF (R355, R379). -/
def State.valueErrors (s : State) (i sub n : Nat) : List Byte :=
  if i = 0x5000 && sub = 1 then [1]
  else if within i 0x5001 2 && sub != 2 then
    let l := (s.hall (i - 0x5001)).ledger
    leBytes n (if sub = 1 then l.tail else if sub = 3 then l.lost else if sub = 4 then flag l.storm else if sub = 5 then (if l.storm then l.stormStart else 0)
      else l.storms)
  else if within i 0x5010 16 then
    let k := i - 0x5010
    recordBytes (Store.get none (s.hall (k / 8)).ledger.ring (k % 8 * 128 + sub - 1))
  else if i = 0x5038 then leBytes 1 s.wardenFlags
  else if within i 0x5039 2 then recordBytes ((s.hall (i - 0x5039)).ledger.lastWords.drop (sub - 1)).head?
  else if within i 0x5100 256 then
    let x := s.suite (i - 0x5100)
    leBytes n (if sub = 1 then x.tallyKills else if sub = 2 then x.hangLimit else if sub = 3 then x.held else x.heldNotify)
  else if i = 0x5200 then
    leBytes n (if sub = 1 then 1 else if sub = 3 then s.halfFlags else s.dictGet i sub)
  else if within i 0x5300 256 then
    let x := s.suite (i - 0x5300)
    leBytes n (if sub = 1 then flag x.present.1 + 2 * flag x.present.2 + 4 * flag x.reintegrating else if sub = 2 then x.votes
      else if sub = 3 then x.fencedByVote else x.voteTime)
  else leBytes n (s.dictGet i sub)

/-- A household's security index 0x5500 + household (R397 to R401, R409). -/
def State.valueKeys (s : State) (hh sub : Nat) : List Byte :=
  let h := s.house hh
  if sub = 1 then leBytes 8 (((s.slotsOf hh).filter fun k => (s.slotKey k).isSome).map fun k => 2 ^ k).sum
  else if sub = 2 then (h.programChain ++ List.replicate 48 0).take 48
  else if sub = 3 then (h.blobChain ++ List.replicate 48 0).take 48
  else if sub = 4 then h.log.flatMap InventoryEntry.bytes
  else if sub = 5 then leBytes 1 (h.log.length + 128 * flag h.overflow)
  else if sub = 0x11 then h.spdmResponse
  else if sub = 0x21 then h.latchOffer
  else leBytes 4 h.blobStatus.toNat

/-- A Suite's Rent counters (R276). -/
def Rent.value (x : Rent) (sub : Nat) : List Byte :=
  if sub = 1 then [1]
  else leBytes 8 (if sub = 2 then x.roomsHeld else if sub = 3 then x.roomsBusy else if sub = 4 then x.roomsKilled else if sub = 5 then x.sparesHeld
    else if sub = 6 then x.pcHeld else if sub = 7 then x.portsHeld else if sub = 8 then x.bwReserved else x.created)

/-- The security engine and the Keystone (R387 to R390, R409). -/
def State.valueSecurity (s : State) (i sub n : Nat) : List Byte :=
  let x := s.security
  if i = 0x5400 then [1]
  else if i = 0x5401 then leBytes 1 x.lifecycle
  else if i = 0x5402 then (if sub = 1 then leBytes 1 s.tokensLeft else leBytes 1 (flag x.openHouse))
  else if i = 0x5410 then (if sub = 1 then leBytes 1 x.fired else if sub = 2 then leBytes 1 (flag x.alarm) else x.latest)
  else if i = 0x5440 then (if sub = 1 then (x.identity ++ List.replicate 97 0).take 97 else x.certificate)
  else if i = 0x5C00 && sub = 2 then leBytes 1 (flag x.isSealed)
  else if i = 0x5C00 && sub = 3 then (x.keystoneDigest ++ List.replicate 48 0).take 48
  else if within i 0x5C11 63 then s.blob i 0
  else leBytes n (s.dictGet i sub)

/-- The highest subindex of an index (R284). -/
def highestSub (i : Nat) : Nat := ((objectsAt i).map (·.sub)).foldl max 0

/-- The most bytes that an object holds. -/
def Len.most : Len → Nat
  | .exact n => n
  | .upTo n => n

/-- What an upload of an object returns, as it stands now (R286). -/
def State.value (s : State) (q : Chan) (i sub : Nat) : List Byte :=
  let n := ((object? i sub).map (·.len.most)).getD 0
  if sub = 0 && !isSingle i then leBytes 1 (highestSub i)
  else if i < 0x2000 then s.valueComm q i sub
  else if i < 0x2100 then s.valueCap i sub n
  else if i < 0x2200 then s.valueBoot i sub
  else if i < 0x2400 then s.valuePlan i sub
  else if i < 0x2600 then s.valuePower i sub n
  else if i < 0x3000 then s.valueUnits i sub n
  else if i < 0x3100 then s.valueHouse (i - 0x3000) sub
  else if i < 0x4000 then s.valueSuite (i - 0x3100) sub
  else if i < 0x5000 then ((s.ctx? (i - 0x4000)).map (·.value sub)).getD []
  else if i < 0x5400 then s.valueErrors i sub n
  else if within i 0x5500 64 then s.valueKeys (i - 0x5500) sub
  else if within i 0x5800 256 then ((s.accrue (i - 0x5800)).suite (i - 0x5800)).rent.value sub
  else s.valueSecurity i sub n

end Sys2Proof.Machine
end

