-- ==== Sys2Proof/Machine/Objects.lean ====
section
/-! DEFINITION. Writing the dictionary: what a download of each object checks and does (R289 and the object tables of every
chapter), and what an upload of one object or of a whole index answers (R284 to R286, R288). -/

namespace Sys2Proof.Machine

/-! ### Settings without behaviour of their own -/

/-- Store a setting behind its checks. -/
def actSet (i sub v : Nat) (checks : List (Option Nat)) : Act := fun s => judged checks (s.dictSet i sub v)

/-- A value from `lo` to `hi`: above it is too high, below it out of range (R289). -/
def between (lo hi v : Nat) : List (Option Nat) := [must (v ≤ hi) abHigh, must (lo ≤ v) abRange]

/-- The bits of a word that defined fields use; reserved bits are ignored and read as zero (R4). -/
def keepBits (mask v : Nat) : Nat := v &&& mask

/-- A household bound to a channel (R303). -/
def bindingOk (v : Nat) : Bool := decide (v < 64) || v == 0xFF

/-- A Hall port's setting; host, copy-engine and Steward ports are BULK or SCAVENGE (R162). -/
def hallPortChecks (k v : Nat) : List (Option Nat) :=
  regChecks v 0 ++ [must ((1 ≤ k && k ≤ 8) || decide (2 ≤ regClass v)) abRange]

/-- The power settings (R332); the clock and the reasons follow them.  POWER_CAP may not pass CAP_CEILING (R321). -/
def actPower (sub v : Nat) : Act := fun s =>
  let checks : List (Option Nat) :=
    if sub = 1 then between 60 (min 360 (s.dictGet 0x2401 6)) v else if sub = 6 then between 60 360 v else if sub = 5 then [must (v ≤ 30) abHigh] else []
  judged checks (s.dictSet 0x2401 sub (if sub = 3 then keepBits 0x0F v else v)).refresh

/-- BOOT settings of memory, the Corridor, links, the dictionary server and time (R128, R170, R303, R444). -/
def actBoot (i sub v : Nat) : Act :=
  if within i 0x2601 4 then actSet i sub v [must (v = 4 || v = 8 || v = 16 || v = 32) abRange]
  else if within i 0x27C0 2 then actSet i sub (keepBits 0xFFDFFFFFFFFFFFFF v) (hallPortChecks (sub - 1) v)
  else if within i 0x2810 3 then actSet i sub v []
  else if i = 0x2813 then actSet i sub v [must (v ≤ 7) abHigh]
  else if i = 0x2851 then actSet i sub v (between 1 32 v)
  else if within i 0x2860 12 then actSet i sub v [must (v ≤ 7 || v = 0xFF) abRange]
  else if i = 0x2901 then
    (if sub ≤ 2 then actSet i sub v (between 1 127 v)
      else if sub = 3 then actSet i sub (keepBits 7 v) []
      else if sub = 4 then actSet i sub v [must (v ≤ 2) abHigh]
      else actSet i sub v [must (v ≤ 3) abHigh])
  else if within i 0x2910 2 || within i 0x2920 2 then actSet i sub v [must (bindingOk v) abRange]
  else if i = 0x2A01 then actSet i sub v [must (v ≤ 4) abHigh]
  else actSet i sub v [must (v ≤ 32767) abHigh]

/-- Every Mortar port retrains under the new numbers (R433). -/
def State.retrainAll (s : State) : State :=
  if (s.hall s.senior).up.stage < 9 then s
  else (iterate (fun p s => s.modPort p ({ · with st := 1, lanes := 0 })) 12 s).loseTunnels fun _ => true

/-- NODE and PLANE (R24, R433). -/
def actNodePlane (sub v : Nat) : Act := fun s =>
  judged [must (v ≤ (if sub = 4 then 32767 else 1)) abHigh, must (s.suites.all fun e => e.2.st == .free) abState]
    (s.dictSet 0x2851 sub v).retrainAll

/-- NODE_PLANE_WRITE: `plane` chooses PLANE, a U8; else NODE, a U16. -/
def execNodePlaneWrite (q : Chan) (plane : Bool) (v : BitVec 16) (s : State) : Host.Outcome State Fault Refusal :=
  onUnits (isChan q) s (
    if plane then s.download q 0x2851 5 (leBytes (if v.toNat < 256 then 1 else 2) v.toNat) (actNodePlane 5 v.toNat)
    else s.download q 0x2851 4 (leBytes 2 v.toNat) (actNodePlane 4 v.toNat))

/-- The binding of an ingest port (R435, R444). -/
def actIngest (p sub v : Nat) : Act := fun s =>
  let n := s.portSuite p
  let mine := decide (((s.ctx? v).map (·.suite)) = n)
  let checks : List (Option Nat) :=
    [must (sub != 1 || mine) abNotPermitted] ++
      (if sub = 2 then [must (v % 4096 = 0) abRange] else if sub = 3 then between 4 14 v else []) ++ [must n.isSome abState]
  judged checks (s.modFeed p fun x =>
    if sub = 1 then { x with ctx := v } else if sub = 2 then { x with ringBase := v } else if sub = 3 then { x with ringLog2 := v }
    else if sub = 4 then { x with stream := BitVec.ofNat 64 v } else { x with head := BitVec.ofNat 32 v })

/-- The error, Tally and redundancy settings (R355, R365, R366, R379). -/
def actErrors (q : Chan) (i sub v : Nat) : Act :=
  if i = 0x5000 then
    (if sub = 2 then actSet i sub (keepBits 0xF0 v) [must (bitsOf v 6 4 ≤ 4) abHigh] else actSet i sub (keepBits 0x1F v) [])
  else if within i 0x5001 2 then actSet i sub v []
  else if i = 0x5020 then actSet i sub v (between 10 100000 v)
  else if i = 0x5030 then actModuleReset q v
  else if i = 0x5202 then actSet i sub v (between 100 2000 v)
  else fun s =>
    let n := i - 0x5100
    if sub = 2 then judged (between 1 15 v ++ [s.suiteOpen n]) (s.modSuite n ({ · with hangLimit := v }))
    else if sub = 4 then actRelease n v s
    else judged [s.suiteOpen n] (s.modSuite n ({ · with heldNotify := keepBits 0x9F v }))

/-! ### Rows of households, Suites and contexts -/

/-- FAULTQ_HEAD and FAULTQ_CTRL (R236). -/
def actFaultq (hh sub v : Nat) : Act := fun s =>
  judged [s.awake hh] (s.modHouse hh fun h =>
    if sub = 0x49 then { h with faultqHead := BitVec.ofNat 32 v } else { h with faultqCtrl := BitVec.ofNat 32 (keepBits 0x801FFFFF v) })

/-- The entries of a household (R200, R226, R235, R236, R245, R249). -/
def actHouse (q : Chan) (hh sub : Nat) (b : List Byte) : Act :=
  let v := leNat b
  let w := BitVec.ofNat 64 v
  if sub = 2 then actControl hh v
  else if sub = 0x20 then actSuiteRequest hh (BitVec.ofNat 32 v)
  else if sub = 0x22 then actSuiteRelease hh v
  else if sub = 0x30 then actGrant q hh w
  else if sub = 0x40 then actCtxRequest hh w
  else if sub = 0x44 then actPtRoot hh w
  else if sub = 0x46 then actTlbInval hh w
  else if sub = 0x48 then actFaultqBase hh w
  else if sub = 0x50 then actWindowAdd hh b
  else if sub = 0x52 then actWindowRemove q hh v
  else if sub = 0x60 then actFreeze hh v
  else if sub = 0x61 then actSave hh w
  else if sub = 0x62 then actRestore hh w
  else actFaultq hh sub v

/-- The entries of a Suite (R255). -/
def actSuite (n sub : Nat) (b : List Byte) : Act :=
  let v := leNat b
  if sub = 0x10 then actRoomAdd n b
  else if sub = 0x11 then actRoomRemove n v
  else if sub = 0x12 then actRoomMove n (BitVec.ofNat 32 v)
  else if sub = 0x13 then actGroupBind n v
  else if sub = 0x14 then actGroupUnbind n v
  else if sub = 0x15 then actPortBind n v
  else if sub = 0x16 then actKill n v
  else if sub = 9 || sub = 10 then actSuiteSetting n sub (keepBits 0xFFDFFFFFFFFFFFFF v)
  else if sub = 11 then actSuiteSetting n sub (keepBits 0x9F v)
  else actSuiteSetting n sub v

/-- The settings of a context: VECTORS, Ladder and Gutter entries (R60, R132, R220). -/
def actCtxSetting (c sub v : Nat) : Act := fun s =>
  let checks : List (Option Nat) :=
    (if sub = 0x10 then [must (v % 128 = 0) abRange] else if sub = 0x12 then [must (v % 8 = 0) abRange]
      else if sub = 0x11 || sub = 0x13 then [must (v ≤ 4096) abHigh] else []) ++
      [must (((s.ctx? c).map (·.st)) != some .closing) abState]
  judged checks (s.modCtx c fun x =>
    if sub = 9 then { x with vectors := keepBits 0x801F801F v } else if sub = 0x10 then { x with ladderBase := v }
    else if sub = 0x11 then { x with ladderEntries := v } else if sub = 0x12 then { x with gutterBase := v }
    else { x with gutterTrees := v })

/-- The entries of a context (R201). -/
def actContext (q : Chan) (c sub v : Nat) : Act :=
  if sub = 5 then actClearFault c v
  else if sub = 6 then actQueueOpen c (BitVec.ofNat 64 v)
  else if sub = 7 then actQueueClose q c v
  else if sub = 8 then actClose c v
  else actCtxSetting c sub v

/-! ### Security and the Keystone -/

/-- An SPDM request as bytes: the message formats are those of DSP0274 (R395, log entry 30). -/
def actSpdm (q : Chan) (hh : Nat) (b : List Byte) : Act := fun s =>
  .ok (s.spdmAnswer (.dict q hh) (Config.spdmBody 255 0 b), false)

/-- The security entries of a household (R398 to R401, R409). -/
def actKeys (q : Chan) (hh sub : Nat) (b : List Byte) : Act :=
  if sub = 0x10 then actSpdm q hh b
  else if sub = 0x20 then actLatchOpen hh b
  else if sub = 0x22 then actLatchRelease q hh b
  else if sub = 0x23 then actSlotClear hh (leNat b)
  else actBlobDecrypt q hh b

/-- A household envelope with its reserved fields zero (R4, R388). -/
def envelopeRecord (b : List Byte) : List Byte :=
  let f (at' n mask : Nat) : List Byte := leBytes n (keepBits mask (fieldOf b at' n))
  b.take 1 ++ f 1 1 0x03 ++ f 2 1 0x07 ++ (b.drop 3).take 17 ++ f 20 4 0x000F0FFF ++ List.replicate 40 0

/-- Keystone objects and the security engine's own (R382, R385, R387 to R390). -/
def actSecurity (q : Chan) (i sub : Nat) (b : List Byte) : Act :=
  let v := leNat b
  if i = 0x5401 then actLcAdvance q b
  else if i = 0x5402 then actOpenHouse q b
  else if i = 0x5440 then fun s => judged [] { s with security := { s.security with certificate := b } }
  else if i = 0x5C00 then actSet i sub (if sub = 4 then keepBits 0x3F v else v) []
  else if within i 0x5C11 63 then fun s => judged [must (fieldOf b 0 1 = 1) abRange] (s.setBlob i 0 (envelopeRecord b))
  else actSet i sub (keepBits 0xC03F v) []

/-! ### Every object -/

/-- What a download of an object does. -/
def actFor (q : Chan) (i sub : Nat) (b : List Byte) : Act :=
  let v := leNat b
  if i = 0x1017 then actSet i sub v []
  else if i = 0x2401 then (if sub = 2 then actSleep q v else actPower sub v)
  else if i = 0x2430 then actSet i sub v [must (v ≤ 64) abHigh]
  else if within i 0x2500 256 then actGrid (i - 0x2500) v
  else if i = 0x2851 && 4 ≤ sub then actNodePlane sub v
  else if within i 0x2930 4 then actIngest (i - 0x2930) sub v
  else if i < 0x3000 then actBoot i sub v
  else if i < 0x3100 then actHouse q (i - 0x3000) sub b
  else if i < 0x4000 then actSuite (i - 0x3100) sub b
  else if i < 0x5000 then actContext q (i - 0x4000) sub v
  else if i < 0x5400 then actErrors q i sub v
  else if within i 0x5500 64 then actKeys q (i - 0x5500) sub b
  else actSecurity q i sub b

/-- Serve a download of any object. -/
def State.write (s : State) (q : Chan) (i sub : Nat) (b : List Byte) : State := s.download q i sub b (actFor q i sub b)

/-! ### Uploads (R284 to R286, R288) -/

/-- The units whose records cannot be read while their Hall is lost (R378). -/
def State.lostRecords (s : State) (i : Nat) : Bool :=
  (within i 0x5001 2 && (s.hall (i - 0x5001)).lost) || (within i 0x5010 16 && (s.hall ((i - 0x5010) / 8)).lost)

/-- The code with which an upload of one object is refused. -/
def State.unreadable (s : State) (q : Chan) (i sub : Nat) : Option Nat :=
  match s.gate q i sub false with
  | some c => some c
  | none =>
    firstFault [must (!(i == 0x5402 && sub == 3 && s.security.alarm)) abNotPermitted, must (!s.lostRecords i) abState,
      must (!(within i 0x2930 4 && (s.portSuite (i - 0x2930)).isNone)) abState]

/-- What a read leaves behind: reading the Open House challenge makes a fresh one (R385). -/
def State.beforeRead (s : State) (q : Chan) (i : Nat) : State :=
  if i = 0x5402 && (s.unreadable q i 3).isNone then s.freshChallenge else s

/-- What an object reads as, the challenge included. -/
def State.valueOf (s : State) (q : Chan) (i sub : Nat) : List Byte :=
  if i = 0x5402 && sub = 3 then s.challengeBytes else s.value q i sub

/-- The bytes of a whole-index upload: subindex, length and data of every readable subindex from 1 up (R284). -/
def State.wholeIndex (s : State) (q : Chan) (i : Nat) : List Byte :=
  let subs := (List.range 255).filter fun k => k != 0 && (object? i k).isSome && (s.unreadable q i k).isNone
  subs.flatMap fun k => let v := s.valueOf q i k; leBytes 1 k ++ leBytes 2 v.length ++ v

/-- What an upload answers: its code, its data and what it leaves behind.  Subindex 0xFF is the whole index. -/
def State.readObject (s : State) (q : Chan) (i sub : Nat) : Nat × List Byte × State :=
  if sub = 0xFF && !isSingle i then
    match s.gate q i 0 false with
    | some c => (c, [], s)
    | none =>
      let t := s.beforeRead q i
      let b := t.wholeIndex q i
      if b.length ≤ 8192 then (0, b, t) else (abMemory, [], s)
  else match s.unreadable q i sub with
    | some c => (c, [], s)
    | none => let t := if sub = 3 then s.beforeRead q i else s; (0, t.valueOf q i sub, t)

/-- Serve an upload whole. -/
def State.read (s : State) (q : Chan) (i sub : Nat) : State :=
  if s.asleep || s.chanDead q then s
  else match s.readObject q i sub with
    | (0, b, t) => t.reply q i sub 0 b
    | (c, _, t) => t.refuse q i sub c

def execUpload (q : Chan) (index sub : Nat) (s : State) : Host.Outcome State Fault Refusal :=
  onUnits (isChan q) s (s.read q index sub)

def execWholeIndexUpload (q : Chan) (index : Nat) (s : State) : Host.Outcome State Fault Refusal :=
  onUnits (isChan q) s (s.read q index 0xFF)

end Sys2Proof.Machine
end

