-- ==== Sys2Proof/Machine/Channels.lean ====
section
/-! DEFINITION. The dictionary's channels: USDO frames and segmented transfers (R296, R298), the window of BAR0 (R196, R197,
R299 to R301), the Mortar tunnel (R302, R306), the withheld answers (R290), and a Hall as a CAN FD device (R296, R297, R442). -/

namespace Sys2Proof.Machine

/-! ### Segmented transfers (R286, R296, R298, R301) -/

/-- The bytes of data that one USDO frame carries (log entry 50). -/
def frameData : Nat := Config.expedited.val + 1

def State.sessionsOf (s : State) (q : Chan) : List Segments := (s.hall (s.chanHall q)).sessions
def State.session (s : State) (q : Chan) : Option Segments := (s.sessionsOf q).find? (·.chan == q)
def State.modSessions (s : State) (q : Chan) (f : List Segments → List Segments) : State :=
  s.modHall (s.chanHall q) fun x => { x with sessions := f x.sessions }
def State.endSession (s : State) (q : Chan) : State := s.modSessions q (·.filter (·.chan != q))

/-- Sessions that a Hall's CAN FD port holds open (R296). -/
def isCan : Chan → Bool
  | .can _ _ => true
  | _ => false
def State.sessionFree (s : State) (q : Chan) : Bool := !isCan q || decide (countIf (fun x => isCan x.chan) (s.sessionsOf q) < 16)

/-- An initiate frame ends the transfer that is open on its channel (R301). -/
def State.displace (s : State) (q : Chan) : State :=
  match s.session q with
  | some x => (s.endSession q).emit (.answer q x.index x.sub abDisplaced [])
  | none => s

/-- Refuse a frame that belongs to no object. -/
def State.refuseFrame (s : State) (q : Chan) (code : Nat) : State := s.reply q 0 0 code []

/-- An upload that fits one frame is answered with its data; a longer one opens a transfer, whose data is what the object held
at this instant (R286). -/
def State.frameUpload (s : State) (q : Chan) (i sub : Nat) : State :=
  match s.readObject q i sub with
  | (0, b, t) =>
    if b.length ≤ frameData then t.reply q i sub 0 b
    else if !t.sessionFree q then t.reply q i sub abMemory []
    else
      let x : Segments := { chan := q, isUpload := true, index := i, sub, total := b.length, buffer := b, last := t.time }
      (t.modSessions q fun l => l ++ [x]).replyFrame q (.reply (leBytes 4 b.length))
  | (c, _, t) => t.refuse q i sub c

/-- The next segment of an open upload. -/
def State.nextSegment (s : State) (q : Chan) : State :=
  match s.session q with
  | some x =>
    if !x.isUpload then (s.endSession q).reply q x.index x.sub abSequence []
    else if x.buffer.length ≤ frameData then (s.endSession q).reply q x.index x.sub 0 x.buffer
    else
      let y : Segments := { x with buffer := x.buffer.drop frameData, last := s.time }
      (s.modSessions q (·.map fun z => if z.chan == q then y else z)).replyFrame q (.reply (x.buffer.take frameData))
  | none => s.refuseFrame q abSequence

/-- A segment of an open download; the value is checked and takes effect with the last (R286). -/
def State.takeSegment (s : State) (q : Chan) (b : List Byte) (last : Bool) : State :=
  match s.session q with
  | some x =>
    let data := x.buffer ++ b
    if x.isUpload then (s.endSession q).reply q x.index x.sub abSequence []
    else if x.total < data.length || (last && data.length != x.total) then (s.endSession q).reply q x.index x.sub abLength []
    else if last then (s.endSession q).write q x.index x.sub data
    else
      let y : Segments := { x with buffer := data, last := s.time }
      (s.modSessions q (·.map fun z => if z.chan == q then y else z)).replyFrame q (.reply [])
  | none => s.refuseFrame q abSequence

/-- Serve one USDO frame of a channel (R296, R301). -/
def State.serve (s : State) (q : Chan) (f : Frame) : State :=
  match f with
  | .download i sub b => (s.displace q).write q i sub b
  | .downloadInit i sub total =>
    let s := s.displace q
    if !s.sessionFree q then s.reply q i sub abMemory []
    else
      let x : Segments := { chan := q, isUpload := false, index := i, sub, total, buffer := [], last := s.time }
      (s.modSessions q fun l => l ++ [x]).replyFrame q (.reply [])
  | .downloadSegment b last => s.takeSegment q b last
  | .upload i sub => (s.displace q).frameUpload q i sub
  | .uploadSegment => s.nextSegment q
  | .abort _ => (s.endSession q).replyFrame q .empty
  | .empty => s.refuseFrame q abCommand
  | .reply _ => s.refuseFrame q abCommand
  | .broadcast => s.refuseFrame q abCommand
  | .routed => s.refuseFrame q abCommand

/-- A transfer whose next frame is 1 s late is aborted (R298, R301). -/
def execSegmentTimeout (q : Chan) (s : State) : Host.Outcome State Fault Refusal :=
  onUnits (isChan q) s (
    match s.session q with
    | some x => if s.time < x.last + 1000000000 then s else (s.endSession q).reply q x.index x.sub abTimeout []
    | none => s)

/-- A withheld NOT_PERMITTED answer is sent from 50 µs after its request on (R290). -/
def execNotPermittedAnswer (k : Nat) (s : State) : Host.Outcome State Fault Refusal :=
  onUnits true s (
    match s.withheld[k]? with
    | some w =>
      if s.time < w.arrived + 50000 then s
      else
        let rest := s.withheld.take k ++ s.withheld.drop (k + 1)
        (State.reply { s with withheld := rest } w.chan w.index w.sub abNotPermitted []).bump 0x2900 5 32
    | none => s)

/-! ### The window of BAR0 (R196, R197, R299 to R302) -/

/-- A Hall's host port serves memory requests to BAR0 (R377, R420). -/
def State.hostServes (s : State) (h : Nat) : Bool := !s.asleep && !s.failSilent && s.hostLink h

def ctlRemote (w : W32) : Bool := bitOf w.toNat 30
def ctlPlane (w : W32) : Nat := bitsOf w.toNat 29 29
def ctlNode (w : W32) : Nat := bitsOf w.toNat 28 14

/-- Whether a frame begins a transfer (R301). -/
def frameInitiates : Frame → Bool
  | .download _ _ _ => true
  | .downloadInit _ _ _ => true
  | .upload _ _ => true
  | _ => false

/-- A request for another module goes out through Mortar, behind a header with VERSION 1, this module's plane and node and the
channel's household; one that no port can carry gets no response (R302, R432).  An unbound channel has no household to send (log
entry 52). -/
def State.tunnelOut (s : State) (h n : Nat) (c : WindowChannel) : State :=
  let q := Chan.window h n
  if (s.hall h).up.stage < 9 then s.refuseFrame q abState
  else match s.boundTo q with
  | none => s.refuse q 0 0 abNotPermitted
  | some hh =>
    let s := s.modChannel h n ({ · with tunnelAt := some s.time })
    match s.route h (ctlPlane c.control) (ctlNode c.control) with
    | some p => (s.modChannel h n ({ · with tunnelPort := some p })).emit
        (.tunnel p 1 s.plane s.node (ctlPlane c.control) (ctlNode c.control) hh c.copied)
    | none => s

/-- GO: the request frame and CONTROL are copied and the request is served or sent; a GO of a busy channel is discarded and
counted (R301, R302). -/
def State.windowGo (s : State) (h n : Nat) : State :=
  let c := Store.get {} (s.hall h).channels n
  if !s.hostServes h then s
  else if c.busy then s.bump 0x2900 6 32
  else
    let c := { c with copied := c.request, busy := true, done := false, lost := false }
    let s := s.modChannel h n fun _ => c
    let own := ctlPlane c.control == s.plane && ctlNode c.control == s.node
    if ctlRemote c.control && !own then (if frameInitiates c.copied then s.displace (.window h n) else s).tunnelOut h n c
    else s.serve (.window h n) c.copied

def execWindowGo (hall n : Nat) (s : State) : Host.Outcome State Fault Refusal :=
  onUnits (isHall hall && isQueue n) s (s.windowGo hall n)

/-- A response that has not returned within 10 ms of GO is replaced by an abort (R302). -/
def execTunnelTimeout (hall n : Nat) (s : State) : Host.Outcome State Fault Refusal :=
  onUnits (isHall hall && isQueue n) s (
    match (Store.get {} (s.hall hall).channels n).tunnelAt with
    | some t => if s.time < t + 10000000 then s else s.reply (.window hall n) 0 0 abTimeout []
    | none => s)

/-- The response of a tunnelled request. -/
def State.tunnelAnswered (s : State) (h n : Nat) (f : Frame) : State :=
  if ((Store.get {} (s.hall h).channels n).tunnelAt).isSome then s.replyFrame (.window h n) f else s

/-- Bytes of a number with some of them replaced. -/
def patchNat (n old off : Nat) (b : List Byte) : Nat :=
  leNat ((List.range n).map fun k => if off ≤ k && k < off + b.length then b.getD (k - off) 0 else BitVec.ofNat 8 (old / 256 ^ k))

/-- Put bytes into an MSI-X entry: address, data and vector control, whose bit 0 is the mask (R196, R221). -/
def MsixEntry.patch (e : MsixEntry) (off : Nat) (b : List Byte) : MsixEntry :=
  let old := e.addr.toNat + e.data.toNat * 2 ^ 64 + (if e.masked then 2 ^ 96 else 0)
  let new := patchNat 16 old off b
  { e with addr := BitVec.ofNat 64 new, data := BitVec.ofNat 32 (new / 2 ^ 64), masked := bitOf new 96 }

/-- A write of an MSI-X entry; clearing the mask sends a pending message. -/
def State.writeVector (s : State) (h v off : Nat) (b : List Byte) : State :=
  let was := ((s.hall h).vector v).masked
  let s := s.modHall h (·.modVector v (·.patch off b))
  if was && !((s.hall h).vector v).masked then s.unmask h v else s

/-- A write of a window channel's CONTROL: GO sends the request (R300, R301). -/
def State.writeControl (s : State) (h n off : Nat) (b : List Byte) : State :=
  let old := (Store.get {} (s.hall h).channels n).control.toNat
  let new := patchNat 4 old off b
  let s := s.modChannel h n ({ · with control := BitVec.ofNat 32 (keepBits 0x7FFFC000 new) })
  if bitOf new 31 then s.windowGo h n else s

/-- A write within one unit of BAR0: BAR4_BASE, a channel's request frame or CONTROL, or an MSI-X entry; other writes are discarded
(R196). -/
def State.writeUnit (h : Nat) (s : State) (off : Nat) (b : List Byte) : State :=
  if 0x20 ≤ off && off < 0x28 then
    let v := patchNat 8 (s.hall h).bar4Base (off - 0x20) b % 2 ^ 38
    let k := s.bar4Log2 h
    s.modHall h ({ · with bar4Base := v / 2 ^ k * 2 ^ k })
  else if within off 0x1000 0x1000 then
    let n := (off - 0x1000) / 256
    let o := off % 256
    if o < 64 then s.modChannel h n fun c => { c with request := Config.frameOf c.request o b }
    else if within o 0x80 4 then s.writeControl h n (o - 0x80) b
    else s
  else if within off 0x8000 0x8000 then s.writeVector h ((off - 0x8000) / 16) (off % 16) b
  else s

/-- The first offset after `off` at which another unit of BAR0 begins. -/
def unitEnd (off : Nat) : Nat :=
  if off < 0x20 then 0x20
  else if off < 0x28 then 0x28
  else if off < 0x1000 then 0x1000
  else if off < 0x2000 then
    let o := off % 256
    off - o + (if o < 0x40 then 0x40 else if o < 0x80 then 0x80 else if o < 0x84 then 0x84 else 0x100)
  else if off < 0x8000 then 0x8000
  else off / 16 * 16 + 16

/-- A write to BAR0 reaches every unit that its bytes touch, lowest first (R196). -/
def State.writeUnits (h : Nat) : Nat → Nat → List Byte → State → State
  | 0, _, _, s => s
  | fuel + 1, off, b, s =>
    if b.isEmpty then s
    else
      let n := unitEnd off - off
      writeUnits h fuel (off + n) (b.drop n) (s.writeUnit h off (b.take n))
def State.writeBar0 (s : State) (h off : Nat) (b : List Byte) : State :=
  if s.hostServes h then State.writeUnits h b.length off b s else s

/-! ### Reads of BAR0 and BAR2, and doorbell pages by offset (R196, R197, R208, R239, R300) -/

/-- STATUS of R197 and of a window channel (R300). -/
def State.hallStatus (s : State) (h : Nat) : Nat :=
  (if s.ready then 1 else 0) + (if s.degradedHalf then 2 else 0) + (if s.faultPin then 4 else 0) + if (s.hall (1 - h)).lost then 8 else 0
def State.channelStatus (s : State) (h n : Nat) : Nat :=
  let c := Store.get {} (s.hall h).channels n
  0x01000000 + ((s.boundTo (.window h n)).getD 0xFF) * 2 ^ 16 + (if c.busy then 2 ^ 15 else 0) + (if c.done then 2 ^ 14 else 0) +
    if c.lost then 2 ^ 13 else 0

/-- The global registers, 0x00 to 0x2B; the rest of the range reads zero (R197). -/
def State.globalBytes (s : State) (h : Nat) : List Byte :=
  leBytes 4 1 ++ leBytes 4 h ++ leBytes 8 s.time ++ leBytes 4 ((s.hall h).up.stage % 16) ++ leBytes 4 (s.hallStatus h) ++
    leBytes 4 (s.hall h).drops ++ leBytes 4 0 ++ leBytes 8 (s.hall h).bar4Base ++ leBytes 4 (s.bar4Log2 h)

/-- A window channel (R299, R300); GO reads 0. -/
def State.channelBytes (s : State) (h n : Nat) : List Byte :=
  let c := Store.get {} (s.hall h).channels n
  (Config.frameBytes c.request).toList ++ (Config.frameBytes c.response).toList ++ leBytes 4 c.control.toNat ++ leBytes 4 (s.channelStatus h n)

/-- The 16 bytes of an MSI-X entry, and the eight pending bits of a byte of the pending-bit array (R196, R221). -/
def MsixEntry.bytes (e : MsixEntry) : List Byte := leBytes 8 e.addr.toNat ++ leBytes 4 e.data.toNat ++ leBytes 4 (if e.masked then 1 else 0)
def State.pendingByte (s : State) (h k : Nat) : Byte :=
  BitVec.ofNat 8 (((List.range 8).map fun j => if ((s.hall h).vector (8 * k + j)).isPending then 2 ^ j else 0).sum)

/-- One byte of BAR0; reserved ranges read zero (R196). -/
def State.bar0Byte (s : State) (h off : Nat) : Byte :=
  if off < 0x100 then (s.globalBytes h).getD off 0
  else if within off 0x1000 0x1000 then (s.channelBytes h ((off - 0x1000) / 256)).getD (off % 256) 0
  else if within off 0x7F00 0x100 then s.pendingByte h (off - 0x7F00)
  else if within off 0x8000 0x8000 then (((s.hall h).vector ((off - 0x8000) / 16)).bytes).getD (off % 16) 0
  else 0

/-- A host read of BAR0; fail-silent serves the global registers alone (R196, R377). -/
def State.readBar0 (s : State) (h off n : Nat) : State :=
  if s.asleep || !s.hostLink h then s
  else if s.failSilent && decide (0x100 < off + n) then s.emit (.hostAnswer h false false [])
  else s.emit (.hostAnswer h true false ((List.range n).map fun k => s.bar0Byte h (off + k)))

/-- The word at 0x800 of a doorbell page: the context's STATE and its open queues (R201, R208). -/
def State.bellWord (s : State) (c : Nat) : Nat :=
  match s.ctx? c with
  | none => 0
  | some x => ctxCode x.st + ((List.range 16).map fun q => if (x.queue q).st == .opened then 2 ^ (8 + q) else 0).sum

/-- A host read of a doorbell page: an Unsupported Request before stage 9 and in fail-silent (R208, R377, R420). -/
def State.readBar2 (s : State) (h c off n : Nat) : State :=
  if s.asleep || !s.hostLink h then s
  else if s.failSilent || decide ((s.hall h).up.stage < 9) then s.emit (.hostAnswer h false false [])
  else s.emit (.hostAnswer h true false ((List.range n).map fun k => if within (off + k) 0x800 4 then (leBytes 4 (s.bellWord c)).getD (off + k - 0x800) 0 else 0))

/-- A host write of a doorbell page: a tail doorbell, the replay doorbell with its ACTION, or a reserved place, whose write is
discarded (R208, R239). -/
def State.writeBar2 (s : State) (h c off : Nat) (b : List Byte) : State :=
  if s.asleep || !s.hostLink h then s
  else if off < 0x80 && off % 8 = 0 then s.ringTail h c (off / 8) b.length (BitVec.ofNat 32 (leNat b))
  else if off = 0x400 then
    let seq := BitVec.ofNat 32 (leNat b)
    if b.length != 8 then s.dropBell h
    else if b[6]? = some 1 then s.replayBell h c 8 (b.getD 7 0) State.replayStall seq
    else if b[6]? = some 2 then s.replayBell h c 8 (b.getD 7 0) State.refuseStall seq
    else s.dropBell h
  else s

/-- The host resizes BAR4, whose base stays aligned to its size (R195, R197); a withheld BAR4 has no size to change (R198). -/
def State.resizeBar4 (s : State) (h k : Nat) : State :=
  if s.asleep || s.failSilent || !s.hostLink h || s.bar4Log2 h = 0 then s
  else s.modHall h fun x => { x with bar4Size := some k, bar4Base := x.bar4Base / 2 ^ k * 2 ^ k }

/-- A write of a dictionary object, of a register of BAR0 or BAR2, of a channel's request frame or of the size of BAR4, and a host's
read of BAR0 or BAR2. -/
def execRegisterWrite (q : Chan) (target : Target) (data : List Byte) (s : State) : Host.Outcome State Fault Refusal :=
  onUnits (isChan q && isTarget target) s (
    match target with
    | .object i sub => s.write q i sub data
    | .bar0 h off => s.writeBar0 h off data
    | .frame h n f => if s.hostServes h then s.modChannel h n ({ · with request := f }) else s
    | .bar2 h c off => s.writeBar2 h c off data
    | .bar4Size h k => s.resizeBar4 h k
    | .bar0Read h off n => s.readBar0 h off n
    | .bar2Read h c off n => s.readBar2 h c off n)

/-! ### The tunnel's target (R302, R306) -/

/-- Whether the tunnel policy admits a source (R303). -/
def State.tunnelAdmits (s : State) (plane node household : Nat) : Bool :=
  let policy := s.dictGet 0x2901 3
  let scope := policy % 4
  let peer := s.pairPorts.any fun p => s.portUp p && (s.port p).peerPlane == plane && (s.port p).peerNode == node
  decide (plane < 2) && decide (node < 32768) && decide (household < 64) && (household != 0 || bitOf policy 2) &&
    (if scope = 0 then false else if scope = 1 then peer else if scope = 2 then plane == s.plane else true)

/-- The object that a frame names. -/
def frameNames : Frame → Nat × Nat
  | .download i sub _ => (i, sub)
  | .downloadInit i sub _ => (i, sub)
  | .upload i sub => (i, sub)
  | _ => (0, 0)

/-- A request of another module. -/
def execTunnelRequest (version plane node household : Nat) (f : Frame) (s : State) : Host.Outcome State Fault Refusal :=
  onUnits true s (
    let q := Chan.tunnel plane node household
    if s.asleep || s.failSilent then s
    else if 1 < version then s.replyFrame q (.abort abRange)
    else if !s.tunnelAdmits plane node household then s.refuse q (frameNames f).1 (frameNames f).2 abNotPermitted
    else s.serve q f)

/-! ### The CAN FD port of a Hall (R296, R297, R304, R442) -/

/-- The port is alive from stage 2 on, and off while the controller is bus-off. -/
def State.canAlive (s : State) (h : Nat) : Bool :=
  !s.asleep && !(s.hall h).lost && decide (2 ≤ (s.hall h).up.stage) && (s.hall h).can != .busOff

/-- USDO is served in PRE-OPERATIONAL and OPERATIONAL, and to the extent of R377 once the module is fail-silent. -/
def execUsdoFrame (hall node : Nat) (f : Frame) (s : State) : Host.Outcome State Fault Refusal :=
  onUnits (isHall hall && isNode node) s
    (if s.canAlive hall && ((s.hall hall).nmt != .stopped || s.failSilent) then s.serve (.can hall node) f else s)

/-- The CAN controller of a Hall is reset, and nothing else: it is error-active, PRE-OPERATIONAL, its sessions are gone, and it
sends the boot-up message (R296, log entry 53). -/
def State.resetCan (s : State) (h : Nat) : State :=
  if s.asleep || s.failSilent || (s.hall h).up.stage < 2 then s
  else
    let s := s.modHall h fun x => { x with can := .active, nmt := .preOperational, sessions := x.sessions.filter fun y => !isCan y.chan }
    (s.emit (.canBootUp h)).refresh

def execNmtResetApplication (hall : Nat) (s : State) : Host.Outcome State Fault Refusal := onUnits (isHall hall) s (s.resetCan hall)

def execNmtResetCommunication (hall : Nat) (s : State) : Host.Outcome State Fault Refusal := onUnits (isHall hall) s (s.resetCan hall)

/-- A fail-silent Hall stays STOPPED (R377). -/
def execNmtStateCommand (hall : Nat) (st : NmtState) (s : State) : Host.Outcome State Fault Refusal :=
  onUnits (isHall hall) s (if s.canAlive hall && !s.failSilent then s.modHall hall ({ · with nmt := st }) else s)

/-- Heartbeats are off while the producer time is 0. -/
def execHeartbeat (hall : Nat) (s : State) : Host.Outcome State Fault Refusal :=
  onUnits (isHall hall) s
    (if s.canAlive hall && s.dictGet 0x1017 0 != 0 then s.emit (.heartbeat hall (s.hall hall).nmt) else s)

/-- The controller's error state is bit 4 of the error register. -/
def execCanErrorState (hall : Nat) (st : CanState) (s : State) : Host.Outcome State Fault Refusal :=
  onUnits (isHall hall) s (if s.asleep then s else (s.modHall hall ({ · with can := st })).refresh)

end Sys2Proof.Machine
end

