-- ==== Sys2Proof/Machine/BringUp.lean ====
section
/-! DEFINITION. Bring-up from power-on to READY (R313, R314, R411 to R422), the Keystone seal (R387 to R392), tamper (R404 to
R406), and the input, presence and reset pins (R420, R422, R425, R428, R441, R442). -/

namespace Sys2Proof.Machine

/-! ### The stages of a Hall (R415, R418, R419) -/

/-- The physical failures that a stage can report; the others are found by the rules of the stage itself. -/
def reportable (stage code : Nat) : Bool :=
  if stage = 0 then code = 1 || code = 2
  else if stage = 1 then code = 3 || code = 4
  else if stage = 2 then code = 6 || code = 7
  else if stage = 3 then code = 0x0D || code = 0x0E
  else if stage = 4 then code = 0x0F
  else stage = 6 && code = 0x10

/-- A Hall runs its stages: it is neither held nor lost, and bring-up has not ended. -/
def State.bringing (s : State) (h : Nat) : Bool :=
  !s.asleep && !s.failSilent && !(s.hall h).up.ended && !(s.hall h).lost

/-- The other Hall, held by its own failure, takes no part in the stages (R419). -/
def State.alone (s : State) (h : Nat) : Bool := (s.hall (1 - h)).up.held || (s.hall (1 - h)).lost

/-- Halls, Floors and Rooms of a Wing. -/
def wingFloors (h : Nat) : List Nat := [2 * h, 2 * h + 1]
def wingRooms (h : Nat) : List Nat := span (640 * h) 640

/-! ### The boot script (R411 to R414) -/

/-- A record as it stands in flash (R413). -/
def scriptRecordBytes (x : ScriptRecord) : List Byte :=
  leBytes 2 x.index ++ leBytes 1 x.sub ++ leBytes 1 x.kind ++ leBytes 2 x.data.length ++ leBytes 2 0 ++ x.data ++
    leBytes ((8 - x.data.length % 8) % 8) 0

def copyBytes (x : ScriptCopy) : List Byte := x.records.flatMap scriptRecordBytes

/-- The bytes that the signature and the digest cover (R412). -/
def signedBytes (x : ScriptCopy) : List Byte :=
  leBytes 1 x.version ++ leBytes 1 x.kind ++ leBytes 2 0 ++ leBytes 4 (copyBytes x).length ++ leBytes 4 x.sequence ++ leBytes 4 0 ++
    (x.serial ++ List.replicate 16 0).take 16 ++ leBytes 32 0 ++ (copyBytes x)

/-- Whether a copy is valid: legal header, serial number, signature (R411). -/
def State.copyValid (s : State) (x : ScriptCopy) : Bool :=
  let n := (copyBytes x).length
  x.version == 1 && x.kind == 2 && decide (8 ≤ n) && decide (n ≤ 1048416) &&
    (x.serial == List.replicate 16 0 || x.serial == s.security.serial) &&
    match s.trustKey with
    | some key => Config.ecdsaVerify key (signedBytes x) x.signature
    | none => false

/-- A record that breaks R413: END is the last record and the only one, and a WRITE carries 1 to 8,192 bytes. -/
def recordMalformed : List ScriptRecord → Option ScriptRecord
  | [] => some { index := 0, sub := 0, kind := 0, data := [] }
  | [x] => if x.kind = 2 && x.data = [] then none else some x
  | x :: l => if x.kind = 1 && 1 ≤ x.data.length && x.data.length ≤ 8192 then recordMalformed l else some x

/-- The action objects (R414). -/
def isAction (i sub : Nat) : Bool :=
  (i == 0x2401 && sub == 2) || (i == 0x5030 && sub == 1) || (i == 0x5401 && sub == 2) || (i == 0x5402 && sub == 4)

/-- Checks 2 to 4 of R289 as they stand for the script (R414). -/
def scriptGate (x : ScriptRecord) : Option Nat :=
  if objectsAt x.index = [] then some abNoObject
  else match object? x.index x.sub with
  | none => some abNoSub
  | some o =>
    if isRow x.index || isAction x.index x.sub then some abState
    else if o.right == .const || o.right == .ro then some abWriteRo
    else must (o.len.accepts x.data.length) abLength

/-- Apply one record, or the code of its refusal. -/
def State.applyRecord (s : State) (x : ScriptRecord) : Except Nat State :=
  match scriptGate x with
  | some c => .error c
  | none => (actFor .own x.index x.sub x.data s).map (·.1)

/-- Apply the WRITE records in order; the first refused record ends the script. -/
def State.applyScript : State → List ScriptRecord → Except (ScriptRecord × Nat) State
  | s, [] => .ok s
  | s, x :: l =>
    if x.kind != 1 then applyScript s l
    else match s.applyRecord x with
    | .ok t => applyScript t l
    | .error c => .error (x, c)

/-- DETAIL of RECORD_REFUSED (R418). -/
def refusedDetail (x : ScriptRecord) (code : Nat) : Nat := x.index % 65536 + x.sub % 256 * 65536 + code % 2 ^ 32 * 2 ^ 32

/-! ### The Keystone seal (R387 to R392) -/

/-- The envelopes that the script wrote, by index. -/
def State.envelopes (s : State) : List (Nat × Nat) := ((span 1 63).filter s.hasEnvelope).map fun hh => (0x5C10 + hh, hh)

/-- Whether an envelope alone is refused (R388, R391). -/
def State.envelopeBad (s : State) (hh : Nat) : Bool :=
  let modes := s.envModes hh
  fieldOf (s.envelope hh) 0 1 != 1 || decide (s.envMaxRooms hh < s.envMinRooms hh) || decide (s.envMaxPages hh < s.envMinPages hh) ||
    (s.envFlag hh 0 && (bitOf modes 0 || !(bitOf modes 1 || bitOf modes 2))) || decide (3 < s.envClass hh) || decide (7 < s.envShare hh) ||
    s.envSuites hh == 0 || decide (4096 < s.envWindows hh)

/-- The first object that fails the seal check, in ascending index; a sum is charged to the envelope that passes it (log
entry 55). -/
def State.sealFailure (s : State) : Option (Nat × Nat) :=
  let role := s.dictGet 0x5C00 5
  let keystone : Option (Nat × Nat) :=
    if bitsOf s.policy 3 2 = 3 then some (0x5C00, 4) else if 2 < role then some (0x5C00, 5) else none
  let upTo (hh : Nat) (f : Nat → Nat) : Nat := ((s.envelopes.filter fun e => e.2 ≤ hh).map fun e => f e.2).sum
  let envelope := s.envelopes.find? fun e =>
    s.envelopeBad e.2 || decide (1216 < upTo e.2 s.envMinRooms) || decide (37748736 < upTo e.2 s.envMinPages)
  let slot := (List.range 64).find? fun k =>
    let kind := s.slotKind k
    kind == 3 || (kind != 0 && !s.hasEnvelope (s.slotHouse k)) ||
      (kind == 2 && (List.range k).any fun j => s.slotKind j == 2 && s.slotHouse j == s.slotHouse k)
  keystone.orElse fun _ => (envelope.map fun e => (e.1, 0)).orElse fun _ => slot.map fun k => (0x5D00 + k, 0)

/-- The indices that hold BOOT objects, ascending. -/
def bootIndices : List Nat :=
  [0x2401] ++ span 0x2601 4 ++ span 0x27C0 2 ++ span 0x2810 4 ++ [0x2851] ++ span 0x2860 12 ++ [0x2901] ++ span 0x2910 2 ++
    span 0x2920 2 ++ [0x2A01, 0x2A02, 0x5440, 0x5C00] ++ span 0x5C11 63 ++ span 0x5D00 64

/-- What the Keystone digest covers: every BOOT object, with its index, subindex, length and data (R392, log entry 55). -/
def State.keystoneBytes (s : State) : List Byte :=
  (bootIndices.filter s.indexExists).flatMap fun i =>
    ((objectsAt i).filter fun o => o.right == .boot).flatMap fun o =>
      let v := s.value .own i o.sub
      leBytes 2 i ++ leBytes 1 o.sub ++ leBytes 2 v.length ++ v

/-- Check the Keystone and seal it. -/
def State.sealKeystone (s : State) (h : Nat) : State ⊕ State :=
  match s.sealFailure with
  | some (i, sub) =>
    let d := Config.detail i sub
    .inr ((s.report 10 2 4 0 0 0 d).stageFail h 0x0C d)
  | none =>
    let digest := Config.sha384 s.keystoneBytes
    .inl { s with security :=
      { s.security with isSealed := true, keystoneDigest := digest
                        chainMatches := decide (Config.leafKey s.security.certificate = s.security.identity) } }

/-! ### What each stage does at its end -/

/-- Stage 1: the fuses are read, and the life cycle decided (R381).  `fuses` are the bits that read 1 this time. -/
def State.readFuses (s : State) (h : Nat) (fuses : List Nat) : State ⊕ State :=
  let x := s.security
  let y := match fuses with
    | [a, b, c] => { x with lcTest := a, lcSealed := b, lcRetired := c }
    | _ => x
  let (code, bad) := y.readLife
  let s : State := { s with security := { x with lifecycle := code } }
  match bad with
  | some k => .inr ((s.report 10 4 4 0 0 0 k).stageFail h 5 k)
  | none => .inl s

/-- Stage 2: the copies in the Hall's flash are verified, and the valid one with the higher SEQUENCE is used (R411). -/
def State.chooseCopy (s : State) (h : Nat) (a b : Option ScriptCopy) : State ⊕ State :=
  let valid (x : Option ScriptCopy) : Option ScriptCopy := x.filter s.copyValid
  let bad (k : Nat) (x : Option ScriptCopy) (s : State) : State := if (valid x).isSome then s else s.report 10 1 2 6 h 0 k
  let t := bad 1 b (bad 0 a s)
  let chosen : Option (Nat × ScriptCopy) :=
    match valid a, valid b with
    | some x, some y => if x.sequence < y.sequence then some (1, y) else some (0, x)
    | some x, none => some (0, x)
    | none, some y => some (1, y)
    | none, none => none
  if s.security.lifecycle = 3 then .inr (s.stageFail h 0x0A 0)
  else match chosen with
  | none => .inr (t.stageFail h 8 3)
  | some (k, x) =>
    let digest := Config.sha384 (signedBytes x)
    let t := t.modUp h fun u =>
      { u with copyUsed := k, sequence := x.sequence, digest, script := x.records, selfTested := true }
    .inl { t with security := { t.security with scriptDigest := digest } }

/-- Stage 3: the script is applied once, by whichever Hall comes first, since both hold the same one; then the Keystone is
sealed (R414). -/
def State.applyBoot (s : State) (h : Nat) : State ⊕ State :=
  if s.security.isSealed then .inl (s.modUp h fun u => { u with applied := countIf (·.kind == 1) u.script })
  else
    let script := (s.hall h).up.script
    match recordMalformed script with
    | some x =>
      let (d, s) := s.draw
      .inr (s.stageFail h 0x0B (refusedDetail x d))
    | none =>
      match s.applyScript script with
      | .error (x, c) => .inr (s.stageFail h 0x0B (refusedDetail x c))
      | .ok s => (s.modUp h fun u => { u with applied := countIf (·.kind == 1) u.script }).sealKeystone h

/-- Stage 6: HBM lanes are repaired, and every populated unit of the Wing is marked washing (R155, R394). -/
def State.trainHbm (s : State) (h : Nat) (lost : List Nat) (badLanes : List (Nat × List Nat × List Nat)) : State ⊕ State :=
  let bad (p : Nat) : List Nat × List Nat := ((badLanes.find? fun e => e.1 == p).map (·.2)).getD ([], [])
  let s := (span (64 * h) 64).foldl (State.trainPc bad lost) s
  match (wingFloors h).find? fun k => (span (32 * k) 32).all fun p => !s.pcOk p with
  | some k => .inr (s.stageFail h 0x10 k)
  | none => .inl ((wingFloors h).foldl (fun s k => { s with washFrom := Store.set 0 s.washFrom k stackPages }) s)

/-- The parts of a Room that a self-test can fail (R21). -/
def Room.losePart (x : Room) (part : Nat) : Room :=
  if part = 0 then { x with deadForeman := true } else if part = 1 then { x with deadPantry := true }
  else if part = 2 then { x with deadDma := true } else { x with deadGutter := true }

/-- Rooms that find no route are left out of the Floor Plan as well, each with a ROUTE record (R123, R358, R419). -/
def State.routesAtTest (f : Nat) : Nat → State → State
  | 0, s => s
  | fuel + 1, s =>
    match s.unreachable f with
    | [] => s.noteRoutes f
    | l => routesAtTest f fuel (l.foldl (fun s p =>
        (s.report 3 2 2 2 (320 * f + p) 0 (320 * f + p)).modRoom (320 * f + p) ({ · with life := .lostAtTest })) s)

/-- Stage 8: what the self-tests found, with every Room cleared (R327, R394, R415). -/
def State.testRooms (s : State) (h : Nat) (r : StageReport) : State :=
  let mine (x : Nat) : Bool := hallOfRoom x == h
  let s := (wingRooms h).foldl (fun s x => s.modRoom x Room.cleared) s
  let s := (r.lostRooms.filter mine).foldl (fun s x => s.modRoom x ({ · with life := .lostAtTest })) s
  let s := (r.lostParts.filter fun e => mine e.1).foldl (fun s e => s.modRoom e.1 (·.losePart e.2)) s
  let s := (r.lostBricks.filter fun g => mine (g / 256)).foldl
    (fun s g => s.modRoom (g / 256) fun x => { x with deadBricks := x.deadBricks ||| (1#256 <<< (g % 256)) }) s
  let s := (r.badDirectories.filter (wingFloors h).contains).foldl (fun s f => s.modFloor f ({ · with directoryDead := true })) s
  let s := (r.offsets.filter fun e => (wingFloors h).contains e.1).foldl (fun s e => s.modFloor e.1 ({ · with offset := min 60 e.2 })) s
  (wingFloors h).foldl (fun s f => State.routesAtTest f 320 s) s

/-- Whether some count lies below R18. -/
def State.belowMinimum (s : State) : Bool :=
  let routers (a n : Nat) : Nat := countIf (fun r => !(s.room r).deadRouter) (span a n)
  let pcs (a n : Nat) : Nat := countIf s.pcOk (span a n)
  let short (a n pa pn bricks rooms rtr ch : Nat) : Bool :=
    decide (s.workingBricks a n < bricks) || decide (s.usableRooms a n < rooms) || decide (routers a n < rtr) || decide (pcs pa pn < ch)
  (List.range 4).any (fun f => short (320 * f) 320 (32 * f) 32 76800 304 320 32) ||
    (List.range 2).any (fun h => short (640 * h) 640 (64 * h) 64 153600 608 640 64) || short 0 1280 0 128 307200 1216 1280 128

/-- The Rooms and pseudo-channels of a held Wing did not pass their tests (R419, log entry 54). -/
def State.leaveOut (s : State) (h : Nat) : State :=
  let s := (wingRooms h).foldl (fun s r => s.modRoom r ({ · with life := .lostAtTest })) s
  (span (64 * h) 64).foldl (fun s p => s.modPc p ({ · with lostAtTest := true })) s

/-- The Floor Plan is built at generation 0, once the last Hall has tested its Wing; counts below R18 write a FLOORPLAN record,
whose code and severity the manual does not give (R18, R419, log entry 2).  DESIGN CHOICE: 0x2200.05, for which R20 gives no
value before the first change, holds the moment at which the plan was built (log entry 81). -/
def State.buildPlan (s : State) (h : Nat) : State :=
  if !(s.alone h) && (s.hall (1 - h)).up.stage ≤ 8 then s
  else
    let s := if s.alone h then s.leaveOut (1 - h) else s
    let s := (s.dictSet 0x2200 4 0).dictSet 0x2200 5 s.time
    if s.belowMinimum then
      let (code, s) := s.draw
      let (severity, s) := s.draw
      s.report 8 (code % 65536) (severity % 5) 0 0 0 0
    else s

/-- DETAIL of a passed stage 8 (R416). -/
def State.planDetail (s : State) : Nat := flag s.belowMinimum + s.usableRooms 0 1280 * 65536

/-- Stage 9: Mortar ports train (R415, R421). -/
def State.startLinks (s : State) (h : Nat) : State :=
  (span (6 * h) 6).foldl (fun s p => if s.portDirection p = 0xFF || (s.port p).st != 0 then s else s.modPort p ({ · with st := 1 })) s

/-- READY, once every Hall that runs has reached stage 10 (R197, R415). -/
def State.bringReady (s : State) (h : Nat) : State :=
  let s := s.modUp h fun u => { u.close (if s.alone h then 3 else 1) 0 0 s.time with ended := true }
  if s.ready || !(s.alone h || (s.hall (1 - h)).up.stage = 10) then s
  else State.refresh { s with ready := true, power := { s.power with st := .idle } }

/-- What the wake left to do at the start of stage 2: WAKE# is driven until PERST# is deasserted (R311), and the CAN FD port
sends its boot-up message (R420). -/
def State.enterTwo (s : State) (h : Nat) : State :=
  let w := s.power.wakeRecord.toNat
  let s := s.emit (.canBootUp h)
  if s.resetCause == 1 && w % 8 != 3 && (s.hall h).perst then (s.modHall h ({ · with wakeOut := true })).emit (.wakeOut h) else s

/-- The stage of a Hall passes. -/
def State.stagePass (s : State) (h detail : Nat) : State :=
  let result := if s.alone h then 3 else 1
  let s := s.modUp h fun u => (u.close result 0 detail s.time).next s.time
  let stage := (s.hall h).up.stage
  if stage = 2 then s.enterTwo h
  else if stage = 9 then s.startLinks h
  else if stage = 10 then s.bringReady h
  else s

/-- The end of stage 2: a Hall whose script is verified waits for the other's, and they compare digests over the Lintel line; a
mismatch holds Wing E (R415, R418).  A Hall alone passes at once (R419). -/
def State.passTwo (s : State) (h : Nat) : State :=
  let w := (s.hall 0).up
  let e := (s.hall 1).up
  if s.alone h then s.stagePass h 0
  else if !(w.selfTested && e.selfTested) then s
  else if w.digest = e.digest then (s.stagePass 0 0).stagePass 1 0
  else (s.stageFail 1 9 e.sequence).stagePass 0 0

/-- What must have come about before a stage can end: the steps of R313, and what the other Hall still has to do. -/
def State.stageDue (s : State) (h stage : Nat) : Bool :=
  (stage < 3 || s.alone h || decide (stage ≤ (s.hall (1 - h)).up.stage)) &&
    (if stage = 0 then decide (2 ≤ s.power.upStep)
      else if stage = 1 then decide (4 ≤ s.power.upStep)
      else if stage = 3 then decide (10 ≤ s.power.upStep)
      else if stage = 5 then (wingFloors h).all fun f => (s.floor f).switchGroups == 20
      else if stage = 9 then !s.power.tamperWake || ((List.range 4).all fun k => Store.get 0 s.washFrom k == 0)
      else true)

/-- What a stage does at its end: the state in which it passes, or that of its failure. -/
def State.stageWork (s : State) (h stage : Nat) (r : StageReport) : State ⊕ State :=
  if stage = 1 then s.readFuses h r.fuses
  else if stage = 2 then (if (s.hall h).up.selfTested then .inl s else s.chooseCopy h r.copyA r.copyB)
  else if stage = 3 then s.applyBoot h
  else if stage = 4 then .inl (if r.lintelUp || s.alone h then s else { s with lintelDown := true })
  else if stage = 6 then s.trainHbm h r.lostPcs r.badLanes
  else if stage = 7 then
    .inl ((r.lostRouters.filter fun x => hallOfRoom x == h).foldl (fun s x => s.modRoom x ({ · with deadRouter := true })) s)
  else if stage = 8 then .inl ((s.testRooms h r).buildPlan h)
  else .inl s

/-- A Hall ends its present stage (R415, R418). -/
def State.endStage (s : State) (h : Nat) (r : StageReport) : State :=
  let stage := (s.hall h).up.stage
  if !s.bringing h then s
  else if r.failure != 0 then (if reportable stage r.failure then s.stageFail h r.failure r.detail else s)
  else if !s.stageDue h stage then s
  else match s.stageWork h stage r with
  | .inl t => if stage = 2 then t.passTwo h else t.stagePass h (if stage = 8 then t.planDetail else 0)
  | .inr t => t

def execBringupStage (hall : Nat) (report : StageReport) (s : State) : Host.Outcome State Fault Refusal :=
  onUnits (isHall hall) s (s.endStage hall report)

/-! ### Time limits, rails and switches (R313, R314, R415, R441) -/

/-- How long the stage has run, without the time for which SVC_EN# suspends stage 2. -/
def State.stageTime (s : State) (h : Nat) : Nat :=
  let x := s.hall h
  let now := if x.up.stage = 2 && x.svcLow then s.time - max x.svcSince x.up.start else 0
  s.time - x.up.start - x.up.suspendedFor - now

def execStageTimeout (hall : Nat) (s : State) : Host.Outcome State Fault Refusal :=
  onUnits (isHall hall) s (
    let stage := (s.hall hall).up.stage
    if !s.bringing hall || s.stageTime hall < stageLimit s stage then s
    else s.stageFail hall 0x11 (stageLimit s stage / 1000))

/-- SVC_EN# of a Hall goes low or high (R441). -/
def execSvcEn (hall : Nat) (low : Bool) (s : State) : Host.Outcome State Fault Refusal :=
  onUnits (isHall hall) s (
    let x := s.hall hall
    if low == x.svcLow then s
    else if low then s.modHall hall ({ · with svcLow := true, svcSince := s.time })
    else
      let gone := if x.up.stage = 2 then s.time - max x.svcSince x.up.start else 0
      s.modHall hall fun x => { x with svcLow := false, up := { x.up with suspendedFor := x.up.suspendedFor + gone } })

/-- The stage in which a step of R313 runs, and the code of its failure (R314, R418). -/
def stepStage (n : Nat) : Nat := if n ≤ 2 then 0 else if n ≤ 4 then 1 else 3
def stepFailure (n : Nat) : Nat := if n = 1 then 1 else if n = 2 then 2 else if n ≤ 4 then 3 else if n ≤ 6 then 0x0D else 0x0E
/-- The Floors in the order of steps 7 to 10. -/
def stepFloor (n : Nat) : Nat := [0, 2, 1, 3].getD (n - 7) 0

/-- A step of R313 reaches power-good, or fails it, which asserts FAULT# and is not tried again (R314).  What a failed step names is what DETAIL of its code takes: the Hearth, the
rail and the stack of steps 1 to 6 are free (log entry 2). -/
def State.powerStep (s : State) (good : Bool) : State :=
  let n := s.power.upStep + 1
  let hall := if n = 4 then 1 else if 7 ≤ n then stepFloor n / 2 else if s.bringing 0 then 0 else 1
  let at' (h : Nat) : Bool := s.bringing h && (s.hall h).up.stage == stepStage n
  if 10 < n || !(at' 0 || at' 1) then s
  else if good then
    let s : State := { s with power := { s.power with upStep := n } }
    if 7 ≤ n then s.modFloor (stepFloor n) ({ · with powerGood := true }) else s
  else
    let (d, s) := s.draw
    let detail := if 7 ≤ n then stepFloor n else d % 2 ^ 64
    let s : State := if wingScope (stepFailure n) then { s with power := { s.power with upStep := n } } else s
    State.stageFail { s with faultPin := true, power := { s.power with upFailed := true } } hall (stepFailure n) detail

def execPowerUpStep (good : Bool) (s : State) : Host.Outcome State Fault Refusal := onUnits true s (s.powerStep good)

/-- The switches of some Rooms of a Floor close; those in `failed` fail power-good, and their Rooms stay off (R21, R313).  The next
group of the Floor follows 20 µs later. -/
def State.closeSwitches (s : State) (f : Nat) (rooms failed : List Nat) : State :=
  rooms.foldl (fun s r => s.modRoom r fun x =>
    if failed.contains r then { x with life := .lostAtTest, power := .fenced } else { x with power := .clocked })
    (s.modFloor f ({ · with switchFrom := s.time + 20000 }))

/-- The Rooms of a Floor that wait to be woken from DOZE for a Suite, in ascending order (R262, R313). -/
def State.wakingRooms (s : State) (f : Nat) : List Nat :=
  (span (320 * f) 320).filter fun r => (s.room r).joining && (s.room r).power == .doze

/-- One group of 16 Room switches of a Floor closes, in ascending Room index: at stage 5 the next 16 Rooms, and in service up to 16
that join a Suite from DOZE; one of these that fails power-good does not join (R262, R313). -/
def State.switchGroup (s : State) (f : Nat) (failed : List Nat) : State :=
  let h := f / 2
  let g := (s.floor f).switchGroups
  if s.time < (s.floor f).switchFrom then s
  else if s.ready then
    let rooms := (s.wakingRooms f).take 16
    let s := s.closeSwitches f rooms failed
    (rooms.filter failed.contains).foldl (fun s r =>
      let n := (s.suiteOf r).getD 0
      (s.whitewashFailed r).finishLanding n) s
  else if !s.bringing h || (s.hall h).up.stage != 5 || 20 ≤ g then s
  else (s.modFloor f ({ · with switchGroups := g + 1 })).closeSwitches f (span (320 * f + 16 * g) 16) failed

def execRoomSwitchGroup (floor : Nat) (failed : List Nat) (s : State) : Host.Outcome State Fault Refusal :=
  onUnits (isFloor floor) s (s.switchGroup floor failed)

/-! ### Tamper (R404 to R406) -/

/-- The record of the latest tamper event (R405, R409). -/
def tamperBytes (sensor phase now : Nat) : List Byte := leBytes 1 sensor ++ leBytes 1 phase ++ leBytes 6 0 ++ leBytes 8 now

def State.noteTamper (s : State) (sensor phase : Nat) : State :=
  let fired := s.security.fired ||| 2 ^ (sensor - 1)
  { s with security := { s.security with latest := tamperBytes sensor phase s.time, fired } }

/-- A key operation in hand aborts: a decrypt's destination is washed, an image fails, a Latchkey session closes (R405). -/
def State.abortKeys (s : State) : State :=
  (span 1 63).foldl (fun s hh =>
    let h := s.house hh
    let s := match h.blob with
      | some b => (s.washBlob b).modHouse hh ({ · with blob := none, blobStatus := 0x01320000#32 }) |>.refuse b.requester (0x5500 + hh) 0x30 abNotPermitted
      | none => s
    s.modHouse hh fun h =>
      { h with image := none, latch := none, migration := if h.image.isSome then migrationWord 5 5 0 else h.migration }) s

/-- The running response of POLICY (R389, R405). -/
def State.tamperResponse (s : State) : State :=
  let s : State := { s with security := { s.security with alarm := true } }
  let mode := bitsOf s.policy 3 2
  if mode = 1 then (List.range 64).foldl State.clearSlot s else if mode = 2 then s.goSilent.refresh else s

/-- Whether a key operation runs. -/
def State.keyBusy (s : State) : Bool := s.households.any fun e => e.2.blob.isSome || e.2.image.isSome || e.2.latch.isSome

/-- A sensor fires: the response of the phase (R405).  Sensor 5 is armed by LOOP_EN alone (R404). -/
def State.tamper (s : State) (hall sensor : Nat) : State :=
  if (sensor = 5 && !bitOf s.policy 5) || s.power.st == .off then s
  else if s.power.st == .sleep then
    let lock := bitOf s.policy 4
    let t := ((s.noteTamper sensor 3).wake 5).report 10 6 3 6 hall 0 (Config.detail sensor 3)
    if lock then State.refresh { t.goSilent with lockout := true } else t
  else if s.failSilent then (s.noteTamper sensor 1).joinWake 5
  else if !s.ready then
    let s := ((s.noteTamper sensor 0).joinWake 5).report 10 6 3 6 hall 0 (Config.detail sensor 0)
    s.stageFail hall 0x12 sensor
  else
    let phase := if s.keyBusy then 2 else 1
    let s := (s.noteTamper sensor phase).report 10 6 3 6 hall 0 (Config.detail sensor phase)
    s.abortKeys.tamperResponse

def execTamperEvent (hall sensor : Nat) (s : State) : Host.Outcome State Fault Refusal :=
  onUnits (isHall hall && isTamper sensor) s (s.tamper hall sensor)

/-! ### The input and the connector (R420, R422, R425, R428, R442) -/

/-- What stays when every domain loses power: the OTP, what the sensors read, and the pins (R380, R425). -/
def State.unpowered (s : State) (now : Nat) (st : PowerState) : State :=
  let x := s.security
  let security : Security :=
    { lcTest := x.lcTest, lcSealed := x.lcSealed, lcRetired := x.lcRetired, tokens := x.tokens, secret := x.secret
      rootHash := x.rootHash, identity := x.identity, serial := x.serial }
  let hall (h : Nat) : Hall :=
    { up := HallBringUp.at 0 now, perst := (s.hall h).perst, svcLow := (s.hall h).svcLow, svcSince := now }
  let floor (f : Nat) : Floor := { junctions := (s.floor f).junctions, stackTemp := (s.floor f).stackTemp }
  { ({} : State) with
    time := now, halls := Store.setRange {} [] 0 [hall 0, hall 1], floors := Store.setRange {} [] 0 [floor 0, floor 1, floor 2, floor 3]
    power := { st, inlet := s.power.inlet, hallJunctions := s.power.hallJunctions, brakePin := s.power.brakePin
               hot := Store.mapValues none (·.map fun _ => now) s.power.hot }
    security, pair := { arbiterIn := s.pair.arbiterIn }, out := s.out, free := s.free, pending := s.pending }

/-- The input switch opens, or the input falls below the lock-out: the module is OFF (R422, R425). -/
def execInputSwitchOpen (s : State) : Host.Outcome State Fault Refusal := onUnits true s (s.unpowered 0 .off)

/-- The input returns: power-up from stage 0, with reset cause 0 and device time 0 (R197, R425). -/
def execInputRestore (s : State) : Host.Outcome State Fault Refusal :=
  onUnits true s (if s.power.st == .off then s.unpowered 0 .powerUp else s)

/-- HS1 partly withdrawn: host and Mortar drivers stop, and their links are down (R442). -/
def execPresenceLoss (s : State) : Host.Outcome State Fault Refusal :=
  onUnits true s (
    let s := (List.range 12).foldl (fun s p => if (s.port p).st = 2 then s.linkDown p else s) s
    [0, 1].foldl (fun s h => if (s.hall h).hostUp then s.linkDown (24 + h) else s) s)

/-- PERST# resets that Hall's host port only (R428). -/
def execPerstAssert (hall : Nat) (s : State) : Host.Outcome State Fault Refusal :=
  onUnits (isHall hall) s (
    let s := if (s.hall hall).hostUp then s.linkDown (24 + hall) else s
    s.modHall hall ({ · with perst := true, hostUp := false, hostRate := 0, hostWidth := 0 }))

/-- The Hall stops driving WAKE#, and its host port may train (R311, R420). -/
def execPerstDeassert (hall : Nat) (s : State) : Host.Outcome State Fault Refusal :=
  onUnits (isHall hall) s (s.modHall hall ({ · with perst := false, wakeOut := false }))

end Sys2Proof.Machine
end

