-- ==== Sys2Proof/Machine/Mac.lean ====
section
/-! DEFINITION. MMA and FOLD (R39 to R43, R53, R88 to R92): the MAC array and the fixed order of its sums. -/

namespace Sys2Proof.Machine

/-! ### Operand pairs (R39, R88) -/

def fmtFp32 : Nat := 0x07
def fmtInt32 : Nat := 0x08
/-- A 4-bit scaled format of R39. -/
def isFour (f : Nat) : Bool := f = 0x10 || f = 0x09
/-- The formats of the rate-16 row of R39. -/
def isSixteen (f : Nat) : Bool := f = 0x03 || f = 0x04 || (decide (0x09 ≤ f) && decide (f ≤ 0x0D)) || f = 0x10

/-- The rate and the accumulator format of a weight format and an activation format; none for a pair outside R39. -/
def macPair (w a : Nat) : Option (Nat × Nat) :=
  if w = 0x11 then (if a = 0x11 || isFour a then some (64, fmtFp32) else none)
  else if w = 0x00 then (if a = 0x00 || a = 0x01 then some (64, fmtInt32) else none)
  else if isFour w && isFour a then some (32, fmtFp32)
  else if w = 0x01 && a = 0x01 then some (32, fmtInt32)
  else if isSixteen w && isSixteen a && (decide (5 < fmtWidth w) || decide (5 < fmtWidth a)) then some (16, fmtFp32)
  else if w = 0x02 && a = 0x02 then some (16, fmtInt32)
  else if w = 0x0E && a = 0x0E then some (16, fmtFp32)
  else if (w = 0x06 && a = 0x06) || (w = 0x05 && a = 0x05) then some (4, fmtFp32)
  else none

/-- NB of a rate (R88). -/
def nbOf (rate : Nat) : Nat := if rate = 64 then 4 else if rate = 32 then 2 else 1

/-! ### Sums of one chunk (R40 to R43) -/

/-- The exact product of two operands, or what makes its chunk special. -/
def product (a b : FVal) : FVal :=
  match a, b with
  | .nan, _ => .nan
  | _, .nan => .nan
  | .inf n, .inf k => .inf (n != k)
  | .inf n, .fin k m _ => if m = 0 then .nan else .inf (n != k)
  | .fin k m _, .inf n => if m = 0 then .nan else .inf (n != k)
  | .fin n m e, .fin k l f => .fin (n != k) (m * l) (e + f)

/-- The special value that products make of a chunk (R42): a NaN, an infinity, or none. -/
def special (ps : List FVal) : Option FVal :=
  if ps.any (· == .nan) then some .nan
  else if ps.any (· == .inf true) then (if ps.any (· == .inf false) then some .nan else some (.inf true))
  else if ps.any (· == .inf false) then some (.inf false)
  else none

/-- The exact sum of finite products. -/
def exactSum : List FVal → Dyadic
  | [] => ⟨0, 0⟩
  | .fin n m e :: ps => Dyadic.add ⟨signed n m, e⟩ (exactSum ps)
  | _ :: ps => exactSum ps

/-- An accumulator with what was counted on its way. -/
structure MacCell where
  word : W32
  ovf : Nat := 0
  nan : Nat := 0
deriving DecidableEq, Repr

/-- One FP32 addition to an accumulator; `own` says that the addend is no infinity or NaN of an operand (R42). -/
def MacCell.addFp (c : MacCell) (t : W32) (own : Bool) : MacCell :=
  let w := fp32Add c.word t
  { c with word := w, ovf := c.ovf + if fp32IsFinite c.word && fp32IsInf w && own then 1 else 0 }

/-- One saturating INT32 addition (R43). -/
def MacCell.addInt (c : MacCell) (i : Int) : MacCell :=
  let x := c.word.toInt + i
  { c with word := BitVec.ofInt 32 (clamp32 x), ovf := c.ovf + if clamp32 x = x then 0 else 1 }

/-- The FP32 pattern of a BF16 or FP16 value. -/
def fp32Of (v : FVal) : W32 :=
  match v with
  | .nan => fp32Nan
  | .inf n => fp32Inf n
  | .fin n m e => fp32Round n m e

/-- The chunk term of step 2 of R40, with what an upset adds to it (R336). -/
def chunkTerm (ps : List FVal) (upset : Option Dyadic) : Dyadic :=
  match upset with
  | none => exactSum ps
  | some d => (exactSum ps).add d

/-- One chunk of 8-bit or narrower operands (R40, R42, R43). -/
def MacCell.chunk (c : MacCell) (int : Bool) (xs ws : List FVal) (upset : Option Dyadic := none) : MacCell :=
  let ps := List.zipWith product xs ws
  if int then
    let s := chunkTerm ps upset
    c.addInt (if 0 ≤ s.e then s.i * 2 ^ s.e.toNat else s.i / 2 ^ (-s.e).toNat)
  else match special ps with
    | some .nan => { c with word := fp32Add c.word fp32Nan, nan := c.nan + 1 }
    | some (.inf n) => c.addFp (fp32Inf n) false
    | _ => c.addFp (chunkTerm ps upset).toFp32 true

/-- One product of BF16 or FP16 operands, formed exactly and added on its own (R41, R42). -/
def MacCell.fma (c : MacCell) (x w : FVal) : MacCell :=
  let a := fp32Of x
  let b := fp32Of w
  let y := fp32Fma a b c.word
  let own := fp32IsFinite a && fp32IsFinite b
  { c with word := y, ovf := c.ovf + if fp32IsFinite c.word && fp32IsInf y && own then 1 else 0 }

/-- A run of 16 products of BF16 or FP16 operands, counted as one chunk (R41, R53). -/
def MacCell.run (c : MacCell) (xs ws : List FVal) (upset : Option Dyadic := none) : MacCell :=
  let c := (List.zip xs ws).foldl (fun c p => c.fma p.1 p.2) c
  let c := match upset with
    | none => c
    | some d => c.addFp d.toFp32 true
  match special (List.zipWith product xs ws) with
  | some .nan => { c with nan := c.nan + 1 }
  | _ => c

/-! ### The checksum lanes (R336) -/

/-- The sum over n of the weight columns of a chunk, one number for each K value, exactly. -/
def columnSum (ws : List (List FVal)) (k : Nat) : Dyadic := exactSum (ws.filterMap (·[k]?))

/-- The checksum term: the activations of a row multiplied by the summed weight columns. -/
def checksumTerm (xs : List FVal) (ws : List (List FVal)) : Dyadic :=
  ((List.range xs.length).map fun k => (exactSum (xs[k]?).toList).mul (columnSum ws k)).foldl Dyadic.add ⟨0, 0⟩

/-- Whether the check of one chunk and one activation row disagrees: exactly for INT32, and for FP32 by more than 2^−16 times the sum
of the magnitudes of the products.  A chunk with a NaN or an infinity is not compared. -/
def checkTrips (int : Bool) (xs : List FVal) (ws : List (List FVal)) (upset : Dyadic) : Bool :=
  let products := ws.map (List.zipWith product xs)
  let terms := (products.map exactSum).foldl Dyadic.add upset
  let off := (terms.add (checksumTerm xs ws).neg).abs
  let size := (products.flatten.map fun p => (exactSum [p]).abs).foldl Dyadic.add ⟨0, 0⟩
  (special products.flatten).isNone && (if int then off.i != 0 else (size.mul ⟨1, -16⟩).lt off)

/-! ### Operands as they stand in memory (R83, R89, R90) -/

/-- The element code of width w at a bit address of a memory. -/
def elemAt (mem : Memory) (w bit : Nat) : Nat := (Memory.readNat mem (bit / 8) 5 >>> (bit % 8)) % 2 ^ w

/-- An operand element: its value, and its number when it is poison (R53). -/
abbrev Operand := FVal × Option Nat

/-- The element at a bit address under the scale code at an address; `tag` tells memories apart. -/
def operandAt (d : Desc) (mem : Memory) (tag bit : Nat) (scale : Int) : Operand :=
  let sc := if fmtBlock d.fmt = 0 then Scale.one else decodeScale d.fmt d.top (Store.get 0 mem scale.toNat).toNat
  let x := scaledElem (decodeElem d.fmt (elemAt mem (fmtWidth d.fmt) bit)) sc
  (x.1, if x.2 then some (tag * 2 ^ 64 + bit) else none)

/-- Weight (n, k) of a weight tile in a Hod (R89). -/
def weightAt (d : Desc) (hod : Memory) (nb lane n k : Nat) : Operand :=
  let w := fmtWidth d.fmt
  operandAt d hod (lane + 1) (8 * (d.base + k / 16 * (2 * nb * w)) + n * 16 * w + k % 16 * w)
    (d.base + d.scaleOff + (k / max (fmtBlock d.fmt) 1 * nb + n : Nat))

/-- Activation (m, k) of column stream c (R90). -/
def streamAt (d : Desc) (mem : Memory) (tag c m k : Nat) : Operand :=
  let w := fmtWidth d.fmt
  operandAt d mem tag (8 * (d.base + 16 * (c * d.laneStride + m * d.rowStride)) + k * w)
    (d.base + d.scaleOff + (c * d.scaleLstride + m * d.scaleStride + k / max (fmtBlock d.fmt) 1 : Nat))

/-! ### MMA (R88, R91) -/

/-- The checks of an MMA (R85, R88). -/
def mmaFault (td ta tb : Desc) (asrc : Bool) (cache : Nat) : Option Nat :=
  let pair := macPair tb.fmt ta.fmt
  let nb := nbOf ((pair.map (·.1)).getD 0)
  firstFault [td.check cache,
    ta.checkWith (if asrc then ta.inside (ta.spaceSize cache) else ta.streamInside (ta.spaceSize cache)),
    tb.checkWith (tb.weightInside nb (tb.spaceSize cache)),
    must (tb.space = 1 && pair.isSome) faultIllegalFormat,
    must (td.space = 3 && some td.fmt = pair.map (·.2)) faultIllegalFormat,
    must (ta.space = if asrc then 1 else 0) faultBadDescriptor,
    must (tb.rows = nb && td.cols = nb && td.rows = ta.rows && tb.cols = ta.cols) faultShape,
    must (ta.cols % 16 = 0 && ta.cols % max (fmtBlock ta.fmt) 1 = 0 && ta.cols % max (fmtBlock tb.fmt) 1 = 0) faultPadding,
    must (td.rows * nb ≤ 64 && td.base + td.rows * nb ≤ 64) faultBounds]

/-- What an MMA leaves in one lane: the accumulators, the counts and the poison elements it read. -/
structure MacLane where
  acc : Store W32
  ovf : Nat := 0
  nan : Nat := 0
  poison : List Nat := []
  flags : Nat := 0
deriving DecidableEq, Repr

/-- The 16 values of a chunk. -/
def chunkOf (f : Nat → FVal) (j : Nat) : List FVal := (List.range 16).map fun i => f (16 * j + i)

/-- The accumulator (m, n) of a lane after all chunks in ascending K order (R91). -/
def macCell (rate : Nat) (int : Bool) (chunks : Nat) (x w : Nat → FVal) (c : MacCell) (upset : Nat → Option Dyadic := fun _ => none) :
    MacCell :=
  iterate (fun j c =>
    if rate = 4 then c.run (chunkOf x j) (chunkOf w j) (upset j) else c.chunk int (chunkOf x j) (chunkOf w j) (upset j)) chunks c

/-- The upset of one chunk term of a lane, if any. -/
def upsetAt (l : List MacUpset) (m n j : Nat) : Option Dyadic :=
  (l.find? fun u => u.row == m && u.column == n && u.chunk == j).map fun u => ⟨u.num, u.exp⟩

/-- Chunks and rows of a lane whose check trips.  Checks differ only where an upset changed a term, since the sums are exact. -/
def abftFlags (l : List MacUpset) (int : Bool) (rows chunks nb : Nat) (x : Nat → Nat → FVal) (w : Nat → Nat → FVal) : Nat :=
  countIf (fun e => checkTrips int (chunkOf (x e.1) e.2) ((List.range nb).map fun n => chunkOf (w n) e.2)
    (((List.range nb).filterMap fun n => upsetAt l e.1 n e.2).foldl Dyadic.add ⟨0, 0⟩))
    ((l.filter fun u => decide (u.row < rows) && decide (u.chunk < chunks) && decide (u.column < nb)).map fun u => (u.row, u.chunk)).dedup

/-- MMA in one lane; `amem` is the memory that its activations come from (R89 to R91, R336). -/
def macLane (td ta tb : Desc) (clear asrc : Bool) (lane : Nat) (b : Brick) (pantry : Memory) (upsets : List MacUpset := []) : MacLane :=
  let rate := ((macPair tb.fmt ta.fmt).map (·.1)).getD 0
  let nb := nbOf rate
  let ks := ta.cols
  let amem := if asrc then b.hod else pantry
  let c := if asrc then 0 else lane % 16
  let tag := if asrc then lane + 1 else 0
  let start := if clear then Store.setRange 0 b.acc td.base (List.replicate (td.rows * nb) 0) else b.acc
  let xp := (List.range td.rows).flatMap fun m => (List.range ks).filterMap fun k => (streamAt ta amem tag c m k).2
  let wp := (List.range nb).flatMap fun n => (List.range ks).filterMap fun k => (weightAt tb b.hod nb lane n k).2
  iterate (fun i (z : MacLane) =>
    let m := i / nb
    let n := i % nb
    let a := td.base + i
    let cell := macCell rate (td.fmt = fmtInt32) (ks / 16) (fun k => (streamAt ta amem tag c m k).1)
      (fun k => (weightAt tb b.hod nb lane n k).1) { word := Store.get 0 z.acc a } (upsetAt upsets m n)
    { z with acc := Store.set 0 z.acc a cell.word, ovf := z.ovf + cell.ovf, nan := z.nan + cell.nan }) (td.rows * nb)
    { acc := start, poison := xp ++ wp
      flags := abftFlags upsets (td.fmt = fmtInt32) td.rows (ks / 16) nb (fun m k => (streamAt ta amem tag c m k).1)
        fun n k => (weightAt tb b.hod nb lane n k).1 }

/-- MMA in every present lane: accumulators, counts, poison, and the lanes whose checks tripped, once for each flag (R53, R91, R96,
R336). -/
def Room.mma (x : Room) (td ta tb : Desc) (clear asrc : Bool) (lanes : Nat) : Room :=
  (List.range lanes).foldl (fun x l =>
    let z := macLane td ta tb clear asrc l (x.brick l) x.pantry (x.upsets.filter (·.lane == l))
    let x := x.modBrick l fun b => { b with acc := z.acc }
    let course := (x.course.countSlot td.layer td.tile { nan := z.nan, accOvf := z.ovf }).countPoison td.layer td.tile z.poison
    { x with course := { course with flagged := course.flagged ++ List.replicate z.flags l } }) x

/-- Whether the Room's Suite drives the checksum lanes (R336). -/
def State.checks (s : State) (r : Nat) : Bool := ((s.suiteOf r).map fun n => (s.suite n).protected || (s.suite n).abft).getD false

/-- The ABFT flags that an MMA has raised are counted, and in a DUPLEX or PAIRED Suite each marks the Room for its Course; without
checksum lanes there is none.  The upsets are spent (R336, R338). -/
def State.noteFlags (s : State) (r before : Nat) : State :=
  let x := s.room r
  let k := x.course.flagged.length - before
  if x.upsets.isEmpty then s
  else
    let s := s.modRoom r ({ · with upsets := [] })
    if !s.checks r then s.modRoom r fun x => { x with course := { x.course with flagged := x.course.flagged.take before } }
    else if k = 0 then s
    else
      let s := s.bump 0x5201 6 64 k
      if ((s.suiteOf r).map fun n => (s.suite n).protected).getD false then
        s.modRoom r fun x => { x with marks := x.marks ++ List.replicate k x.course.ordinal }
      else s

/-- Accumulate t[TA] × t[TB] into accumulator tile t[TD] (R88 to R91); MODE[4] CLEAR, MODE[3] ASRC. -/
def execMma (r : Nat) (g : Guard) (td ta tb : BitVec 4) (mode : BitVec 5) (s : State) : Host.Outcome State Fault Refusal :=
  foremanOp r g (fun s =>
    let f := (s.room r).foreman
    let d := f.desc td
    let a := f.desc ta
    let b := f.desc tb
    let asrc := mode.getLsbD 3
    match mmaFault d a b asrc (s.portion r) with
    | some c => Issue.fault r c s
    | none =>
      match (s.room r).course.openSlot d.layer d.tile with
      | none => Issue.fault r faultGuardSlots s
      | some course =>
        .done ((s.modRoom r fun x => { x with course }.mma d a b (mode.getLsbD 4) asrc (s.lanes r)).noteFlags r course.flagged.length)) s

/-! ### FOLD (R92) -/

def foldFault (d : Desc) (cache : Nat) : Option Nat :=
  firstFault [d.check cache, must (d.space = 3 && (d.fmt = fmtFp32 || d.fmt = fmtInt32)) faultIllegalFormat,
    must (d.base + d.rows * d.cols ≤ 64) faultBounds]

/-- The running sum of accumulator a along logical row `row`: columns 0 to 15 in ascending order (R92). -/
def Room.foldCell (x : Room) (d : Desc) (row a : Nat) : MacCell :=
  (List.range 15).foldl (fun c k =>
    let w := Store.get 0 (x.brick (16 * row + k + 1)).acc a
    if d.fmt = fmtInt32 then c.addInt w.toInt
    else
      let y := fp32Add c.word w
      { c with word := y, ovf := c.ovf + if fp32IsFinite c.word && fp32IsFinite w && fp32IsInf y then 1 else 0 })
    { word := Store.get 0 (x.brick (16 * row)).acc a }

/-- Sum the accumulator tile along each logical row into column 15; the other columns are unchanged (R92). -/
def Room.fold (x : Room) (d : Desc) (lanes : Nat) : Room :=
  (List.range (lanes / 16)).foldl (fun x row =>
    (List.range (d.rows * d.cols)).foldl (fun x i =>
      let a := d.base + i
      let c := x.foldCell d row a
      { x.modBrick (16 * row + 15) (fun b => { b with acc := Store.set 0 b.acc a c.word }) with
        course := x.course.countSlot d.layer d.tile { accOvf := c.ovf } }) x) x

def execFold (r : Nat) (g : Guard) (td : BitVec 4) (s : State) : Host.Outcome State Fault Refusal :=
  foremanOp r g (fun s =>
    let d := (s.room r).foreman.desc td
    match foldFault d (s.portion r) with
    | some c => Issue.fault r c s
    | none =>
      match (s.room r).course.openSlot d.layer d.tile with
      | none => Issue.fault r faultGuardSlots s
      | some course => .done (s.modRoom r fun x => { x with course }.fold d (s.lanes r))) s

end Sys2Proof.Machine
end

