-- ==== Sys2Proof/Machine/Conv.lean ====
section
/-! DEFINITION. CONVA and CONVT (R44 to R51, R93 to R96) and the Plumb-line check PLUMB (R56 to R59, R105). -/

namespace Sys2Proof.Machine

/-! ### CONVA (R93) -/

/-- An unscaled format of R26. -/
def isUnscaled (f : Nat) : Bool := fmtOk f && fmtBlock f = 0

/-- MODE[2]. -/
def modeKeep (mode : BitVec 5) : Bool := mode.getLsbD 2

/-- ROWS and COLS that the target of a CONVA must have (R93). -/
def convaShape (ta : Desc) (space lanes : Nat) (folded : Bool) : Nat × Nat :=
  if space = 1 then (ta.rows, ta.cols)
  else (if folded then ta.rows else 16 * ta.rows, lanes / 16 * ta.cols)

/-- The checks of a CONVA (R85, R93); a reserved rounding code is refused (R44). -/
def convaFault (td ta tb : Desc) (mode : BitVec 5) (lanes cache : Nat) : Option Nat :=
  let shape := convaShape ta td.space lanes (mode.getLsbD 1)
  firstFault [must (modeHigh mode != 3) faultIllegalInstruction, td.check cache, ta.check cache,
    if modeKeep mode then tb.check cache else none,
    must (ta.space = 3 && (ta.fmt = fmtFp32 || ta.fmt = fmtInt32)) faultIllegalFormat,
    must (ta.base + ta.rows * ta.cols ≤ 64) faultBounds,
    must (td.space ≤ 1 && isUnscaled td.fmt) faultIllegalFormat,
    must ((td.rows, td.cols) = shape) faultShape,
    if modeKeep mode then must (tb.fmt = ta.fmt && tb.space = td.space) faultIllegalFormat else none,
    if modeKeep mode then must (tb.rows = td.rows && tb.cols = td.cols) faultShape else none]

/-- The value of an accumulator word in the format of its tile. -/
def accVal (fmt : Nat) (w : W32) : FVal := if fmt = fmtInt32 then intVal w.toInt else fp32 w

/-- What a lane's block converts to: codes in the order m, then n, with the counts and the generator after. -/
def convLane (td ta : Desc) (mode : Nat) (b : Brick) (g : W64) : List Nat × Counts × W64 :=
  convertAll (convertPlain td.fmt mode)
    ((List.range (ta.rows * ta.cols)).map fun i => accVal ta.fmt (Store.get 0 b.acc (ta.base + i))) g

/-- The accumulator words of a lane's block. -/
def keepLane (ta : Desc) (b : Brick) : List Nat :=
  (List.range (ta.rows * ta.cols)).map fun i => (Store.get 0 b.acc (ta.base + i)).toNat

/-- The lanes that a CONVA reads: all present lanes, or those of column 15 (R93). -/
def convLanes (lanes : Nat) (folded : Bool) : List Nat :=
  if folded then (List.range lanes).filter (· % 16 == 15) else List.range lanes

/-- Row i of the one Pantry tile, from the blocks of the lanes (R93). -/
def gatherRow (ta : Desc) (width : Nat) (folded : Bool) (codes : Nat → List Nat) (i : Nat) : List Nat :=
  (List.range width).map fun j =>
    let lane := j / ta.cols * 16 + (if folded then 15 else i / ta.rows)
    ((codes lane)[i % ta.rows * ta.cols + j % ta.cols]?).getD 0

/-- Write the blocks of the lanes as the tile d: one Pantry tile, or one block in each lane's own Hod (R93). -/
def Room.putBlocks (x : Room) (d ta : Desc) (folded : Bool) (lanes : List Nat) (codes : Nat → List Nat) : Room :=
  let w := fmtWidth d.fmt
  if d.space = 1 then
    lanes.foldl (fun x l =>
      iterate (fun m x =>
        x.putHodRow l d m { elems := packRow w (((codes l).drop (m * ta.cols)).take ta.cols), scales := [] }) ta.rows x) x
  else
    iterate (fun i x => x.putPantryRow d i { elems := packRow w (gatherRow ta d.cols folded codes i), scales := [] }) d.rows x

/-- Remember a kept source; a ninth replaces the oldest (R95). -/
def CourseState.keep (c : CourseState) (td source : Desc) : CourseState :=
  let k : Kept := { space := td.space, base := td.base, source }
  { c with kept := (k :: c.kept).take 8 }

/-- The effect of a CONVA whose checks hold and whose slot is open (R93, R96). -/
def Room.conva (x : Room) (td ta tb : Desc) (mode : BitVec 5) (lanes : Nat) : Room :=
  let folded := mode.getLsbD 1
  let read := convLanes lanes folded
  let conv : Store (List Nat × Counts × W64) :=
    read.map fun l => (l, convLane td ta (modeHigh mode) (x.brick l) (Store.get 0 x.rng l))
  let codes (l : Nat) : List Nat := ((conv.find? (·.1 == l)).map (·.2.1)).getD []
  let kept (l : Nat) : List Nat := keepLane ta (x.brick l)
  let counts := conv.foldl (fun k z => k.add z.2.2.1) ({} : Counts)
  let rng : Store W64 := conv.foldl (fun m z => Store.set 0 m z.1 z.2.2.2) x.rng
  let x := { x with rng }
  let x := x.putBlocks td ta folded read codes
  let x := if modeKeep mode then x.putBlocks tb ta folded read kept else x
  let c := x.course.countSlot td.layer td.tile { sat := counts.sat, ufl := counts.ufl, nan := counts.nan }
  let c := c.closeSlot td.layer td.tile
  { x with course := if modeKeep mode then c.keep td tb else c }

/-- Convert accumulator tile t[TA] to tile t[TD]; MODE[4:3] rounding, MODE[2] KEEP into t[TB], MODE[1] FOLDED (R93). -/
def execConva (r : Nat) (g : Guard) (td ta tb : BitVec 4) (mode : BitVec 5) (s : State) :
    Host.Outcome State Fault Refusal :=
  foremanOp r g (fun s =>
    let f := (s.room r).foreman
    let d := f.desc td
    match convaFault d (f.desc ta) (f.desc tb) mode (s.lanes r) (s.portion r) with
    | some c => Issue.fault r c s
    | none =>
      match (s.room r).course.openSlot d.layer d.tile with
      | none => Issue.fault r faultGuardSlots s
      | some course => .done (s.modRoom r fun x => { x with course }.conva d (f.desc ta) (f.desc tb) mode (s.lanes r))) s

/-! ### CONVT (R94) -/

/-- The checks of a CONVT (R85, R94). -/
def convtFault (td ta : Desc) (mode : BitVec 5) (cache : Nat) : Option Nat :=
  firstFault [must (modeHigh mode != 3) faultIllegalInstruction, td.check cache, ta.check cache,
    must (td.space = 0 && ta.space = 0) faultBadDescriptor,
    must (td.rows = ta.rows && td.cols = ta.cols) faultShape]

/-- A list cut into blocks of n. -/
def blocksOf {α : Type} (n : Nat) : Nat → List α → List (List α)
  | 0, _ => []
  | _ + 1, [] => []
  | fuel + 1, l => l.take n :: blocksOf n fuel (l.drop n)

/-- Convert the blocks of a row in order (R46, R47, R94). -/
def convertRow (f mode top : Nat) : List (List FVal) → W64 → List Nat × List Nat × Counts × W64
  | [], g => ([], [], {}, g)
  | b :: bs, g =>
    let (sc, cs, k, g) := convertBlock f mode top b g
    let (scs, css, ks, g) := convertRow f mode top bs g
    (sc :: scs, cs ++ css, k.add ks, g)

/-- A decoded row of a Pantry tile, with the numbers of its poison elements. -/
def Room.sourceRow (x : Room) (d : Desc) (m : Nat) : List FVal × List Nat :=
  let vs := d.decodeRow (d.readRow x.pantry m)
  (vs.map (·.1), (List.range vs.length).filterMap fun i =>
    match vs[i]? with
    | some (_, true) => some (8 * d.rowAddr m + i * fmtWidth d.fmt)
    | _ => none)

/-- Convert row m on lane m % L (R94). -/
def Room.convtRow (td : Desc) (mode lanes : Nat) (x : Room) (m : Nat) (v : List FVal × List Nat) : Room :=
  let lane := m % max lanes 1
  let blk := if fmtBlock td.fmt = 0 then max td.cols 1 else fmtBlock td.fmt
  let (scs, cs, k, g) := convertRow td.fmt mode td.top (blocksOf blk (v.1.length + 1) v.1) (Store.get 0 x.rng lane)
  let x := { x with rng := Store.set 0 x.rng lane g }
  let scales := if fmtBlock td.fmt = 0 then [] else scs.map (BitVec.ofNat 8 ·)
  let x := x.putPantryRow td m { elems := packRow (fmtWidth td.fmt) cs, scales }
  let c := x.course.countSlot td.layer td.tile { sat := k.sat, ufl := k.ufl, nan := k.nan }
  { x with course := c.countPoison td.layer td.tile v.2 }

/-- The effect of a CONVT whose checks hold and whose slot is open (R94, R96): every row is read before the first is written, which
matters only where the two tiles overlap (DEDUCED, log entry 83). -/
def Room.convt (x : Room) (td ta : Desc) (mode : BitVec 5) (lanes : Nat) : Room :=
  let rows := (List.range ta.rows).map fun m => (m, x.sourceRow ta m)
  let x := rows.foldl (fun x v => Room.convtRow td (modeHigh mode) lanes x v.1 v.2) x
  let c := x.course.closeSlot td.layer td.tile
  { x with course := if modeKeep mode then c.keep td ta else c }

/-- Convert Pantry tile t[TA] to Pantry tile t[TD]; MODE[4:3] rounding, MODE[2] KEEP (R94). -/
def execConvt (r : Nat) (g : Guard) (td ta : BitVec 4) (mode : BitVec 5) (s : State) : Host.Outcome State Fault Refusal :=
  foremanOp r g (fun s =>
    let f := (s.room r).foreman
    let d := f.desc td
    match convtFault d (f.desc ta) mode (s.portion r) with
    | some c => Issue.fault r c s
    | none =>
      match (s.room r).course.openSlot d.layer d.tile with
      | none => Issue.fault r faultGuardSlots s
      | some course => .done (s.modRoom r fun x => { x with course }.convt d (f.desc ta) mode (s.lanes r))) s

/-! ### PLUMB (R56 to R59, R105) -/

/-- Whether a tile is sampled (R56). -/
def plumbSampled (seed : W64) (layer tile rate : Nat) : Bool :=
  decide ((xorshifts 3 (seed ^^^ BitVec.ofNat 64 (layer * 2 ^ 32) ^^^ BitVec.ofNat 64 tile)).toNat % 2 ^ rate = 0)

/-- Rows of a tile as PLUMB gathers it: a Hod tile is that of every present lane, in lane order (R105). -/
def Desc.gatherRows (d : Desc) (lanes : Nat) : Nat := if d.space = 1 then d.rows * lanes else d.rows

/-- The decoded elements of a tile as PLUMB gathers it. -/
def Room.gather (x : Room) (d : Desc) (lanes : Nat) : List (List FVal) :=
  if d.space = 1 then
    (List.range lanes).flatMap fun l =>
      (List.range d.rows).map fun m => (d.decodeRow (d.readRow (x.brick l).hod m)).map (·.1)
  else (List.range d.rows).map fun m => (d.decodeRow (d.readRow x.pantry m)).map (·.1)

/-- The kept source of a tile, if the Course holds one (R57, R95). -/
def CourseState.keptOf (c : CourseState) (d : Desc) : Option Desc :=
  (c.kept.find? fun k => k.space == d.space && k.base == d.base).map (·.source)

/-- An element converted with RNE to the reference format (R57). -/
def toReference (f : Nat) (v : FVal) : FVal :=
  match decodeElem f (convertPlain f 0 v 0).1 with
  | .val v => v
  | .poison => .nan

/-- One reference result: products and sums in FP32, in ascending K order (R41, R57). -/
def dotFp32 (xs ws : List FVal) : W32 := (List.zip xs ws).foldl (fun a p => fp32Fma (fp32Of p.1) (fp32Of p.2) a) 0

/-- D and N over the elements in row-major order, every operation rounded to FP32 (R58, log entry 21). -/
def errorSums (ys rs : List W32) : W32 × W32 :=
  (List.zip ys rs).foldl (fun a p =>
    let e := fp32Add p.1 (fp32Neg p.2)
    (fp32Add a.1 (fp32Mul e e), fp32Add a.2 (fp32Mul p.2 p.2))) (0, 0)

/-- Whether the sums breach the threshold θ × 65,536 (R58). -/
def plumbBreach (d n : W32) (thresh : Nat) : Bool :=
  match fp32 d, fp32 n with
  | .nan, _ => true
  | _, .nan => true
  | .inf _, .inf _ => false
  | .inf _, _ => true
  | _, .inf _ => false
  | .fin _ m e, .fin _ k f =>
    if k = 0 then m != 0 else Dyadic.lt ⟨(k * (thresh * thresh) : Nat), f - 32⟩ ⟨(m : Int), e⟩

/-- The checks of a PLUMB that come before sampling (R85, R105). -/
def plumbFault (td ta tb : Desc) (e : LadderEntry) (lanes cache : Nat) : Option Nat :=
  firstFault [ta.check cache, tb.check cache,
    must (tb.fmt = e.refFmt && tb.space = 2) faultIllegalFormat,
    must (td.space ≤ 1 && ta.space ≤ 1) faultBadDescriptor,
    must (td.gatherRows lanes = ta.gatherRows lanes && tb.rows = td.cols && tb.cols = ta.cols) faultShape]

/-- Note √(D / N) of a sampled tile with N > 0 (R59). -/
def CourseState.noteErr (c : CourseState) (layer : Nat) (d n : W32) : CourseState :=
  let q := fp32SqrtQuot d n
  match fp32 n with
  | .fin _ k _ =>
    if k = 0 || fp32IsNan q then c
    else { c with relErr := Store.modify 0 c.relErr layer fun e => maxErr e q }
  | _ => c

/-- Judge a sampled tile from its reference weights: the slot gets SAMPLED and, on a breach, BREACH (R57 to R59). -/
def Room.judge (x : Room) (td ta tb : Desc) (e : LadderEntry) (lanes : Nat) (weights : List Byte) : Room :=
  let ws : List (List FVal) := (List.range tb.rows).map fun n =>
    (tb.decodeRow { elems := (weights.drop (n * tb.rowBytes)).take tb.rowBytes, scales := [] }).map (·.1)
  let xs : List (List FVal) := match x.course.keptOf ta with
    | some k => x.gather k lanes
    | none => (x.gather ta lanes).map fun row => row.map (toReference e.refFmt)
  let ys := (x.gather td lanes).flatMap fun row => row.map fp32Of
  let rs := xs.flatMap fun row => ws.map fun w => dotFp32 row w
  let (d, n) := errorSums ys rs
  let c := x.course.markSlot td.layer td.tile (plumbBreach d n e.plumbThresh)
  { x with course := c.noteErr td.layer d n }

/-- The Plumb-line check of output tile t[TD] against activations t[TA] and reference weights t[TB] (R105). -/
def execPlumb (r : Nat) (g : Guard) (td ta tb : BitVec 4) (s : State) : Host.Outcome State Fault Refusal :=
  foremanOp r g (fun s =>
    let f := (s.room r).foreman
    let d := f.desc td
    let a := f.desc ta
    let b := f.desc tb
    match d.check (s.portion r) with
    | some c => Issue.fault r c s
    | none =>
      match (s.room r).course.slot? d.layer d.tile with
      | none => Issue.fault r faultOpenGuard s
      | some slot =>
        if slot.isOpen then Issue.fault r faultOpenGuard s
        else match s.ladder? r d.layer with
        | none => .done s
        | some e =>
          if e.plumbRate = 15 then .done s
          else match plumbFault d a b e (s.lanes r) (s.portion r) with
          | some c => Issue.fault r c s
          | none =>
            let seed := ((s.stepOf r).map (·.desc.seed)).getD 0
            if !plumbSampled seed d.layer d.tile e.plumbRate then .done s
            else
              let ranges := (List.range b.rows).map fun n => ((e.refAddr + b.rowAddr n) % 2 ^ 64, b.rowBytes)
              match State.charged (dmaPort r) (s.ctxOf r) false ranges (s.readMany (dmaPort r) (s.ctxOf r) ranges false) with
              | (.wait, s) => .stay s
              | (.access, s) => Issue.fault r faultAccess s
              | (.poisoned, s) => .stay (s.hardwareFault r)
              | (.ok w, s) => .done (s.modRoom r fun x => x.judge d a b e (s.lanes r) w)) s

end Sys2Proof.Machine
end

