-- ==== Sys2Proof/Machine/Links.lean ====
section
/-! DEFINITION. Links to the outside: Mortar training and flits (R142, R242, R348, R429 to R431), ingest frames (R434 to R436),
the time base (R437, R438), and what comes back from hosts and other modules (R242, R243). -/

namespace Sys2Proof.Machine

/-- The module's links work: it is powered and not fail-silent. -/
def State.linked (s : State) : Bool := !s.asleep && !s.failSilent

/-! ### Mortar training (R24, R429, R430) -/

/-- Whether a port is held down for what the peer announced. -/
def State.heldDown (s : State) (p : Nat) (x : MortarPeer) : Bool :=
  let dir := s.portDirection p
  (x.node == s.node && x.plane == s.plane) || (x.plane != s.plane && dir != 6 && dir != 7) ||
    (dir == 7 && (x.plane == s.plane || x.node != s.node)) || x.version == 0

/-- The lanes that carry the port: four, two when one or two are lost, else none. -/
def lanesUsed (n : Nat) : Nat := if 4 ≤ n then 4 else if 2 ≤ n then 2 else 0

/-- A port trains: it is up, held down, or stays down without two lanes.  The peer's pair epoch is taken over when it is newer
(log entry 46). -/
def State.train (s : State) (p : Nat) (x : MortarPeer) : State :=
  if !s.linked || (s.port p).st != 1 then s
  else
    let detail := Config.detail x.plane x.node
    let s := s.modPort p ({ · with peerNode := x.node, peerPlane := x.plane, version := min x.version 1 })
    if s.heldDown p x then (s.modPort p ({ · with st := 3, lanes := 0 })).report 4 3 2 7 p 0 detail
    else if lanesUsed x.lanes = 0 then s.modPort p ({ · with st := 0, lanes := 0 })
    else
      let s := s.modPort p ({ · with st := 2, lanes := lanesUsed x.lanes, group := [], failed := [], sent := [] })
      let s := if s.portDirection p = 6 && s.pairEpoch < x.epoch then s.dictSet 0x5200 4 x.epoch else s
      let s : State := { s with linksLost := s.linksLost.filter (· != p), retraining := s.retraining.filter fun e => e.1 != p }
      (s.report 4 2 0 7 p 0 detail).refresh

def execMortarLinkTrain (port : Nat) (peer : MortarPeer) (s : State) : Host.Outcome State Fault Refusal :=
  onUnits (isMortar port) s (s.train port peer)

/-! ### Flits (R142, R242, R302, R348, R431) -/

/-- A piece of another module's node arrives at the entry that stands for it (R142). -/
def State.takePiece (s : State) (port suite tree round node piece : Nat) (b : List Byte) : State :=
  let t := s.tree suite tree
  match t.nodes[node]? with
  | none => s
  | some v =>
    if v.port != port + 1 || v.children != 0 || t.pieces ≤ piece || (s.suite suite).step.isNone then s
    else (s.suite suite).localCopies.foldl (fun s copy =>
      if (((s.suite suite).round copy tree round).out node piece).isSome then s else s.putOut suite copy tree round node piece b) s

/-- The other module's description of a crossing edge: unless FMT, OP and BYTES match (FMT is ignored in a COPY), the round fails in
both modules; else its elements that overflowed count here too (R133, R139, R142). -/
def State.takeEdge (s : State) (port suite tree round node fmt op bytes : Nat) (overflow : List Nat) : State :=
  let t := s.tree suite tree
  match t.nodes[node]? with
  | none => s
  | some v =>
    if v.port != port + 1 || v.children != 0 || (s.suite suite).step.isNone then s
    else if op != t.op || bytes != t.bytes || (op != 3 && fmt != t.fmt) then
      (s.failRound suite 0 tree round).emit (.gutterFail port suite tree round)
    else s.modSuite suite (·.modRound 0 tree round fun x =>
      { x with overflow := x.overflow ++ overflow.filter fun k => !x.overflow.contains k })

/-- What a module waits for after the answer to a remote request: one of a Room whose step has ended completes at its target,
and the boundary may be reached (R242, R273). -/
def State.answerRemote (s : State) (p : RemoteReq → Bool) (status : Nat) (data : List Byte) : State :=
  let hit (x : RemoteReq) : Bool := p x && x.answer.isNone
  match s.remotes.find? hit with
  | none => s
  | some x =>
    if x.room < 1280 && (s.suite x.suite).step.isNone then State.settle { s with remotes := removeFirst hit s.remotes } x.suite
    else { s with remotes := modifyFirst hit (fun x => { x with answer := some (status, data) }) s.remotes }

/-- A message between the modules of a pair counts when its epoch is not older (R348). -/
def State.fromPair (s : State) (port epoch : Nat) (f : Suite → Suite) (suite : Nat) : State :=
  if s.portDirection port != 6 || epoch < s.pairEpoch || (s.suite suite).mode != .paired then s else s.modSuite suite f

/-- An access on its way to another module goes on by the rule of the requester's own; one that no port can carry completes as
poisoned (R432). -/
def State.passOn (s : State) (port f n household : Nat) (kind : AccKind) : State :=
  if s.isOwn f then s
  else match s.route (port / 6) (fabricPlane f) (fabricNode f) with
    | some p => s.emit (.remote p f n household kind)
    | none => s.emit (.remoteFailed port f n household kind)

/-- The body of a flit whose link check holds; `parity` closes a group of Gutter flits. -/
def State.takeBody (s : State) (port : Nat) (b : FlitBody) : State :=
  match b with
  | .gutter suite tree round node piece data => s.takePiece port suite tree round node piece data
  | .gutterEdge suite tree round node fmt op bytes overflow => s.takeEdge port suite tree round node fmt op bytes overflow
  | .gutterFail suite tree round => if (s.suite suite).step.isNone then s else s.failRound suite 0 tree round
  | .parity _ => s
  | .pairSettings e suite digest => s.fromPair port e (fun x => { x with pairDigest := some digest }) suite
  | .pairHead e suite queue count digest => s.fromPair port e (fun x => { x with pairHead := some (queue, count, digest) }) suite
  | .pairDigests e suite course l =>
    s.fromPair port e (fun x => { x with pairCourses := x.pairCourses ++ l.map fun y => (course, y.1, y.2) }) suite
  | .pairMessage _ => s
  | .response fabric status data => s.answerRemote (fun x => x.fabric == fabric) status data
  | .transit f n household kind => s.passOn port f n household kind
  | .tunnelAnswer h n f => s.tunnelAnswered (h % 2) (n % 16) f
  | .fault => s.linkDown port
  | .other => s

/-- A flit with other data. -/
def withData (b : FlitBody) (data : List Byte) : FlitBody :=
  match b with
  | .gutter suite tree round node piece _ => .gutter suite tree round node piece data
  | b => b

/-- A parity flit closes its group: one failed flit is rebuilt, two or more are sent again (R142). -/
def State.closeGroup (s : State) (port : Nat) (good : Bool) (parity : List Byte) : State :=
  let x := s.port port
  let s := s.modPort port ({ · with group := [], failed := [] })
  match x.failed, good with
  | [], true => s
  | [], false => s.bump 0x2828 1 32
  | [b], true => (s.bump 0x2828 1 32).takeBody port (withData b (x.group.foldl xorBytes parity))
  | _, _ => (s.bump 0x2828 2 32).emit (.mortarReplay port)

/-- A flit arrives: a failed one is asked for again, except a Gutter flit, which waits for the parity of its group (R142,
R431). -/
def State.takeFlit (s : State) (port : Nat) (f : Flit) : State :=
  if !s.linked || !s.portUp port then s
  else match f.body, f.good with
  | .parity data, good => s.closeGroup port good data
  | .gutter suite tree round node piece data, good =>
    let b := FlitBody.gutter suite tree round node piece data
    if good then (s.modPort port fun x => { x with group := x.group ++ [data] }).takeBody port b
    else s.modPort port fun x => { x with failed := x.failed ++ [b] }
  | b, true => s.takeBody port b
  | _, false => (s.emit (.mortarReplay port)).modPort port fun x => { x with replays := satAdd 32 x.replays 1 }

def execMortarFlitReceive (port : Nat) (flit : Flit) (s : State) : Host.Outcome State Fault Refusal :=
  onUnits (isMortar port) s (s.takeFlit port flit)

/-! ### Ingest (R435, R436) -/

/-- The master port of an ingest port (R159). -/
def ingestMaster (p : Nat) : Nat := 2560 + 16 * (p / 2) + 7 + p % 2

/-- A ring slot for a frame that arrived at `t`. -/
def ingestSlot (t : Nat) (f : AvtpFrame) : List Byte :=
  leBytes 8 t ++ leBytes 8 (f.presentation.getD 0) ++ leBytes 8 f.stream.toNat ++ leBytes 2 f.payload.length ++ leBytes 6 0 ++ f.payload

/-- The deadline that the frame's stream gives its requests (R167, R436). -/
def State.ingestDeadline (s : State) (p : Nat) (f : AvtpFrame) : Option Nat :=
  if regDlSrc (s.portSetting (ingestMaster p)) then f.presentation else none

/-- The write of a slot waits for HBM at its master port, with its deadline. -/
def State.enqueueSlot (s : State) (p ctx va n : Nat) (deadline : Option Nat) : State :=
  (piecesOf va n).foldl (fun s x =>
    match (s.translate (ingestMaster p) ctx x.1 true).1 with
    | .ok f _ => match s.target ctx f with | .hbm a => s.enqueue (ingestMaster p) a x.2 true deadline | _ => s
    | _ => s) s

/-- Write buffered frames to the ring in order, until one has to wait; one that is refused is dropped, and one whose write HBM drops
is recorded only (R148). -/
def State.drainIngest (p : Nat) : Nat → State → State
  | 0, s => s
  | fuel + 1, s =>
    let x := s.feed p
    match x.buffer with
    | [] => s
    | (t, f) :: rest =>
      let va := x.ringBase + 2048 * (x.tail.toNat % 2 ^ x.ringLog2)
      let slot := ingestSlot t f
      match s.writeVa (ingestMaster p) x.ctx va slot false with
      | (.wait, s) => s
      | (.access, u) => drainIngest p fuel (u.modFeed p fun y => { y with buffer := rest, dropped := satAdd 32 y.dropped 1 })
      | (_, u) =>
        let u := u.enqueueSlot p x.ctx va slot.length (s.ingestDeadline p f)
        drainIngest p fuel (u.modFeed p fun y => { y with buffer := rest, tail := y.tail + 1 })

/-- Frames already in the buffer count against the ring. -/
def IngestPort.room (x : IngestPort) (n : Nat) : Bool :=
  decide ((x.tail - x.head).toNat + x.buffer.length < 2 ^ x.ringLog2) &&
    decide ((x.buffer.map fun e => 32 + e.2.payload.length).sum + 32 + n ≤ 262144)

/-- Whether the port's binding takes a frame (R435, R444). -/
def State.ingestBound (s : State) (p : Nat) (f : AvtpFrame) : Bool :=
  let x := s.feed p
  match s.portSuite p with
  | some n =>
    decide (((s.ctx? x.ctx).map (·.suite)) = some n) && decide (4 ≤ x.ringLog2) && (x.stream == 0 || x.stream == f.stream)
  | none => false

def execIngestFrame (port : Nat) (frame : AvtpFrame) (s : State) : Host.Outcome State Fault Refusal :=
  onUnits (isIngest port) s (
    if !s.linked || !(s.feed port).up || (s.hall (port / 2)).lost then s
    else
      let s := State.drainIngest port (s.feed port).buffer.length s
      if !s.ingestBound port frame || 2016 < frame.payload.length || !(s.feed port).room frame.payload.length then
        s.modFeed port fun y => { y with dropped := satAdd 32 y.dropped 1 }
      else State.drainIngest port ((s.feed port).buffer.length + 1) (s.modFeed port fun y => { y with buffer := y.buffer ++ [(s.time, frame)] }))

/-! ### The time base (R437, R438) -/

/-- Whether the path to a time source stands: its link is up, or the way to the Mortar root is. -/
def State.sourcePath (s : State) (k : Nat) : Bool :=
  let root := s.dictGet 0x2A02 1
  if k = 1 then s.hostLink 0 else if k = 2 then s.hostLink 1
  else if k = 3 then (List.range 4).any fun p => (s.feed p).up
  else root != s.node && ((s.route 0 s.plane root).isSome || (s.route 1 s.plane root).isSome)

/-- The first available source in the priority list, 0 when there is none. -/
def State.bestSource (s : State) : Nat :=
  (((span 1 4).map fun i => s.dictGet 0x2A01 i).find? fun k => s.clock.available.getD k false).getD 0

/-- A measured offset to a source.  The source in use steps device time before READY and slews it afterwards. -/
def execTimeSyncExchange (source : Nat) (offset : Int) (s : State) : Host.Outcome State Fault Refusal :=
  onUnits (isSource source) s (
    if !s.linked || source = 0 || !s.sourcePath source then s
    else
      let s : State := { s with clock := { s.clock with available := listSet s.clock.available source true } }
      let best := s.bestSource
      let s : State := { s with clock := { s.clock with source := best } }
      if best != source then s
      else if s.ready then { s with clock := { s.clock with offset, slew := offset } }
      else { s with time := (s.time + offset).toNat, clock := { s.clock with offset, slew := 0 } })

/-- The source in use is lost, and the next in the list is taken. -/
def execTimeSourceLost (s : State) : Host.Outcome State Fault Refusal :=
  onUnits true s (
    if !s.linked || s.clock.source = 0 then s
    else
      let s : State := { s with clock := { s.clock with available := listSet s.clock.available s.clock.source false, slew := 0 } }
      { s with clock := { s.clock with source := s.bestSource } })

/-- Time messages go out on every port that is up. -/
def execTimeMessage (s : State) : Host.Outcome State Fault Refusal :=
  onUnits true s (if !s.linked then s else ((List.range 12).filter s.portUp).foldl (fun s p => s.emit (.mortarTime p s.time)) s)

/-- TIME_PPS is high for 1 µs at each whole second of device time. -/
def execTimePps (s : State) : Host.Outcome State Fault Refusal :=
  onUnits true s (if s.asleep || s.time % 1000000000 != 0 then s else s.emit (.pps s.time))

/-! ### Answers from hosts and other modules (R242, R243) -/

/-- The data of a completion, cut or filled to the length asked for. -/
def fitCompletion (n : Nat) : Completion → Completion
  | .data b => .data ((b ++ List.replicate n 0).take n)
  | c => c

/-- The host answers a read. -/
def execPcieCompletion (hall addr len : Nat) (c : Completion) (s : State) : Host.Outcome State Fault Refusal :=
  onUnits (isHall hall) s (
    let hit (x : HostRead) : Bool := x.is hall addr len && x.answer.isNone && !x.poisoned
    { s with hostReads := modifyFirst hit (fun x => { x with answer := some (fitCompletion len c) }) s.hostReads })

/-- A host read that times out completes as poisoned. -/
def execPcieCompletionTimeout (hall addr : Nat) (s : State) : Host.Outcome State Fault Refusal :=
  onUnits (isHall hall) s (
    let hit (x : HostRead) : Bool := x.hall == hall && x.addr == addr && x.answer.isNone && !x.poisoned
    { s with hostReads := modifyFirst hit ({ · with poisoned := true }) s.hostReads })

/-- The k-th remote access gets no response: it completes as poisoned. -/
def execRemoteResponseTimeout (k : Nat) (s : State) : Host.Outcome State Fault Refusal :=
  onUnits true s (
    match s.remotes[k]? with
    | some x => s.answerRemote (· == x) 2 []
    | none => s)

end Sys2Proof.Machine
end

