-- ==== Sys2Proof/Machine/Memory.lean ====
section
/-! DEFINITION. HBM channels and bandwidth regulation: the Port Regulators (R160 to R167), the congestion levels (R163), the
order of a pseudo-channel (R168), refresh (R157), the ends of accesses (R149 to R154, R169) and the patrol scrub (R156). -/

namespace Sys2Proof.Machine

/-! ### PORT_REGULATOR_ISSUE (R160, R167) -/

/-- The deadline code and whether it was clamped, for a time that remains (R24, R167). -/
def deadlineCode (remaining : Nat) : Nat × Bool :=
  let c := (remaining + 63) / 64
  if 0xFFFFF < c then (0xFFFFF, true) else (c, false)

/-- The deadline with which a request of a port issues, and whether it was clamped: none but for an RT port; DEADLINE from
the issue, or what remains to the stream's presentation time (R167). -/
def State.deadlineAt (s : State) (setting : Nat) (q : MemReq) : Option Nat × Bool :=
  if regClass setting != 0 then (none, false)
  else match q.deadline with
    | some t =>
      let (c, clamped) := deadlineCode (t - s.time)
      (some (s.time + c * 64), clamped)
    | none => (some (s.time + regDeadline setting * 64), false)

/-- The 64-byte accesses of a request (R149). -/
def accessesOf (q : MemReq) : List MemReq :=
  (unitsOf q.lpa q.len).map fun u =>
    let lo := max q.lpa (u * 64)
    { q with lpa := lo, len := min (q.lpa + q.len) (u * 64 + 64) - lo, last := u * 64 + 64 ≥ q.lpa + q.len }

/-- Whether a pseudo-channel's queue of 64 entries takes n accesses of a class: another class than RT only while 8 entries
are free (R163, R168). -/
def PseudoChannel.admits (x : PseudoChannel) (cls n : Nat) : Bool :=
  decide (x.queue.length + n ≤ 64) && (cls == 0 || decide (x.queue.length ≤ 56))

/-- Whether a master port is that of a copy engine, which serves two washers (R159, R447). -/
def isCopyPort (p : Nat) : Bool := decide (2560 ≤ p) && (p - 2560) % 16 == 9

/-- The washer that a request of a port belongs to: that of its stack at a copy-engine port (R447). -/
def washerOf (p : Nat) (q : MemReq) : Nat := if isCopyPort p then q.lpa / 2 ^ 36 % 2 else 0

/-- The time that a port takes for a byte at its physical rate, in 1/16,000 ns: 80 GB/s for the ports of a Room (R112, R118),
128 GB/s for a host port, 50 GB/s for a Mortar port, 25 Gb/s for an ingest port and 800 GB/s for a washer (R160, R447).  The spec
states none for the Steward (log entry 65). -/
def byteTime (p : Nat) : Nat :=
  if p < 2560 then 200
  else match (p - 2560) % 16 with
    | 0 => 125
    | 7 => 5120
    | 8 => 5120
    | 9 => 20
    | 10 => 0
    | _ => 320

/-- Whether nothing but its tokens holds a request back: its port or washer has moved what it issued before, and its pseudo-channel
admits it (R160, R163, R168, R447). -/
def State.mayIssue (s : State) (p : Nat) (q : MemReq) : Bool :=
  decide (Store.get 0 (s.reg p).busyUntil (washerOf p q) < 16000 * (s.time + 1)) &&
    (s.pc (s.pcOf q.lpa)).admits (regClass (s.portSetting p)) (accessesOf q).length

/-- The request that issues next: the oldest one, and at a copy-engine port the washers in turn, each taking what the other leaves
unused (R160, R447). -/
def State.nextRequest (s : State) (p : Nat) : Option MemReq :=
  let g := s.reg p
  if !isCopyPort p then g.waiting.head?
  else
    let of (k : Nat) : Option MemReq := g.waiting.find? fun q => washerOf p q == k
    match of g.washer, of (1 - g.washer) with
    | some q, some q' => if s.mayIssue p q || !s.mayIssue p q' then some q else some q'
    | some q, none => some q
    | none, q' => q'

/-- A request leaves its port: it takes its tokens and the port's time, and it is counted (R160, R167, R171). -/
def Regulator.issued (g : Regulator) (p now need : Nat) (q : MemReq) (clamped : Bool) : Regulator :=
  let w := washerOf p q
  { g with tokens := g.tokens - need, waiting := removeFirst (· == q) g.waiting, granted := satAdd 64 g.granted q.len
           clamped := if clamped then satAdd 32 g.clamped 1 else g.clamped
           busyUntil := Store.set 0 g.busyUntil w (max (Store.get 0 g.busyUntil w) (16000 * now) + q.len * byteTime p)
           washer := if isCopyPort p then 1 - w else g.washer }

/-- The next request of a port issues, once the bucket holds its tokens (R160, R164, R167, R171). -/
def State.issuePort (s : State) (p : Nat) : State :=
  let s := s.refill p
  match s.nextRequest p with
  | none => s
  | some q =>
    let w := s.portSetting p
    let need := (q.len + 63) / 64 * tokenUnit
    let (deadline, clamped) := s.deadlineAt w q
    if (s.reg p).tokens < need || !s.mayIssue p q then s
    else
      -- What is issued no longer waits, so the level of the next request applies from now on (R163).
      let s := s.modReg p (·.issued p s.time need q clamped)
      s.modPc (s.pcOf q.lpa) fun x =>
        { x with queue := x.queue ++ accessesOf { q with cls := regClass w, deadline, arrival := s.time } }

def execPortRegulatorIssue (port : Nat) (s : State) : Host.Outcome State Fault Refusal :=
  onUnits (isMaster port) s (s.issuePort port)

/-! ### CONGESTION_PUBLISH (R163) -/

/-- The level of a group: the highest among its pseudo-channels. -/
def State.groupLevel (s : State) (name : Nat) : Nat :=
  ((span name (s.groupSize (name / 32))).map fun p => (s.pc p).level).foldl max 0

/-- The controller of a stack publishes the level of each of its groups; every regulator is brought up to date first. -/
def State.publishLevels (s : State) (stack : Nat) : State :=
  let s := (s.regulators.map (·.1)).foldl State.refill s
  let p := s.groupSize stack
  let names := (List.range (32 / p)).map fun g => stack * 32 + g * p
  names.foldl (fun s g => { s with levels := Store.set 0 s.levels g (s.groupLevel g) }) s

def execCongestionPublish (stack : Nat) (s : State) : Host.Outcome State Fault Refusal :=
  onUnits (isFloor stack) s (s.publishLevels stack)

/-! ### HBM_REFRESH (R157) -/

/-- A refresh interval ends on a pseudo-channel: one refresh falls due, or two above 85 °C (log entry 56). -/
def execHbmRefresh (pc : Nat) (s : State) : Host.Outcome State Fault Refusal :=
  onUnits (isPc pc) s (s.modPc pc fun x => { x with refreshDue := x.refreshDue + (s.floor (pc / 32)).refresh })

/-! ### PC_SCHEDULE (R168) -/

/-- An RT request whose deadline lies within 2 µs (R167). -/
def MemReq.urgent (q : MemReq) (now : Nat) : Bool :=
  q.cls == 0 && match q.deadline with | some d => decide (d ≤ now + 2000) | none => false

/-- The request of a list with the earliest deadline, the earlier arrival first among equals. -/
def earliest (l : List MemReq) : Option MemReq :=
  let key (q : MemReq) : Nat := q.deadline.getD 0
  l.find? fun q => l.all fun r => decide (key q ≤ key r)

/-- Whether an access meets its row open (R168). -/
def State.rowHit (s : State) (x : PseudoChannel) (q : MemReq) : Bool :=
  let w := s.place q.lpa
  Store.get none x.openRows w.bank == some w.row

/-- The next access of one class: row hits before row misses until the oldest has waited 2 µs (R168). -/
def State.pickClass (s : State) (x : PseudoChannel) (l : List MemReq) : Option MemReq :=
  match l with
  | [] => none
  | oldest :: _ => if oldest.arrival + 2000 ≤ s.time then some oldest else (l.find? (s.rowHit x)).orElse fun _ => some oldest

/-- The next access of the current direction (R168). -/
def State.pickAccess (s : State) (x : PseudoChannel) : Option MemReq :=
  let l := x.queue.filter fun q => q.write == x.writing
  let ofClass (c : Nat) : List MemReq := l.filter (·.cls == c)
  (earliest (ofClass 0)).orElse fun _ => (s.pickClass x (ofClass 1)).orElse fun _ =>
    (s.pickClass x (ofClass 2)).orElse fun _ => s.pickClass x (ofClass 3)

/-- An access goes into service: it leaves the queue and opens its row. -/
def State.serveAccess (s : State) (p : Nat) (q : MemReq) (batch : Nat) : State :=
  let w := s.place q.lpa
  s.modPc p fun x =>
    { x with queue := removeFirst (· == q) x.queue, inService := some q, batch
             openRows := Store.set none x.openRows w.bank (some w.row) }

/-- One refresh is performed; which bank it closes is open (log entry 56). -/
def PseudoChannel.refreshed (x : PseudoChannel) : PseudoChannel :=
  { x with refreshDue := x.refreshDue - 1, refreshes := x.refreshes + 1
           openRows := Store.set none x.openRows (Config.refreshBank x.refreshes).val none }

/-- Count, record and remember an uncorrectable unit (R151). -/
def State.recordBad (s : State) (p lpa : Nat) : State :=
  let u := lpa / 64
  let s := (s.bump (0x2610 + p) 5 32).dictSet (0x2610 + p) 0x0B (u * 64)
  s.report 2 4 3 4 p 0 (u * 64)

/-- The household on whose behalf a port works (R356). -/
def State.portHouse (s : State) (port : Nat) : Nat := ((s.portServes port).map fun n => (s.suite n).owner).getD 0

/-- A request that has ended after its deadline is a miss, once for all its accesses (R169, R170). -/
def State.countMiss (s : State) (p : Nat) (q : MemReq) : State :=
  let late := q.last && q.cls == 0 && match q.deadline with | some d => decide (d < s.time) | none => false
  if !late then s
  else
    let s := (s.bump (0x2610 + p) 6 32).modReg q.port fun g => { g with misses := satAdd 32 g.misses 1 }
    s.report 2 6 2 4 p (s.portHouse q.port) (q.port % 4096 + p % 32 * 4096)

/-- An access has ended with the mark of a bad unit, which its reader has not taken yet (R148, R151): a Room takes a hardware fault,
unless its DMA transfer is still outstanding and meets the unit when it ends; an arrived access is answered with the mark, unless
another holder of the line supplied it; every other one is recorded only. -/
def State.markReader (s : State) (q : MemReq) : State :=
  if q.told then s
  else if q.port < 1280 then
    if (s.room q.port).dma.any fun t => q.tag == some t.tag then s else s.hardwareFault q.port
  else if q.port < 2560 then s.hardwareFault (q.port - 1280)
  else if (s.lineElsewhere (lineOf q.lpa)).isSome then s
  else
    { s with heldAnswers := s.heldAnswers.map fun h =>
        if h.port == q.port && q.touches h.waiter.addr h.waiter.acc.len then { h with poisoned := true } else h }

/-- An access is not performed and ends as uncorrectable (R148, R154). -/
def State.dropAccess (s : State) (p : Nat) (q : MemReq) : State := ((s.recordBad p q.lpa).markReader q).countMiss p q

/-- The corrected units of a pseudo-channel are rewritten as its queue admits them; one that a newer write replaces is not (R150). -/
def PseudoChannel.admitRewrites (port now : Nat) (x : PseudoChannel) : PseudoChannel :=
  match x.rewrites with
  | [] => x
  | u :: rest =>
    if x.queue.any fun w => w.write && w.lpa / 64 * 64 == u then { x with rewrites := rest }
    else if !x.admits 3 1 then x
    else { x with rewrites := rest, queue := x.queue ++ [{ port, lpa := u, len := 64, write := true, cls := 3, arrival := now }] }

/-- The master of the controller's own requests: no port of R159. -/
def controllerPort : Nat := 4096

/-- The pseudo-channel picks its next access (R148, R150, R157, R168). -/
def State.schedule (s : State) (p : Nat) : State :=
  let s := s.modPc p (PseudoChannel.admitRewrites controllerPort s.time)
  let x := s.pc p
  if x.inService.isSome then s
  else
    let urgent := x.queue.filter (·.urgent s.time)
    if 0 < x.refreshDue && (urgent.isEmpty || Config.refreshLimit ≤ x.refreshDue) then s.modPc p PseudoChannel.refreshed
    else if !s.groupOk (s.groupName p) then
      -- Accesses to an unusable group are not performed and end as uncorrectable (R148).
      match x.queue with
      | q :: rest => (s.modPc p ({ · with queue := rest })).dropAccess p q
      | [] => s
    else match earliest urgent with
      | some q => s.serveAccess p q x.batch
      | none =>
        match if x.batch < 64 then s.pickAccess x else none with
        | some q => s.serveAccess p q (x.batch + 1)
        | none => if x.queue.isEmpty then s else s.modPc p ({ · with writing := !x.writing, batch := 0 })

def execPcSchedule (pc : Nat) (s : State) : Host.Outcome State Fault Refusal :=
  onUnits (isPc pc) s (s.schedule pc).releaseAnswers

/-! ### HBM_ACCESS_COMPLETE (R149 to R154, R169) -/

/-- An access ends: its bytes are counted, and an RT request that ends with it after its deadline is a miss (R169, R170). -/
def State.endAccess (s : State) (p : Nat) (q : MemReq) : State :=
  ((s.modPc p ({ · with inService := none, retries := 0 })).bump (0x2610 + p) (if q.write then 8 else 7) 64 q.len).countMiss p q

/-- A SCAVENGE request of the controller itself, when the queue admits one. -/
def State.scavenge (s : State) (p lpa : Nat) (write : Bool) : State :=
  if !(s.pc p).admits 3 1 then s
  else
    let q : MemReq := { port := controllerPort, lpa, len := 64, write, cls := 3, arrival := s.time }
    s.modPc p fun x => { x with queue := x.queue ++ [q] }

/-- A correction in a lane at a time: those of the last second are kept, and the unit waits to be rewritten (R150). -/
def PseudoChannel.corrected (now lane u : Nat) (x : PseudoChannel) : PseudoChannel :=
  PseudoChannel.admitRewrites controllerPort now
    { x with corrections := Store.modify [] x.corrections lane fun l => l.filter (fun t => decide (now < t + 1000000000)) ++ [now]
             rewrites := x.rewrites ++ [u] }

/-- A read was corrected in a lane: it is counted and recorded, the unit is rewritten unless a newer write to it is queued,
and a lane with more than 16 corrections within one second is set REPAIR_PENDING (R150). -/
def State.correct (s : State) (p lane : Nat) (q : MemReq) : State :=
  let u := q.lpa / 64 * 64
  let s := ((s.bump (0x2610 + p) 4 32).report 2 3 1 4 p 0 u).modPc p (PseudoChannel.corrected s.time lane u)
  let code := 0x80 + lane % 64
  if (Store.get [] (s.pc p).corrections lane).length ≤ 16 || s.dictGet (0x2610 + p) 0x0A = code then s
  else ((s.modPc p ({ · with repair := some lane })).dictSet (0x2610 + p) 0x0A code).report 2 5 2 4 p 0 lane

/-- A retry of an interface error, or the end of a pseudo-channel whose command has failed three retries in a row (R153,
R154). -/
def State.retryAccess (s : State) (p sub : Nat) (q : MemReq) : State :=
  if (s.pc p).retries < 3 then (s.bump (0x2610 + p) sub 32).modPc p fun x => { x with retries := x.retries + 1 }
  else ((s.losePc p).modPc p ({ · with inService := none, retries := 0 })).dropAccess p q

/-- An access meets a unit that another one found bad before: an arrived access takes the mark; a Room met the unit when it performed
the access (R151). -/
def State.markKnown (s : State) (q : MemReq) : State := if q.port < 2560 then s else s.markReader q

/-- The access in service ends as `result` says; a unit that holds an uncorrectable error shows it again (R151), and when it is first
found, DUPLEX and PAIRED Suites bound to its group lose the copy there (R333). -/
def State.complete (s : State) (p : Nat) (result : HbmResult) : State :=
  match (s.pc p).inService with
  | none => s
  | some q =>
    let full := q.write && q.len == 64
    let known := !full && s.badUnits.contains (q.lpa / 64)
    match result with
    | .parityCommand => s.retryAccess p 1 q
    | .parityWrite => if q.write then s.retryAccess p 2 q else s
    | .parityRead => if full then s else s.retryAccess p 3 q
    | .commandFailed => if (s.pc p).retries < 3 then s else s.retryAccess p 1 q
    | .uncorrectable =>
      if full then s.endAccess p q
      else
        let fresh (s : State) : State := (({ s with badUnits := s.badUnits ++ [q.lpa / 64] } : State).markReader q).dropGroup p
        ((if known then s.markKnown q else fresh s).recordBad p q.lpa).endAccess p q
    | .corrected lane =>
      if full then s.endAccess p q
      else if known then ((s.markKnown q).recordBad p q.lpa).endAccess p q
      else (s.correct p lane q).endAccess p q
    | .ok => if known then ((s.markKnown q).recordBad p q.lpa).endAccess p q else s.endAccess p q

def execHbmAccessComplete (pc : Nat) (result : HbmResult) (s : State) : Host.Outcome State Fault Refusal :=
  onUnits (isPc pc && isHbmResult result) s (s.complete pc result).releaseAnswers

/-! ### PATROL_SCRUB (R156) -/

/-- Units of a stack. -/
def stackUnits : Nat := stackBytes / 64

/-- The scrub asks for the next unit of the stack; a pass ends after the last (R156, R170). -/
def State.scrubNext (s : State) (stack : Nat) : State :=
  let u := (s.floor stack).scrub
  let a := stack * 2 ^ 36 + u * 64
  let p := s.pcOf a
  if !(s.pc p).admits 3 1 then s
  else
    let s := s.scavenge p a false
    if u + 1 < stackUnits then s.modFloor stack ({ · with scrub := u + 1 })
    else (s.modFloor stack ({ · with scrub := 0 })).bump (0x2601 + stack) 5 32

def execPatrolScrub (stack : Nat) (s : State) : Host.Outcome State Fault Refusal :=
  onUnits (isFloor stack) s (s.scrubNext stack)

end Sys2Proof.Machine
end

