-- ==== Sys2Proof/Machine/Micro.lean ====
section
/-! DEFINITION. Brick micro-programs: the micro-instruction word (R106), the micro-operations (R107, R108), their faults
(R109), VEC and UPLD. -/

namespace Sys2Proof.Machine

/-- A micro-operation with the fields that it uses (R106, R107). -/
inductive Uop where
  | nop
  | fma (d a b c : BitVec 6) (mod : BitVec 4) (count : BitVec 8)
  | add (d a b : BitVec 6) (mod : BitVec 4) (count : BitVec 8)
  | mul (d a b : BitVec 6) (mod : BitVec 4) (count : BitVec 8)
  | max (d a b : BitVec 6) (mod : BitVec 4) (count : BitVec 8)
  | min (d a b : BitVec 6) (mod : BitVec 4) (count : BitVec 8)
  | func (d a : BitVec 6) (mod : BitVec 4) (count : BitVec 8)
  | iadd (d a b : BitVec 6) (count : BitVec 8)
  | imul (d a b : BitVec 6) (count : BitVec 8)
  | icvt (d a : BitVec 6) (mod : BitVec 4) (count : BitVec 8)
  | ld (d a : BitVec 6) (mod : BitVec 4) (haddr : BitVec 14) (count : BitVec 8)
  | st (d a : BitVec 6) (mod : BitVec 4) (haddr : BitVec 14) (count : BitVec 8)
  | sel (d a b c : BitVec 6) (mod : BitVec 4) (count : BitVec 8)
  | lane (d : BitVec 6) (mod : BitVec 4)
  | loop (count target : BitVec 8)
  | done
deriving DecidableEq, Repr

/-- The micro-operation of a 64-bit word; none for the reserved codes 0x10 to 0x3F (R106, R107). -/
def decodeMicro (w : W64) : Option Uop :=
  let d : BitVec 6 := w.extractLsb' 52 6
  let a : BitVec 6 := w.extractLsb' 46 6
  let b : BitVec 6 := w.extractLsb' 40 6
  let c : BitVec 6 := w.extractLsb' 34 6
  let mod : BitVec 4 := w.extractLsb' 30 4
  let haddr : BitVec 14 := w.extractLsb' 16 14
  let count : BitVec 8 := w.extractLsb' 8 8
  let target : BitVec 8 := w.extractLsb' 0 8
  match (w.extractLsb' 58 6).toNat with
  | 0x00 => some .nop
  | 0x01 => some (.fma d a b c mod count)
  | 0x02 => some (.add d a b mod count)
  | 0x03 => some (.mul d a b mod count)
  | 0x04 => some (.max d a b mod count)
  | 0x05 => some (.min d a b mod count)
  | 0x06 => some (.func d a mod count)
  | 0x07 => some (.iadd d a b count)
  | 0x08 => some (.imul d a b count)
  | 0x09 => some (.icvt d a mod count)
  | 0x0A => some (.ld d a mod haddr count)
  | 0x0B => some (.st d a mod haddr count)
  | 0x0C => some (.sel d a b c mod count)
  | 0x0D => some (.lane d mod)
  | 0x0E => some (.loop count target)
  | 0x0F => some .done
  | _ => none

/-! ### Element by element (R107, R109) -/

/-- An operand of an elementwise micro-operation: its first accumulator, and whether it is held. -/
structure Walked where
  first : BitVec 6
  held : Bool := false

/-- The accumulator of element i. -/
def Walked.at (p : Walked) (i : Nat) : Nat := if p.held then p.first.toNat else p.first.toNat + i
/-- Whether element COUNT lies within a63 (R109). -/
def Walked.fits (p : Walked) (count : BitVec 8) : Bool := p.held || decide (p.first.toNat + count.toNat ≤ 63)

def advancing (a : BitVec 6) : Walked := { first := a }
def holding (mod : BitVec 4) (k : Nat) (a : BitVec 6) : Walked := { first := a, held := mod.getLsbD k }

/-- Elements one at a time in ascending order, element i reading after element i − 1 has written (R107). -/
def elements (d : Walked) (count : BitVec 8) (f : (Nat → W32) → Nat → W32) (acc : Store W32) : Store W32 :=
  iterate (fun i acc => Store.set 0 acc (d.at i) (f (Store.get 0 acc) i)) (count.toNat + 1) acc

/-- SEL's condition on an FP32 word (R107); none for a reserved code. -/
def selHolds (mod : Nat) (w : W32) : Option Bool :=
  let nan := fp32IsNan w
  let zero := decide (w.toNat % 0x80000000 = 0)
  let neg := w.getLsbD 31 && !zero
  match mod with
  | 0 => some (!nan && zero)
  | 1 => some (nan || !zero)
  | 2 => some (!nan && neg)
  | 3 => some (!nan && (neg || zero))
  | 4 => some (!nan && !neg && !zero)
  | 5 => some (!nan && !neg)
  | _ => none

/-- The function that FUNC selects (R107, R108); none for a reserved code. -/
def funcOf (mod : Nat) : Option (W32 → W32) :=
  if mod = 2 then some fp32Recip
  else if mod = 6 then some fp32Sqrt
  else if mod = 7 then some fp32Abs
  else if mod = 8 then some fp32Neg
  else if mod = 9 then some fp32Floor
  else if mod < 6 then some (elementary mod)
  else none

/-- The conversion that ICVT selects (R107); none for a reserved code. -/
def icvtOf (mod : Nat) : Option (W32 → W32) :=
  if mod = 0 then some intToFp32
  else if mod = 1 then some (fp32ToInt .rne)
  else if mod = 2 then some (fp32ToInt .rtz)
  else none

/-- The Hod address of element 0 of LD and ST in a lane: aA is read once, as a signed count of words (R107). -/
def hodAddress (mod : BitVec 4) (haddr : BitVec 14) (a : BitVec 6) (acc : Store W32) : Int :=
  (haddr.toNat : Int) + if mod.getLsbD 0 then 4 * (Store.get 0 acc a.toNat).toInt else 0

/-- The fault of an LD or ST in a lane (R107, R109). -/
def hodFault (base : Int) (count : BitVec 8) : Option Nat :=
  firstFault [must (base % 4 = 0) faultAlignment,
    must (decide (0 ≤ base) && decide (base + 4 * count.toNat + 4 ≤ hodBytes)) faultBounds]

/-- LD in a lane. -/
def loadWords (base : Nat) (d : BitVec 6) (count : BitVec 8) (b : Brick) : Brick :=
  { b with acc := iterate (fun i acc =>
      Store.set 0 acc (d.toNat + i) (BitVec.ofNat 32 (Memory.readNat b.hod (base + 4 * i) 4))) (count.toNat + 1) b.acc }

/-- The bytes that ST writes in a lane. -/
def storedWords (d : BitVec 6) (count : BitVec 8) (acc : Store W32) : List Byte :=
  (List.range (count.toNat + 1)).flatMap fun i => leBytes 4 (Store.get 0 acc (d.toNat + i)).toNat

/-! ### One micro-operation on every present lane -/

/-- Change the accumulators of every present lane. -/
def Room.mapAcc (x : Room) (lanes : Nat) (f : Nat → Store W32 → Store W32) : Room :=
  (List.range lanes).foldl (fun x l => x.modBrick l fun b => { b with acc := f l b.acc }) x

/-- An elementwise micro-operation: refused whole when an operand would pass a63 (R109). -/
def Room.elementwise (x : Room) (lanes : Nat) (ops : List Walked) (d : Walked) (count : BitVec 8)
    (f : (Nat → W32) → Nat → W32) : Except Nat Room :=
  if (d :: ops).all (·.fits count) then .ok (x.mapAcc lanes fun _ => elements d count f)
  else .error faultMicroprogram

/-- An elementwise operation of two held or advancing sources. -/
def Room.binary (x : Room) (lanes : Nat) (d a b : BitVec 6) (mod : BitVec 4) (count : BitVec 8)
    (f : W32 → W32 → W32) : Except Nat Room :=
  let d := holding mod 0 d
  let a := holding mod 1 a
  let b := holding mod 2 b
  x.elementwise lanes [a, b] d count fun v i => f (v (a.at i)) (v (b.at i))

/-- An elementwise operation of one source; none stands for a reserved MOD code (R109). -/
def Room.unary (x : Room) (lanes : Nat) (d a : BitVec 6) (count : BitVec 8) (f : Option (W32 → W32)) : Except Nat Room :=
  match f with
  | none => .error faultMicroprogram
  | some f => x.elementwise lanes [advancing a] (advancing d) count fun v i => f (v (a.toNat + i))

/-- The first fault of LD or ST over the present lanes. -/
def Room.hodFaults (x : Room) (lanes : Nat) (mod : BitVec 4) (haddr : BitVec 14) (a : BitVec 6) (count : BitVec 8) :
    Option Nat :=
  firstFault ((List.range lanes).map fun l => hodFault (hodAddress mod haddr a (x.brick l).acc) count)

/-- What a micro-operation does to the lanes; its faults are codes of R116.  LOOP and END act on the sequence alone. -/
def Room.uop (x : Room) (lanes : Nat) (u : Uop) : Except Nat Room :=
  match u with
  | .nop => .ok x
  | .loop _ _ => .ok x
  | .done => .ok x
  | .fma d a b c mod count =>
    let d := holding mod 0 d
    let a := holding mod 1 a
    let b := holding mod 2 b
    let c := holding mod 3 c
    x.elementwise lanes [a, b, c] d count fun v i => fp32Fma (v (a.at i)) (v (b.at i)) (v (c.at i))
  | .add d a b mod count => x.binary lanes d a b mod count fp32Add
  | .mul d a b mod count => x.binary lanes d a b mod count fp32Mul
  | .max d a b mod count => x.binary lanes d a b mod count fp32Max
  | .min d a b mod count => x.binary lanes d a b mod count fp32Min
  | .func d a mod count => x.unary lanes d a count (funcOf mod.toNat)
  | .iadd d a b count => x.binary lanes d a b 0 count fun a b => a + b
  | .imul d a b count => x.binary lanes d a b 0 count fun a b => a * b
  | .icvt d a mod count => x.unary lanes d a count (icvtOf mod.toNat)
  | .ld d a mod haddr count =>
    if !(advancing d).fits count then .error faultMicroprogram
    else match x.hodFaults lanes mod haddr a count with
    | some c => .error c
    | none =>
      .ok ((List.range lanes).foldl (fun x l =>
        x.modBrick l fun b => loadWords (hodAddress mod haddr a b.acc).toNat d count b) x)
  | .st d a mod haddr count =>
    if !(advancing d).fits count then .error faultMicroprogram
    else match x.hodFaults lanes mod haddr a count with
    | some c => .error c
    | none =>
      .ok ((List.range lanes).foldl (fun x l =>
        let acc := (x.brick l).acc
        x.writeHod l (hodAddress mod haddr a acc).toNat (storedWords d count acc)) x)
  | .sel d a b c mod count =>
    if 5 < mod.toNat then .error faultMicroprogram
    else x.elementwise lanes [advancing a, advancing b, advancing c] (advancing d) count fun v i =>
      if (selHolds mod.toNat (v (a.toNat + i))).getD false then v (b.toNat + i) else v (c.toNat + i)
  | .lane d mod =>
    .ok (x.mapAcc lanes fun l acc =>
      Store.set 0 acc d.toNat (if mod.getLsbD 0 then intToFp32 (BitVec.ofNat 32 l) else BitVec.ofNat 32 l))

/-! ### The sequence (R107, R109) -/

/-- The sequence after the entry in hand; running past entry 255 faults (R109). -/
def MicroSeq.next (q : MicroSeq) : Except Nat MicroSeq :=
  let n := leaveLoops q.pc q.loops
  if n.2 ≤ 255 then .ok { q with pc := n.2, loops := n.1 } else .error faultMicroprogram

/-- What a micro-operation does to the sequence: LOOP nests two deep and its TARGET lies behind it; END completes the
VEC (R107, R109). -/
def MicroSeq.uop (q : MicroSeq) (u : Uop) : Except Nat MicroSeq :=
  match u with
  | .done => .ok { pc := 0, loops := [], active := false }
  | .loop count target =>
    if target.toNat ≤ q.pc || decide (2 ≤ q.loops.length) then .error faultMicroprogram
    else
      let frame : LoopFrame := { first := q.pc + 1, last := target.toNat, left := count.toNat + 1 }
      .ok { q with pc := q.pc + 1, loops := frame :: q.loops }
  | _ => q.next

/-- One micro-operation: its effect on the lanes, then on the sequence. -/
def Room.microStep (x : Room) (lanes : Nat) (u : Uop) : Except Nat Room :=
  match x.uop lanes u with
  | .error c => .error c
  | .ok y =>
    match y.micro.uop u with
    | .error c => .error c
    | .ok q => .ok { y with micro := q }

/-- Run the sequence from the entry in hand until END; a reserved code faults (R107, R109). -/
def Room.runMicro (lanes : Nat) : Nat → Room → Except Nat Room
  | 0, _ => .error faultMicroprogram
  | fuel + 1, x =>
    if !x.micro.active then .ok x
    else match decodeMicro (Store.get 0 x.microStore x.micro.pc) with
    | none => .error faultMicroprogram
    | some u =>
      match x.microStep lanes u with
      | .error c => .error c
      | .ok y => runMicro lanes fuel y

/-- More micro-operations than any micro-program can run: 256 entries in two loops of 256 passes. -/
def microFuel : Nat := 2 ^ 25

/-- Run the micro-program from entry s[RS][7:0] on every lane (R107, R109).  A VEC whose micro-operation faults leaves no effect of
those before it (DEDUCED, log entry 84). -/
def execVec (r : Nat) (g : Guard) (rs : BitVec 5) (s : State) : Host.Outcome State Fault Refusal :=
  foremanOp r g (fun s =>
    let x := s.room r
    let entry := (x.foreman.reg rs).toNat % 256
    match Room.runMicro (s.lanes r) microFuel { x with micro := { pc := entry, loops := [], active := true } } with
    | .error c => Issue.fault r c s
    | .ok y => .done (s.setRoom r y)) s

/-- Load micro-program words from Pantry tile t[TA] into every Brick, from entry s[RS][7:0]: COLS words of 8 bytes from
ELEM_BASE (R109, log entry 22). -/
def execUpld (r : Nat) (g : Guard) (ta : BitVec 4) (rs : BitVec 5) (s : State) : Host.Outcome State Fault Refusal :=
  foremanOp r g (fun s =>
    let f := (s.room r).foreman
    let d := f.desc ta
    let entry := (f.reg rs).toNat % 256
    let cache := s.portion r
    match firstFault [d.check cache, must (d.space = 0) faultBadDescriptor, must (entry + d.cols ≤ 256) faultBounds,
        must (d.base + 8 * d.cols ≤ scratchBytes cache) faultBounds] with
    | some c => Issue.fault r c s
    | none =>
      .done (s.modRoom r fun x =>
        { x with microStore := iterate (fun i m =>
            Store.set 0 m (entry + i) (BitVec.ofNat 64 (Memory.readNat x.pantry (d.base + 8 * i) 8))) d.cols x.microStore })) s

/-- A micro-operation of the micro-program that Room r runs: nothing happens unless its Foreman runs. -/
def uopCommand (r : Nat) (u : Uop) (s : State) : Host.Outcome State Fault Refusal :=
  if !isRoom r then .refused .noSuchUnit
  else if (s.room r).foreman.run != .running then .next s
  else match (s.room r).microStep (s.lanes r) u with
    | .ok y => .next (s.keepQueue (s.setRoom r y))
    | .error c => .next (s.keepQueue (s.programFault r c))

def execUopNop (r : Nat) (s : State) : Host.Outcome State Fault Refusal := uopCommand r .nop s
def execUopFma (r : Nat) (d a b c : BitVec 6) (mod : BitVec 4) (count : BitVec 8) (s : State) :
    Host.Outcome State Fault Refusal := uopCommand r (.fma d a b c mod count) s
def execUopAdd (r : Nat) (d a b : BitVec 6) (mod : BitVec 4) (count : BitVec 8) (s : State) :
    Host.Outcome State Fault Refusal := uopCommand r (.add d a b mod count) s
def execUopMul (r : Nat) (d a b : BitVec 6) (mod : BitVec 4) (count : BitVec 8) (s : State) :
    Host.Outcome State Fault Refusal := uopCommand r (.mul d a b mod count) s
def execUopMax (r : Nat) (d a b : BitVec 6) (mod : BitVec 4) (count : BitVec 8) (s : State) :
    Host.Outcome State Fault Refusal := uopCommand r (.max d a b mod count) s
def execUopMin (r : Nat) (d a b : BitVec 6) (mod : BitVec 4) (count : BitVec 8) (s : State) :
    Host.Outcome State Fault Refusal := uopCommand r (.min d a b mod count) s
def execUopFunc (r : Nat) (d a : BitVec 6) (mod : BitVec 4) (count : BitVec 8) (s : State) :
    Host.Outcome State Fault Refusal := uopCommand r (.func d a mod count) s
/-- MOD bits that a micro-operation does not use are ignored (R109). -/
def execUopIadd (r : Nat) (d a b : BitVec 6) (_mod : BitVec 4) (count : BitVec 8) (s : State) :
    Host.Outcome State Fault Refusal := uopCommand r (.iadd d a b count) s
def execUopImul (r : Nat) (d a b : BitVec 6) (_mod : BitVec 4) (count : BitVec 8) (s : State) :
    Host.Outcome State Fault Refusal := uopCommand r (.imul d a b count) s
def execUopIcvt (r : Nat) (d a : BitVec 6) (mod : BitVec 4) (count : BitVec 8) (s : State) :
    Host.Outcome State Fault Refusal := uopCommand r (.icvt d a mod count) s
def execUopLd (r : Nat) (d a : BitVec 6) (mod : BitVec 4) (haddr : BitVec 14) (count : BitVec 8) (s : State) :
    Host.Outcome State Fault Refusal := uopCommand r (.ld d a mod haddr count) s
def execUopSt (r : Nat) (d a : BitVec 6) (mod : BitVec 4) (haddr : BitVec 14) (count : BitVec 8) (s : State) :
    Host.Outcome State Fault Refusal := uopCommand r (.st d a mod haddr count) s
def execUopSel (r : Nat) (d a b c : BitVec 6) (mod : BitVec 4) (count : BitVec 8) (s : State) :
    Host.Outcome State Fault Refusal := uopCommand r (.sel d a b c mod count) s
def execUopLane (r : Nat) (d : BitVec 6) (mod : BitVec 4) (s : State) : Host.Outcome State Fault Refusal :=
  uopCommand r (.lane d mod) s
def execUopLoop (r : Nat) (count target : BitVec 8) (s : State) : Host.Outcome State Fault Refusal :=
  uopCommand r (.loop count target) s
def execUopEnd (r : Nat) (s : State) : Host.Outcome State Fault Refusal := uopCommand r .done s

end Sys2Proof.Machine
end

