-- ==== Sys2Proof/Machine/Protocol.lean ====
section
/-! DEFINITION. The coherence protocol: what homes, owners, sharers and requesters do with each message (R178 to R189), and
uncached accesses at a home (R186).

A message of a virtual channel from one sender to one receiver about one line does not overtake an earlier one (log entry
57).  A command whose message is not on its way, or must wait for an earlier one, changes nothing. -/

namespace Sys2Proof.Machine

/-! ### Messages on their way -/

/-- Whether two messages keep their order. -/
def CohMsg.follows (a b : CohMsg) : Bool := a.line == b.line && a.onVc1 == b.onVc1 && a.ends == b.ends

/-- The die of a sender or receiver: its Room's Floor, or the home's (R120). -/
def CohMsg.die (m : CohMsg) : Option Nat → Nat
  | some r => floorOf r
  | none => homeOf m.line

/-- Take the first message of a kind about a line to or from a Room, unless it must wait for an earlier message or for a link on its
way that is down (R120). -/
def State.takeMsg (s : State) (kind : CohKind) (r l : Nat) : Option (CohMsg × State) :=
  let this (m : CohMsg) : Bool := m.kind == kind && m.room == r && m.line == l
  match s.net.find? this with
  | none => none
  | some m =>
    if (s.net.takeWhile fun x => !this x).any (·.follows m) || !s.pathUp (m.die m.ends.1) (m.die m.ends.2) then none
    else some (m, { s with net := removeFirst this s.net })

/-- Whether a Room's port is parked: it is dozing or fenced, or its reset runs (R315, R371). -/
def Room.isParked (x : Room) : Bool := x.power == .fenced || x.power == .doze || x.foreman.run == .hold

/-- A message reaches a Room: a GATED one is ungated, and one for a parked port is counted (R308, R316). -/
def State.reachRoom (s : State) (r : Nat) : State :=
  if (s.room r).isParked then s.countParked r 1 else s.modRoom r fun x => { x with power := x.power.ungate }

/-- What a command does with its message. -/
def State.onMsg (s : State) (kind : CohKind) (r l : Nat) (f : CohMsg → State → State) : State :=
  match s.takeMsg kind r l with
  | some (m, s) => f m (match m.ends.2 with | some q => s.reachRoom q | none => s)
  | none => s

/-! ### The home: requests (R179, R182 to R185) -/

/-- Count at the directory of a line's home (R194). -/
def State.countDir (s : State) (l sub bits : Nat) : State := s.bump (0x2841 + homeOf l) sub bits

/-- Refuse a request (R183). -/
def State.nackRequest (s : State) (r l : Nat) : State := (s.countDir l 4 64).send { kind := .nack, room := r, line := l }

/-- Whether a reservation keeps a Room's request out (R184). -/
def State.keptOut (s : State) (r l : Nat) : Bool :=
  s.reservations.any fun x => x.1 == l && x.2 != r

/-- A request opens its transaction: it is counted, and its reservation is released (R183, R184, R194). -/
def State.accept (s : State) (r l : Nat) (exclusive : Bool) : State :=
  let mine (x : Nat × Nat) : Bool := x.1 == l && x.2 == r
  State.countDir { s with reservations := s.reservations.filter fun x => !mine x } l (if exclusive then 3 else 2) 64

/-- DATA from HBM (R182); a poisoned unit of the line goes with its mark (R151). -/
def State.dataFromHbm (s : State) (r l : Nat) (take : Moesi) (count : Nat) : State :=
  s.send { kind := .data, room := r, line := l, bytes := some (s.hbmRead (l * 128) 128), take, count
           poisoned := s.poisonedAt (l * 128) 128 }

/-- Send INV to every Room of a list (R182). -/
def State.invalidate (s : State) (l : Nat) (collector : Option Nat) (rooms : List Nat) : State :=
  rooms.foldl (fun s r => s.send { kind := .inv, room := r, line := l, peer := collector }) s

/-- The way of a set that was allocated longest ago among the ways that are not BUSY (R185). -/
def State.victimWay (s : State) (l : Nat) : Option (Nat × DirEntry) :=
  let ways := (dirKeys l).filterMap fun k => (Store.get none s.directory k).bind fun e => if e.txn.isSome then none else some (k, e)
  ways.find? fun x => ways.all fun y => decide (x.2.stamp ≤ y.2.stamp)

/-- Evict a directory entry: its sharers receive INV with the home as collector, its owner RECALL (R185). -/
def State.evictEntry (s : State) (k : Nat) (e : DirEntry) : State :=
  let sharers := e.sharers.rooms
  let owned := e.st != .shared
  let t : Txn := { requester := none, exclusive := false, acksDue := sharers.length, fwdAckDue := owned, evicting := true }
  let s := (s.setDir k (some { e with txn := some t })).countDir e.line 5 64
  let s := s.invalidate e.line none sharers
  if owned then s.send { kind := .recall, room := e.owner, line := e.line } else s

/-- A request for a line without an entry: the entry is allocated, or a way is evicted and the request refused (R182,
R185). -/
def State.allocate (s : State) (r l : Nat) (exclusive : Bool) : State :=
  match (dirKeys l).find? fun k => (Store.get none s.directory k).isNone with
  | some k =>
    let t : Txn := { requester := some r, exclusive }
    let s := s.accept r l exclusive
    let s := s.setDir k (some { line := l, st := .excl, owner := r, stamp := s.dirStamp, txn := some t })
    State.dataFromHbm { s with dirStamp := s.dirStamp + 1 } r l (if exclusive then .m else .e) 0
  | none =>
    let s := match s.victimWay l with
      | some (k, e) => s.evictEntry k e
      | none => s
    s.nackRequest r l

/-- Whether the directory lists a Room as a holder of a copy; a coarse vector lists none exactly (R179, R182). -/
def DirEntry.lists (e : DirEntry) (r : Nat) : Bool :=
  (e.st != .shared && e.owner == r) || match e.sharers with | .exact l => l.contains r | .coarse _ => false

/-- GETS of a line that has an entry (R182). -/
def State.getsEntry (s : State) (k : Nat) (e : DirEntry) (r : Nat) : State :=
  let s := s.accept r e.line false
  let t : Txn := { requester := some r, exclusive := false, fwdAckDue := e.st == .excl }
  let s := s.setDir k (some { e with txn := some t })
  if e.st == .shared then s.dataFromHbm r e.line .s 0
  else s.send { kind := .fwdGets, room := e.owner, line := e.line, peer := some r }

/-- GETM of a line that has an entry (R182). -/
def State.getmEntry (s : State) (k : Nat) (e : DirEntry) (r : Nat) : State :=
  let s := s.accept r e.line true
  let s := s.setDir k (some { e with txn := some { requester := some r, exclusive := true } })
  let others := if e.st == .excl then [] else e.sharers.rooms.filter (· != r)
  let s := s.invalidate e.line (some r) others
  let bare : CohMsg := { kind := .data, room := r, line := e.line, take := .m, count := others.length }
  if e.st == .shared then (if e.lists r then s.send bare else s.dataFromHbm r e.line .m others.length)
  else if e.st == .owned && e.owner == r then s.send bare
  else s.send { kind := .fwdGetm, room := e.owner, line := e.line, peer := some r, count := others.length }

/-- A request reaches the home (R182 to R185). -/
def State.request' (s : State) (r l : Nat) (exclusive : Bool) : State :=
  if s.keptOut r l then s.nackRequest r l
  else match s.dirFind l with
    | none => s.allocate r l exclusive
    | some (k, e) =>
      if e.txn.isSome then s.nackRequest r l else if exclusive then s.getmEntry k e r else s.getsEntry k e r

def execGets (r line : Nat) (s : State) : Host.Outcome State Fault Refusal :=
  onUnits (isRoom r) s (s.onMsg .gets r line fun _ s => s.request' r line false)

def execGetm (r line : Nat) (s : State) : Host.Outcome State Fault Refusal :=
  onUnits (isRoom r) s (s.onMsg .getm r line fun _ s => s.request' r line true)

/-! ### The home: evictions by caches (R178, R182) -/

/-- An eviction reaches the home, which accepts it even while the line is BUSY (R178, R182).  A cache whose data cannot be
written to HBM takes a Room hardware fault (R148). -/
def State.put (s : State) (kind : CohKind) (r l : Nat) (bytes : Option (List Byte)) : State :=
  let answer (s : State) (stale : Bool) : State := s.send { kind := .putAck, room := r, line := l, stale }
  match s.dirFind l with
  | none => answer s true
  | some (k, e) =>
    if !e.knows kind r then answer s true
    else
      let (s, ok) := match bytes with
        | some b => s.hbmWrite (l * 128) b
        | none => (s, true)
      let s := (answer (s.setDir k (e.without r)) false).serveWaiters
      if ok then s else s.hardwareFault r

def execPutm (r line : Nat) (s : State) : Host.Outcome State Fault Refusal :=
  onUnits (isRoom r) s (s.onMsg .putm r line fun m s => s.put .putm r line m.bytes)

def execPute (r line : Nat) (s : State) : Host.Outcome State Fault Refusal :=
  onUnits (isRoom r) s (s.onMsg .pute r line fun _ s => s.put .pute r line none)

def execPuts (r line : Nat) (s : State) : Host.Outcome State Fault Refusal :=
  onUnits (isRoom r) s (s.onMsg .puts r line fun _ s => s.put .puts r line none)

/-! ### The home: the ends of transactions (R182, R183, R185) -/

/-- The entry after the DONE of its transaction (R182). -/
def DirEntry.closed (e : DirEntry) (t : Txn) (r : Nat) : DirEntry :=
  if t.exclusive then { e with st := .excl, owner := r, sharers := .exact [], txn := none }
  else match e.st with
    | .shared => { e with sharers := e.sharers.add r, txn := none }
    | .owned => { e with sharers := e.sharers.add r, txn := none }
    | .excl =>
      if e.owner = r then { e with txn := none }
      else if t.ownerWasM then { e with st := .owned, sharers := .exact [r], txn := none }
      else { e with st := .shared, sharers := (Sharers.exact [e.owner]).add r, txn := none }

/-- DONE closes the transaction of its sender, once the FWD_ACK that tells the owner's previous state has arrived (R183). -/
def State.close (s : State) (r l : Nat) : State :=
  match s.dirFind l with
  | none => s
  | some (k, e) =>
    match e.txn with
    | none => s
    | some t => if t.requester == some r then (s.setDir k (some (e.closed t r))).serveWaiters else s

def execDone (r line : Nat) (s : State) : Host.Outcome State Fault Refusal :=
  onUnits (isRoom r) s (if s.ackDue line then s else s.onMsg .done r line fun _ s => s.close r line)

/-- An eviction that has every acknowledgement writes its data to HBM and frees the entry (R185); an owner whose data cannot be
written takes a Room hardware fault (R148).  A transaction whose requester is gone closes with its FWD_ACK (R192). -/
def State.settleEviction (s : State) (k : Nat) (e : DirEntry) (t : Txn) : State :=
  if t.evicting && t.acksDue = 0 && !t.fwdAckDue then
    let (s, ok) := match t.data with
      | some b => s.hbmWrite (e.line * 128) b
      | none => (s, true)
    let s := (s.setDir k none).serveWaiters
    if ok then s else s.hardwareFault e.owner
  else if !t.evicting && t.requester.isNone && !t.fwdAckDue then (s.setDir k (e.orphaned t)).serveWaiters
  else s.setDir k (some { e with txn := some t })

/-- Change the open transaction of a line. -/
def State.modTxn (s : State) (l : Nat) (f : Txn → Txn) : State :=
  match s.dirFind l with
  | none => s
  | some (k, e) =>
    match e.txn with
    | some t => s.settleEviction k e (f t)
    | none => s

/-- The owner's previous state reaches the home, with the line's data when it was recalled (R182, R185). -/
def execFwdAck (r line : Nat) (s : State) : Host.Outcome State Fault Refusal :=
  onUnits (isRoom r) s (s.onMsg .fwdAck r line fun m s =>
    s.modTxn line fun t =>
      if !t.fwdAckDue then t
      else { t with fwdAckDue := false, ownerWasM := m.wasM, data := if t.evicting && m.wasM then m.bytes else none })

/-! ### The owner and the sharers (R178, R182, R185, R189) -/

/-- The Room that waits on a line reads it again (R189). -/
def State.wakeRoom (s : State) (r l : Nat) : State := s.modRoom r (wakeOn l)

/-- DATA from an owner; an owner that no longer has the line, which it evicted clean, answers with HBM's content (log entry
58). -/
def State.dataFromOwner (s : State) (r l : Nat) (m : CohMsg) (take : Moesi) : State :=
  match m.peer with
  | none => s
  | some p =>
    let bytes := match (s.room r).cache.held l with
      | some x => x.data
      | none => s.hbmRead (l * 128) 128
    s.send { kind := .data, room := p, line := l, peer := some r, bytes := some bytes, take, count := m.count }

/-- The owner serves a readable copy: M becomes O and E becomes S, with the FWD_ACK that the home awaits of an EXCL line; an
owner in O stays in O (R182). -/
def execFwdGets (r line : Nat) (s : State) : Host.Outcome State Fault Refusal :=
  onUnits (isRoom r) s (s.onMsg .fwdGets r line fun m s =>
    let st := ((s.room r).cache.held line).map (·.st)
    let due := s.ackDue line
    let s := s.dataFromOwner r line m .s
    let toShared (x : CacheLine) : Option CacheLine := some { x with st := if isDirty x.st then .o else .s }
    let s := s.modCache r fun c => c.served line toShared fun _ => .o
    if due then s.send { kind := .fwdAck, room := r, line, wasM := st == some .m } else s)

/-- The owner hands over the line and moves to I; a WAIT parked on the line reads again (R182, R189). -/
def execFwdGetm (r line : Nat) (s : State) : Host.Outcome State Fault Refusal :=
  onUnits (isRoom r) s (s.onMsg .fwdGetm r line fun m s =>
    let s := s.dataFromOwner r line m .m
    (s.modCache r fun c => c.served line (fun _ => none) fun _ => .s).wakeRoom r line)

/-- The owner writes the line back in FWD_ACK and moves to I (R185, R189). -/
def execRecall (r line : Nat) (s : State) : Host.Outcome State Fault Refusal :=
  onUnits (isRoom r) s (s.onMsg .recall r line fun _ s =>
    let x := (s.room r).cache.held line
    let dirty := (x.map fun y => isDirty y.st).getD false
    let s := s.modCache r fun c => c.served line (fun _ => none) fun _ => .s
    (s.send { kind := .fwdAck, room := r, line, wasM := dirty, bytes := x.map (·.data) }).wakeRoom r line)

/-- A sharer moves to I and acknowledges to the collector, whether it holds the line or not; a WAIT parked on the line reads
again (R179, R182, R189).  An owner that a coarse vector names keeps its copy. -/
def execInv (r line : Nat) (s : State) : Host.Outcome State Fault Refusal :=
  onUnits (isRoom r) s (s.onMsg .inv r line fun m s =>
    let held := ((s.room r).cache.line? line).map (·.st)
    let s := if held == some .s then (s.modCache r (·.mapLine line fun _ => none)).wakeRoom r line else s
    s.send { kind := .invAck, room := r, line, peer := m.peer })

/-! ### The requester (R182 to R184) -/

/-- A miss that has its line and every acknowledgement: the line is installed and DONE is sent (R182). -/
def State.settleMiss (s : State) (r : Nat) : State :=
  match (s.room r).cache.miss with
  | none => s
  | some m =>
    match m.granted, m.acksDue with
    | some st, some due =>
      if m.acks < due then s
      else
        let own := ((s.room r).cache.line? m.line).map (·.data)
        let data := (m.data.orElse fun _ => own).getD (s.hbmRead (m.line * 128) 128)
        let set := setOf (cacheSets (s.portion r)) m.line
        let s := s.modCache r fun c => Cache.install { c with miss := none } set { addr := m.line, st, data }
        s.send { kind := .done, room := r, line := m.line }
    | _, _ => s

/-- Change the miss of a Room on a line. -/
def State.modMiss (s : State) (r l : Nat) (f : Miss → Miss) : State :=
  s.modCache r fun c => { c with miss := c.miss.map fun m => if m.line = l then f m else m }

/-- The Room does not keep a line that came with a mark: the transaction closes, the home drops the Room from its entry, and
the Room takes a hardware fault (R151). -/
def State.poisonedFill (s : State) (r l : Nat) (take : Moesi) : State :=
  let s := s.modCache r fun c => { c with miss := none }
  let s := s.send { kind := .done, room := r, line := l }
  (s.send { kind := if take == .s then .puts else .pute, room := r, line := l }).hardwareFault r

/-- The line's data, the state to take and the number of INV_ACKs to expect (R181, R182). -/
def execData (r line : Nat) (s : State) : Host.Outcome State Fault Refusal :=
  onUnits (isRoom r) s (s.onMsg .data r line fun m s =>
    let waits := (((s.room r).cache.miss).map fun x => decide (x.line = line)).getD false
    if !waits then s
    else if m.poisoned then s.poisonedFill r line m.take
    else (s.modMiss r line fun x => { x with granted := some m.take, data := m.bytes, acksDue := some m.count }).settleMiss r)

/-- An acknowledgement reaches its collector: the requester, or the home for a directory eviction (R182, R185). -/
def execInvAck (r line : Nat) (s : State) : Host.Outcome State Fault Refusal :=
  onUnits (isRoom r) s (s.onMsg .invAck r line fun m s =>
    match m.peer with
    | some c => (s.modMiss c line fun x => { x with acks := x.acks + 1 }).settleMiss c
    | none => s.modTxn line fun t => if t.evicting then { t with acksDue := t.acksDue - 1 } else t)

/-- The back-off after the n-th NACK, in ns (R183). -/
def backOff (n : Nat) : Nat := 32 * 2 ^ min (n - 1) 5

/-- The request is refused; it is sent again after its back-off, and at its eighth NACK the home reserves the line for it, if
the line has no reservation and one of the 64 registers is free (R183, R184). -/
def State.refused (s : State) (r l : Nat) : State :=
  match (s.room r).cache.miss with
  | none => s
  | some m =>
    if m.line != l then s
    else
      let n := m.nacks + 1
      let s := s.modMiss r l fun x => { x with nacks := n, retryAt := s.time + backOff n }
      let taken := countIf (fun x => homeOf x.1 == homeOf l) s.reservations
      if n = 8 && decide (taken < 64) && s.reservations.all (·.1 != l) then
        State.countDir { s with reservations := s.reservations ++ [(l, r)] } l 7 32
      else s

def execNack (r line : Nat) (s : State) : Host.Outcome State Fault Refusal :=
  onUnits (isRoom r) s (s.onMsg .nack r line fun _ s => s.refused r line)

/-- A refused request is sent again once its back-off has passed (R183). -/
def execNackRetry (r line : Nat) (s : State) : Host.Outcome State Fault Refusal :=
  onUnits (isRoom r) s (
    match (s.room r).cache.miss with
    | none => s
    | some m =>
      if m.line != line || m.retryAt = 0 || s.time < m.retryAt then s
      else
        (s.modMiss r line ({ · with retryAt := 0 })).send { kind := if m.exclusive then .getm else .gets, room := r, line })

/-- The home has recorded an eviction: the write-back buffer frees the line (R178). -/
def execPutAck (r line : Nat) (s : State) : Host.Outcome State Fault Refusal :=
  onUnits (isRoom r) s (s.onMsg .putAck r line fun _ s =>
    s.modCache r fun c => { c with writeBack := removeFirst (·.addr == line) c.writeBack })

/-! ### UNCACHED_ACCESS (R186) -/

/-- The home performs an uncached access: the first one that waits with this address, length and kind, or one that comes
now, whose requester this command does not name, so that no answer is sent (log entry 59). -/
def State.uncached (s : State) (a n : Nat) (kind : AccKind) : State :=
  let n := AccKind.size kind n
  let this (w : Waiter) : Bool := w.addr == a && w.acc.len == n && w.acc.kind == kind
  match s.waiters.find? this with
  | some w => State.performArrived { s with waiters := removeFirst this s.waiters } w
  | none => if s.isWashing (a / 4096) || !populatedRange a n then s else (s.homeOp a n kind).2

def execUncachedAccess (lpa len : Nat) (kind : AccKind) (s : State) : Host.Outcome State Fault Refusal :=
  onUnits true s (s.uncached lpa len kind)

end Sys2Proof.Machine
end

