-- ==== Sys2Proof/Machine/Scalar.lean ====
section
/-! DEFINITION. The scalar, predicate, branch and special-register instructions of the Foreman (R77, R81, R82, R96). -/

namespace Sys2Proof.Machine

/-- s[RD] = f(s[RA], s[RB]). -/
def alu (r : Nat) (g : Guard) (rd ra rb : BitVec 5) (f : W64 → W64 → W64) (s : State) :
    Host.Outcome State Fault Refusal :=
  foremanOp r g (fun s => Issue.regs r s fun x => x.setReg rd (f (x.reg ra) (x.reg rb))) s

/-- s[RD] = f(s[RA]). -/
def aluImm (r : Nat) (g : Guard) (rd ra : BitVec 5) (f : W64 → W64) (s : State) : Host.Outcome State Fault Refusal :=
  foremanOp r g (fun s => Issue.regs r s fun x => x.setReg rd (f (x.reg ra))) s

def execAdd (r : Nat) (g : Guard) (rd ra rb : BitVec 5) (s : State) : Host.Outcome State Fault Refusal :=
  alu r g rd ra rb (fun a b => a + b) s

def execSub (r : Nat) (g : Guard) (rd ra rb : BitVec 5) (s : State) : Host.Outcome State Fault Refusal :=
  alu r g rd ra rb (fun a b => a - b) s

def execMul (r : Nat) (g : Guard) (rd ra rb : BitVec 5) (s : State) : Host.Outcome State Fault Refusal :=
  alu r g rd ra rb (fun a b => a * b) s

def execAnd (r : Nat) (g : Guard) (rd ra rb : BitVec 5) (s : State) : Host.Outcome State Fault Refusal :=
  alu r g rd ra rb (fun a b => a &&& b) s

def execOr (r : Nat) (g : Guard) (rd ra rb : BitVec 5) (s : State) : Host.Outcome State Fault Refusal :=
  alu r g rd ra rb (fun a b => a ||| b) s

def execXor (r : Nat) (g : Guard) (rd ra rb : BitVec 5) (s : State) : Host.Outcome State Fault Refusal :=
  alu r g rd ra rb (fun a b => a ^^^ b) s

/-- Shift amounts are taken modulo 64 (R81). -/
def execShl (r : Nat) (g : Guard) (rd ra rb : BitVec 5) (s : State) : Host.Outcome State Fault Refusal :=
  alu r g rd ra rb (fun a b => a <<< (b.toNat % 64)) s

def execShr (r : Nat) (g : Guard) (rd ra rb : BitVec 5) (s : State) : Host.Outcome State Fault Refusal :=
  alu r g rd ra rb (fun a b => a >>> (b.toNat % 64)) s

def execSra (r : Nat) (g : Guard) (rd ra rb : BitVec 5) (s : State) : Host.Outcome State Fault Refusal :=
  alu r g rd ra rb (fun a b => a.sshiftRight (b.toNat % 64)) s

def execAddi (r : Nat) (g : Guard) (rd ra : BitVec 5) (imm : BitVec 12) (s : State) : Host.Outcome State Fault Refusal :=
  aluImm r g rd ra (fun a => a + imm.signExtend 64) s

def execOri (r : Nat) (g : Guard) (rd ra : BitVec 5) (imm : BitVec 12) (s : State) : Host.Outcome State Fault Refusal :=
  aluImm r g rd ra (fun a => a ||| imm.setWidth 64) s

def execShli (r : Nat) (g : Guard) (rd ra : BitVec 5) (imm : BitVec 12) (s : State) : Host.Outcome State Fault Refusal :=
  aluImm r g rd ra (fun a => a <<< (imm.toNat % 64)) s

def execMovi (r : Nat) (g : Guard) (rd : BitVec 5) (imm : BitVec 16) (s : State) : Host.Outcome State Fault Refusal :=
  foremanOp r g (fun s => Issue.regs r s fun x => x.setReg rd (imm.signExtend 64)) s

/-- p[RD[2:0]] = compare(s[RA], s[RB]); codes 6 and 7 of FN[6:4] are reserved (R81). -/
def execCmp (r : Nat) (g : Guard) (rd ra rb : BitVec 5) (fn : BitVec 7) (s : State) : Host.Outcome State Fault Refusal :=
  foremanOp r g (fun s =>
    let x := (s.room r).foreman
    match compare6 (fn.toNat / 16) (x.reg ra) (x.reg rb) with
    | some v => Issue.regs r s (·.setPred (rd.toNat % 8) v)
    | none => Issue.fault r faultIllegalInstruction s) s

def execCmpi (r : Nat) (g : Guard) (rd ra : BitVec 5) (imm : BitVec 12) (s : State) : Host.Outcome State Fault Refusal :=
  foremanOp r g (fun s =>
    Issue.regs r s fun x => x.setPred (rd.toNat % 8) (compare4 (rd.toNat / 8) (x.reg ra) (imm.signExtend 64))) s

def execPlog (r : Nat) (g : Guard) (rd ra rb : BitVec 5) (fn : BitVec 7) (s : State) : Host.Outcome State Fault Refusal :=
  foremanOp r g (fun s =>
    Issue.regs r s fun x =>
      x.setPred (rd.toNat % 8) (logic4 (fn.toNat / 32) (x.pred (ra.toNat % 8)) (x.pred (rb.toNat % 8)))) s

/-- pc = pc + OFF22; a target outside the program store raises BOUNDS (R82). -/
def execBr (r : Nat) (g : Guard) (off : BitVec 22) (s : State) : Host.Outcome State Fault Refusal :=
  foremanOp r g (fun s =>
    match (s.room r).foreman.branch off.toInt with
    | some f => .stay (s.modForeman r fun _ => f)
    | none => Issue.fault r faultBounds s) s

/-- Run the next LEN instructions s[RA] times; a fifth nested loop raises LOOP_DEPTH (R81, R82).  A LEN of 0, which R80
does not give, names an empty body (log entry 5). -/
def execLoop (r : Nat) (g : Guard) (ra : BitVec 5) (len : BitVec 12) (s : State) : Host.Outcome State Fault Refusal :=
  foremanOp r g (fun s =>
    let x := (s.room r).foreman
    if 4 ≤ x.loops.length then Issue.fault r faultLoopDepth s
    else if x.reg ra = 0 || len = 0 then
      match x.after (x.pc + len.toNat) with
      | some f => .stay (s.modForeman r fun _ => f)
      | none => Issue.fault r faultBounds s
    else
      let frame : LoopFrame := { first := x.pc + 1, last := x.pc + len.toNat, left := (x.reg ra).toNat }
      if x.pc + 1 ≤ 4095 then .stay (s.modForeman r fun x => { x with pc := x.pc + 1, loops := frame :: x.loops })
      else Issue.fault r faultBounds s) s

/-- The special registers (R77); none for a reserved selector. -/
def State.special (s : State) (r sel : Nat) : Option W64 :=
  let st := s.stepOf r
  let arg (k : Nat) : W64 := (st.bind (·.desc.args[k]?)).getD 0
  match sel with
  | 0 => some (BitVec.ofNat 64 (s.ordinalOf r))
  | 1 => some (BitVec.ofNat 64 ((st.map (·.nrooms)).getD 0))
  | 2 => some (BitVec.ofNat 64 (s.lanes r))
  | 3 => some (BitVec.ofNat 64 (s.room r).course.ordinal)
  | 4 => some ((st.map (·.desc.seed)).getD 0)
  | 5 => some (if s.det r then 1 else 0)
  | 6 => some (arg 0)
  | 7 => some (arg 1)
  | 8 => some (arg 2)
  | 9 => some (arg 3)
  | 10 => some (BitVec.ofNat 64 s.time)
  | _ => none

def execRdsr (r : Nat) (g : Guard) (rd : BitVec 5) (sel : BitVec 12) (s : State) : Host.Outcome State Fault Refusal :=
  foremanOp r g (fun s =>
    if sel = 10 && s.det r then Issue.fault r faultNondeterministic s
    else match s.special r sel.toNat with
      | some v => Issue.regs r s (·.setReg rd v)
      | none => Issue.fault r faultIllegalInstruction s) s

/-- s[RD] = dispatched CUR_RUNG of layer tag (s[RA] + IMM12) % 4,096 (R63); for a tag without a Ladder entry the manual
states no value, and a free one is read (log entry 6). -/
def execRung (r : Nat) (g : Guard) (rd ra : BitVec 5) (imm : BitVec 12) (s : State) : Host.Outcome State Fault Refusal :=
  foremanOp r g (fun s =>
    let layer := (((s.room r).foreman.reg ra) + imm.signExtend 64).toNat % 4096
    match s.ladder? r layer with
    | some e => Issue.regs r s (·.setReg rd (BitVec.ofNat 64 e.curRung))
    | none => Issue.regs r s (·.setReg rd (Config.openRung layer))) s

/-- Whether a GRECV that has not been delivered counts into the slot that GUARD reads for a key (R113, R139). -/
def Room.slotPending (x : Room) (layer tile : Nat) : Bool :=
  x.gutter.any fun o => !o.isSend && (x.course.slot? layer tile).isSome && o.slot == x.course.numberOf (·.hasKey layer tile)

/-- s[RS] = guard word of the slot keyed by t[TD], zero when the Course has none (R96); it waits for an earlier GRECV that counts into
the slot (R113). -/
def execGuard (r : Nat) (g : Guard) (td : BitVec 4) (rs : BitVec 5) (s : State) : Host.Outcome State Fault Refusal :=
  foremanOp r g (fun s =>
    let d := (s.room r).foreman.desc td
    if (s.room r).slotPending d.layer d.tile then .stay s
    else
    let w := (((s.room r).course.slot? d.layer d.tile).map (·.word.encode)).getD 0
    Issue.regs r s (·.setReg rs w)) s

end Sys2Proof.Machine
end

