-- ==== Sys2Proof/Machine/Sync.lean ====
section
/-! DEFINITION. LDS, STS, the ATOM operations, SIGNAL and WAIT (R81, R97, R98, R186 to R189). -/

namespace Sys2Proof.Machine

/-- The bytes that FN[5:4] selects (R81). -/
def accessBytes (fn : BitVec 7) : Nat := 2 ^ (fn.toNat / 16 % 4)
/-- FN[6]: the device virtual space (R81). -/
def accessDevice (fn : BitVec 7) : Bool := fn.getLsbD 6

/-- s[RD] = load(s[RA]), zero-extended (R81, R110); an address that its size does not divide raises ALIGNMENT
(log entry 20). -/
def execLds (r : Nat) (g : Guard) (rd ra : BitVec 5) (fn : BitVec 7) (s : State) : Host.Outcome State Fault Refusal :=
  foremanOp r g (fun s =>
    let a := ((s.room r).foreman.reg ra).toNat
    let n := accessBytes fn
    if a % n != 0 then Issue.fault r faultAlignment s
    else if accessDevice fn then
      State.finish r .read (fun b s => Issue.regs r s (·.setReg rd (BitVec.ofNat 64 (leNat b)))) (s.portAccess r a n .read)
    else if scratchBytes (s.portion r) < a + n then Issue.fault r faultBounds s
    else Issue.regs r s (·.setReg rd (BitVec.ofNat 64 (Memory.readNat (s.room r).pantry a n)))) s

/-- store(s[RA], s[RB]) (R81, R102, R110, R340). -/
def execSts (r : Nat) (g : Guard) (ra rb : BitVec 5) (fn : BitVec 7) (s : State) : Host.Outcome State Fault Refusal :=
  foremanOp r g (fun s =>
    let a := ((s.room r).foreman.reg ra).toNat
    let n := accessBytes fn
    let bytes := leBytes n ((s.room r).foreman.reg rb).toNat
    if a % n != 0 then Issue.fault r faultAlignment s
    else if accessDevice fn then
      State.finish r (.write bytes) (fun old s => .done (s.noteWrite r a (.write bytes) old)) (s.portAccess r a n (.write bytes))
    else if scratchBytes (s.portion r) < a + n then Issue.fault r faultBounds s
    else .done (s.modRoom r fun x => { x with pantry := Store.setRange 0 x.pantry a bytes }.note spacePantry a bytes)) s

/-- Whether deterministic mode refuses an ATOM: FADD, SWAP, CAS, and every other one that returns its value (R98). -/
def atomRefused (op : BitVec 4) (rd : BitVec 5) : Bool := decide (5 ≤ op.toNat) || rd != 0

/-- One atomic operation on the 64-bit word at s[RA], with s[RB]; s[RD] is the old value (R98, R187).  A misaligned address of ATOM,
SIGNAL or WAIT raises ALIGNMENT (DEDUCED, log entry 20). -/
def atomOp (r : Nat) (g : Guard) (op : BitVec 4) (rd ra rb : BitVec 5) (s : State) : Host.Outcome State Fault Refusal :=
  foremanOp r g (fun s =>
    let x := (s.room r).foreman
    let a := (x.reg ra).toNat
    let kind : AccKind := .atomic op (x.reg rb) (x.reg rd)
    if s.det r && atomRefused op rd then Issue.fault r faultNondeterministic s
    else if a % 8 != 0 then Issue.fault r faultAlignment s
    else
      State.finish r kind (fun old s =>
        Issue.regs r (s.noteWrite r a kind old) (·.setReg rd (BitVec.ofNat 64 (leNat old)))) (s.portAccess r a 8 kind)) s

def execAtomAdd (r : Nat) (g : Guard) (rd ra rb : BitVec 5) (s : State) : Host.Outcome State Fault Refusal :=
  atomOp r g 0 rd ra rb s

def execAtomMax (r : Nat) (g : Guard) (rd ra rb : BitVec 5) (s : State) : Host.Outcome State Fault Refusal :=
  atomOp r g 1 rd ra rb s

def execAtomMin (r : Nat) (g : Guard) (rd ra rb : BitVec 5) (s : State) : Host.Outcome State Fault Refusal :=
  atomOp r g 2 rd ra rb s

def execAtomOr (r : Nat) (g : Guard) (rd ra rb : BitVec 5) (s : State) : Host.Outcome State Fault Refusal :=
  atomOp r g 3 rd ra rb s

def execAtomAnd (r : Nat) (g : Guard) (rd ra rb : BitVec 5) (s : State) : Host.Outcome State Fault Refusal :=
  atomOp r g 4 rd ra rb s

def execAtomSwap (r : Nat) (g : Guard) (rd ra rb : BitVec 5) (s : State) : Host.Outcome State Fault Refusal :=
  atomOp r g 5 rd ra rb s

def execAtomCas (r : Nat) (g : Guard) (rd ra rb : BitVec 5) (s : State) : Host.Outcome State Fault Refusal :=
  atomOp r g 6 rd ra rb s

def execAtomFadd (r : Nat) (g : Guard) (rd ra rb : BitVec 5) (s : State) : Host.Outcome State Fault Refusal :=
  atomOp r g 7 rd ra rb s

/-- SIGNAL writes max(old, s[RB]) into the sync word at s[RA] (R97). -/
def execSignal (r : Nat) (g : Guard) (ra rb : BitVec 5) (s : State) : Host.Outcome State Fault Refusal :=
  foremanOp r g (fun s =>
    let x := (s.room r).foreman
    let a := (x.reg ra).toNat
    let kind : AccKind := .signal (x.reg rb)
    if a % 8 != 0 then Issue.fault r faultAlignment s
    else State.finish r kind (fun old s => .done (s.noteWrite r a kind old)) (s.portAccess r a 8 kind)) s

/-- WAIT stalls until the word at s[RA] is at least s[RB] (R97, R189). -/
def execWait (r : Nat) (g : Guard) (ra rb : BitVec 5) (s : State) : Host.Outcome State Fault Refusal :=
  foremanOp r g (fun s =>
    let x := (s.room r).foreman
    let a := (x.reg ra).toNat
    let kind : AccKind := .await (x.reg rb)
    if a % 8 != 0 then Issue.fault r faultAlignment s
    else State.finish r kind (fun _ s => .done s) (s.portAccess r a 8 kind)) s

end Sys2Proof.Machine
end

