-- ==== Sys2Proof/Machine/Dispatch.lean ====
section
/-! DEFINITION. The dispatch of the commands: one arm per row of the opcode table, in the table's order. -/

namespace Sys2Proof.Machine

def exec (i : Instr) (s : State) : Host.Outcome State Fault Refusal :=
  match i with
  | .add r g rd ra rb => Sys2Proof.Machine.execAdd r g rd ra rb s
  | .sub r g rd ra rb => Sys2Proof.Machine.execSub r g rd ra rb s
  | .mul r g rd ra rb => Sys2Proof.Machine.execMul r g rd ra rb s
  | .and r g rd ra rb => Sys2Proof.Machine.execAnd r g rd ra rb s
  | .or r g rd ra rb => Sys2Proof.Machine.execOr r g rd ra rb s
  | .xor r g rd ra rb => Sys2Proof.Machine.execXor r g rd ra rb s
  | .shl r g rd ra rb => Sys2Proof.Machine.execShl r g rd ra rb s
  | .shr r g rd ra rb => Sys2Proof.Machine.execShr r g rd ra rb s
  | .sra r g rd ra rb => Sys2Proof.Machine.execSra r g rd ra rb s
  | .addi r g rd ra imm => Sys2Proof.Machine.execAddi r g rd ra imm s
  | .ori r g rd ra imm => Sys2Proof.Machine.execOri r g rd ra imm s
  | .shli r g rd ra imm => Sys2Proof.Machine.execShli r g rd ra imm s
  | .movi r g rd imm => Sys2Proof.Machine.execMovi r g rd imm s
  | .cmp r g rd ra rb fn => Sys2Proof.Machine.execCmp r g rd ra rb fn s
  | .cmpi r g rd ra imm => Sys2Proof.Machine.execCmpi r g rd ra imm s
  | .plog r g rd ra rb fn => Sys2Proof.Machine.execPlog r g rd ra rb fn s
  | .br r g off => Sys2Proof.Machine.execBr r g off s
  | .loop r g ra len => Sys2Proof.Machine.execLoop r g ra len s
  | .lds r g rd ra fn => Sys2Proof.Machine.execLds r g rd ra fn s
  | .sts r g ra rb fn => Sys2Proof.Machine.execSts r g ra rb fn s
  | .atomAdd r g rd ra rb => Sys2Proof.Machine.execAtomAdd r g rd ra rb s
  | .atomMax r g rd ra rb => Sys2Proof.Machine.execAtomMax r g rd ra rb s
  | .atomMin r g rd ra rb => Sys2Proof.Machine.execAtomMin r g rd ra rb s
  | .atomOr r g rd ra rb => Sys2Proof.Machine.execAtomOr r g rd ra rb s
  | .atomAnd r g rd ra rb => Sys2Proof.Machine.execAtomAnd r g rd ra rb s
  | .atomSwap r g rd ra rb => Sys2Proof.Machine.execAtomSwap r g rd ra rb s
  | .atomCas r g rd ra rb => Sys2Proof.Machine.execAtomCas r g rd ra rb s
  | .atomFadd r g rd ra rb => Sys2Proof.Machine.execAtomFadd r g rd ra rb s
  | .rdsr r g rd sel => Sys2Proof.Machine.execRdsr r g rd sel s
  | .rung r g rd ra imm => Sys2Proof.Machine.execRung r g rd ra imm s
  | .guard r g td rs => Sys2Proof.Machine.execGuard r g td rs s
  | .tdld r g td rs => Sys2Proof.Machine.execTdld r g td rs s
  | .tdset r g td rs mode => Sys2Proof.Machine.execTdset r g td rs mode s
  | .tdadv r g td rs mode => Sys2Proof.Machine.execTdadv r g td rs mode s
  | .tload r g td ta rs mode => Sys2Proof.Machine.execTload r g td ta rs mode s
  | .tstore r g td ta rs mode => Sys2Proof.Machine.execTstore r g td ta rs mode s
  | .dmaget r g td ta mode => Sys2Proof.Machine.execDmaget r g td ta mode s
  | .dmaput r g td ta mode => Sys2Proof.Machine.execDmaput r g td ta mode s
  | .dmawait r g imm => Sys2Proof.Machine.execDmawait r g imm s
  | .dmaTransferComplete r k => Sys2Proof.Machine.execDmaTransferComplete r k s
  | .mma r g td ta tb mode => Sys2Proof.Machine.execMma r g td ta tb mode s
  | .fold r g td => Sys2Proof.Machine.execFold r g td s
  | .vec r g rs => Sys2Proof.Machine.execVec r g rs s
  | .upld r g ta rs => Sys2Proof.Machine.execUpld r g ta rs s
  | .conva r g td ta tb mode => Sys2Proof.Machine.execConva r g td ta tb mode s
  | .convt r g td ta mode => Sys2Proof.Machine.execConvt r g td ta mode s
  | .gsend r g ta rs mode => Sys2Proof.Machine.execGsend r g ta rs mode s
  | .grecv r g td rs mode => Sys2Proof.Machine.execGrecv r g td rs mode s
  | .gwait r g imm => Sys2Proof.Machine.execGwait r g imm s
  | .signal r g ra rb => Sys2Proof.Machine.execSignal r g ra rb s
  | .wait r g ra rb => Sys2Proof.Machine.execWait r g ra rb s
  | .barrier r g imm => Sys2Proof.Machine.execBarrier r g imm s
  | .barrierRelease suite copy n => Sys2Proof.Machine.execBarrierRelease suite copy n s
  | .course r g imm => Sys2Proof.Machine.execCourse r g imm s
  | .digest r g ra => Sys2Proof.Machine.execDigest r g ra s
  | .commit r g => Sys2Proof.Machine.execCommit r g s
  | .plumb r g td ta tb => Sys2Proof.Machine.execPlumb r g td ta tb s
  | .uopNop r => Sys2Proof.Machine.execUopNop r s
  | .uopFma r d a b c mod count => Sys2Proof.Machine.execUopFma r d a b c mod count s
  | .uopAdd r d a b mod count => Sys2Proof.Machine.execUopAdd r d a b mod count s
  | .uopMul r d a b mod count => Sys2Proof.Machine.execUopMul r d a b mod count s
  | .uopMax r d a b mod count => Sys2Proof.Machine.execUopMax r d a b mod count s
  | .uopMin r d a b mod count => Sys2Proof.Machine.execUopMin r d a b mod count s
  | .uopFunc r d a mod count => Sys2Proof.Machine.execUopFunc r d a mod count s
  | .uopIadd r d a b mod count => Sys2Proof.Machine.execUopIadd r d a b mod count s
  | .uopImul r d a b mod count => Sys2Proof.Machine.execUopImul r d a b mod count s
  | .uopIcvt r d a mod count => Sys2Proof.Machine.execUopIcvt r d a mod count s
  | .uopLd r d a mod haddr count => Sys2Proof.Machine.execUopLd r d a mod haddr count s
  | .uopSt r d a mod haddr count => Sys2Proof.Machine.execUopSt r d a mod haddr count s
  | .uopSel r d a b c mod count => Sys2Proof.Machine.execUopSel r d a b c mod count s
  | .uopLane r d mod => Sys2Proof.Machine.execUopLane r d mod s
  | .uopLoop r count target => Sys2Proof.Machine.execUopLoop r count target s
  | .uopEnd r => Sys2Proof.Machine.execUopEnd r s
  | .gutterPieceReduce suite copy tree round node piece => Sys2Proof.Machine.execGutterPieceReduce suite copy tree round node piece s
  | .descriptorFetch ctx queue => Sys2Proof.Machine.execDescriptorFetch ctx queue s
  | .waitRecheck ctx queue => Sys2Proof.Machine.execWaitRecheck ctx queue s
  | .configurationLanding suite => Sys2Proof.Machine.execConfigurationLanding suite s
  | .roomWhitewashComplete r pass => Sys2Proof.Machine.execRoomWhitewashComplete r pass s
  | .dispatchLanding suite => Sys2Proof.Machine.execDispatchLanding suite s
  | .pairedSettingsWait suite => Sys2Proof.Machine.execPairedSettingsWait suite s
  | .commitLanding suite => Sys2Proof.Machine.execCommitLanding suite s
  | .markerPublish ctx queue => Sys2Proof.Machine.execMarkerPublish ctx queue s
  | .sliceExpiry suite => Sys2Proof.Machine.execSliceExpiry suite s
  | .kill q suite => Sys2Proof.Machine.execKill q suite s
  | .ctxRequest q hh w => Sys2Proof.Machine.execCtxRequest q hh w s
  | .retry q ctx => Sys2Proof.Machine.execRetry q ctx s
  | .skip q ctx => Sys2Proof.Machine.execSkip q ctx s
  | .queueOpen q ctx w => Sys2Proof.Machine.execQueueOpen q ctx w s
  | .queueClose q ctx queue => Sys2Proof.Machine.execQueueClose q ctx queue s
  | .close q ctx => Sys2Proof.Machine.execClose q ctx s
  | .tailDoorbell hall ctx queue size v => Sys2Proof.Machine.execTailDoorbell hall ctx queue size v s
  | .replay hall ctx size version seq => Sys2Proof.Machine.execReplay hall ctx size version seq s
  | .abort hall ctx size version seq => Sys2Proof.Machine.execAbort hall ctx size version seq s
  | .vectorUnmask hall vec => Sys2Proof.Machine.execVectorUnmask hall vec s
  | .bar4Access hall off len data => Sys2Proof.Machine.execBar4Access hall off len data s
  | .ptRoot q hh w => Sys2Proof.Machine.execPtRoot q hh w s
  | .tlbInval q hh w => Sys2Proof.Machine.execTlbInval q hh w s
  | .pageWalk port ctx va write => Sys2Proof.Machine.execPageWalk port ctx va write s
  | .faultRecordWrite hh => Sys2Proof.Machine.execFaultRecordWrite hh s
  | .faultqBase q hh w => Sys2Proof.Machine.execFaultqBase q hh w s
  | .faultTimeout port => Sys2Proof.Machine.execFaultTimeout port s
  | .windowAdd q hh data => Sys2Proof.Machine.execWindowAdd q hh data s
  | .windowRemove q hh idx => Sys2Proof.Machine.execWindowRemove q hh idx s
  | .remoteAccessArrival acc => Sys2Proof.Machine.execRemoteAccessArrival acc s
  | .windowRefusal k => Sys2Proof.Machine.execWindowRefusal k s
  | .activate q hh => Sys2Proof.Machine.execActivate q hh s
  | .deactivate q hh => Sys2Proof.Machine.execDeactivate q hh s
  | .grant q hh w => Sys2Proof.Machine.execGrant q hh w s
  | .withdraw q hh w => Sys2Proof.Machine.execWithdraw q hh w s
  | .washPage stack => Sys2Proof.Machine.execWashPage stack s
  | .suiteRequest q hh w => Sys2Proof.Machine.execSuiteRequest q hh w s
  | .suiteRelease q hh suite => Sys2Proof.Machine.execSuiteRelease q hh suite s
  | .roomAdd q suite data => Sys2Proof.Machine.execRoomAdd q suite data s
  | .roomRemove q suite v => Sys2Proof.Machine.execRoomRemove q suite v s
  | .roomMove q suite w => Sys2Proof.Machine.execRoomMove q suite w s
  | .groupBind q suite v => Sys2Proof.Machine.execGroupBind q suite v s
  | .groupUnbind q suite v => Sys2Proof.Machine.execGroupUnbind q suite v s
  | .portBind q suite port => Sys2Proof.Machine.execPortBind q suite port s
  | .portUnbind q suite port => Sys2Proof.Machine.execPortUnbind q suite port s
  | .atFreezePoint q hh => Sys2Proof.Machine.execAtFreezePoint q hh s
  | .atNextBoundary q hh => Sys2Proof.Machine.execAtNextBoundary q hh s
  | .thaw q hh => Sys2Proof.Machine.execThaw q hh s
  | .save q hh w => Sys2Proof.Machine.execSave q hh w s
  | .restore q hh w => Sys2Proof.Machine.execRestore q hh w s
  | .release q suite => Sys2Proof.Machine.execRelease q suite s
  | .registerWrite q target data => Sys2Proof.Machine.execRegisterWrite q target data s
  | .upload q index sub => Sys2Proof.Machine.execUpload q index sub s
  | .wholeIndexUpload q index => Sys2Proof.Machine.execWholeIndexUpload q index s
  | .windowGo hall n => Sys2Proof.Machine.execWindowGo hall n s
  | .usdoFrame hall node f => Sys2Proof.Machine.execUsdoFrame hall node f s
  | .tunnelRequest version plane node household f => Sys2Proof.Machine.execTunnelRequest version plane node household f s
  | .tunnelTimeout hall n => Sys2Proof.Machine.execTunnelTimeout hall n s
  | .segmentTimeout q => Sys2Proof.Machine.execSegmentTimeout q s
  | .notPermittedAnswer k => Sys2Proof.Machine.execNotPermittedAnswer k s
  | .nmtResetApplication hall => Sys2Proof.Machine.execNmtResetApplication hall s
  | .nmtResetCommunication hall => Sys2Proof.Machine.execNmtResetCommunication hall s
  | .heartbeat hall => Sys2Proof.Machine.execHeartbeat hall s
  | .sleepRequest q => Sys2Proof.Machine.execSleepRequest q s
  | .wakePin => Sys2Proof.Machine.execWakePin s
  | .canWakeFrame hall => Sys2Proof.Machine.execCanWakeFrame hall s
  | .pcieWake hall => Sys2Proof.Machine.execPcieWake hall s
  | .hearthAlarm => Sys2Proof.Machine.execHearthAlarm s
  | .thermalWake => Sys2Proof.Machine.execThermalWake s
  | .powerUpStep good => Sys2Proof.Machine.execPowerUpStep good s
  | .roomSwitchGroup floor failed => Sys2Proof.Machine.execRoomSwitchGroup floor failed s
  | .powerSample hall mV mA => Sys2Proof.Machine.execPowerSample hall mV mA s
  | .capTick => Sys2Proof.Machine.execCapTick s
  | .powerBrakeAssert => Sys2Proof.Machine.execPowerBrakeAssert s
  | .powerBrakeRelease => Sys2Proof.Machine.execPowerBrakeRelease s
  | .currentSample floor peak mean => Sys2Proof.Machine.execCurrentSample floor peak mean s
  | .phaseLoss floor => Sys2Proof.Machine.execPhaseLoss floor s
  | .droopDetect r => Sys2Proof.Machine.execDroopDetect r s
  | .droopRelease r => Sys2Proof.Machine.execDroopRelease r s
  | .thermalSensorChange sensor half => Sys2Proof.Machine.execThermalSensorChange sensor half s
  | .thermalShutdown => Sys2Proof.Machine.execThermalShutdown s
  | .settlementMeasure floor worst short => Sys2Proof.Machine.execSettlementMeasure floor worst short s
  | .roomDozeEntry r => Sys2Proof.Machine.execRoomDozeEntry r s
  | .roomClockGate r => Sys2Proof.Machine.execRoomClockGate r s
  | .courseDigestCompare suite larger => Sys2Proof.Machine.execCourseDigestCompare suite larger s
  | .courseOverrun r => Sys2Proof.Machine.execCourseOverrun r s
  | .spareLoadComplete r => Sys2Proof.Machine.execSpareLoadComplete r s
  | .hallLease hall => Sys2Proof.Machine.execHallLease hall s
  | .hallLeaseTimeout hall => Sys2Proof.Machine.execHallLeaseTimeout hall s
  | .hallRejoin => Sys2Proof.Machine.execHallRejoin s
  | .pairLease port epoch => Sys2Proof.Machine.execPairLease port epoch s
  | .pairLeaseTimeout => Sys2Proof.Machine.execPairLeaseTimeout s
  | .arbiterGrant => Sys2Proof.Machine.execArbiterGrant s
  | .arbiterWithdraw => Sys2Proof.Machine.execArbiterWithdraw s
  | .islandModeEntry => Sys2Proof.Machine.execIslandModeEntry s
  | .pairRejoin => Sys2Proof.Machine.execPairRejoin s
  | .linkDown link => Sys2Proof.Machine.execLinkDown link s
  | .reintegrationSelfTest u pass dead => Sys2Proof.Machine.execReintegrationSelfTest u pass dead s
  | .ledgerRecord hall => Sys2Proof.Machine.execLedgerRecord hall s
  | .stormEnd hall => Sys2Proof.Machine.execStormEnd hall s
  | .tallyFire kind u => Sys2Proof.Machine.execTallyFire kind u s
  | .rungComplete rung u => Sys2Proof.Machine.execRungComplete rung u s
  | .rungTimeout rung u => Sys2Proof.Machine.execRungTimeout rung u s
  | .moduleReset q => Sys2Proof.Machine.execModuleReset q s
  | .wardenMismatch hall => Sys2Proof.Machine.execWardenMismatch hall s
  | .wardenRungOverdue hall => Sys2Proof.Machine.execWardenRungOverdue hall s
  | .failSilent hall => Sys2Proof.Machine.execFailSilent hall s
  | .lcAdvance q data => Sys2Proof.Machine.execLcAdvance q data s
  | .lcAdvanceReset => Sys2Proof.Machine.execLcAdvanceReset s
  | .openHouseChallenge q => Sys2Proof.Machine.execOpenHouseChallenge q s
  | .challengeExpiry => Sys2Proof.Machine.execChallengeExpiry s
  | .openHouseResponse q data => Sys2Proof.Machine.execOpenHouseResponse q data s
  | .getVersion via version => Sys2Proof.Machine.execGetVersion via version s
  | .getCapabilities via version => Sys2Proof.Machine.execGetCapabilities via version s
  | .negotiateAlgorithms via version => Sys2Proof.Machine.execNegotiateAlgorithms via version s
  | .getDigests via version => Sys2Proof.Machine.execGetDigests via version s
  | .getCertificate via version slot offset len => Sys2Proof.Machine.execGetCertificate via version slot offset len s
  | .challenge via version slot nonce => Sys2Proof.Machine.execChallenge via version slot nonce s
  | .getMeasurements via version index slot nonce => Sys2Proof.Machine.execGetMeasurements via version index slot nonce s
  | .latchOpen q hh data => Sys2Proof.Machine.execLatchOpen q hh data s
  | .latchRelease q hh data => Sys2Proof.Machine.execLatchRelease q hh data s
  | .slotClear q hh slot => Sys2Proof.Machine.execSlotClear q hh slot s
  | .blobDecrypt q hh data => Sys2Proof.Machine.execBlobDecrypt q hh data s
  | .blobDecryptDone hh => Sys2Proof.Machine.execBlobDecryptDone hh s
  | .tamperEvent hall sensor => Sys2Proof.Machine.execTamperEvent hall sensor s
  | .bringupStage hall report => Sys2Proof.Machine.execBringupStage hall report s
  | .stageTimeout hall => Sys2Proof.Machine.execStageTimeout hall s
  | .svcEn hall low => Sys2Proof.Machine.execSvcEn hall low s
  | .inputSwitchOpen => Sys2Proof.Machine.execInputSwitchOpen s
  | .inputRestore => Sys2Proof.Machine.execInputRestore s
  | .brownOut enter => Sys2Proof.Machine.execBrownOut enter s
  | .presenceLoss => Sys2Proof.Machine.execPresenceLoss s
  | .perstAssert hall => Sys2Proof.Machine.execPerstAssert hall s
  | .perstDeassert hall => Sys2Proof.Machine.execPerstDeassert hall s
  | .mortarLinkTrain port peer => Sys2Proof.Machine.execMortarLinkTrain port peer s
  | .mortarFlitReceive port flit => Sys2Proof.Machine.execMortarFlitReceive port flit s
  | .nodePlaneWrite q plane v => Sys2Proof.Machine.execNodePlaneWrite q plane v s
  | .ingestFrame port frame => Sys2Proof.Machine.execIngestFrame port frame s
  | .timeMessage => Sys2Proof.Machine.execTimeMessage s
  | .timeSourceLost => Sys2Proof.Machine.execTimeSourceLost s
  | .timePps => Sys2Proof.Machine.execTimePps s
  | .portRegulatorIssue port => Sys2Proof.Machine.execPortRegulatorIssue port s
  | .congestionPublish stack => Sys2Proof.Machine.execCongestionPublish stack s
  | .pcSchedule pc => Sys2Proof.Machine.execPcSchedule pc s
  | .hbmRefresh pc => Sys2Proof.Machine.execHbmRefresh pc s
  | .hbmAccessComplete pc result => Sys2Proof.Machine.execHbmAccessComplete pc result s
  | .patrolScrub stack => Sys2Proof.Machine.execPatrolScrub stack s
  | .gets r line => Sys2Proof.Machine.execGets r line s
  | .getm r line => Sys2Proof.Machine.execGetm r line s
  | .putm r line => Sys2Proof.Machine.execPutm r line s
  | .pute r line => Sys2Proof.Machine.execPute r line s
  | .puts r line => Sys2Proof.Machine.execPuts r line s
  | .done r line => Sys2Proof.Machine.execDone r line s
  | .fwdGets r line => Sys2Proof.Machine.execFwdGets r line s
  | .fwdGetm r line => Sys2Proof.Machine.execFwdGetm r line s
  | .recall r line => Sys2Proof.Machine.execRecall r line s
  | .inv r line => Sys2Proof.Machine.execInv r line s
  | .data r line => Sys2Proof.Machine.execData r line s
  | .invAck r line => Sys2Proof.Machine.execInvAck r line s
  | .fwdAck r line => Sys2Proof.Machine.execFwdAck r line s
  | .nack r line => Sys2Proof.Machine.execNack r line s
  | .nackRetry r line => Sys2Proof.Machine.execNackRetry r line s
  | .putAck r line => Sys2Proof.Machine.execPutAck r line s
  | .uncachedAccess lpa len kind => Sys2Proof.Machine.execUncachedAccess lpa len kind s
  | .linkUp link rate width => Sys2Proof.Machine.execLinkUp link rate width s
  | .lineDown => Sys2Proof.Machine.execLineDown s
  | .floorPowerGoodLoss floor => Sys2Proof.Machine.execFloorPowerGoodLoss floor s
  | .phaseRestore floor => Sys2Proof.Machine.execPhaseRestore floor s
  | .canErrorState hall st => Sys2Proof.Machine.execCanErrorState hall st s
  | .nmtStateCommand hall st => Sys2Proof.Machine.execNmtStateCommand hall st s
  | .pcieCompletion hall addr len c => Sys2Proof.Machine.execPcieCompletion hall addr len c s
  | .pcieCompletionTimeout hall addr => Sys2Proof.Machine.execPcieCompletionTimeout hall addr s
  | .remoteResponseTimeout k => Sys2Proof.Machine.execRemoteResponseTimeout k s
  | .saveDone hh cause => Sys2Proof.Machine.execSaveDone hh cause s
  | .restoreDone hh cause => Sys2Proof.Machine.execRestoreDone hh cause s
  | .timeSyncExchange source offset => Sys2Proof.Machine.execTimeSyncExchange source offset s

end Sys2Proof.Machine
end

