-- ==== Sys2Proof/Decode.lean ====
section
/-! DEFINITION. The words of the Foreman's program store: the decoder of R78 to R81, and the encoder beside it.  The
opcode table of this hardware gives its commands no bits, so `decodeTableWord` reads none. -/

namespace Sys2Proof

/-- The opcode table gives no row any bits. -/
def decodeTableWord (_nbits _w : Nat) : Option Instr := none

/-- The guard of an instruction word, bits [25:22] (R79). -/
def guardOf (w : W32) : Guard := { pn := w.getLsbD 25, pg := w.extractLsb' 22 3 }

/-- The ATOM operations, by FN[6:3] (R98); codes 8 to 15 are reserved. -/
def decodeAtom (r : Nat) (g : Guard) (rd ra rb : BitVec 5) : Nat → Option Instr
  | 0 => some (.atomAdd r g rd ra rb)
  | 1 => some (.atomMax r g rd ra rb)
  | 2 => some (.atomMin r g rd ra rb)
  | 3 => some (.atomOr r g rd ra rb)
  | 4 => some (.atomAnd r g rd ra rb)
  | 5 => some (.atomSwap r g rd ra rb)
  | 6 => some (.atomCas r g rd ra rb)
  | 7 => some (.atomFadd r g rd ra rb)
  | _ => none

/-- The instruction that a word of Room r's program store holds; none for a reserved opcode or ATOM operation (R79 to
R81, R98). -/
def decodeForeman (r : Nat) (w : W32) : Option Instr :=
  let g := guardOf w
  let rd : BitVec 5 := w.extractLsb' 17 5
  let ra : BitVec 5 := w.extractLsb' 12 5
  let rb : BitVec 5 := w.extractLsb' 7 5
  let fn : BitVec 7 := w.extractLsb' 0 7
  let imm12 : BitVec 12 := w.extractLsb' 0 12
  let imm16 : BitVec 16 := w.extractLsb' 0 16
  let off : BitVec 22 := w.extractLsb' 0 22
  let td : BitVec 4 := w.extractLsb' 18 4
  let ta : BitVec 4 := w.extractLsb' 14 4
  let tb : BitVec 4 := w.extractLsb' 10 4
  let rs : BitVec 5 := w.extractLsb' 5 5
  let mode : BitVec 5 := w.extractLsb' 0 5
  match (w.extractLsb' 26 6).toNat with
  | 0x01 => some (.add r g rd ra rb)
  | 0x02 => some (.sub r g rd ra rb)
  | 0x03 => some (.mul r g rd ra rb)
  | 0x04 => some (.and r g rd ra rb)
  | 0x05 => some (.or r g rd ra rb)
  | 0x06 => some (.xor r g rd ra rb)
  | 0x07 => some (.shl r g rd ra rb)
  | 0x08 => some (.shr r g rd ra rb)
  | 0x09 => some (.sra r g rd ra rb)
  | 0x0A => some (.addi r g rd ra imm12)
  | 0x0B => some (.ori r g rd ra imm12)
  | 0x0C => some (.shli r g rd ra imm12)
  | 0x0D => some (.movi r g rd imm16)
  | 0x0E => some (.cmp r g rd ra rb fn)
  | 0x0F => some (.cmpi r g rd ra imm12)
  | 0x10 => some (.plog r g rd ra rb fn)
  | 0x11 => some (.br r g off)
  | 0x12 => some (.loop r g rd imm12)
  | 0x13 => some (.lds r g rd ra fn)
  | 0x14 => some (.sts r g ra rb fn)
  | 0x15 => decodeAtom r g rd ra rb (fn.toNat / 8)
  | 0x16 => some (.rdsr r g rd imm12)
  | 0x17 => some (.rung r g rd ra imm12)
  | 0x18 => some (.guard r g td rs)
  | 0x20 => some (.tdld r g td rs)
  | 0x21 => some (.tdset r g td rs mode)
  | 0x22 => some (.tdadv r g td rs mode)
  | 0x23 => some (.tload r g td ta rs mode)
  | 0x24 => some (.tstore r g td ta rs mode)
  | 0x25 => some (.dmaget r g td ta mode)
  | 0x26 => some (.dmaput r g td ta mode)
  | 0x27 => some (.dmawait r g imm16)
  | 0x28 => some (.mma r g td ta tb mode)
  | 0x29 => some (.fold r g td)
  | 0x2A => some (.vec r g rs)
  | 0x2B => some (.upld r g ta rs)
  | 0x2C => some (.conva r g td ta tb mode)
  | 0x2D => some (.convt r g td ta mode)
  | 0x30 => some (.gsend r g ta rs mode)
  | 0x31 => some (.grecv r g td rs mode)
  | 0x32 => some (.gwait r g imm16)
  | 0x33 => some (.signal r g ra rb)
  | 0x34 => some (.wait r g ra rb)
  | 0x35 => some (.barrier r g imm12)
  | 0x38 => some (.course r g imm16)
  | 0x39 => some (.digest r g ra)
  | 0x3A => some (.commit r g)
  | 0x3B => some (.plumb r g td ta tb)
  | _ => none

/-! ### The encoder -/

/-- Bits [31:22] of a word (R79). -/
def encodeTop (opc : BitVec 6) (g : Guard) : BitVec 10 := opc ++ (BitVec.ofBool g.pn ++ g.pg)

/-- The six formats of R80; reserved fields are zero. -/
def encodeReg (opc : BitVec 6) (g : Guard) (rd ra rb : BitVec 5) (fn : BitVec 7) : W32 :=
  encodeTop opc g ++ (rd ++ (ra ++ (rb ++ fn)))
def encodeImm (opc : BitVec 6) (g : Guard) (rd ra : BitVec 5) (imm : BitVec 12) : W32 :=
  encodeTop opc g ++ (rd ++ (ra ++ imm))
def encodeWide (opc : BitVec 6) (g : Guard) (rd : BitVec 5) (imm : BitVec 16) : W32 :=
  encodeTop opc g ++ (rd ++ (0#1 ++ imm))
def encodeJump (opc : BitVec 6) (g : Guard) (off : BitVec 22) : W32 := encodeTop opc g ++ off
def encodeLoop (opc : BitVec 6) (g : Guard) (ra : BitVec 5) (len : BitVec 12) : W32 :=
  encodeTop opc g ++ (ra ++ (0#5 ++ len))
def encodeTile (opc : BitVec 6) (g : Guard) (td ta tb : BitVec 4) (rs : BitVec 5) (mode : BitVec 5) : W32 :=
  encodeTop opc g ++ (td ++ (ta ++ (tb ++ (rs ++ mode))))

/-- The word of a Foreman instruction; none for every other command (R79 to R81, R98). -/
def encodeForeman : Instr → Option W32
  | .add _ g rd ra rb => some (encodeReg 0x01 g rd ra rb 0)
  | .sub _ g rd ra rb => some (encodeReg 0x02 g rd ra rb 0)
  | .mul _ g rd ra rb => some (encodeReg 0x03 g rd ra rb 0)
  | .and _ g rd ra rb => some (encodeReg 0x04 g rd ra rb 0)
  | .or _ g rd ra rb => some (encodeReg 0x05 g rd ra rb 0)
  | .xor _ g rd ra rb => some (encodeReg 0x06 g rd ra rb 0)
  | .shl _ g rd ra rb => some (encodeReg 0x07 g rd ra rb 0)
  | .shr _ g rd ra rb => some (encodeReg 0x08 g rd ra rb 0)
  | .sra _ g rd ra rb => some (encodeReg 0x09 g rd ra rb 0)
  | .addi _ g rd ra imm => some (encodeImm 0x0A g rd ra imm)
  | .ori _ g rd ra imm => some (encodeImm 0x0B g rd ra imm)
  | .shli _ g rd ra imm => some (encodeImm 0x0C g rd ra imm)
  | .movi _ g rd imm => some (encodeWide 0x0D g rd imm)
  | .cmp _ g rd ra rb fn => some (encodeReg 0x0E g rd ra rb fn)
  | .cmpi _ g rd ra imm => some (encodeImm 0x0F g rd ra imm)
  | .plog _ g rd ra rb fn => some (encodeReg 0x10 g rd ra rb fn)
  | .br _ g off => some (encodeJump 0x11 g off)
  | .loop _ g ra len => some (encodeLoop 0x12 g ra len)
  | .lds _ g rd ra fn => some (encodeReg 0x13 g rd ra 0 fn)
  | .sts _ g ra rb fn => some (encodeReg 0x14 g 0 ra rb fn)
  | .atomAdd _ g rd ra rb => some (encodeReg 0x15 g rd ra rb 0x00)
  | .atomMax _ g rd ra rb => some (encodeReg 0x15 g rd ra rb 0x08)
  | .atomMin _ g rd ra rb => some (encodeReg 0x15 g rd ra rb 0x10)
  | .atomOr _ g rd ra rb => some (encodeReg 0x15 g rd ra rb 0x18)
  | .atomAnd _ g rd ra rb => some (encodeReg 0x15 g rd ra rb 0x20)
  | .atomSwap _ g rd ra rb => some (encodeReg 0x15 g rd ra rb 0x28)
  | .atomCas _ g rd ra rb => some (encodeReg 0x15 g rd ra rb 0x30)
  | .atomFadd _ g rd ra rb => some (encodeReg 0x15 g rd ra rb 0x38)
  | .rdsr _ g rd sel => some (encodeImm 0x16 g rd 0 sel)
  | .rung _ g rd ra imm => some (encodeImm 0x17 g rd ra imm)
  | .guard _ g td rs => some (encodeTile 0x18 g td 0 0 rs 0)
  | .tdld _ g td rs => some (encodeTile 0x20 g td 0 0 rs 0)
  | .tdset _ g td rs mode => some (encodeTile 0x21 g td 0 0 rs mode)
  | .tdadv _ g td rs mode => some (encodeTile 0x22 g td 0 0 rs mode)
  | .tload _ g td ta rs mode => some (encodeTile 0x23 g td ta 0 rs mode)
  | .tstore _ g td ta rs mode => some (encodeTile 0x24 g td ta 0 rs mode)
  | .dmaget _ g td ta mode => some (encodeTile 0x25 g td ta 0 0 mode)
  | .dmaput _ g td ta mode => some (encodeTile 0x26 g td ta 0 0 mode)
  | .dmawait _ g imm => some (encodeWide 0x27 g 0 imm)
  | .mma _ g td ta tb mode => some (encodeTile 0x28 g td ta tb 0 mode)
  | .fold _ g td => some (encodeTile 0x29 g td 0 0 0 0)
  | .vec _ g rs => some (encodeTile 0x2A g 0 0 0 rs 0)
  | .upld _ g ta rs => some (encodeTile 0x2B g 0 ta 0 rs 0)
  | .conva _ g td ta tb mode => some (encodeTile 0x2C g td ta tb 0 mode)
  | .convt _ g td ta mode => some (encodeTile 0x2D g td ta 0 0 mode)
  | .gsend _ g ta rs mode => some (encodeTile 0x30 g 0 ta 0 rs mode)
  | .grecv _ g td rs mode => some (encodeTile 0x31 g td 0 0 rs mode)
  | .gwait _ g imm => some (encodeWide 0x32 g 0 imm)
  | .signal _ g ra rb => some (encodeReg 0x33 g 0 ra rb 0)
  | .wait _ g ra rb => some (encodeReg 0x34 g 0 ra rb 0)
  | .barrier _ g imm => some (encodeImm 0x35 g 0 0 imm)
  | .course _ g imm => some (encodeWide 0x38 g 0 imm)
  | .digest _ g ra => some (encodeReg 0x39 g 0 ra 0 0)
  | .commit _ g => some (encodeWide 0x3A g 0 0)
  | .plumb _ g td ta tb => some (encodeTile 0x3B g td ta tb 0 0)
  | _ => none

end Sys2Proof
end

