-- ==== Sys2Proof/Machine/Tick.lean ====
section
/-! DEFINITION. What happens with no command waiting: time passes, and the Foremen issue the next instructions of their
programs (log entries 60 and 61).  The opcode table has no row for a tick. -/

namespace Sys2Proof.Machine

/-- Nanoseconds of one tick by the reference alone: 40 in SLEEP, where only the Hearths run, and none without power (R307,
R310). -/
def State.tickLength (s : State) : Nat :=
  match s.power.st with
  | .off => 0
  | .sleep => 40
  | _ => 1

/-- The time bases advance; a slew moves device time by 1 ns in every 5,000, which is 200 ppm (R197, R437). -/
def State.passTime (s : State) : State :=
  let d := s.tickLength
  let n := s.clock.ticks + d
  let turn := n % 5000 = 0 && d = 1
  let shift : Int := if !turn then 0 else if 0 < s.clock.slew then 1 else if s.clock.slew < 0 then -1 else 0
  { s with time := ((s.time : Int) + d + shift).toNat, clock := { s.clock with ticks := n, slew := s.clock.slew - shift } }

/-- What physics does to the module at a tick (log entry 69): a SECDED word of a Room's Hod or Pantry is corrected, which marks the
Room's Course, or has a double-bit error, a Room hardware fault (R72, R338); an upset of the MAC array waits for the next MMA (R336);
lanes of a Mortar port are corrected by FEC (R431). -/
def State.strike (s : State) (u : Upset) : State :=
  let live (r : Nat) : Bool := isRoom r && (s.room r).life == .working && (s.room r).power != .doze
  let owner (r : Nat) : Nat := ((s.suiteOf r).map fun n => (s.suite n).owner).getD 0
  match u with
  | .corrected r a =>
    if !live r then s
    else (s.report 2 1 1 2 r (owner r) a).modRoom r fun x => if s.inCourse r then { x with marks := x.marks ++ [x.course.ordinal] } else x
  | .double r a => if !live r then s else (s.report 2 2 3 2 r (owner r) a).hardwareFault r
  | .mac r lane chunk row column num exp =>
    if !live r then s else s.modRoom r fun x => { x with upsets := x.upsets ++ [{ lane, chunk, row, column, num, exp }] }
  | .fec p n => if isMortar p then s.modPort p fun x => { x with fec := satAdd 64 x.fec n } else s

/-- Each throttle reason that is active accumulates its time (R331, R332). -/
def State.countReason (d k : Nat) (s : State) : State :=
  if s.reasonActive k then s.bump (0x2440 + k) 2 64 d else s

/-- Accesses that waited look again, suspended re-runs start, buffered frames are written, and the temperature and time
limits take their course (R186, R325, R331, R339, R435). -/
def State.housekeep (s : State) : State :=
  let s := iterate (fun f s => s.modFloor f (·.thermal s.time)) 4 s
  let s := s.refresh
  let s := s.payFaults
  let s := s.serveWaiters
  let s := iterate (fun p s => State.drainIngest p (s.feed p).buffer.length s) 4 s
  (s.suites.map (·.1)).foldl (fun s n => ((s.settle n).freeClosed n).tryRerun n) s

/-- The word at a Foreman's program counter (R76, R78). -/
def Foreman.word (f : Foreman) : W32 := Store.get 0 f.program f.pc

/-- The Foreman of a Room issues its next instruction: the command waits in the queue; a word of no instruction raises
ILLEGAL_INSTRUCTION, or completes as a no-operation when its guard is false (R79, R116). -/
def State.issueNext (s : State) (r : Nat) : State :=
  let f := (s.room r).foreman
  if f.run != .running then s
  else match decodeForeman r f.word with
    | some c => { s with pending := s.pending ++ [c] }
    | none => s.keepQueue (if f.guarded (guardOf f.word) then s.programFault r faultIllegalInstruction else s.advance r)

/-- The tick. -/
def State.tick (s : State) : State :=
  let d := s.tickLength
  let s := s.passTime
  if s.asleep then s
  else
    let s := s.serveNetwork d
    let s := match Config.upset s.clock.ticks with
      | some u => s.strike u
      | none => s
    let s := s.keepQueue (iterate (State.countReason d) 8 s).housekeep
    ((s.rooms.map (·.1)).filter isRoom).foldl State.issueNext s

end Sys2Proof.Machine
end

