-- ==== Sys2Proof/Safety.lean ====
section
/-! DEFINITION. The conditions and the promises in whose terms the statements about this block are written: when an
instruction executes, where its Room goes on, what a step leaves alone, and which queues and stores are in order. -/

namespace Sys2Proof.Safety

open Sys2Proof.Machine

/-- The Room exists, its Foreman runs, and the instruction's guard is true (R76, R79). -/
def Executes (s : State) (r : Nat) (g : Guard) : Prop :=
  isRoom r = true ∧ (s.room r).foreman.run = .running ∧ (s.room r).foreman.guarded g = true

/-- The instruction after the present one lies in the program store (R82). -/
def GoesOn (s : State) (r : Nat) : Prop :=
  (leaveLoops (s.room r).foreman.pc (s.room r).foreman.loops).2 ≤ 4095

/-- The Foreman past the instruction at its program counter, with the loops that this leaves (R82). -/
def passed (f : Foreman) : Foreman :=
  { f with pc := (leaveLoops f.pc f.loops).2, loops := (leaveLoops f.pc f.loops).1 }

/-- The state after an instruction that only turned the Foreman of Room r into `e` of it, and passed it. -/
def did (s : State) (r : Nat) (e : Foreman → Foreman) : State := s.modForeman r fun f => passed (e f)

/-- The state after an instruction that turned Room r into `e` of it, and passed it. -/
def didRoom (s : State) (r : Nat) (e : Room → Room) : State := s.modRoom r fun x => (e x).mapForeman passed

/-- The Rooms other than r, every other unit, memory, the dictionary and the queue stand as they stood. -/
def OnlyRoom (s t : State) (r : Nat) : Prop := (∀ q, q ≠ r → t.room q = s.room q) ∧ { t with rooms := s.rooms } = s

/-- The Room and the guard of a Foreman instruction; none for every other command (R79, R81). -/
def foremanOf : Instr → Option (Nat × Guard)
  | .add r g _ _ _ => some (r, g)
  | .sub r g _ _ _ => some (r, g)
  | .mul r g _ _ _ => some (r, g)
  | .and r g _ _ _ => some (r, g)
  | .or r g _ _ _ => some (r, g)
  | .xor r g _ _ _ => some (r, g)
  | .shl r g _ _ _ => some (r, g)
  | .shr r g _ _ _ => some (r, g)
  | .sra r g _ _ _ => some (r, g)
  | .addi r g _ _ _ => some (r, g)
  | .ori r g _ _ _ => some (r, g)
  | .shli r g _ _ _ => some (r, g)
  | .movi r g _ _ => some (r, g)
  | .cmp r g _ _ _ _ => some (r, g)
  | .cmpi r g _ _ _ => some (r, g)
  | .plog r g _ _ _ _ => some (r, g)
  | .br r g _ => some (r, g)
  | .loop r g _ _ => some (r, g)
  | .lds r g _ _ _ => some (r, g)
  | .sts r g _ _ _ => some (r, g)
  | .atomAdd r g _ _ _ => some (r, g)
  | .atomMax r g _ _ _ => some (r, g)
  | .atomMin r g _ _ _ => some (r, g)
  | .atomOr r g _ _ _ => some (r, g)
  | .atomAnd r g _ _ _ => some (r, g)
  | .atomSwap r g _ _ _ => some (r, g)
  | .atomCas r g _ _ _ => some (r, g)
  | .atomFadd r g _ _ _ => some (r, g)
  | .rdsr r g _ _ => some (r, g)
  | .rung r g _ _ _ => some (r, g)
  | .guard r g _ _ => some (r, g)
  | .tdld r g _ _ => some (r, g)
  | .tdset r g _ _ _ => some (r, g)
  | .tdadv r g _ _ _ => some (r, g)
  | .tload r g _ _ _ _ => some (r, g)
  | .tstore r g _ _ _ _ => some (r, g)
  | .dmaget r g _ _ _ => some (r, g)
  | .dmaput r g _ _ _ => some (r, g)
  | .dmawait r g _ => some (r, g)
  | .mma r g _ _ _ _ => some (r, g)
  | .fold r g _ => some (r, g)
  | .vec r g _ => some (r, g)
  | .upld r g _ _ => some (r, g)
  | .conva r g _ _ _ _ => some (r, g)
  | .convt r g _ _ _ => some (r, g)
  | .gsend r g _ _ _ => some (r, g)
  | .grecv r g _ _ _ => some (r, g)
  | .gwait r g _ => some (r, g)
  | .signal r g _ _ => some (r, g)
  | .wait r g _ _ => some (r, g)
  | .barrier r g _ => some (r, g)
  | .course r g _ => some (r, g)
  | .digest r g _ => some (r, g)
  | .commit r g => some (r, g)
  | .plumb r g _ _ _ => some (r, g)
  | _ => none

/-- A download of n bytes on a channel reaches the object's own checks: the channel exists and works, and checks 1 to 4 of
R289 pass. -/
def Served (s : State) (q : Chan) (index sub n : Nat) : Prop :=
  isChan q = true ∧ s.asleep = false ∧ s.chanDead q = false ∧ s.gate q index sub true = none ∧
    ((object? index sub).map (·.len.accepts n)).getD false = true

/-- The note of an accepted download on a module without Hall W, with the old value (R347). -/
def noted (s t : State) (q : Chan) (index sub : Nat) : State :=
  if (s.hall 0).lost && q != .own && t.withheld == s.withheld then
    { t with splitWrites := t.splitWrites ++ [(index, sub, s.dictGet index sub)] }
  else t

/-- The state after a download whose effect turned `s` into `t` and that completes at once (R293). -/
def answered (s t : State) (q : Chan) (index sub : Nat) : State := (noted s t q index sub).reply q index sub 0 []

/-- Suite n can take the change c, which names Rooms and lets the module choose others: the spares that it makes necessary
are found, and the envelope's Rooms, the promises and the bandwidth of the groups allow it (R255, R259, R164). -/
def Accepts (s : State) (n : Nat) (c : Change) (named chosen : List Nat) : Prop :=
  ∃ y, s.withSpares n c (named ++ chosen) = some y ∧
    s.roomsFit (s.suite n).owner (y.holds.filter fun r => !(s.suite n).holds.contains r).length = true ∧
    s.bandwidthFits n y = true

/-- Suite n has taken the change c: it waits behind the earlier ones, with the spares that it makes necessary; ACCEPTED_GEN has
counted it, and the Suite's members, groups and step stand (R13, R14, R255). -/
def Queued (s t : State) (n : Nat) (c : Change) : Prop :=
  (∃ l, (t.suite n).changes = (s.suite n).changes ++ c :: l ∧ (l = [] ∨ ∃ rooms, l = [.add true rooms true])) ∧
    (t.suite n).acceptedGen = ((s.suite n).acceptedGen + 1) % 2 ^ 32 ∧ (t.suite n).rooms = (s.suite n).rooms ∧
    (t.suite n).spares = (s.suite n).spares ∧ (t.suite n).groups = (s.suite n).groups ∧
    (t.suite n).step = (s.suite n).step

/-- Every command that waits names only units of the module. -/
def QueueOk (s : State) : Prop := ∀ c ∈ s.pending, c.wellFormed = true

/-- The register files of a Foreman are in canonical form: equal contents are equal data. -/
def RegistersOk (f : Foreman) : Prop :=
  Store.wf (0 : W64) f.s = true ∧ Store.wf ({} : Desc) f.t = true ∧ Store.wf false f.p = true

end Sys2Proof.Safety
end

