-- ==== Sys2Proof/Certificates/Slice0/Obligations.lean ====
section
/-! DEFINITION. The statements about the block, for the provers.  Each docstring names the rules of spec/ that its
statement formalises, or the log entry on which it rests. -/

open Sys2Proof Sys2Proof.Machine Sys2Proof.Safety

/-! ### The queue and the step -/

/-- A step takes the command at the front of the queue and runs it on the state with the queue's rest. -/
def Obligations.StepRunsFront : Prop :=
  ∀ (s : State) (c : Instr) (rest : List Instr), s.pending = c :: rest → step s = exec c { s with pending := rest }

/-- Every command that names a unit that the module does not have is refused, and no other command is; the others all
answer a next state, and leave the waiting commands alone (log entry 1). -/
def Obligations.UnitsRefused : Prop :=
  ∀ (i : Instr) (s : State), (i.wellFormed = false → exec i s = .refused .noSuchUnit) ∧
    (i.wellFormed = true → ∃ t, exec i s = .next t ∧ t.pending = s.pending)

/-- With a queue of well-formed commands every step answers a next state, whose queue holds well-formed commands
again: the rest of the queue, or, from an empty queue, the instructions that the Foremen issue (log entries 60 and
61). -/
def Obligations.StepKeepsQueueOk : Prop :=
  ∀ s : State, QueueOk s → ∃ t, step s = .next t ∧ QueueOk t

/-- The module right after power is applied: nothing waits, both Halls are at stage 0 of bring-up, device time is 0,
no Suite, context or grant exists, every household is INACTIVE, READY is down, every Room's registers read 0 and
memory is in canonical form (R197, R199, R415, R417; the values of registers that the manual leaves open are log
entries 3 and 4). Its first step with nothing commanded is a tick (log entry 60). -/
def Obligations.ResetState : Prop :=
  QueueOk State.reset ∧ State.reset.pending = [] ∧ State.reset.time = 0 ∧ State.reset.ready = false ∧
    State.reset.resetCause = 0 ∧ State.reset.failSilent = false ∧ Memory.wf State.reset.hbm = true ∧
    (∀ h, h < 2 → (State.reset.hall h).up.stage = 0 ∧ (State.reset.hall h).lost = false) ∧
    (∀ n, (State.reset.suite n).st = .free) ∧ (∀ c, State.reset.ctx? c = none) ∧ (∀ h, (State.reset.house h).st = .inactive) ∧
    (∀ p, (State.reset.page p).holder = 0) ∧ (∀ k, State.reset.security.keys.length = k → k = 0) ∧
    (∀ r k j, (State.reset.room r).foreman.reg k = 0 ∧ (State.reset.room r).foreman.desc j = {} ∧
      (State.reset.room r).member = none ∧ RegistersOk (State.reset.room r).foreman) ∧
    (∀ a n, State.reset.hbmRead a n = List.replicate n 0) ∧ step State.reset = .next State.reset.tick ∧
    ∀ s : State, s.pending = [] → step s = .next s.tick

/-- An instruction whose guard is false only passes itself, whatever it is; and no instruction acts while the Foreman
does not run (R79; log entry 61). -/
def Obligations.FalseGuardIsNoOperation : Prop :=
  ∀ (i : Instr) (r : Nat) (g : Guard) (s : State), foremanOf i = some (r, g) → isRoom r = true →
    ((s.room r).foreman.run = .running → (s.room r).foreman.guarded g = false → GoesOn s r →
      exec i s = .next (did s r fun f => f)) ∧
    ((s.room r).foreman.run ≠ .running → exec i s = .next s)

/-- The word of every Foreman instruction decodes to that instruction, whatever its operands. -/
def Obligations.ForemanWordsRoundTrip : Prop :=
  ∀ (i : Instr) (w : W32), encodeForeman i = some w →
    ∃ r g, foremanOf i = some (r, g) ∧ decodeForeman r w = some i ∧ guardOf w = g

/-! ### Scalars (R76 to R82) -/

/-- s0 reads as zero and discards writes, and a write to another register is read back and leaves the rest. p0 reads
as 1 and discards writes; the other predicates are read back. -/
def Obligations.RegisterFiles : Prop :=
  (∀ (f : Foreman) (k j : BitVec 5) (v : W64), RegistersOk f →
     f.reg 0 = 0 ∧ f.setReg 0 v = f ∧ (k ≠ 0 → (f.setReg k v).reg k = v) ∧ (j ≠ k → (f.setReg k v).reg j = f.reg j) ∧
       RegistersOk (f.setReg k v)) ∧
  ∀ (f : Foreman) (k j : Nat) (v : Bool), RegistersOk f →
    f.pred 0 = true ∧ f.setPred 0 v = f ∧ (k ≠ 0 → (f.setPred k v).pred k = v) ∧
      (j ≠ k → (f.setPred k v).pred j = f.pred j) ∧ RegistersOk (f.setPred k v)

/-- The register-register operations of R81: the result, and nothing else changes but the program counter and loops.
The immediate operations of R81: ADDI and MOVI extend the sign, ORI extends with zeros. -/
def Obligations.ArithmeticResults : Prop :=
  (∀ (s : State) (r : Nat) (g : Guard) (rd ra rb : BitVec 5), Executes s r g → GoesOn s r →
     exec (.add r g rd ra rb) s = .next (did s r fun f => f.setReg rd (f.reg ra + f.reg rb)) ∧
     exec (.sub r g rd ra rb) s = .next (did s r fun f => f.setReg rd (f.reg ra - f.reg rb)) ∧
     exec (.mul r g rd ra rb) s = .next (did s r fun f => f.setReg rd (f.reg ra * f.reg rb)) ∧
     exec (.and r g rd ra rb) s = .next (did s r fun f => f.setReg rd (f.reg ra &&& f.reg rb)) ∧
     exec (.or r g rd ra rb) s = .next (did s r fun f => f.setReg rd (f.reg ra ||| f.reg rb)) ∧
     exec (.xor r g rd ra rb) s = .next (did s r fun f => f.setReg rd (f.reg ra ^^^ f.reg rb)) ∧
     exec (.shl r g rd ra rb) s = .next (did s r fun f => f.setReg rd (f.reg ra <<< ((f.reg rb).toNat % 64))) ∧
     exec (.shr r g rd ra rb) s = .next (did s r fun f => f.setReg rd (f.reg ra >>> ((f.reg rb).toNat % 64))) ∧
     exec (.sra r g rd ra rb) s = .next (did s r fun f => f.setReg rd ((f.reg ra).sshiftRight ((f.reg rb).toNat % 64)))) ∧
  ∀ (s : State) (r : Nat) (g : Guard) (rd ra : BitVec 5) (imm : BitVec 12) (wide : BitVec 16), Executes s r g → GoesOn s r →
    exec (.addi r g rd ra imm) s = .next (did s r fun f => f.setReg rd (f.reg ra + imm.signExtend 64)) ∧
    exec (.ori r g rd ra imm) s = .next (did s r fun f => f.setReg rd (f.reg ra ||| imm.setWidth 64)) ∧
    exec (.shli r g rd ra imm) s = .next (did s r fun f => f.setReg rd (f.reg ra <<< (imm.toNat % 64))) ∧
    exec (.movi r g rd wide) s = .next (did s r fun f => f.setReg rd (wide.signExtend 64))

/-- CMP, CMPI and PLOG write one predicate: the comparison or the logic that the code selects (R81). -/
def Obligations.PredicateResults : Prop :=
  ∀ (s : State) (r : Nat) (g : Guard) (rd ra rb : BitVec 5) (fn : BitVec 7) (imm : BitVec 12), Executes s r g → GoesOn s r →
    (fn.toNat / 16 < 6 → exec (.cmp r g rd ra rb fn) s = .next (did s r fun f => f.setPred (rd.toNat % 8)
      (match fn.toNat / 16 with
       | 0 => decide (f.reg ra = f.reg rb)
       | 1 => decide (f.reg ra ≠ f.reg rb)
       | 2 => decide ((f.reg ra).toNat < (f.reg rb).toNat)
       | 3 => decide ((f.reg rb).toNat ≤ (f.reg ra).toNat)
       | 4 => decide ((f.reg ra).toInt < (f.reg rb).toInt)
       | _ => decide ((f.reg rb).toInt ≤ (f.reg ra).toInt)))) ∧
    exec (.cmpi r g rd ra imm) s = .next (did s r fun f => f.setPred (rd.toNat % 8)
      (match rd.toNat / 8 with
       | 0 => decide (f.reg ra = imm.signExtend 64)
       | 1 => decide (f.reg ra ≠ imm.signExtend 64)
       | 2 => decide ((f.reg ra).toInt < imm.toInt)
       | _ => decide (imm.toInt ≤ (f.reg ra).toInt))) ∧
    exec (.plog r g rd ra rb fn) s = .next (did s r fun f => f.setPred (rd.toNat % 8)
      (match fn.toNat / 32 with
       | 0 => f.pred (ra.toNat % 8) && f.pred (rb.toNat % 8)
       | 1 => f.pred (ra.toNat % 8) || f.pred (rb.toNat % 8)
       | 2 => f.pred (ra.toNat % 8) ^^ f.pred (rb.toNat % 8)
       | _ => f.pred (ra.toNat % 8) && !f.pred (rb.toNat % 8)))

/-- BR moves the counter by the signed offset and ends the loops that do not hold the target; LOOP opens a loop over
the next LEN instructions, or steps over them when the count is 0 (R81, R82). What follows R82 says of the program
counter and the loops: a branch keeps the loops from the innermost one that holds its target, an instruction that
passes index 4,095 faults with BOUNDS, whether its guard is true or false. -/
def Obligations.LoopRules : Prop :=
  (∀ (s : State) (r : Nat) (g : Guard) (off : BitVec 22) (ra : BitVec 5) (len : BitVec 12), Executes s r g →
     (0 ≤ ((s.room r).foreman.pc : Int) + off.toInt → ((s.room r).foreman.pc : Int) + off.toInt ≤ 4095 →
       exec (.br r g off) s = .next (s.modForeman r fun f =>
         { f with pc := ((f.pc : Int) + off.toInt).toNat, loops := keepLoops ((f.pc : Int) + off.toInt).toNat f.loops })) ∧
     (¬ (0 ≤ ((s.room r).foreman.pc : Int) + off.toInt ∧ ((s.room r).foreman.pc : Int) + off.toInt ≤ 4095) →
       exec (.br r g off) s = .next (s.keepQueue (s.programFault r 0x04))) ∧
     (4 ≤ (s.room r).foreman.loops.length → exec (.loop r g ra len) s = .next (s.keepQueue (s.programFault r 0x0A))) ∧
     ((s.room r).foreman.loops.length < 4 → (s.room r).foreman.reg ra ≠ 0 → len ≠ 0 → (s.room r).foreman.pc < 4095 →
       exec (.loop r g ra len) s = .next (s.modForeman r fun f =>
         { f with pc := f.pc + 1, loops := ⟨f.pc + 1, f.pc + len.toNat, (f.reg ra).toNat⟩ :: f.loops })) ∧
     ((s.room r).foreman.loops.length < 4 → (s.room r).foreman.reg ra = 0 →
       (leaveLoops ((s.room r).foreman.pc + len.toNat) (s.room r).foreman.loops).2 ≤ 4095 →
       exec (.loop r g ra len) s = .next (s.modForeman r fun f =>
         { f with pc := (leaveLoops (f.pc + len.toNat) f.loops).2, loops := (leaveLoops (f.pc + len.toNat) f.loops).1 }))) ∧
  (∀ (t : Nat) (l : List LoopFrame), keepLoops t l = l.dropWhile fun f => !(decide (f.first ≤ t) && decide (t ≤ f.last))) ∧
  ∀ (s : State) (i : Instr) (r : Nat) (g : Guard) (rd ra rb : BitVec 5), isRoom r = true → (s.room r).foreman.run = .running →
    ¬ GoesOn s r →
    (foremanOf i = some (r, g) → (s.room r).foreman.guarded g = false →
      exec i s = .next (s.keepQueue (s.programFault r 0x04))) ∧
    ((s.room r).foreman.guarded g = true → exec (.add r g rd ra rb) s = .next (s.keepQueue
      ((s.modForeman r fun f => f.setReg rd (f.reg ra + f.reg rb)).programFault r 0x04)))

/-- RDSR reads the special register that its selector names, RUNG the dispatched rung of a layer (a free value for a
layer without a Ladder entry: log entry 6), and GUARD the guard word of the newest slot with the tile's key, zero without
one; it waits while a GRECV of that slot is still to complete (R63, R77, R96, R113; log entry 25). What the selectors of RDSR read (R77).
No special register tells two Rooms apart that stand at the same ordinal of copies of one step, in the same Course
(R77). -/
def Obligations.SpecialRegisters : Prop :=
  (∀ (s : State) (r : Nat) (g : Guard) (rd ra rs : BitVec 5) (sel imm : BitVec 12) (td : BitVec 4) (v : W64) (st : Step)
     (e : LadderEntry),
     Executes s r g → GoesOn s r →
     (s.special r sel.toNat = some v → (sel ≠ 10 ∨ s.det r = false) →
       exec (.rdsr r g rd sel) s = .next (did s r fun f => f.setReg rd v)) ∧
     (s.special r sel.toNat = none → exec (.rdsr r g rd sel) s = .next (s.keepQueue (s.programFault r 0x01))) ∧
     (s.det r = true → exec (.rdsr r g rd 10) s = .next (s.keepQueue (s.programFault r 0x08))) ∧
     (s.stepOf r = some st →
       st.ladder[((s.room r).foreman.reg ra + imm.signExtend 64).toNat % 4096]? = some e →
       exec (.rung r g rd ra imm) s = .next (did s r fun f => f.setReg rd (BitVec.ofNat 64 e.curRung))) ∧
     (s.ladder? r (((s.room r).foreman.reg ra + imm.signExtend 64).toNat % 4096) = none →
       exec (.rung r g rd ra imm) s = .next (did s r fun f => f.setReg rd
         (Config.openRung (((s.room r).foreman.reg ra + imm.signExtend 64).toNat % 4096)))) ∧
     ((s.room r).slotPending ((s.room r).foreman.desc td).layer ((s.room r).foreman.desc td).tile = false →
       exec (.guard r g td rs) s = .next (did s r fun f => f.setReg rs
         (match (s.room r).course.slots.find?
             (fun x => x.layer == (f.desc td).layer && x.tile == (f.desc td).tile) with
          | some x => x.word.encode
          | none => 0))) ∧
     ((s.room r).slotPending ((s.room r).foreman.desc td).layer ((s.room r).foreman.desc td).tile = true →
       exec (.guard r g td rs) s = .next s)) ∧
  (∀ (s : State) (r k : Nat) (st : Step), s.stepOf r = some st →
     s.special r 0 = some (BitVec.ofNat 64 (s.ordinalOf r)) ∧ s.special r 1 = some (BitVec.ofNat 64 st.nrooms) ∧
     s.special r 2 = some (BitVec.ofNat 64 st.lanes) ∧
     s.special r 3 = some (BitVec.ofNat 64 (s.room r).course.ordinal) ∧ s.special r 4 = some st.desc.seed ∧
     s.special r 5 = some (if st.det then 1 else 0) ∧
     (k < 4 → s.special r (6 + k) = some ((st.desc.args[k]?).getD 0)) ∧
     s.special r 10 = some (BitVec.ofNat 64 s.time) ∧ (10 < k → s.special r k = none)) ∧
  ∀ (s : State) (r q k : Nat), s.stepOf r = s.stepOf q → s.ordinalOf r = s.ordinalOf q →
    (s.room r).course.ordinal = (s.room q).course.ordinal → s.special r k = s.special q k

/-! ### Loads, stores and atomics (R81, R97, R98, R110) -/

/-- LDS and STS on the Pantry scratch portion: the little-endian value, zero-extended; the store changes its own bytes
of the Pantry and no others, and notes them for the Course digest. An address that the access size does not divide,
and a Pantry access past the scratch portion, fault (R110, R116, log entry 20). -/
def Obligations.LoadStore : Prop :=
  (∀ (s : State) (r : Nat) (g : Guard) (rd ra rb : BitVec 5) (fn : BitVec 7) (a n : Nat), Executes s r g → GoesOn s r →
     a = ((s.room r).foreman.reg ra).toNat → n = 2 ^ (fn.toNat / 16 % 4) → fn.getLsbD 6 = false → a % n = 0 →
     a + n ≤ 0x100000 - s.portion r →
     exec (.lds r g rd ra fn) s =
       .next (did s r fun f => f.setReg rd (BitVec.ofNat 64 (leNat (Store.range 0 (s.room r).pantry a n)))) ∧
     ∃ t, exec (.sts r g ra rb fn) s = .next t ∧
       t.room r = { s.room r with
         pantry := Store.setRange 0 (s.room r).pantry a (leBytes n ((s.room r).foreman.reg rb).toNat)
         course := (s.room r).course.note 0 a (leBytes n ((s.room r).foreman.reg rb).toNat)
         foreman := passed (s.room r).foreman } ∧
       (∀ b, b < a ∨ a + n ≤ b → Store.get 0 (t.room r).pantry b = Store.get 0 (s.room r).pantry b) ∧
       (Store.wf (0 : Byte) (s.room r).pantry = true →
         ∀ k < n, Store.get 0 (t.room r).pantry (a + k) = BitVec.ofNat 8 (((s.room r).foreman.reg rb).toNat / 256 ^ k)) ∧
       OnlyRoom s t r) ∧
  ∀ (s : State) (r : Nat) (g : Guard) (rd ra rb : BitVec 5) (fn : BitVec 7) (a n : Nat), Executes s r g →
    a = ((s.room r).foreman.reg ra).toNat → n = 2 ^ (fn.toNat / 16 % 4) →
    (a % n ≠ 0 → exec (.lds r g rd ra fn) s = .next (s.keepQueue (s.programFault r 0x05)) ∧
      exec (.sts r g ra rb fn) s = .next (s.keepQueue (s.programFault r 0x05))) ∧
    (a % n = 0 → fn.getLsbD 6 = false → 0x100000 - s.portion r < a + n →
      exec (.lds r g rd ra fn) s = .next (s.keepQueue (s.programFault r 0x04)) ∧
      exec (.sts r g ra rb fn) s = .next (s.keepQueue (s.programFault r 0x04)))

/-- ATOM, SIGNAL and WAIT on an aligned word that the cache port performs, leaving `old` behind: ATOM writes the old
value to s[RD], SIGNAL and WAIT write no register, and a write is noted for the digest (R97, R98). Deterministic mode
refuses FADD, SWAP and CAS, and every other ATOM that returns its value (R98). What each operation leaves in its
64-bit word: R98's eight operations, and SIGNAL's maximum, which never lowers it (R97, R98). The reserved codes of
ATOM's FN[6:3] spell no instruction (R98). -/
def Obligations.AtomicOperations : Prop :=
  (∀ (s t : State) (r : Nat) (g : Guard) (rd ra rb : BitVec 5) (op : BitVec 4) (old : List Byte) (kind : AccKind) (a : Nat),
     Executes s r g → GoesOn s r → a = ((s.room r).foreman.reg ra).toNat → a % 8 = 0 →
     s.portAccess r a 8 kind = (.ok old, t) → (t.room r).foreman = (s.room r).foreman →
     (kind = .atomic op ((s.room r).foreman.reg rb) ((s.room r).foreman.reg rd) → (s.det r = false ∨ op.toNat < 5 ∧ rd = 0) →
       ∀ c ∈ [(0, Instr.atomAdd r g rd ra rb), (1, .atomMax r g rd ra rb), (2, .atomMin r g rd ra rb), (3, .atomOr r g rd ra rb),
           (4, .atomAnd r g rd ra rb), (5, .atomSwap r g rd ra rb), (6, .atomCas r g rd ra rb), (7, .atomFadd r g rd ra rb)],
         c.1 = op.toNat →
         exec c.2 s = .next (s.keepQueue
           (did (t.noteWrite r a kind old) r fun f => f.setReg rd (BitVec.ofNat 64 (leNat old))))) ∧
     (kind = .signal ((s.room r).foreman.reg rb) →
       exec (.signal r g ra rb) s = .next (s.keepQueue (did (t.noteWrite r a kind old) r fun f => f))) ∧
     (kind = .await ((s.room r).foreman.reg rb) → exec (.wait r g ra rb) s = .next (s.keepQueue (did t r fun f => f)))) ∧
  (∀ (s : State) (r : Nat) (g : Guard) (rd ra rb : BitVec 5), Executes s r g → s.det r = true →
     (∀ i ∈ [Instr.atomFadd r g rd ra rb, .atomSwap r g rd ra rb, .atomCas r g rd ra rb],
       exec i s = .next (s.keepQueue (s.programFault r 0x08))) ∧
     (rd ≠ 0 → ∀ i ∈ [Instr.atomAdd r g rd ra rb, .atomMax r g rd ra rb, .atomMin r g rd ra rb, .atomOr r g rd ra rb,
         .atomAnd r g rd ra rb], exec i s = .next (s.keepQueue (s.programFault r 0x08)))) ∧
  (∀ (o b d : W64),
     newBytes (.atomic 0 b d) (leBytes 8 o.toNat) = some (leBytes 8 (o + b).toNat) ∧
     newBytes (.atomic 1 b d) (leBytes 8 o.toNat) = some (leBytes 8 (max o.toNat b.toNat)) ∧
     newBytes (.atomic 2 b d) (leBytes 8 o.toNat) = some (leBytes 8 (min o.toNat b.toNat)) ∧
     newBytes (.atomic 3 b d) (leBytes 8 o.toNat) = some (leBytes 8 (o ||| b).toNat) ∧
     newBytes (.atomic 4 b d) (leBytes 8 o.toNat) = some (leBytes 8 (o &&& b).toNat) ∧
     newBytes (.atomic 5 b d) (leBytes 8 o.toNat) = some (leBytes 8 b.toNat) ∧
     newBytes (.atomic 6 b d) (leBytes 8 o.toNat) = (if o = d then some (leBytes 8 b.toNat) else none) ∧
     newBytes (.atomic 7 b d) (leBytes 8 o.toNat) =
       some (leBytes 8 (o.toNat / 2 ^ 32 * 2 ^ 32 + (fp32Add (o.setWidth 32) (b.setWidth 32)).toNat)) ∧
     newBytes (.signal b) (leBytes 8 o.toNat) = some (leBytes 8 (max o.toNat b.toNat))) ∧
  ∀ (r : Nat) (w : W32), w.extractLsb' 26 6 = 0x15 →
    (8 ≤ (w.extractLsb' 3 4).toNat → decodeForeman r w = none) ∧
    ((w.extractLsb' 3 4).toNat < 8 → ∃ i, decodeForeman r w = some i)

/-! ### Tiles and the Room DMA engine (R81, R83 to R87) -/

/-- TDLD reads 32 aligned bytes of the scratch portion, TDSET sets the field that MODE selects, TDADV advances the two
bases: one descriptor register changes. TDSET writes the selected field and leaves every other bit of the descriptor:
the words by MODE 0 to 3, then TILE, LAYER, TOP and FMT (R84). TDADV: both bases move by signed amounts, SCALE_OFF by
their difference; MODE[0] adds 1 to TILE; every other field stands (R84). -/
def Obligations.DescriptorRegisters : Prop :=
  (∀ (s : State) (r : Nat) (g : Guard) (td : BitVec 4) (rs mode : BitVec 5) (a : Nat), Executes s r g → GoesOn s r →
     a = ((s.room r).foreman.reg rs).toNat →
     (a % 32 = 0 → a + 32 ≤ 0x100000 - s.portion r →
       exec (.tdld r g td rs) s = .next (did s r fun f =>
         f.setDesc td ⟨BitVec.ofNat 256 (leNat (Store.range 0 (s.room r).pantry a 32))⟩)) ∧
     (∀ d, tdset ((s.room r).foreman.desc td) mode.toNat ((s.room r).foreman.reg rs) = some d →
       exec (.tdset r g td rs mode) s = .next (did s r fun f => f.setDesc td d)) ∧
     (8 ≤ mode.toNat → exec (.tdset r g td rs mode) s = .next (s.keepQueue (s.programFault r 0x01))) ∧
     exec (.tdadv r g td rs mode) s =
       .next (did s r fun f => f.setDesc td (tdadv (f.desc td) (mode.getLsbD 0) (f.reg rs)))) ∧
  (∀ (d : Desc) (v : W64),
     (∀ k < 4, ∃ e, tdset d k v = some e ∧ descWord e k = v ∧ ∀ j < 4, j ≠ k → descWord e j = descWord d j) ∧
     (∃ e, tdset d 4 v = some e ∧ e.tile = v.toNat % 2 ^ 24 ∧ e.layer = d.layer ∧ e.top = d.top ∧ e.fmt = d.fmt ∧
       e.space = d.space ∧ e.version = d.version ∧ e.base = d.base) ∧
     (∃ e, tdset d 5 v = some e ∧ e.layer = v.toNat % 2 ^ 12 ∧ e.tile = d.tile ∧ e.top = d.top ∧ e.fmt = d.fmt ∧
       e.base = d.base) ∧
     (∃ e, tdset d 6 v = some e ∧ e.top = v.toNat % 2 ^ 8 ∧ e.tile = d.tile ∧ e.layer = d.layer ∧ e.fmt = d.fmt ∧
       e.base = d.base) ∧
     (∃ e, tdset d 7 v = some e ∧ e.fmt = v.toNat % 2 ^ 5 ∧ e.tile = d.tile ∧ e.layer = d.layer ∧ e.top = d.top ∧
       e.base = d.base)) ∧
  ∀ (d : Desc) (n : Bool) (v : W64) (de ds : Int), de = (v.setWidth 32).toInt → ds = (v.extractLsb' 32 32).toInt →
    ((tdadv d n v).base : Int) = ((d.base : Int) + de) % 2 ^ 64 ∧
    ((tdadv d n v).scaleOff - (d.scaleOff + ds - de)) % 2 ^ 32 = 0 ∧
    (tdadv d n v).tile = (if n then (d.tile + 1) % 2 ^ 24 else d.tile) ∧ (tdadv d n v).layer = d.layer ∧
    (tdadv d n v).top = d.top ∧ (tdadv d n v).fmt = d.fmt ∧ (tdadv d n v).space = d.space ∧
    (tdadv d n v).version = d.version ∧ descWord (tdadv d n v) 3 = descWord d 3

/-- TLOAD and TSTORE whose checks hold move rows between the Pantry and the Hods of the lanes that MODE and s[RS]
name; TLOAD leaves the Pantry and TSTORE every Brick as it stood (R86). TDLD of an aligned address in the scratch portion,
TDSET with a MODE below 8, and TDADV complete: the descriptor register holds what R84 says, every other register of the
Foreman stands, and nothing else of the module changes (R84). -/
def Obligations.TileMoves : Prop :=
  (∀ (s : State) (r : Nat) (g : Guard) (td : BitVec 4) (rs mode : BitVec 5) (a : Nat), Executes s r g → GoesOn s r →
    RegistersOk (s.room r).foreman → a = ((s.room r).foreman.reg rs).toNat →
    (a % 32 = 0 → a + 32 ≤ 0x100000 - s.portion r → ∃ t, exec (.tdld r g td rs) s = .next t ∧
      (t.room r).foreman.desc td = ⟨BitVec.ofNat 256 (leNat (Store.range 0 (s.room r).pantry a 32))⟩ ∧
      (∀ j, j ≠ td → (t.room r).foreman.desc j = (s.room r).foreman.desc j) ∧
      (t.room r).foreman.s = (s.room r).foreman.s ∧ (t.room r).foreman.p = (s.room r).foreman.p ∧
      (t.room r).foreman.pc = (passed (s.room r).foreman).pc ∧ OnlyRoom s t r) ∧
    (mode.toNat < 8 → ∃ t, exec (.tdset r g td rs mode) s = .next t ∧
      some ((t.room r).foreman.desc td) = tdset ((s.room r).foreman.desc td) mode.toNat ((s.room r).foreman.reg rs) ∧
      (∀ j, j ≠ td → (t.room r).foreman.desc j = (s.room r).foreman.desc j) ∧
      (t.room r).foreman.s = (s.room r).foreman.s ∧ (t.room r).foreman.p = (s.room r).foreman.p ∧
      (t.room r).foreman.pc = (passed (s.room r).foreman).pc ∧ OnlyRoom s t r) ∧
    ∃ t, exec (.tdadv r g td rs mode) s = .next t ∧
      (((t.room r).foreman.desc td).base : Int) = ((((s.room r).foreman.desc td).base : Int) +
        (((s.room r).foreman.reg rs).setWidth 32).toInt) % 2 ^ 64 ∧
      ((t.room r).foreman.desc td).tile = (if mode.getLsbD 0 then (((s.room r).foreman.desc td).tile + 1) % 2 ^ 24
        else ((s.room r).foreman.desc td).tile) ∧
      (∀ j, j ≠ td → (t.room r).foreman.desc j = (s.room r).foreman.desc j) ∧
      (t.room r).foreman.s = (s.room r).foreman.s ∧ (t.room r).foreman.p = (s.room r).foreman.p ∧
      (t.room r).foreman.pc = (passed (s.room r).foreman).pc ∧ OnlyRoom s t r) ∧
  ∀ (s : State) (r : Nat) (g : Guard) (td ta : BitVec 4) (rs mode : BitVec 5) (p h : Desc) (v : W64), Executes s r g →
    GoesOn s r → v = (s.room r).foreman.reg rs → moveFault p h (mode.toNat / 8) (s.lanes r) (s.portion r) v = none →
    (p = (s.room r).foreman.desc ta → h = (s.room r).foreman.desc td →
      ∃ t, exec (.tload r g td ta rs mode) s = .next t ∧
        (t.room r).bricks = ((lanesNamed (mode.toNat / 8) (s.lanes r) v).foldl (fun x l => iterate (fun j x =>
          x.putHodRow l h j (p.readRow x.pantry (if mode.toNat / 8 = 1 then l * h.rows + j else j))) h.rows x)
          (s.room r)).bricks ∧
        (t.room r).pantry = (s.room r).pantry ∧ (t.room r).foreman = passed (s.room r).foreman ∧
        (t.room r).microStore = (s.room r).microStore ∧ OnlyRoom s t r) ∧
    (p = (s.room r).foreman.desc td → h = (s.room r).foreman.desc ta → mode.toNat / 8 < 2 →
      ∃ t, exec (.tstore r g td ta rs mode) s = .next t ∧
        (t.room r).pantry = ((lanesNamed (mode.toNat / 8) (s.lanes r) v).foldl (fun x l => iterate (fun j x =>
          x.putPantryRow p (if mode.toNat / 8 = 1 then l * h.rows + j else j) (h.readRow (x.brick l).hod j)) h.rows x)
          (s.room r)).pantry ∧
        (t.room r).bricks = (s.room r).bricks ∧ (t.room r).foreman = passed (s.room r).foreman ∧
        (t.room r).microStore = (s.room r).microStore ∧ OnlyRoom s t r)

/-- DMAGET and DMAPUT whose checks hold issue one transfer under their tag and go on; no byte moves yet. DMAWAIT goes
on when its tags are idle and else waits (R87). The end of a DMAGET whose bytes are read fills its Pantry tile and
takes it off the engine; a DMAPUT whose bytes are written notes them; a transfer that the engine does not hold is
nothing, and one whose writes an unusable group dropped never completes (R87, R102, R148). -/
def Obligations.RoomDma : Prop :=
  (∀ (s : State) (r : Nat) (g : Guard) (td ta : BitVec 4) (mode : BitVec 5) (imm : BitVec 16) (p d : Desc), Executes s r g →
     GoesOn s r →
     (∀ i isGet, (i = .dmaget r g td ta mode ∧ isGet = true ∧ p = (s.room r).foreman.desc td ∧ d = (s.room r).foreman.desc ta ∨
         i = .dmaput r g td ta mode ∧ isGet = false ∧ p = (s.room r).foreman.desc ta ∧ d = (s.room r).foreman.desc td) →
       dmaFault p d (s.portion r) = none →
       ∃ t, exec i s = .next t ∧
         (t.room r).dma = (s.room r).dma ++ [{ isGet, tag := mode.toNat % 16, pantry := p, device := d, ctx := s.ctxOf r }] ∧
         (t.room r).foreman = passed (s.room r).foreman ∧ (t.room r).pantry = (s.room r).pantry ∧
         (t.room r).bricks = (s.room r).bricks ∧ (∀ q, q ≠ r → t.room q = s.room q) ∧ t.hbm = s.hbm ∧
         t.suites = s.suites ∧ t.pending = s.pending) ∧
     ((∀ x ∈ (s.room r).dma, imm.getLsbD x.tag = false) → exec (.dmawait r g imm) s = .next (did s r fun f => f)) ∧
     ((∃ x ∈ (s.room r).dma, imm.getLsbD x.tag = true) →
       exec (.dmawait r g imm) s = .next (s.modForeman r ({ · with run := .waitDma imm })))) ∧
  ∀ (s u : State) (r k : Nat) (x : DmaTransfer) (b : List Byte), isRoom r = true →
    ((s.room r).dma[k]? = none → exec (.dmaTransferComplete r k) s = .next s) ∧
    ((s.room r).dma[k]? = some x → x.lost = true → exec (.dmaTransferComplete r k) s = .next s) ∧
    ((s.room r).dma[k]? = some x → x.lost = false → x.isGet = true →
      s.readMany (dmaPort r) x.ctx x.device.ranges false x.sent = (.ok b, u) →
      exec (.dmaTransferComplete r k) s = .next (s.keepQueue ((u.modRoom r fun y =>
        scatterBytes (fun a b y => y.writePantry a b) x.pantry.ranges b y).endDma r k))) ∧
    ((s.room r).dma[k]? = some x → x.lost = false → x.isGet = false → s.listener r = false →
      s.hitsEvent (dmaPort r) x.ctx x.device.ranges = false →
      s.writeMany (dmaPort r) x.ctx x.device.ranges (x.pantry.gatherBytes (s.room r).pantry) false x.sent = (.ok (), u) →
      exec (.dmaTransferComplete r k) s = .next (s.keepQueue ((u.modRoom r fun y =>
        scatterBytes (fun a b y => y.note 2 a b) x.device.ranges (x.pantry.gatherBytes (s.room r).pantry) y).endDma r k))) ∧
    ((s.room r).foreman.run = .running → s.suiteOf r = none →
      s.endDma r k = s.modRoom r fun y => { y with dma := removeAt k y.dma })

/-! ### The MAC array, conversions and the Plumb-line check (R39 to R59, R88 to R96, R105) -/

/-- MMA and FOLD whose checks hold and whose guard slot is open or can be opened change the accumulators of the
present lanes and that slot, and pass; what the array's checksum comparison found is then noted (R336, log entry 69), and
with no upset standing there is nothing to note. Neither changes a Hod, the Pantry, the Foreman or the lane map (R88 to
R92, R96). With 16
slots open and none of them with the tile's key, MMA, FOLD and CONVT fault with GUARD_SLOTS (R96). -/
def Obligations.MatrixCompletes : Prop :=
  (∀ (s : State) (r : Nat) (g : Guard) (td ta tb : BitVec 4) (mode : BitVec 5) (d a b : Desc) (c : CourseState),
     Executes s r g → GoesOn s r → d = (s.room r).foreman.desc td → a = (s.room r).foreman.desc ta →
     b = (s.room r).foreman.desc tb → (s.room r).course.openSlot d.layer d.tile = some c →
     (mmaFault d a b (mode.getLsbD 3) (s.portion r) = none →
       exec (.mma r g td ta tb mode) s = .next (s.keepQueue (did ((s.modRoom r fun x =>
         { x with course := c }.mma d a b (mode.getLsbD 4) (mode.getLsbD 3) (s.lanes r)).noteFlags r c.flagged.length)
           r fun f => f)) ∧
       ((s.room r).upsets = [] → exec (.mma r g td ta tb mode) s = .next (didRoom s r fun x =>
         { x with course := c }.mma d a b (mode.getLsbD 4) (mode.getLsbD 3) (s.lanes r)))) ∧
     (foldFault d (s.portion r) = none →
       exec (.fold r g td) s = .next (didRoom s r fun x => { x with course := c }.fold d (s.lanes r)))) ∧
  (∀ (x : Room) (d a b : Desc) (clear asrc : Bool) (lanes k : Nat), Store.wf ({} : Brick) x.bricks = true →
     ((x.mma d a b clear asrc lanes).brick k).hod = (x.brick k).hod ∧ (x.mma d a b clear asrc lanes).pantry = x.pantry ∧
     (x.mma d a b clear asrc lanes).foreman = x.foreman ∧ (x.mma d a b clear asrc lanes).laneMap = x.laneMap ∧
     ((x.fold d lanes).brick k).hod = (x.brick k).hod ∧ (x.fold d lanes).pantry = x.pantry ∧
     (x.fold d lanes).foreman = x.foreman ∧ (x.fold d lanes).laneMap = x.laneMap) ∧
  ∀ (s : State) (r : Nat) (g : Guard) (td ta tb : BitVec 4) (mode : BitVec 5) (d a b : Desc), Executes s r g →
    d = (s.room r).foreman.desc td → a = (s.room r).foreman.desc ta → b = (s.room r).foreman.desc tb →
    (∀ x ∈ (s.room r).course.slots, ¬ (x.layer = d.layer ∧ x.tile = d.tile ∧ x.isOpen = true)) →
    16 ≤ ((s.room r).course.slots.filter (·.isOpen)).length →
    (mmaFault d a b (mode.getLsbD 3) (s.portion r) = none →
      exec (.mma r g td ta tb mode) s = .next (s.keepQueue (s.programFault r 0x0B))) ∧
    (foldFault d (s.portion r) = none → exec (.fold r g td) s = .next (s.keepQueue (s.programFault r 0x0B))) ∧
    (convtFault d a mode (s.portion r) = none →
      exec (.convt r g td ta mode) s = .next (s.keepQueue (s.programFault r 0x0B)))

/-- What MMA leaves in one lane: in every accumulator of its block the chunks of that row and column in ascending K
order, from zero when CLEAR is set, and every other accumulator as it stood (R89 to R91). MMA completes when its checks
hold, no upset stands (log entry 69), and its guard slot is open or fewer than 16 slots are: it leaves that in every
present lane, provided that no two present lanes share a Brick (R74), and no Hod, Pantry byte or register changes but the
program counter (R88 to R91, R96). -/
def Obligations.MatrixLane : Prop :=
  (∀ (s : State) (r : Nat) (g : Guard) (td ta tb : BitVec 4) (mode : BitVec 5) (d a b : Desc) (rate nb : Nat), Executes s r g →
    GoesOn s r → d = (s.room r).foreman.desc td → a = (s.room r).foreman.desc ta → b = (s.room r).foreman.desc tb →
    mmaFault d a b (mode.getLsbD 3) (s.portion r) = none → (s.room r).upsets = [] →
    ((∃ x ∈ (s.room r).course.slots, x.layer = d.layer ∧ x.tile = d.tile ∧ x.isOpen = true) ∨
      ((s.room r).course.slots.filter (·.isOpen)).length < 16) →
    Store.wf ({} : Brick) (s.room r).bricks = true → (∀ k, Store.wf (0 : W32) ((s.room r).brick k).acc = true) →
    (∀ j k, j < s.lanes r → k < s.lanes r → (s.room r).brickOf j = (s.room r).brickOf k → j = k) →
    rate = ((macPair b.fmt a.fmt).map (·.1)).getD 0 → nb = nbOf rate →
    ∃ t, exec (.mma r g td ta tb mode) s = .next t ∧
      (∀ lane < s.lanes r, (∀ i < d.rows * nb, Store.get 0 ((t.room r).brick lane).acc (d.base + i) =
          (macCell rate (d.fmt = 0x08) (a.cols / 16)
            (fun k => (streamAt a (if mode.getLsbD 3 then ((s.room r).brick lane).hod else (s.room r).pantry)
              (if mode.getLsbD 3 then lane + 1 else 0) (if mode.getLsbD 3 then 0 else lane % 16) (i / nb) k).1)
            (fun k => (weightAt b ((s.room r).brick lane).hod nb lane (i % nb) k).1)
            { word := if mode.getLsbD 4 then 0 else Store.get 0 ((s.room r).brick lane).acc (d.base + i) }).word) ∧
        (∀ k, (k < d.base ∨ d.base + d.rows * nb ≤ k) →
          Store.get 0 ((t.room r).brick lane).acc k = Store.get 0 ((s.room r).brick lane).acc k)) ∧
      (∀ k, ((t.room r).brick k).hod = ((s.room r).brick k).hod) ∧ (t.room r).pantry = (s.room r).pantry ∧
      (t.room r).foreman = passed (s.room r).foreman ∧ OnlyRoom s t r) ∧
  ∀ (td ta tb : Desc) (clear asrc : Bool) (lane rate nb : Nat) (b : Brick) (pantry : Memory), Store.wf (0 : W32) b.acc = true →
    rate = ((macPair tb.fmt ta.fmt).map (·.1)).getD 0 → nb = nbOf rate →
    (∀ i < td.rows * nb, Store.get 0 (macLane td ta tb clear asrc lane b pantry).acc (td.base + i) =
      (macCell rate (td.fmt = 0x08) (ta.cols / 16)
        (fun k => (streamAt ta (if asrc then b.hod else pantry) (if asrc then lane + 1 else 0) (if asrc then 0 else lane % 16)
          (i / nb) k).1)
        (fun k => (weightAt tb b.hod nb lane (i % nb) k).1)
        { word := if clear then 0 else Store.get 0 b.acc (td.base + i) }).word) ∧
    ∀ k, (k < td.base ∨ td.base + td.rows * nb ≤ k) →
      Store.get 0 (macLane td ta tb clear asrc lane b pantry).acc k = Store.get 0 b.acc k

/-- The running sum of FOLD: column 0, then column 1 to 15 added in ascending order, each by one FP32 addition (R92).
The running sum of FOLD in INT32: columns 0 to 15 added in ascending order, each addition saturating (R43, R92). FOLD:
the faults of its descriptor; and, where the accumulators are in canonical form, every block of column 15 holds the
sum of its row, and every other accumulator of the present lanes stands (R92), provided that no two present lanes
share a Brick, as the map that a Dispatch Landing builds ensures (R74). FOLD completes when its checks hold and its guard
slot is open or fewer than 16 slots are, and that is what it leaves; no register changes but the program counter (R92,
R96). -/
def Obligations.FoldRule : Prop :=
  (∀ (s : State) (r : Nat) (g : Guard) (td : BitVec 4) (d : Desc), Executes s r g → GoesOn s r →
    d = (s.room r).foreman.desc td → foldFault d (s.portion r) = none →
    ((∃ x ∈ (s.room r).course.slots, x.layer = d.layer ∧ x.tile = d.tile ∧ x.isOpen = true) ∨
      ((s.room r).course.slots.filter (·.isOpen)).length < 16) →
    Store.wf ({} : Brick) (s.room r).bricks = true → (∀ k, Store.wf (0 : W32) ((s.room r).brick k).acc = true) →
    (∀ j k, j < s.lanes r → k < s.lanes r → (s.room r).brickOf j = (s.room r).brickOf k → j = k) →
    ∃ t, exec (.fold r g td) s = .next t ∧
      (∀ row < s.lanes r / 16, ∀ i < d.rows * d.cols,
        Store.get 0 ((t.room r).brick (16 * row + 15)).acc (d.base + i) = ((s.room r).foldCell d row (d.base + i)).word) ∧
      (∀ b < s.lanes r, ∀ a, (b % 16 ≠ 15 ∨ a < d.base ∨ d.base + d.rows * d.cols ≤ a) →
        Store.get 0 ((t.room r).brick b).acc a = Store.get 0 ((s.room r).brick b).acc a) ∧
      (∀ k, ((t.room r).brick k).hod = ((s.room r).brick k).hod) ∧ (t.room r).pantry = (s.room r).pantry ∧
      (t.room r).foreman = passed (s.room r).foreman ∧ OnlyRoom s t r) ∧
  (∀ (x : Room) (d : Desc) (row a : Nat), d.fmt = 0x07 →
     (x.foldCell d row a).word =
       ((List.range 15).map fun k => Store.get 0 (x.brick (16 * row + k + 1)).acc a).foldl fp32Add
         (Store.get 0 (x.brick (16 * row)).acc a)) ∧
  (∀ (x : Room) (d : Desc) (row a : Nat), d.fmt = 0x08 →
     (x.foldCell d row a).word =
       ((List.range 15).map fun k => Store.get 0 (x.brick (16 * row + k + 1)).acc a).foldl
         (fun p q => BitVec.ofInt 32 (max (-2147483648) (min 2147483647 (p.toInt + q.toInt))))
         (Store.get 0 (x.brick (16 * row)).acc a)) ∧
  (∀ (x : Room) (i : Image) (seed : W64) (ordinal lanes now j k : Nat),
    (x.launch i seed ordinal lanes now).laneMap = lanesMapOf x lanes ∧
    (x.laneMap = lanesMapOf x lanes → j < x.laneMap.length → k < x.laneMap.length → x.brickOf j = x.brickOf k → j = k)) ∧
  (∀ (s : State) (r : Nat) (g : Guard) (td : BitVec 4) (d : Desc), Executes s r g → d = (s.room r).foreman.desc td →
    d.check (s.portion r) = none →
    ((d.space ≠ 3 ∨ d.fmt ≠ 0x07 ∧ d.fmt ≠ 0x08) →
      exec (.fold r g td) s = .next (s.keepQueue (s.programFault r 0x03))) ∧
    (d.space = 3 → (d.fmt = 0x07 ∨ d.fmt = 0x08) → 64 < d.base + d.rows * d.cols →
      exec (.fold r g td) s = .next (s.keepQueue (s.programFault r 0x04)))) ∧
  ∀ (x : Room) (d : Desc) (lanes row a b : Nat), Store.wf ({} : Brick) x.bricks = true →
    (∀ k, Store.wf (0 : W32) (x.brick k).acc = true) →
    (∀ j k, j < lanes → k < lanes → x.brickOf j = x.brickOf k → j = k) →
    (row < lanes / 16 → d.base ≤ a → a < d.base + d.rows * d.cols →
      Store.get 0 ((x.fold d lanes).brick (16 * row + 15)).acc a = (x.foldCell d row a).word) ∧
    (b < lanes → (b % 16 ≠ 15 ∨ lanes / 16 ≤ b / 16 ∨ a < d.base ∨ d.base + d.rows * d.cols ≤ a) →
      Store.get 0 ((x.fold d lanes).brick b).acc a = Store.get 0 (x.brick b).acc a) ∧
    (∀ k, ((x.fold d lanes).brick k).hod = (x.brick k).hod) ∧ (x.fold d lanes).pantry = x.pantry ∧
    (x.fold d lanes).foreman = x.foreman ∧ (x.fold d lanes).laneMap = x.laneMap

/-- CONVA and CONVT whose checks hold and whose slot is open or can be opened convert their tile, count into the slot
and close it; nothing outside the Room changes. UPLD writes COLS words of the micro-program store (R93 to R96, R109,
log entry 22). -/
def Obligations.ConversionsComplete : Prop :=
  ∀ (s : State) (r : Nat) (g : Guard) (td ta tb : BitVec 4) (rs mode : BitVec 5) (d a b : Desc) (c : CourseState) (e : Nat),
    Executes s r g → GoesOn s r → d = (s.room r).foreman.desc td → a = (s.room r).foreman.desc ta →
    b = (s.room r).foreman.desc tb → e = ((s.room r).foreman.reg rs).toNat % 256 →
    (convaFault d a b mode (s.lanes r) (s.portion r) = none → (s.room r).course.openSlot d.layer d.tile = some c →
      exec (.conva r g td ta tb mode) s = .next (didRoom s r fun x => { x with course := c }.conva d a b mode (s.lanes r))) ∧
    (convtFault d a mode (s.portion r) = none → (s.room r).course.openSlot d.layer d.tile = some c →
      exec (.convt r g td ta mode) s = .next (didRoom s r fun x => { x with course := c }.convt d a mode (s.lanes r))) ∧
    (a.check (s.portion r) = none → a.space = 0 → e + a.cols ≤ 256 → a.base + 8 * a.cols ≤ 0x100000 - s.portion r →
      ∃ t, exec (.upld r g ta rs) s = .next t ∧
        (Store.wf (0 : W64) (s.room r).microStore = true → ∀ k < a.cols, Store.get 0 (t.room r).microStore (e + k) =
          BitVec.ofNat 64 (leNat (Store.range 0 (s.room r).pantry (a.base + 8 * k) 8))) ∧
        (∀ k, k < e ∨ e + a.cols ≤ k → Store.get 0 (t.room r).microStore k = Store.get 0 (s.room r).microStore k) ∧
        t.room r = { s.room r with microStore := (t.room r).microStore, foreman := passed (s.room r).foreman } ∧
        OnlyRoom s t r)

/-- PLUMB goes on at once when the layer is not sampled, and judges the stored tile from the reference weights that it
reads when it is; without a closed slot of the tile's key it faults (R56 to R59, R105). CONVA and CONVT, which store and
close that tile, complete when their checks hold and the tile's slot is open or fewer than 16 slots are: the slot is then
closed, and no register but the program counter, no accumulator and nothing outside the Room changes; CONVA without KEEP
into the Pantry leaves there each lane's converted block, row by row, and every Hod as it stood; CONVT of a tile of one
unscaled row leaves there that row, converted on lane 0 (R93 to R96). -/
def Obligations.PlumbChecks : Prop :=
  (∀ (s : State) (r : Nat) (g : Guard) (td ta tb : BitVec 4) (mode : BitVec 5) (d a b : Desc), Executes s r g → GoesOn s r →
    d = (s.room r).foreman.desc td → a = (s.room r).foreman.desc ta → b = (s.room r).foreman.desc tb →
    ((∃ x ∈ (s.room r).course.slots, x.layer = d.layer ∧ x.tile = d.tile ∧ x.isOpen = true) ∨
      ((s.room r).course.slots.filter (·.isOpen)).length < 16) →
    Store.wf ({} : Brick) (s.room r).bricks = true →
    (convaFault d a b mode (s.lanes r) (s.portion r) = none → ∃ t, exec (.conva r g td ta tb mode) s = .next t ∧
      (∃ x ∈ (t.room r).course.slots, x.layer = d.layer ∧ x.tile = d.tile ∧ x.isOpen = false) ∧
      (∀ k, ((t.room r).brick k).acc = ((s.room r).brick k).acc) ∧ (t.room r).foreman = passed (s.room r).foreman ∧
      (d.space = 0 → mode.getLsbD 2 = false → (t.room r).bricks = (s.room r).bricks ∧
        (t.room r).pantry = (List.range d.rows).foldl (fun m i => Store.setRange 0 m (d.rowAddr i)
          (packRow (fmtWidth d.fmt) (gatherRow a d.cols (mode.getLsbD 1)
            (fun l => if l ∈ convLanes (s.lanes r) (mode.getLsbD 1) then
                (convLane d a (mode.toNat / 8) ((s.room r).brick l) (Store.get 0 (s.room r).rng l)).1 else []) i)))
          (s.room r).pantry) ∧
      OnlyRoom s t r) ∧
    (convtFault d a mode (s.portion r) = none → ∃ t, exec (.convt r g td ta mode) s = .next t ∧
      (∃ x ∈ (t.room r).course.slots, x.layer = d.layer ∧ x.tile = d.tile ∧ x.isOpen = false) ∧
      (t.room r).bricks = (s.room r).bricks ∧ (t.room r).foreman = passed (s.room r).foreman ∧
      (d.rows = 1 → fmtBlock d.fmt = 0 → (t.room r).pantry = Store.setRange 0 (s.room r).pantry (d.rowAddr 0)
        (packRow (fmtWidth d.fmt) (convertRow d.fmt (mode.toNat / 8) d.top
          (blocksOf d.cols (d.cols + 1) ((a.decodeRow (a.readRow (s.room r).pantry 0)).map (·.1)))
          (Store.get 0 (s.room r).rng 0)).2.1)) ∧
      OnlyRoom s t r)) ∧
  ∀ (s u : State) (r : Nat) (g : Guard) (td ta tb : BitVec 4) (d a b : Desc) (slot : GuardSlot) (e : LadderEntry)
    (w : List Byte), Executes s r g → GoesOn s r → d = (s.room r).foreman.desc td → a = (s.room r).foreman.desc ta →
    b = (s.room r).foreman.desc tb → d.check (s.portion r) = none →
    (((s.room r).course.slot? d.layer d.tile).all (·.isOpen) = true →
      exec (.plumb r g td ta tb) s = .next (s.keepQueue (s.programFault r 0x0C))) ∧
    ((s.room r).course.slot? d.layer d.tile = some slot → slot.isOpen = false →
      ((s.ladder? r d.layer = none ∨ s.ladder? r d.layer = some e ∧ e.plumbRate = 15) →
        exec (.plumb r g td ta tb) s = .next (did s r fun f => f)) ∧
      (s.ladder? r d.layer = some e → e.plumbRate ≠ 15 → plumbFault d a b e (s.lanes r) (s.portion r) = none →
        (plumbSampled (((s.stepOf r).map (·.desc.seed)).getD 0) d.layer d.tile e.plumbRate = false →
          exec (.plumb r g td ta tb) s = .next (did s r fun f => f)) ∧
        (plumbSampled (((s.stepOf r).map (·.desc.seed)).getD 0) d.layer d.tile e.plumbRate = true →
          State.charged (dmaPort r) (s.ctxOf r) false
            ((List.range b.rows).map fun n => ((e.refAddr + b.rowAddr n) % 2 ^ 64, b.rowBytes))
            (s.readMany (dmaPort r) (s.ctxOf r)
              ((List.range b.rows).map fun n => ((e.refAddr + b.rowAddr n) % 2 ^ 64, b.rowBytes)) false) = (.ok w, u) →
          (u.room r).foreman = (s.room r).foreman →
          exec (.plumb r g td ta tb) s = .next (s.keepQueue (didRoom u r fun x => x.judge d a b e (s.lanes r) w)))))

/-- The lane generator: three shifts, of which none can be undone into another state; a draw of stochastic rounding
advances it once and gives bits 63 to 48, and an exact value draws nothing; the state at the start of a Course is not
0; a tile is sampled by three steps of the same generator (R48 to R50, R56). -/
def Obligations.LaneGenerators : Prop :=
  ∀ (g h seed : W64) (course ordinal lane layer tile rate : Nat),
    (∀ x y, x = g ^^^ (g <<< 13) → y = x ^^^ (x >>> 7) → xorshift g = y ^^^ (y <<< 17)) ∧
    (xorshift g = xorshift h → g = h) ∧ (g ≠ 0 → xorshift g ≠ 0) ∧
    takeRounding 2 false g = (.sr ((xorshift g).extractLsb' 48 16).toNat, xorshift g) ∧
    takeRounding 2 true g = (.rtz, g) ∧ laneSeed seed course ordinal lane ≠ 0 ∧
    (plumbSampled seed layer tile rate = true ↔
      (xorshift (xorshift (xorshift (seed ^^^ BitVec.ofNat 64 (layer * 2 ^ 32) ^^^ BitVec.ofNat 64 tile)))).toNat % 2 ^ rate = 0)

/-- The Step-up trigger of a layer at the commit: when it fires, on totals that saturate at 32 bits, what it writes,
and what it reports; a rung never falls (R55, R64). -/
def Obligations.StepUpTriggers : Prop :=
  ∀ (st : Step) (t : Store LayerTotals) (now k : Nat) (e : LadderEntry) (x : LayerTotals),
    st.ladder[k]? = some e → x = Store.get {} t k → e.curRung ≤ e.maxRung →
    (e.fires x = true ↔ bitOf e.ctrl 7 = true ∧ ((bitOf e.ctrl 6 = true ∧ 0 < x.breaches) ∨
      (bitOf e.ctrl 5 = true ∧ e.satLimit < min x.sat (2 ^ 32 - 1)) ∨ (bitOf e.ctrl 4 = true ∧ e.poisonLimit < min x.poison (2 ^ 32 - 1)))) ∧
    (e.fires x = true → e.curRung < e.maxRung →
      ((st.ladderBase + 128 * k + 2, 1), [BitVec.ofNat 8 (e.curRung + 1)]) ∈ ladderWrites st t now ∧
      bitOf (guardSummary st t) 30 = true) ∧
    (e.fires x = true → e.curRung = e.maxRung → bitOf (guardSummary st t) 29 = true) ∧
    ((e.fires x = false ∨ e.curRung = e.maxRung) →
      ∀ b, ((st.ladderBase + 128 * k + 2, 1), b) ∉ ladderWrites st t now) ∧
    ((∀ (j : Nat) (f : LadderEntry), st.ladder[j]? = some f → f.fires (Store.get {} t j) = false) →
      bitOf (guardSummary st t) 30 = false ∧ bitOf (guardSummary st t) 29 = false)

/-! ### Micro-programs (R106 to R109) -/

/-- The two-source and three-source micro-operations: on every present lane, COUNT + 1 elements in ascending order,
with the MOD bits holding operands still; then the sequence goes on (R107). -/
def Obligations.MicroArithmetic : Prop :=
  ∀ (s : State) (r : Nat) (d a b c : BitVec 6) (mod : BitVec 4) (count : BitVec 8) (q : MicroSeq), isRoom r = true →
    (s.room r).foreman.run = .running → (s.room r).micro.next = .ok q →
    (∀ e ∈ [(Instr.uopAdd r d a b mod count, fp32Add), (.uopMul r d a b mod count, fp32Mul),
        (.uopMax r d a b mod count, fp32Max), (.uopMin r d a b mod count, fp32Min)],
      (holding mod 0 d).fits count = true → (holding mod 1 a).fits count = true → (holding mod 2 b).fits count = true →
      exec e.1 s = .next (s.modRoom r fun x => { x.mapAcc (s.lanes r) fun _ => elements (holding mod 0 d) count
        (fun v i => e.2 (v ((holding mod 1 a).at i)) (v ((holding mod 2 b).at i))) with micro := q })) ∧
    ((holding mod 0 d).fits count = true → (holding mod 1 a).fits count = true → (holding mod 2 b).fits count = true →
      (holding mod 3 c).fits count = true →
      exec (.uopFma r d a b c mod count) s = .next (s.modRoom r fun x =>
        { x.mapAcc (s.lanes r) fun _ => elements (holding mod 0 d) count (fun v i => fp32Fma (v ((holding mod 1 a).at i))
          (v ((holding mod 2 b).at i)) (v ((holding mod 3 c).at i))) with micro := q })) ∧
    (d.toNat + count.toNat ≤ 63 → a.toNat + count.toNat ≤ 63 → b.toNat + count.toNat ≤ 63 →
      exec (.uopIadd r d a b mod count) s = .next (s.modRoom r fun x => { x.mapAcc (s.lanes r) fun _ =>
        elements ⟨d, false⟩ count (fun v i => v (a.toNat + i) + v (b.toNat + i)) with micro := q }) ∧
      exec (.uopImul r d a b mod count) s = .next (s.modRoom r fun x => { x.mapAcc (s.lanes r) fun _ =>
        elements ⟨d, false⟩ count (fun v i => v (a.toNat + i) * v (b.toNat + i)) with micro := q }) ∧
      (mod.toNat ≤ 5 → c.toNat + count.toNat ≤ 63 →
        exec (.uopSel r d a b c mod count) s = .next (s.modRoom r fun x => { x.mapAcc (s.lanes r) fun _ =>
          elements ⟨d, false⟩ count (fun v i => if selHolds mod.toNat (v (a.toNat + i)) = some true then v (b.toNat + i)
            else v (c.toNat + i)) with micro := q })))

/-- FUNC, ICVT, LD, ST, LANE and NOP on every present lane; then the sequence goes on (R107, R108). -/
def Obligations.MicroUnaryAndHod : Prop :=
  ∀ (s : State) (r : Nat) (d a : BitVec 6) (mod : BitVec 4) (haddr : BitVec 14) (count : BitVec 8) (q : MicroSeq)
    (f : W32 → W32), isRoom r = true → (s.room r).foreman.run = .running → (s.room r).micro.next = .ok q →
    exec (.uopNop r) s = .next (s.modRoom r ({ · with micro := q })) ∧
    exec (.uopLane r d mod) s = .next (s.modRoom r fun x => { x.mapAcc (s.lanes r) fun l acc => Store.set 0 acc d.toNat
      (if mod.getLsbD 0 then intToFp32 (BitVec.ofNat 32 l) else BitVec.ofNat 32 l) with micro := q }) ∧
    (d.toNat + count.toNat ≤ 63 → a.toNat + count.toNat ≤ 63 →
      (funcOf mod.toNat = some f → exec (.uopFunc r d a mod count) s = .next (s.modRoom r fun x =>
        { x.mapAcc (s.lanes r) fun _ => elements ⟨d, false⟩ count (fun v i => f (v (a.toNat + i))) with micro := q })) ∧
      (icvtOf mod.toNat = some f → exec (.uopIcvt r d a mod count) s = .next (s.modRoom r fun x =>
        { x.mapAcc (s.lanes r) fun _ => elements ⟨d, false⟩ count (fun v i => f (v (a.toNat + i))) with micro := q }))) ∧
    (d.toNat + count.toNat ≤ 63 → (s.room r).hodFaults (s.lanes r) mod haddr a count = none →
      exec (.uopLd r d a mod haddr count) s = .next (s.modRoom r fun x => { (List.range (s.lanes r)).foldl (fun x l =>
        x.modBrick l fun b => loadWords (hodAddress mod haddr a b.acc).toNat d count b) x with micro := q }) ∧
      exec (.uopSt r d a mod haddr count) s = .next (s.modRoom r fun x => { (List.range (s.lanes r)).foldl (fun x l =>
        x.writeHod l (hodAddress mod haddr a (x.brick l).acc).toNat (storedWords d count (x.brick l).acc)) x with
          micro := q }))

/-- The sequence of a micro-program: LOOP opens a loop of COUNT + 1 passes up to TARGET, two deep; END completes the
VEC; VEC runs the micro-program from its entry (R107, R109). UPLD of a tile of the scratch portion completes: it fills
COLS words of the store from its entry on, and changes nothing else of the Room but the program counter (R109, log entry
22). -/
def Obligations.MicroSequence : Prop :=
  (∀ (s : State) (r : Nat) (g : Guard) (ta : BitVec 4) (rs : BitVec 5) (a : Desc) (e : Nat), Executes s r g → GoesOn s r →
    a = (s.room r).foreman.desc ta → e = ((s.room r).foreman.reg rs).toNat % 256 →
    a.check (s.portion r) = none → a.space = 0 → e + a.cols ≤ 256 → a.base + 8 * a.cols ≤ 0x100000 - s.portion r →
    Store.wf (0 : W64) (s.room r).microStore = true → ∃ t, exec (.upld r g ta rs) s = .next t ∧
      (∀ k < a.cols, Store.get 0 (t.room r).microStore (e + k) =
        BitVec.ofNat 64 (leNat (Store.range 0 (s.room r).pantry (a.base + 8 * k) 8))) ∧
      (∀ k, k < e ∨ e + a.cols ≤ k → Store.get 0 (t.room r).microStore k = Store.get 0 (s.room r).microStore k) ∧
      t.room r = { s.room r with microStore := (t.room r).microStore, foreman := passed (s.room r).foreman } ∧
      OnlyRoom s t r) ∧
  ∀ (s : State) (r : Nat) (g : Guard) (rs : BitVec 5) (count target : BitVec 8) (y : Room), isRoom r = true →
    (s.room r).foreman.run = .running →
    exec (.uopEnd r) s = .next (s.modRoom r ({ · with micro := { pc := 0, loops := [], active := false } })) ∧
    ((s.room r).micro.pc < target.toNat → (s.room r).micro.loops.length < 2 →
      exec (.uopLoop r count target) s = .next (s.modRoom r fun x => { x with
        micro := { x.micro with pc := x.micro.pc + 1,
                                loops := ⟨x.micro.pc + 1, target.toNat, count.toNat + 1⟩ :: x.micro.loops } })) ∧
    (target.toNat ≤ (s.room r).micro.pc ∨ 2 ≤ (s.room r).micro.loops.length →
      exec (.uopLoop r count target) s = .next (s.keepQueue (s.programFault r 0x09))) ∧
    ((s.room r).foreman.guarded g = true → GoesOn s r →
      Room.runMicro (s.lanes r) microFuel
        { s.room r with micro := ⟨((s.room r).foreman.reg rs).toNat % 256, [], true⟩ } = .ok y →
      exec (.vec r g rs) s = .next (s.modRoom r fun _ => y.mapForeman passed))

/-- An operand that would pass a63, a reserved MOD code and a misaligned Hod access fault, and change no lane (R109).
-/
def Obligations.MicroFaults : Prop :=
  ∀ (s : State) (r : Nat) (d a b c : BitVec 6) (mod : BitVec 4) (haddr : BitVec 14) (count : BitVec 8) (k : Nat),
    isRoom r = true → (s.room r).foreman.run = .running →
    (63 < d.toNat + count.toNat →
      ∀ i ∈ [Instr.uopIadd r d a b mod count, .uopImul r d a b mod count, .uopLd r d a mod haddr count,
          .uopSt r d a mod haddr count, .uopSel r d a b c mod count, .uopFunc r d a mod count, .uopIcvt r d a mod count],
        exec i s = .next (s.keepQueue (s.programFault r 0x09))) ∧
    (9 < mod.toNat → exec (.uopFunc r d a mod count) s = .next (s.keepQueue (s.programFault r 0x09))) ∧
    (2 < mod.toNat → exec (.uopIcvt r d a mod count) s = .next (s.keepQueue (s.programFault r 0x09))) ∧
    (5 < mod.toNat → exec (.uopSel r d a b c mod count) s = .next (s.keepQueue (s.programFault r 0x09))) ∧
    (d.toNat + count.toNat ≤ 63 → (s.room r).hodFaults (s.lanes r) mod haddr a count = some k →
      exec (.uopLd r d a mod haddr count) s = .next (s.keepQueue (s.programFault r k)) ∧
      exec (.uopSt r d a mod haddr count) s = .next (s.keepQueue (s.programFault r k)))

/-! ### Gutters, barriers and the Course (R99 to R104, R136 to R142) -/

/-- A GSEND whose checks hold, in a Room that is no listener and whose round has not failed and has the same ORDER or none
yet, joins the round: the round count rises, the send queues on its channel, and the contribution is held; it counts as
arrived at once when its channel is idle, and later when the channel's head is of an earlier instruction (R136, R137,
R140; log entry 25). A listener's only counts its round (R340). -/
def Obligations.GutterSend : Prop :=
  ∀ (s : State) (r : Nat) (g : Guard) (ta : BitVec 4) (rs mode : BitVec 5) (n copy tree k : Nat) (d : Desc) (o : Bool),
    Executes s r g → GoesOn s r → n = (s.suiteOf r).getD 0 → copy = s.copyIdx r →
    tree = ((s.room r).foreman.reg rs).toNat % 4096 → d = (s.room r).foreman.desc ta → o = mode.getLsbD 0 →
    k = Store.get 0 (s.room r).foreman.sends tree →
    gutterFault d (s.tree n tree) ((s.tree n tree).localNode (s.ordinalOf r)).isSome o (s.det r) (s.portion r) = none →
    (s.listener r = true → exec (.gsend r g ta rs mode) s = .next (did s r fun f =>
      { f with sends := Store.set 0 f.sends tree (k + 1) })) ∧
    (s.listener r = false → ((s.suite n).round copy tree k).failed = false →
    (((s.suite n).round copy tree k).order = none ∨ ((s.suite n).round copy tree k).order = some o) →
    ∃ t, exec (.gsend r g ta rs mode) s = .next t ∧
      t.room r = { s.room r with
        foreman := passed { (s.room r).foreman with sends := Store.set 0 (s.room r).foreman.sends tree (k + 1) }
        gutter := (s.room r).gutter ++
          [{ isSend := true, tree, round := k, tile := d, order := o, piecesLeft := (s.tree n tree).pieces }] } ∧
      ((t.suite n).round copy tree k).order = some o ∧
      ((s.room r).headOf (tree % 8) = none →
        2 * ((s.tree n tree).localNode (s.ordinalOf r)).getD 0 ∉ ((s.suite n).round copy tree k).arrived →
        ((t.suite n).round copy tree k).arrived = ((s.suite n).round copy tree k).arrived ++
          [2 * ((s.tree n tree).localNode (s.ordinalOf r)).getD 0]) ∧
      (∀ x, (s.room r).headOf (tree % 8) = some x → (x.isSend = false ∨
          2 * ((s.tree n x.tree).localNode (s.ordinalOf r)).getD 0 ∈ ((s.suite n).round copy x.tree x.round).arrived) →
        ((t.suite n).round copy tree k).arrived = ((s.suite n).round copy tree k).arrived) ∧
      ((t.suite n).round copy tree k).inputs = Store.set [] ((s.suite n).round copy tree k).inputs (s.ordinalOf r)
        (d.gatherBytes (s.room r).pantry) ∧
      (∀ q, q ≠ r → t.room q = s.room q) ∧ (∀ m, m ≠ n → t.suite m = s.suite m) ∧
      { t with rooms := s.rooms, suites := s.suites } = s)

/-- A GRECV whose checks hold and whose guard slot is open or can be opened closes that slot, queues on its channel in
program order and completes what can complete (of a round that has not failed, with the same ORDER); with nothing else
queued and its round's result not whole, it only waits on its channel while the Foreman goes on (log entry 25). GWAIT goes on
when its channels are idle and else waits (R136, R137, R139). -/
def Obligations.GutterReceiveAndWait : Prop :=
  ∀ (s u : State) (r : Nat) (g : Guard) (td : BitVec 4) (rs mode : BitVec 5) (imm : BitVec 16) (n copy tree k : Nat) (d : Desc)
    (o : Bool) (c : CourseState), Executes s r g → GoesOn s r → n = (s.suiteOf r).getD 0 → copy = s.copyIdx r →
    tree = ((s.room r).foreman.reg rs).toNat % 4096 → d = (s.room r).foreman.desc td → o = mode.getLsbD 0 →
    k = Store.get 0 (s.room r).foreman.recvs tree →
    (gutterFault d (s.tree n tree) ((s.tree n tree).receives (s.ordinalOf r)) o (s.det r) (s.portion r) = none →
      (s.room r).course.openSlot d.layer d.tile = some c → ((s.suite n).round copy tree k).failed = false →
      ((s.suite n).round copy tree k).order = some o →
      u = (s.modRoom r fun x => { x with
        foreman := { x.foreman with recvs := Store.set 0 x.foreman.recvs tree (k + 1) }
        gutter := x.gutter ++ [{ isSend := false, tree, round := k, tile := d, order := o, piecesLeft := 0
                                 slot := c.numberOf fun y => y.layer == d.layer && y.tile == d.tile && y.isOpen }]
        course := c.closeSlot d.layer d.tile }) →
      (((u.deliver n copy r).room r).foreman.run = .running →
        exec (.grecv r g td rs mode) s = .next (s.keepQueue ((u.deliver n copy r).advance r))) ∧
      ((s.room r).gutter = [] → ((s.suite n).round copy tree k).whole (s.tree n tree) (s.tree n tree).root = false →
        u.deliver n copy r = u ∧ exec (.grecv r g td rs mode) s = .next (u.modForeman r passed))) ∧
    (gutterFault d (s.tree n tree) ((s.tree n tree).receives (s.ordinalOf r)) o (s.det r) (s.portion r) = none →
      (s.room r).course.openSlot d.layer d.tile = none →
      exec (.grecv r g td rs mode) s = .next (s.keepQueue (s.programFault r 0x0B))) ∧
    ((∀ x ∈ (s.room r).gutter, bitOf (imm.toNat % 256) (x.tree % 8) = false) →
      exec (.gwait r g imm) s = .next (did s r fun f => f)) ∧
    ((∃ x ∈ (s.room r).gutter, bitOf (imm.toNat % 256) (x.tree % 8) = true) →
      exec (.gwait r g imm) s = .next (s.modForeman r ({ · with run := .waitGutter (BitVec.ofNat 8 (imm.toNat % 256)) })))

/-- A node reduces a piece once all its inputs are present and the paths to it work, and nothing before: its output is the left fold of its
inputs, or its one input where the tree only copies; the elements that overflowed are remembered, and a contribution's
piece is taken from its Room (R138, R139, R142). -/
def Obligations.GutterReduce : Prop :=
  ∀ (s u : State) (suite copy tree k node piece : Nat) (v : TreeNode) (ins : List (List Byte)) (bytes : List Byte)
    (ws : List W32) (ovf : List Bool), isSuite suite = true →
    isCopy copy = true → isTree tree node piece = true → (s.tree suite tree).nodes[node]? = some v →
    (nodeInputs ((s.suite suite).round copy tree k) (s.tree suite tree) node piece = none →
      exec (.gutterPieceReduce suite copy tree k node piece) s = .next s) ∧
    (v.port = 0 → piece < (s.tree suite tree).pieces → ((s.suite suite).round copy tree k).out node piece = none →
      nodeInputs ((s.suite suite).round copy tree k) (s.tree suite tree) node piece = some ins →
      s.nodeReady suite copy tree k node piece = true →
      (v.isLocal = true → s.sendAtHead suite copy tree k v.ordinal = true) →
      foldPieces (s.tree suite tree).fmt (s.tree suite tree).op ins = (ws, ovf) →
      bytes = (if (s.tree suite tree).op = 3 then ins.headD [] else bytesOf ws) →
      u = s.modSuite suite (·.modRound copy tree k fun x => { x with
        overflow := x.overflow ++ ((List.range 16).filterMap fun i =>
          if ovf[i]? = some true ∧ (s.tree suite tree).op = 0 then some (16 * piece + i) else none).filter
            fun e => !x.overflow.contains e }) →
      exec (.gutterPieceReduce suite copy tree k node piece) s = .next (s.keepQueue
        (if v.isLocal then (u.putOut suite copy tree k node piece bytes).tookPiece suite copy tree k v.ordinal
         else u.putOut suite copy tree k node piece bytes)))

/-- The fold of a piece: its inputs from left to right, element by element, each step one operation (R138). -/
def Obligations.GutterFoldOrder : Prop :=
  ∀ (f o : Nat) (x : List Byte) (xs : List (List Byte)), (foldPieces f o (x :: xs)).1 =
    xs.foldl (fun acc y => List.zipWith (fun p q => (gutterOp f o p q).1) acc (wordsOf y)) (wordsOf x)

/-- COURSE with nothing of the Room outstanding, no open slot and no checksum flag in the Course ends the Course: the accumulators are cleared, the
digest is handed over, the next Course starts, and the Room goes on, or waits for a confirmation that is due; COMMIT
ends its part of the step; DIGEST folds a word into the digest (R96, R100, R102, R104, R335). With a flag, in a step that
compares no copies, the Course's end kills the step (R336, R369). While an earlier
instruction of the Room is outstanding COURSE and COMMIT wait, and with a slot still open they fault (R96, R100,
R190). -/
def Obligations.CourseBoundary : Prop :=
  (∀ (s : State) (r : Nat) (g : Guard) (imm : BitVec 16) (ra : BitVec 5), Executes s r g → GoesOn s r →
     exec (.digest r g ra) s = .next (didRoom s r fun x => { x with course := x.course.addWord (x.foreman.reg ra) }) ∧
     ((s.room r).quiet = true → (∀ x ∈ (s.room r).course.slots, x.isOpen = false) →
       (s.room r).course.flagged = [] →
       (∃ t, exec (.course r g imm) s = .next t ∧ (t.room r).course.ordinal = (s.room r).course.ordinal + 1 ∧
         (t.room r).course.start = s.time ∧ (t.room r).course.slots = [] ∧ (t.room r).course.log = [] ∧
         (∀ b, (Store.get {} (t.room r).bricks b).acc = []) ∧
         (t.room r).digests.length = (s.room r).digests.length + 1 ∧
         (t.room r).foreman.pc = (passed (s.room r).foreman).pc ∧ (t.room r).foreman.s = (s.room r).foreman.s ∧
         (t.room r).pantry = (s.room r).pantry ∧
         (s.confirmed r = none → (t.room r).foreman.run = .running) ∧
         (∀ c, s.confirmed r = some c → c < (s.room r).course.ordinal →
           ∃ k, (t.room r).foreman.run = .confirm k ∧ (s.room r).course.ordinal ≤ k)) ∧
       ∃ t, exec (.commit r g) s = .next t ∧ (t.room r).foreman.run = .committed ∧
         (t.room r).digests.length = (s.room r).digests.length + 1 ∧ (t.room r).pantry = (s.room r).pantry)) ∧
  ∀ (s : State) (r : Nat) (g : Guard) (imm : BitVec 16), Executes s r g →
    (GoesOn s r → (s.room r).quiet = true → (∀ x ∈ (s.room r).course.slots, x.isOpen = false) → s.confirmed r = none →
      exec (.course r g imm) s = .next (s.keepQueue (((s.endCourse r (passed (s.room r).foreman)).modRoom r
        Room.proceed).killFlagged r ((s.room r).flaggedBricks r)))) ∧
    ((s.room r).quiet = false → exec (.course r g imm) s = .next s ∧ exec (.commit r g) s = .next s) ∧
    ((s.room r).quiet = true → (∃ x ∈ (s.room r).course.slots, x.isOpen = true) →
      exec (.course r g imm) s = .next (s.keepQueue (s.programFault r 0x0C)) ∧
      exec (.commit r g) s = .next (s.keepQueue (s.programFault r 0x0C)))

/-- BARRIER counts the arrival and stalls the Room under Grout, whose level is a free value from 0 to 16 (log entry 89),
and the last arrival of the copy sets the release time;
BARRIER_RELEASE at or after that time lets every waiting Room of the copy go on, and before it does nothing (R99,
R328, R330). The release of a waiting Room: Grout stops, its time at the barrier is counted, and its program goes on
(R328, R329). -/
def Obligations.Barriers : Prop :=
  (∀ (s : State) (r : Nat) (g : Guard) (imm : BitVec 12) (n copy b k at' : Nat), Executes s r g →
     n = (s.suiteOf r).getD 0 → copy = s.copyIdx r → b = imm.toNat % 16 →
     k = Store.get 0 (s.room r).foreman.barriers b + 1 →
     ((∃ q ∈ s.performers n copy, q ≠ r ∧ Store.get 0 (s.room q).foreman.barriers b < k) →
       ∃ t e, exec (.barrier r g imm) s = .next t ∧ e ≤ 16 ∧ t.room r = { s.room r with
         grout := some { since := s.time, level := e, taper := 1000 * s.dictGet 0x2430 1 }
         foreman := { (s.room r).foreman with run := .barrier b, barriers := Store.set 0 (s.room r).foreman.barriers b k } } ∧
         (∀ q, q ≠ r → t.room q = s.room q) ∧ t.suites = s.suites ∧ t.hbm = s.hbm ∧ t.dict = s.dict) ∧
     ((∀ q ∈ s.performers n copy, q ≠ r → k ≤ Store.get 0 (s.room q).foreman.barriers b) →
       (∀ x ∈ (s.suite n).releases, ¬ (x.1 = copy ∧ x.2.1 = b)) → Store.wf ({} : Room) s.rooms = true →
       ∃ t, exec (.barrier r g imm) s = .next t ∧ (t.room r).foreman =
         { (s.room r).foreman with run := .barrier b, barriers := Store.set 0 (s.room r).foreman.barriers b k } ∧
         t.suite n = { s.suite n with releases := (s.suite n).releases ++ [(copy, b, s.releaseTime n)] } ∧
         (∀ m, m ≠ n → t.suite m = s.suite m) ∧ (∀ q, q ≠ r → (t.room q).foreman = (s.room q).foreman) ∧
         t.hbm = s.hbm ∧ t.dict = s.dict) ∧
     (isSuite n = true → isCopy copy = true →
       (s.suite n).releases.find? (fun x => x.1 == copy && x.2.1 == b) = some (copy, b, at') →
       (s.time < at' → exec (.barrierRelease n copy b) s = .next s) ∧
       (at' ≤ s.time → ∀ u, u = s.modSuite n (fun x => { x with
           releases := x.releases.filter fun y => !(y.1 == copy && y.2.1 == b) }) →
         exec (.barrierRelease n copy b) s = .next (s.keepQueue
           (((u.suite n).members copy ++ (u.suite n).spareRooms copy).foldl (fun s q => s.releaseRoom q b) u))))) ∧
  ∀ (s : State) (r b : Nat) (e : Grout), (s.room r).foreman.run = .barrier b → GoesOn s r →
    ((s.room r).grout = some e →
      s.releaseRoom r b = (s.bump 0x2430 4 64 (s.time - e.since)).modRoom r fun x =>
        { x with grout := none, foreman := passed { x.foreman with run := .running } }) ∧
    ((s.room r).grout = none → s.releaseRoom r b = s.modForeman r fun f => passed { f with run := .running })

/-! ### Faults, the dictionary's downloads, contexts and queues (R116, R199 to R207, R273, R289) -/

/-- A program fault of a Room of a SIMPLEX step whose commit has not begun kills the step and faults its context with the fault's code, the Room
and the instruction; the descriptor stays at the head of its queue; the context table is in canonical form, as every
change of it leaves it. A listener's fault, and a fault of one of two copies that compare, stops only that Room's
Foreman (R116, R117, R203, R340). A killed step leaves its Suite without a step, counts in the Suite and in its queue,
and its descriptor stays at the head of the queue (R273). -/
def Obligations.ProgramFaults : Prop :=
  (∀ (s : State) (r code n : Nat) (m : Member) (st : Step) (x : Context), (s.room r).member = some m → m.suite = n →
     (s.suite n).step = some st → s.ctx? st.ctx = some x →
     (Store.wf none s.contexts = true → s.listener r = false → (s.suite n).compares = false → st.committing = false →
       x.st = .opened → x.nextRoot = none → (x.queue st.queue).st = .opened → (s.house x.household).st = .active →
       ((s.programFault r code).suite n).step = none ∧
       ∃ y, (s.programFault r code).ctx? st.ctx = some y ∧ y.st = .faulted ∧
         y.fault = faultWord code st.queue (some (r, (s.room r).foreman.pc)) st.count ∧
         (y.queue st.queue).head = (x.queue st.queue).head ∧ (y.queue st.queue).kills = satAdd 16 (x.queue st.queue).kills 1) ∧
     ((s.listener r = true ∨ (s.suite n).compares = true ∧
         ∀ q ∈ s.twins r, q ≠ r ∧ hasFaulted (s.room q) (s.room r).course.ordinal = false) →
       s.programFault r code = s.modForeman r ({ · with run := .faulted code }))) ∧
  ∀ (s : State) (n : Nat) (st : Step) (x : Context), (s.suite n).step = some st → s.ctx? st.ctx = some x →
    x.nextRoot = none → x.st ≠ .closing → (x.queue st.queue).st = .opened →
    ((s.killStep n).suite n).step = none ∧ ((s.killStep n).suite n).killed = satAdd 64 (s.suite n).killed 1 ∧
      ∃ y, (s.killStep n).ctx? st.ctx = some y ∧ (y.queue st.queue).head = (x.queue st.queue).head ∧
        (y.queue st.queue).tail = (x.queue st.queue).tail ∧
        (y.queue st.queue).kills = satAdd 16 (x.queue st.queue).kills 1 ∧ y.killed = satAdd 64 x.killed 1

/-- How a download ends: nothing on a dead channel; the first of checks 1 to 4 that fails, then the length, then the
object's own checks refuse it; else its effect stands, and it is answered now or later (R289, R290, R293). -/
def Obligations.DownloadOrder : Prop :=
  ∀ (s t : State) (q : Chan) (i sub c : Nat) (data : List Byte) (act : Act) (now : Bool),
    (s.asleep = true ∨ s.chanDead q = true → State.download q i sub data act s = s) ∧
    (s.asleep = false → s.chanDead q = false →
      (s.gate q i sub true = some c → State.download q i sub data act s = s.refuse q i sub c) ∧
      (s.gate q i sub true = none → ((object? i sub).map (·.len.accepts data.length)).getD false = false →
        State.download q i sub data act s = s.refuse q i sub 0x06070010) ∧
      (isChan q = true → Served s q i sub data.length →
        (act s = .error c → State.download q i sub data act s = s.refuse q i sub c) ∧
        (act s = .ok (t, true) → State.download q i sub data act s = answered s t q i sub) ∧
        (act s = .ok (t, false) → State.download q i sub data act s = noted s t q i sub))) ∧
    (c ≠ 0x06010000 → (s.refuse q i sub c).withheld = s.withheld) ∧
    (s.refuse q i sub 0x06010000).withheld = s.withheld ++ [{ chan := q, index := i, sub, arrived := s.time }]

/-- CTX_REQUEST, RETRY, SKIP, QUEUE_OPEN, QUEUE_CLOSE, CLOSE and KILL, served and with their checks passed (R200, R204
to R207, R273, R281). A queue with nothing in flight is CLOSED at once and one in flight is CLOSING, its waiting
descriptors discarded; a context with nothing running or outstanding is freed at once; KILL leaves its Suite without a
step and counts. -/
def Obligations.ContextCommands : Prop :=
  ∀ (s : State) (q : Chan) (hh ctx c k suite : Nat) (w v : W64) (b : Byte) (x : Context) (st : Step),
    (isHousehold hh = true → Served s q (0x3000 + hh) 0x40 8 → s.suiteOwner (bitsOf w.toNat 55 48) = some hh →
      bitsOf w.toNat 63 56 = 1 → s.houseActive hh = true → (s.suite (bitsOf w.toNat 55 48)).st ≠ .releasing →
      (s.house hh).st ≠ .closing → (s.suite (bitsOf w.toNat 55 48)).mode ≠ .paired → s.freeContextNumber = some c →
      exec (.ctxRequest q hh w) s = .next (s.keepQueue (answered s
        ((s.setCtx c (some { household := hh, suite := bitsOf w.toNat 55 48, pasid := bitsOf w.toNat 19 0
                             home := bitsOf w.toNat 28 28
                             serving := s.servingHall (bitsOf w.toNat 55 48) (bitsOf w.toNat 28 28) })).modHouse hh
          ({ · with ctxResult := BitVec.ofNat 64 (2 ^ 56 + bitsOf w.toNat 47 32 * 2 ^ 32 + c) })) q (0x3000 + hh) 0x40))) ∧
    (isContext ctx = true → s.ctx? ctx = some x →
      (x.st = .faulted → Served s q (0x4000 + ctx) 5 1 →
        exec (.retry q ctx) s = .next (s.keepQueue (answered s
          (s.setCtx ctx (some { x with st := .opened, fault := 0 })) q (0x4000 + ctx) 5)) ∧
        (bitsOf x.fault.toNat 55 48 ≠ 0x40 → exec (.skip q ctx) s = .next (s.keepQueue (answered s
          ((s.setCtx ctx (some { x with st := .opened, fault := 0 })).modQueue ctx (bitsOf x.fault.toNat 47 44)
            (·.skip (bitsOf x.fault.toNat 15 0))) q (0x4000 + ctx) 5)))) ∧
      (x.st ≠ .faulted → Served s q (0x4000 + ctx) 5 1 →
        exec (.retry q ctx) s = .next (s.keepQueue (s.refuse q (0x4000 + ctx) 5 0x08000022)) ∧
        exec (.skip q ctx) s = .next (s.keepQueue (s.refuse q (0x4000 + ctx) 5 0x08000022))) ∧
      (x.st = .opened → Served s q (0x4000 + ctx) 6 8 → bitsOf v.toNat 3 0 ≤ 10 →
        (bitsOf v.toNat 63 59 < 16 ∧ k = bitsOf v.toNat 63 59 ∧ (x.queue k).st = .closed ∨
          bitsOf v.toNat 63 59 = 31 ∧ x.closedQueue = some k) →
        exec (.queueOpen q ctx v) s = .next (s.keepQueue (answered s (s.modQueue ctx k fun _ =>
          { st := .opened
            value := BitVec.ofNat 64 (bitsOf v.toNat 63 59 * 2 ^ 59 + bitsOf v.toNat 47 12 * 2 ^ 12 + bitsOf v.toNat 7 0) })
          q (0x4000 + ctx) 6))) ∧
      (Served s q (0x4000 + ctx) 7 1 → b.toNat < 16 → (x.queue b.toNat).st = .opened →
        (s.inFlight ctx b.toNat = false → exec (.queueClose q ctx b) s = .next (s.keepQueue (answered s
          ((s.modQueue ctx b.toNat fun y => { y.discard with closer := none }).closeQueue ctx b.toNat) q (0x4000 + ctx) 7))) ∧
        (s.inFlight ctx b.toNat = true → exec (.queueClose q ctx b) s = .next (s.keepQueue (noted s
          (s.modQueue ctx b.toNat fun y => { y.discard with closer := some q }) q (0x4000 + ctx) 7))) ∧
        (Store.wf ({} : Queue) x.queues = true → ∃ t y, exec (.queueClose q ctx b) s = .next t ∧ t.ctx? ctx = some y ∧
          (y.queue b.toNat).st = (if s.inFlight ctx b.toNat then .closing else .closed) ∧
          (y.queue b.toNat).head = (x.queue b.toNat).tail ∧ (y.queue b.toNat).tail = (x.queue b.toNat).tail ∧
          (∀ j, j ≠ b.toNat → y.queue j = x.queue j) ∧ y.st = x.st ∧ t.suites = s.suites ∧ t.rooms = s.rooms)) ∧
      (Served s q (0x4000 + ctx) 8 1 → x.st ≠ .closing →
        exec (.close q ctx) s = .next (s.keepQueue (answered s (s.closeContext ctx) q (0x4000 + ctx) 8)) ∧
        (Store.wf none s.contexts = true → x.hostUsed = [] → s.awaits ctx = false → (∀ j, s.inFlight ctx j = false) →
          (s.suite x.suite).draining = false → ((s.suite x.suite).step.map (·.ctx)) ≠ some ctx →
          ∃ t, exec (.close q ctx) s = .next t ∧ t.ctx? ctx = none ∧ t.suites = s.suites ∧ t.rooms = s.rooms))) ∧
    (isSuite suite = true → Served s q (0x3100 + suite) 0x16 1 →
      ((s.suite suite).step = none →
        exec (.kill q suite) s = .next (s.keepQueue (answered s s q (0x3100 + suite) 0x16))) ∧
      ((s.suite suite).step = some st → st.committing = true →
        exec (.kill q suite) s = .next (s.keepQueue (answered s s q (0x3100 + suite) 0x16))) ∧
      ((s.suite suite).step = some st → st.committing = false →
        exec (.kill q suite) s = .next (s.keepQueue (answered s (s.killStep suite) q (0x3100 + suite) 0x16)) ∧
        ∃ t, exec (.kill q suite) s = .next t ∧ (t.suite suite).step = none ∧
          (t.suite suite).killed = satAdd 64 (s.suite suite).killed 1))

/-- Descriptors: a fetch reads and keeps the next one and faults the context with a bad one; a recheck makes the queue
ready or blocks it; a MARKER is published and passed; the slice, once the rivals' waits have been looked at again, kills
for a rival that is ready and for no other (R210 to R216, R264, R265). -/
def Obligations.DescriptorEvents : Prop :=
  ∀ (s s1 s2 s3 : State) (ctx q n code : Nat) (x : Context) (d : StepDesc) (b : List Byte) (st : Step) (suite : Nat),
    isContext ctx = true → isQueue q = true → s.ctx? ctx = some x → s.served x = true → (x.queue q).st = .opened →
    (x.st = .opened → (x.queue q).nextFetch = some n →
      s.stewardRead ctx ((x.queue q).slotAddr n) 128 = (.ok b, s1) →
      s2 = s1.modQueue ctx q (fun u => { u with fetched := Store.set [] u.fetched n b }) →
      (s2.checkStep ctx (parseStep b) = (.ok, s3) → exec (.descriptorFetch ctx q) s = .next (s.keepQueue s3)) ∧
      (s2.checkStep ctx (parseStep b) = (.bad code, s3) →
        exec (.descriptorFetch ctx q) s = .next (s.keepQueue (s3.ctxFault ctx code q none n)))) ∧
    (x.st = .opened → (x.queue q).head ≠ (x.queue q).tail → (x.queue q).waitsHold = false → (x.queue q).headDesc = some d →
      (s.waitHolds ctx d.wait0 d.wait0Value = (.ok true, s1) → s1.waitHolds ctx d.wait1 d.wait1Value = (.ok true, s2) →
        exec (.waitRecheck ctx q) s = .next (s.keepQueue (s2.becomeReady ctx q))) ∧
      (s.waitHolds ctx d.wait0 d.wait0Value = (.ok false, s1) →
        exec (.waitRecheck ctx q) s = .next (s.keepQueue (s1.modQueue ctx q ({ · with blocked := true }))))) ∧
    (Queue.ready x (x.queue q) = true → (x.queue q).headDesc = some d → d.type = 1 → (s.suite x.suite).held = 0 →
      s.checkStep ctx d = (.ok, s1) → s1.publish ctx d.event d.eventValue = (.ok (), s2) →
      exec (.markerPublish ctx q) s =
        .next (s.keepQueue ((if d.irq then s2.doneVector ctx else s2).modQueue ctx q Queue.advance))) ∧
    (isSuite suite = true → (s.suite suite).step = some st → st.committing = false → st.ctx = ctx → st.queue = q →
      (s.suite suite).slice ≠ 0 → st.dispatched + (s.suite suite).slice * 100000 ≤ s.time → (x.queue q).sliced = false →
      s1 = ((s.queuesOf suite).filter (·.1 != ctx)).foldl (fun s e => s.recheck e.1 e.2.1) s →
      ((∃ e ∈ s1.queuesOf suite, e.1 ≠ ctx ∧ Queue.ready e.2.2.1 e.2.2.2 = true) → exec (.sliceExpiry suite) s =
        .next (s.keepQueue ((s1.killStep suite).modQueue ctx q ({ · with sliced := true }))) ∧
        ∃ t, exec (.sliceExpiry suite) s = .next t ∧ (t.suite suite).step = none) ∧
      ((∀ e ∈ s1.queuesOf suite, e.1 ≠ ctx → Queue.ready e.2.2.1 e.2.2.2 = false) →
        exec (.sliceExpiry suite) s = .next (s.keepQueue s1))) ∧
    (isSuite suite = true → (s.suite suite).slice = 0 → exec (.sliceExpiry suite) s = .next s)

/-- The Dispatch Landing starts the chosen step in every member Room, at instruction 0 with its image, and the Commit
Landing runs its seven phases in order, from the first one not done, or takes back what a refused commit has done (R10,
R264, R271, R272); after the last phase the step is counted in its Suite and its context, and its queue passes the
descriptor. A Room launched for a step
stands at instruction 0 of the image, every scalar, predicate and descriptor at its start value and every accumulator
clear (R74, R76). -/
def Obligations.Landings : Prop :=
  (∀ (s s1 s2 : State) (suite c q code : Nat) (x : Context) (u : Queue) (d : StepDesc) (p : Plan) (st st' : Step),
     isSuite suite = true →
     ((s.suite suite).draining = false → s.mayDispatch suite = false → exec (.dispatchLanding suite) s = .next s) ∧
     ((s.suite suite).draining = false → s.mayDispatch suite = true →
       s1 = (s.queuesOf suite).foldl (fun s e => s.recheck e.1 e.2.1) s → s1.choose suite = some (c, q, x, u) →
       u.headDesc = some d → (s1.suite suite).mode ≠ .paired → s1.plan c x (s1.suite suite) d = (.ok p, s2) →
       exec (.dispatchLanding suite) s = .next (s.keepQueue (s2.start suite c q u d p))) ∧
     ((s.suite suite).step = none → exec (.commitLanding suite) s = .next s) ∧
     ((s.suite suite).step = some st → st.failing = none → st.phase = 0 → s.mayCommit suite st = false →
       exec (.commitLanding suite) s = .next s) ∧
     ((s.suite suite).step = some st → st.failing = none → st.phase = 0 → s.mayCommit suite st = true →
       st' = { st with phase := 1, cursor := 0, totals := s.stepTotals suite, courses := s.coursesRun suite } →
       exec (.commitLanding suite) s = .next (s.keepQueue
         (State.commitFrom suite st' [1, 2, 3, 4, 5, 6, 7] (s.modStep suite fun _ => st')))) ∧
     ((s.suite suite).step = some st → st.failing = none → 0 < st.phase →
       exec (.commitLanding suite) s =
         .next (s.keepQueue (State.commitFrom suite st ((span 1 7).filter fun k => decide (st.phase ≤ k)) s))) ∧
     ((s.suite suite).step = some st → st.failing = some code →
       exec (.commitLanding suite) s = .next (s.keepQueue (s.failCommit suite st code))) ∧
     State.commitFrom suite st [] s = s.finishCommit suite st ∧
     ((s.suite suite).step = some st → st.failing = none → st.phase = 7 → s.ctx? st.ctx = some x → x.st = .opened →
       x.nextRoot = none → (x.queue st.queue).st = .opened → (s.house x.household).st = .active →
       ∃ t y, exec (.commitLanding suite) s = .next t ∧ (t.suite suite).step = none ∧
         (t.suite suite).committed = satAdd 64 (s.suite suite).committed 1 ∧ t.ctx? st.ctx = some y ∧
         y.committed = satAdd 64 x.committed 1 ∧ (y.queue st.queue).lastCommit = s.time ∧
         ((x.queue st.queue).skipped = [] → (y.queue st.queue).head = (x.queue st.queue).head + 1) ∧ t.hbm = s.hbm) ∧
     ((s.start suite c q u d p).suite suite).step = some
       { ctx := c, queue := q, count := u.head.toNat, desc := d, dispatched := s.time
         det := (s.suite suite).deterministic, lanes := (s.suite suite).lanes, nrooms := (s.suite suite).ordinals
         cacheBytes := (s.suite suite).cache * 0x10000, ladderBase := p.ladderBase, ladder := p.ladder, trees := p.trees
         commit := p.commit } ∧
     (∀ r, (∃ m, (r, m) ∈ (s.suite suite).places suite) →
       (∀ m, (r, m) ∈ (s.suite suite).places suite → m.spare = false ∧ (s.suite suite).has m.copy = true) →
       ((s.start suite c q u d p).room r).foreman.run = .running ∧ ((s.start suite c q u d p).room r).foreman.pc = 0 ∧
       ((s.start suite c q u d p).room r).foreman.program = p.image.program ∧
       ((s.start suite c q u d p).room r).pantry = (s.room r).pantry)) ∧
  ∀ (x : Room) (i : Image) (seed : W64) (ordinal lanes now : Nat) (k : BitVec 5) (p : Nat),
    (x.launch i seed ordinal lanes now).foreman.pc = 0 ∧ (x.launch i seed ordinal lanes now).foreman.run = .running ∧
    (x.launch i seed ordinal lanes now).foreman.reg k = 0 ∧
    (p ≠ 0 → (x.launch i seed ordinal lanes now).foreman.pred p = false) ∧
    (x.launch i seed ordinal lanes now).foreman.program = i.program ∧
    (x.launch i seed ordinal lanes now).microStore = i.microStore ∧
    (x.launch i seed ordinal lanes now).course.ordinal = 0 ∧ (x.launch i seed ordinal lanes now).course.start = now ∧
    (x.launch i seed ordinal lanes now).pantry = x.pantry ∧
    ∀ b, (Store.get {} (x.launch i seed ordinal lanes now).bricks b).acc = []

/-! ### Memory: contents, roots, TLBs, faults, Windows, doorbells (R144 to R151, R198, R209, R221 to R247) -/

/-- Memories in canonical form: a write is read back, leaves every other byte, and keeps the form; equal contents are
equal data. HBM takes a write to good units of usable groups, and reads it back (R144, R148, R151). -/
def Obligations.MemoryReadBack : Prop :=
  (∀ (m n : Memory) (a b : Nat) (x : Byte) (l : List Byte), Memory.wf m = true →
    Memory.wf (Store.set 0 m a x) = true ∧ Store.get 0 (Store.set 0 m a x) a = x ∧
    (b ≠ a → Store.get 0 (Store.set 0 m a x) b = Store.get 0 m b) ∧ Memory.wf (Store.setRange 0 m a l) = true ∧
    Store.range 0 (Store.setRange 0 m a l) a l.length = l ∧
    (b < a ∨ a + l.length ≤ b → Store.get 0 (Store.setRange 0 m a l) b = Store.get 0 m b) ∧
    (Memory.wf n = true → (∀ k, Store.get 0 m k = Store.get 0 n k) → m = n)) ∧
  ∀ (s : State) (a : Nat) (l : List Byte), Memory.wf s.hbm = true →
    (∀ u ∈ unitsOf a l.length, s.usableAt (u * 64) = true ∧ s.badUnits.contains u = false) →
    ∃ m, s.hbmWrite a l = ({ s with hbm := m }, true) ∧ Memory.wf m = true ∧ Store.range 0 m a l.length = l ∧
      ∀ b, (b < a ∨ a + l.length ≤ b) → Store.get 0 m b = Store.get 0 s.hbm b

/-- PT_ROOT, TLB_INVAL, FAULTQ_BASE, WINDOW_ADD and WINDOW_REMOVE, served and with their checks passed (R226, R235,
R236, R245). -/
def Obligations.AddressCommands : Prop :=
  ∀ (s : State) (q : Chan) (hh c k : Nat) (w : W64) (data : List Byte) (idx : BitVec 16) (x : Window), isHousehold hh = true →
    s.houseActive hh = true →
    (s.ownsCtx hh c = none → c = bitsOf w.toNat 55 44 → bitsOf w.toNat 63 56 = 1 →
      (Served s q (0x3000 + hh) 0x44 8 →
        ((List.range 16).any (s.inFlight c) = true → exec (.ptRoot q hh w) s = .next (s.keepQueue (answered s
          (s.modCtx c ({ · with nextRoot := some (bitsOf w.toNat 37 12 * 4096) })) q (0x3000 + hh) 0x44))) ∧
        ((List.range 16).any (s.inFlight c) = false → exec (.ptRoot q hh w) s = .next (s.keepQueue (answered s
          ((s.modCtx c ({ · with root := bitsOf w.toNat 37 12 * 4096, nextRoot := none })).tlbDrop (·.ctx == c))
          q (0x3000 + hh) 0x44)))) ∧
      (Served s q (0x3000 + hh) 0x46 8 →
        (bitsOf w.toNat 43 42 = 0 → exec (.tlbInval q hh w) s = .next (s.keepQueue (answered s
          (s.tlbDropRange c (bitsOf w.toNat 35 0 * 4096) 4096) q (0x3000 + hh) 0x46))) ∧
        (bitsOf w.toNat 43 42 = 1 → exec (.tlbInval q hh w) s = .next (s.keepQueue (answered s
          (s.tlbDropRange c (bitsOf w.toNat 35 0 * 4096 / 2 ^ 21 * 2 ^ 21) (2 ^ 21)) q (0x3000 + hh) 0x46))) ∧
        (bitsOf w.toNat 43 42 = 2 → exec (.tlbInval q hh w) s = .next (s.keepQueue (answered s
          (s.tlbDropRange c (bitsOf w.toNat 35 0 * 4096 / 2 ^ 30 * 2 ^ 30) (2 ^ 30)) q (0x3000 + hh) 0x46))) ∧
        (bitsOf w.toNat 43 42 = 3 → exec (.tlbInval q hh w) s = .next (s.keepQueue (answered s
          (s.tlbDrop (·.ctx == c)) q (0x3000 + hh) 0x46))))) ∧
    (Served s q (0x3000 + hh) 0x48 8 → w.toNat % 16 < 12 → (∀ y ∈ s.stalls, s.houseOf y.ctx ≠ hh) →
      exec (.faultqBase q hh w) s = .next (s.keepQueue (answered s (s.modHouse hh ({ · with
        faultqBase := BitVec.ofNat 64 (w.toNat / 4096 * 4096 + bitsOf w.toNat 4 0), faultqHead := 0, faultqTail := 0 }))
        q (0x3000 + hh) 0x48))) ∧
    (Served s q (0x3000 + hh) 0x50 data.length → x = parseWindow hh data → s.holds hh x.target x.len = true →
      (∀ p ∈ pageStarts x.target x.len, (s.page (p / 4096)).isProtected = false) →
      (∀ e ∈ s.windows, ∀ y, e.2 = some y → x.clashes y = false) → fieldOf data 0 1 = 1 →
      x.base % 64 = 0 → x.target % 64 = 0 → x.len % 64 = 0 → x.len ≠ 0 → x.base + x.len ≤ 2 ^ 44 →
      s.windowsOf hh < s.envWindows hh →
      (List.range 4096).find? (fun k => (Store.get none s.windows k).isNone) = some k →
      exec (.windowAdd q hh data) s = .next (s.keepQueue (answered s
        (State.modHouse { s with windows := Store.set none s.windows k (some x) } hh ({ · with windowResult := k }))
        q (0x3000 + hh) 0x50))) ∧
    (Served s q (0x3000 + hh) 0x52 2 → idx.toNat < 4096 → Store.get none s.windows idx.toNat = some x → x.owner = hh →
      (s.admitted [idx.toNat] = false → exec (.windowRemove q hh idx) s = .next (s.keepQueue (answered s
        { s with windows := Store.set none s.windows idx.toNat none } q (0x3000 + hh) 0x52))) ∧
      (s.admitted [idx.toNat] = true → exec (.windowRemove q hh idx) s = .next (s.keepQueue (noted s
        { s with windows := Store.set none s.windows idx.toNat none
                 removals := s.removals ++ [{ chan := q, index := 0x3000 + hh, sub := 0x52, windows := [idx.toNat] }] }
        q (0x3000 + hh) 0x52))))

/-- Page walks, fault records and their timeout, and accesses that arrive through Mortar (R226 to R240, R245 to R247). A
fault stalls its port, and the household's stalls wait, counted, while its ring is full; an expired stall ends; a read that
a Window admits, of lines that no cache holds, answers the bytes of HBM, and changes no memory. An access arrives with the
length of its data, and an atomic one with 8 bytes (R186, R246). -/
def Obligations.WalksAndArrivals : Prop :=
  ∀ (s t : State) (port ctx va hh k a hall lvl : Nat) (wr np : Bool) (x : PortStall) (y : Refusal1) (acc acc' : RemoteAccess),
    (isMaster port = true → isContext ctx = true →
      (s.stalled port ctx = true → exec (.pageWalk port ctx va wr) s = .next s) ∧
      (s.stalled port ctx = false → s.translate port ctx va wr = (.fault np lvl, t) →
        (t.faultsRefused ctx = false →
          exec (.pageWalk port ctx va wr) s = .next (s.keepQueue (t.stall port ctx va wr np lvl)) ∧
          ∃ u, exec (.pageWalk port ctx va wr) s = .next u ∧ u.rooms = t.rooms ∧ u.hbm = t.hbm ∧ ∃ z, u.stalls = t.stalls ++ [z] ∧
            z.port = port ∧ z.ctx = ctx ∧ z.va = va ∧ z.write = wr ∧ z.notPresent = np ∧ z.level = lvl ∧ z.seq = none) ∧
        (t.faultsRefused ctx = true → exec (.pageWalk port ctx va wr) s = .next (s.keepQueue t))) ∧
      (s.stalled port ctx = false → (s.translate port ctx va wr).2 = t →
        (∀ m l, (s.translate port ctx va wr).1 ≠ .fault m l) →
        exec (.pageWalk port ctx va wr) s = .next (s.keepQueue t))) ∧
    (isMaster port = true →
      ((∀ z ∈ s.stalls, z.port = port → s.expired z = false) → exec (.faultTimeout port) s = .next s) ∧
      (s.stalls.filter (fun z => z.port == port && s.expired z) = [x] →
        exec (.faultTimeout port) s = .next (s.keepQueue (s.refuseStall x)) ∧
        (Store.wf ({} : Room) s.rooms = true → port < 2560 → s.stepOf (port % 1280) = none → s.suiteOf (port % 1280) = none → ∃ u,
          exec (.faultTimeout port) s = .next u ∧ u.stalls = s.stalls.filter (· != x) ∧ u.suites = s.suites ∧
          u.contexts = s.contexts ∧ u.hbm = s.hbm))) ∧
    (isHousehold hh = true → hall = bitsOf (s.house hh).faultqBase.toNat 4 4 →
      (s.nextFault hh = none → exec (.faultRecordWrite hh) s = .next s) ∧
      (s.nextFault hh = some x → faultqFull (s.house hh) = true →
        exec (.faultRecordWrite hh) s = .next (s.keepQueue (s.countWaits hh))) ∧
      (s.nextFault hh = some x → faultqFull (s.house hh) = false → s.hostLink hall = false →
        exec (.faultRecordWrite hh) s = .next (s.keepQueue (s.refuseStall x))) ∧
      (s.nextFault hh = some x → faultqFull (s.house hh) = false → s.hostLink hall = true →
        ∃ t, exec (.faultRecordWrite hh) s = .next t ∧
          (Output.hostWrite hall ((s.house hh).faultqBase.toNat / 4096 * 4096 +
            32 * (((s.house hh).faultqTail + 1).toNat + faultqEntries (s.house hh) - 1 - faultqEntries (s.house hh) *
              ((((s.house hh).faultqTail + 1).toNat + faultqEntries (s.house hh) - 1) / faultqEntries (s.house hh))))
            none (faultRecord x ((s.house hh).faultqTail + 1).toNat)) ∈ t.out ∧
          t.stalls.map (fun z => { z with waited := true }) =
            (modifyFirst (· == x) (fun z => { z with seq := some ((s.house hh).faultqTail + 1), time := s.time }) s.stalls).map
              fun z => { z with waited := true })) ∧
    (isMortar acc.port = true →
      (s.portUp acc.port = false ∨ s.failSilent = true → exec (.remoteAccessArrival acc) s = .next s) ∧
      (s.portUp acc.port = true → s.failSilent = false →
        acc' = { acc with len := match acc.kind with | .read => acc.len | .write b => b.length | _ => 8 } →
        (s.allow acc' = some a → exec (.remoteAccessArrival acc) s = .next (s.keepQueue
          ((s.enqueue (mortarMaster acc.port) a acc'.len (writes acc.kind) none).performArrived
            { window := s.admitter acc', addr := a, acc := acc' })) ∧
          (acc.kind = .read → (∀ p ∈ pageStarts a acc.len, s.isWashing (p / 4096) = false) →
            (∀ l ∈ linesOf a acc.len, s.dirFind l = none ∧ s.lineElsewhere l = none) →
            (∀ u ∈ unitsOf a acc.len, s.unitBad u = false) → ∃ u, exec (.remoteAccessArrival acc) s = .next u ∧ u.hbm = s.hbm ∧
              u.rooms = s.rooms ∧ u.suites = s.suites ∧ u.directory = s.directory ∧ u.pages = s.pages ∧
              ((∃ z ∈ u.heldAnswers, z.waiter.acc = acc ∧ z.data = s.hbmRead a acc.len) ∨
                Output.remoteAnswer acc true false (s.hbmRead a acc.len) ∈ u.out))) ∧
        (s.allow acc' = none → exec (.remoteAccessArrival acc) s = .next (s.keepQueue
          (State.countRefused { s with windowRefusals := s.windowRefusals ++ [{ acc := acc', arrived := s.time }] } acc')) ∧
          ∃ u, exec (.remoteAccessArrival acc) s = .next u ∧ u.hbm = s.hbm ∧ u.rooms = s.rooms ∧ u.out = s.out ∧
            u.windowRefusals = s.windowRefusals ++ [{ acc := acc', arrived := s.time }]))) ∧
    (s.windowRefusals[k]? = none → exec (.windowRefusal k) s = .next s) ∧
    (s.windowRefusals[k]? = some y →
      (s.time < y.arrived + 2000 → exec (.windowRefusal k) s = .next s) ∧
      (y.arrived + 2000 ≤ s.time → exec (.windowRefusal k) s = .next (s.keepQueue
        (State.answerAccess { s with windowRefusals := removeAt k s.windowRefusals } y.acc false false []))))

/-- Doorbells: a tail write moves TAIL, looks again, is ignored, overflows or is dropped and counted; REPLAY and ABORT
end the stalls they cover; unmasking a vector sends its pending message; BAR4 reaches HBM coherently from the end of stage 8 of
bring-up on, and its reads answer the bytes that HBM or a cache holds (R197, R198, R209, R221, R239). -/
def Obligations.HostAccesses : Prop :=
  ∀ (s : State) (hall ctx q size vec off len d : Nat) (v seq : W32) (ver : Byte) (x : Context) (data : Option (List Byte))
    (acc : RemoteAccess), isHall hall = true →
    (isContext ctx = true → isQueue q = true → s.ctx? ctx = some x →
      ((s.bellLive hall ctx = false ∨ size ≠ 4 ∨ (x.queue q).st ≠ .opened) →
        exec (.tailDoorbell hall ctx q size v) s =
          .next (s.keepQueue (s.modHall hall fun h => { h with drops := satAdd 32 h.drops 1 }))) ∧
      (s.bellLive hall ctx = true → (x.queue q).st = .opened → d = (v - (x.queue q).tail).toNat →
        (d = 0 → exec (.tailDoorbell hall ctx q 4 v) s = .next (s.keepQueue (s.recheck ctx q))) ∧
        (0 < d → d ≤ (x.queue q).entries - (x.queue q).waiting → exec (.tailDoorbell hall ctx q 4 v) s =
          .next (s.keepQueue (s.modQueue ctx q ({ · with tail := v })))) ∧
        ((x.queue q).entries - (x.queue q).waiting < d → d < 2 ^ 31 → exec (.tailDoorbell hall ctx q 4 v) s =
          .next (s.keepQueue (s.ctxFault ctx 0x40 q none (x.queue q).tail.toNat))) ∧
        (2 ^ 31 ≤ d → exec (.tailDoorbell hall ctx q 4 v) s = .next s))) ∧
    (isContext ctx = true →
      (s.bellLive hall ctx = true →
        exec (.replay hall ctx 8 1 seq) s =
          .next (s.keepQueue ((s.stalls.filter (·.covered ctx seq)).foldl State.replayStall s)) ∧
        (∃ t, exec (.replay hall ctx 8 1 seq) s = .next t ∧ t.stalls = s.stalls.filter (fun z => !z.covered ctx seq) ∧
          t.suites = s.suites ∧ t.contexts = s.contexts ∧ t.hbm = s.hbm) ∧
        exec (.abort hall ctx 8 1 seq) s =
          .next (s.keepQueue ((s.stalls.filter (·.covered ctx seq)).foldl State.refuseStall s)) ∧
        (∀ z, Store.wf ({} : Room) s.rooms = true → s.stalls.filter (·.covered ctx seq) = [z] → z.port < 2560 → s.stepOf (z.port % 1280) = none →
          s.suiteOf (z.port % 1280) = none → ∃ t, exec (.abort hall ctx 8 1 seq) s = .next t ∧
            t.stalls = s.stalls.filter (· != z) ∧ t.suites = s.suites ∧ t.contexts = s.contexts ∧ t.hbm = s.hbm)) ∧
      ((s.bellLive hall ctx = false ∨ size ≠ 8 ∨ ver ≠ 1) →
        exec (.replay hall ctx size ver seq) s = .next (s.keepQueue (s.dropBell hall)) ∧
        exec (.abort hall ctx size ver seq) s = .next (s.keepQueue (s.dropBell hall)))) ∧
    (isVector vec = true → s.failSilent = false →
      (((s.hall hall).vector vec).isPending = true → exec (.vectorUnmask hall vec) s = .next (s.keepQueue
        ((s.modHall hall (·.modVector vec ({ · with masked := false, isPending := false }))).emit (.msix hall vec)))) ∧
      (((s.hall hall).vector vec).isPending = false → exec (.vectorUnmask hall vec) s = .next (s.keepQueue
        (s.modHall hall (·.modVector vec ({ · with masked := false, isPending := false })))))) ∧
    (isVector vec = true → s.failSilent = true → exec (.vectorUnmask hall vec) s = .next (s.keepQueue
      (s.modHall hall (·.modVector vec ({ · with masked := false, isPending := ((s.hall hall).vector vec).isPending }))))) ∧
    (s.bar4Log2 hall = 0 → exec (.bar4Access hall off len data) s = .next s) ∧
    (acc = { port := 12 + hall, plane := 0, node := 0, household := 0, addr := (s.hall hall).bar4Base + off
             len := (data.map (·.length)).getD len
             kind := match data with | some b => .write b | none => .read } →
      s.bar4Log2 hall ≠ 0 → off + acc.len ≤ 2 ^ s.bar4Log2 hall → acc.len ≠ 0 → s.hostLink hall = true → s.failSilent = false →
      (9 ≤ (s.hall hall).up.stage → populatedRange acc.addr acc.len = true → (∀ p ∈ pageStarts acc.addr acc.len, (s.page (p / 4096)).isProtected = false) →
        exec (.bar4Access hall off len data) s = .next (s.keepQueue
          ((s.enqueue (hostPort hall) acc.addr acc.len data.isSome none).performArrived
            { window := none, addr := acc.addr, acc })) ∧
        (data = none → (∀ l ∈ linesOf acc.addr len, s.dirFind l = none ∧ s.lineElsewhere l = none) →
          (∀ u ∈ unitsOf acc.addr len, s.unitBad u = false) → ∃ u, exec (.bar4Access hall off len none) s = .next u ∧
            u.hbm = s.hbm ∧ u.rooms = s.rooms ∧ u.directory = s.directory ∧
            ((∃ z ∈ u.heldAnswers, z.waiter.acc = acc ∧ z.data = s.hbmRead acc.addr len) ∨
              Output.hostAnswer hall true false (s.hbmRead acc.addr len) ∈ u.out))) ∧
      (((s.hall hall).up.stage < 9 ∨ populatedRange acc.addr acc.len = false ∨ ∃ p ∈ pageStarts acc.addr acc.len, (s.page (p / 4096)).isProtected = true) →
        exec (.bar4Access hall off len data) s = .next (s.keepQueue (s.answerAccess acc false false []))))

/-! ### Households and Suites (R249 to R263, R278 to R282) -/

/-- ACTIVATE, DEACTIVATE, GRANT, WITHDRAW, the page wash, SUITE_REQUEST and SUITE_RELEASE, served and with their
checks passed (R250 to R254, R263, R282). A household without contexts, Suites or a blob command is INACTIVE at once, and
its pages are given up; a withdrawn run is held by nobody and waits for its wash, and the answer waits for the accesses
that its Windows admitted; a washed page of good units reads zero. -/
def Obligations.HouseholdCommands : Prop :=
  ∀ (s t t' : State) (q : Chan) (hh n p stack : Nat) (w v : W64) (u : W32) (suite : Byte), isHousehold hh = true →
    (Served s q (0x3000 + hh) 2 1 →
      ((s.house hh).st = .inactive → s.hasEnvelope hh = true → (s.security.openHouse && s.envFlag hh 0) = false →
        exec (.activate q hh) s = .next (s.keepQueue (answered s (s.modHouse hh fun _ =>
          { st := .active, programChain := List.replicate 48 0, blobChain := List.replicate 48 0 }) q (0x3000 + hh) 2))) ∧
      ((s.house hh).st ≠ .inactive → exec (.activate q hh) s = .next (s.keepQueue (s.refuse q (0x3000 + hh) 2 0x08000022))) ∧
      (s.houseActive hh = true → (s.house hh).st ≠ .closing →
        t = (s.modHouse hh fun h => { h with
          st := .closing, image := none, latch := none
          migration := if h.image.isSome then migrationWord 5 5 0 else h.migration }).failBlob hh →
        exec (.deactivate q hh) s = .next (s.keepQueue (answered s
          (((t.contextsHeld hh).foldl State.closeContext t).progressClosing hh) q (0x3000 + hh) 2))) ∧
      (s.houseActive hh = true → (s.house hh).st ≠ .closing → s.contextsHeld hh = [] → s.suitesOf hh = [] →
        (s.house hh).blob = none → Store.wf ({} : Household) s.households = true → Store.wf ({} : Page) s.pages = true →
        ∃ u, exec (.deactivate q hh) s = .next u ∧ (u.house hh).st = .inactive ∧
          (∀ p, (s.page p).holder = hh → (u.page p).holder = 0) ∧ (∀ p, (s.page p).holder ≠ hh → u.page p = s.page p) ∧
          u.rooms = s.rooms ∧ u.suites = s.suites ∧ u.hbm = s.hbm)) ∧
    (Served s q (0x3000 + hh) 0x30 8 → s.houseActive hh = true → bitsOf v.toNat 63 56 = 1 → bitsOf v.toNat 53 48 = hh →
      bitsOf v.toNat 47 26 ≠ 0 → populatedRange (bitsOf v.toNat 25 0 * 4096) (bitsOf v.toNat 47 26 * 4096) = true →
      (v = w &&& ~~~(0x00C0000000000000#64) ||| 0x0040000000000000#64 →
        (∀ p ∈ span (bitsOf v.toNat 25 0) (bitsOf v.toNat 47 26), s.usableAt (p * 4096) = true ∧ (s.page p).holder = 0) →
        s.pagesHeld hh + bitsOf v.toNat 47 26 ≤ s.envMaxPages hh → s.pageShortfall hh + bitsOf v.toNat 47 26 ≤ s.freePages →
        exec (.grant q hh w) s = .next (s.keepQueue (answered s
          ((span (bitsOf v.toNat 25 0) (bitsOf v.toNat 47 26)).foldl (fun s p => s.modPage p ({ · with holder := hh })) s)
          q (0x3000 + hh) 0x30))) ∧
      (v = w &&& ~~~(0x00C0000000000000#64) ||| 0x0080000000000000#64 →
        (∀ p ∈ span (bitsOf v.toNat 25 0) (bitsOf v.toNat 47 26), (s.page p).holder = hh) →
        t' = (if ((s.house hh).blob.map fun j => j.touches (bitsOf v.toNat 25 0) (bitsOf v.toNat 47 26)).getD false then
          s.failBlob hh else s) →
        (s.admitted (s.windowsOn (bitsOf v.toNat 25 0) (bitsOf v.toNat 47 26)) = false →
          exec (.withdraw q hh w) s = .next (s.keepQueue (answered s
            (t'.withdrawRun (bitsOf v.toNat 25 0) (bitsOf v.toNat 47 26)) q (0x3000 + hh) 0x30))) ∧
        (s.admitted (s.windowsOn (bitsOf v.toNat 25 0) (bitsOf v.toNat 47 26)) = true →
          t = t'.withdrawRun (bitsOf v.toNat 25 0) (bitsOf v.toNat 47 26) →
          exec (.withdraw q hh w) s = .next (s.keepQueue (noted s { t with
            removals := t.removals ++ [{ chan := q, index := 0x3000 + hh, sub := 0x30
                                         windows := s.windowsOn (bitsOf v.toNat 25 0) (bitsOf v.toNat 47 26) }] }
            q (0x3000 + hh) 0x30))) ∧
        (Store.wf ({} : Page) s.pages = true → ∃ u, exec (.withdraw q hh w) s = .next u ∧ u.hbm = s.hbm ∧ u.rooms = s.rooms ∧
          (∀ p ∈ span (bitsOf v.toNat 25 0) (bitsOf v.toNat 47 26), (u.page p).holder = 0 ∧
            (s.usableAt (p * 4096) = true → (u.page p).washing = true)) ∧
          ∀ p, p ∉ span (bitsOf v.toNat 25 0) (bitsOf v.toNat 47 26) → u.page p = s.page p))) ∧
    (isFloor stack = true →
      (s.nextWash stack = none → exec (.washPage stack) s = .next s) ∧
      (s.nextWash stack = some p → s.isWashing p = true → s.usableAt (p * 4096) = true →
        exec (.washPage stack) s = .next (s.keepQueue (((s.copyMove (p * 4096) 4096 true).hbmWrite
          (p * 4096) (List.replicate 4096 0)).1.markWashed p)) ∧
        (Store.wf ({} : Page) s.pages = true → Memory.wf s.hbm = true →
          (∀ x ∈ unitsOf (p * 4096) 4096, s.usableAt (x * 64) = true ∧ s.badUnits.contains x = false) →
          ∃ u, exec (.washPage stack) s = .next u ∧ u.hbmRead (p * 4096) 4096 = List.replicate 4096 0 ∧
            (u.page p).washing = false ∧ u.rooms = s.rooms ∧ u.suites = s.suites)) ∧
      (s.nextWash stack = some p → (s.isWashing p = false ∨ s.usableAt (p * 4096) = false) →
        exec (.washPage stack) s = .next (s.keepQueue (s.markWashed p)))) ∧
    (Served s q (0x3000 + hh) 0x20 4 → bitsOf u.toNat 31 24 = 1 → bitsOf u.toNat 23 22 < 3 →
      (bitsOf u.toNat 23 22 = 2 → s.pairRole ≠ 0) →
      bitOf (s.envModes hh) (bitsOf u.toNat 23 22) = true → s.houseActive hh = true → (s.house hh).st ≠ .closing →
      (s.suitesOf hh).length < s.envSuites hh → (List.range 256).find? (fun n => (s.suite n).st == .free) = some n →
      exec (.suiteRequest q hh u) s = .next (s.keepQueue (answered s
        ((s.modSuite n fun _ => { st := .empty, owner := hh, mode := modeOf (bitsOf u.toNat 23 22)
                                  rent := { created := s.time, upto := s.time } }).modHouse hh
          ({ · with suiteResult := BitVec.ofNat 32 (2 ^ 24 + n * 2 ^ 16 + bitsOf u.toNat 15 0) })) q (0x3000 + hh) 0x20))) ∧
    (Served s q (0x3000 + hh) 0x22 1 → s.houseActive hh = true → s.suiteOwner suite.toNat = some hh →
      s.contextsOf suite.toNat = [] → (s.suite suite.toNat).st ≠ .releasing →
      exec (.suiteRelease q hh suite) s = .next (s.keepQueue (answered s
        (s.modSuite suite.toNat ({ · with st := .releasing })) q (0x3000 + hh) 0x22)))

/-- FREEZE, THAW, SAVE, RESTORE, their ends, and RELEASE of a HELD Suite (R278, R280, R374). Either freeze of a household
without contexts is complete at once; a SAVE that ends well writes header, ciphertext and tag to the host in one piece, and
a RESTORE that ends well loads the household; both leave no image and tell the outcome in MIGRATION. -/
def Obligations.FreezeAndMigrate : Prop :=
  ∀ (s s1 s2 u t' : State) (q : Chan) (hh n cause : Nat) (w : W64) (key header rest body : List Byte), isHousehold hh = true →
    (Served s q (0x3000 + hh) 0x60 1 →
      ((s.house hh).st = .active ∨ (s.house hh).st = .freezing →
        exec (.atFreezePoint q hh) s = .next (s.keepQueue (answered s (s.freezeAtPoint hh) q (0x3000 + hh) 0x60)) ∧
        exec (.atNextBoundary q hh) s = .next (s.keepQueue (answered s (s.freezeNow hh) q (0x3000 + hh) 0x60)) ∧
        (s.contextsHeld hh = [] → (∃ t, exec (.atFreezePoint q hh) s = .next t ∧ (t.house hh).st = .frozen ∧
            (t.house hh).freezeAtPoint = true ∧ t.suites = s.suites ∧ t.contexts = s.contexts ∧ t.rooms = s.rooms) ∧
          (s.suitesOf hh = [] → ∃ t, exec (.atNextBoundary q hh) s = .next t ∧ (t.house hh).st = .frozen ∧
            (t.house hh).freezeAtPoint = false ∧ t.suites = s.suites ∧ t.contexts = s.contexts ∧ t.rooms = s.rooms))) ∧
      ((s.house hh).st = .active ∨ (s.house hh).st = .freezing ∨ (s.house hh).st = .frozen →
        exec (.thaw q hh) s = .next (s.keepQueue (answered s
          (((s.contextsHeld hh).foldl (fun s c => s.modCtx c fun x => if x.st == .frozen then { x with st := x.before } else x)
            s).modHouse hh ({ · with st := .active, freezeAtPoint := false })) q (0x3000 + hh) 0x60))) ∧
      ((s.house hh).st = .inactive ∨ (s.house hh).st = .closing →
        exec (.thaw q hh) s = .next (s.keepQueue (s.refuse q (0x3000 + hh) 0x60 0x08000022)))) ∧
    (s.security.alarm = false → s.keysPermitted = true → (s.house hh).image = none →
      (Served s q (0x3000 + hh) 0x61 8 → (s.house hh).st = .frozen → (s.migrationKey hh).isSome = true →
        exec (.save q hh w) s = .next (s.keepQueue (answered s
          (s.modHouse hh ({ · with image := some (w, true), migration := migrationWord 1 0 0 })) q (0x3000 + hh) 0x61))) ∧
      (Served s q (0x3000 + hh) 0x62 8 → (s.house hh).st = .active → s.contextsHeld hh = [] →
        exec (.restore q hh w) s = .next (s.keepQueue (answered s
          (s.modHouse hh ({ · with image := some (w, false), migration := migrationWord 3 0 0 })) q (0x3000 + hh) 0x62)))) ∧
    (isCause cause = true → s.failSilent = false →
      ((s.house hh).image = none → exec (.saveDone hh cause) s = .next s ∧ exec (.restoreDone hh cause) s = .next s) ∧
      ((s.house hh).image = some (w, true) → cause ≠ 0 →
        exec (.saveDone hh cause) s = .next (s.keepQueue (s.migrated hh (migrationWord 5 cause 0)))) ∧
      ((s.house hh).image = some (w, false) → cause ≠ 0 →
        exec (.restoreDone hh cause) s = .next (s.keepQueue (s.migrated hh (migrationWord 5 cause 0)))) ∧
      ((s.house hh).image = some (w, true) → exec (.saveDone hh 0) s = .next (s.keepQueue (s.saveImage hh w)) ∧
        (s.migrationKey hh = some key → (s.house hh).st = .frozen → s.hostLink (imageHall w) = true →
          ∃ t nonce, exec (.saveDone hh 0) s = .next t ∧ (t.house hh).image = none ∧
            (t.house hh).migration = migrationWord 2 0 0 ∧ t.rooms = s.rooms ∧ t.contexts = s.contexts ∧
            t.out = s.out ++ [.hostWrite (imageHall w) (imageAddr w) none (s.draw.2.imageHeader hh nonce ++
              (Config.gcmSeal key nonce (s.draw.2.imageHeader hh nonce) (s.draw.2.imageBody hh)).1 ++
              (Config.gcmSeal key nonce (s.draw.2.imageHeader hh nonce) (s.draw.2.imageBody hh)).2)])) ∧
      ((s.house hh).image = some (w, false) → exec (.restoreDone hh 0) s = .next (s.keepQueue (s.restoreImage hh w)) ∧
        (s.hostFetch (imageHall w) (imageAddr w) 64 = (.ok header, s1) → fieldOf header 0 1 = 1 → fieldOf header 1 1 = 1 →
          fieldOf header 2 2 = (s.imageSuites hh).length → 80 ≤ fieldOf header 8 8 →
          s.hostFetch (imageHall w) (imageAddr w + 64) (fieldOf header 8 8 - 64) = (.ok rest, s2) →
          u = { s2 with hostReads := removeFirst (fun x => x.is (imageHall w) (imageAddr w) 64 && x.ctx.isNone) s2.hostReads } →
          u.migrationKey hh = some key → Config.gcmOpen key ((header.drop 40).take 12) header
            (rest.take (fieldOf header 8 8 - 80)) (rest.drop (fieldOf header 8 8 - 80)) = some body →
          u.loadHousehold hh (fieldOf header 4 2) body = .ok t' →
          exec (.restoreDone hh 0) s = .next (s.keepQueue t') ∧ (t'.house hh).image = none ∧
            bitsOf (t'.house hh).migration.toNat 23 20 = 4))) ∧
    (isSuite n = true → Served s q (0x5100 + n) 4 1 → s.houseActive (s.suite n).owner = true → (s.suite n).held ≠ 0 →
      exec (.release q n) s = .next (s.keepQueue (answered s (s.modSuite n ({ · with held := 0 })) q (0x5100 + n) 4)))

/-- The changes of a Suite: with its own checks passed and the change accepted, each is answered and waits for the
boundary (R255 to R261). An accepted change waits behind the Suite's earlier ones, with the spares it makes necessary;
ACCEPTED_GEN rises, and the Suite's members stand until the boundary (R13, R14, R255, R259). A change is accepted when
the spares are found and the Rooms and the bandwidth fit (R164, R255). -/
def Obligations.SuiteChanges : Prop :=
  (∀ (s t : State) (q : Chan) (n : Nat) (v : BitVec 16) (w : W32) (port : BitVec 5) (data : List Byte) (y : Suite) (dup sp : Bool)
     (l rooms : List (Option Nat × Option Nat)) (named chosen : List Nat), isSuite n = true → s.suiteOpen n = none →
     y = (s.suite n).projected → dup = decide ((s.suite n).mode = .duplex) → sp = bitOf (fieldOf data 2 1) 0 →
     (Served s q (0x3100 + n) 0x10 data.length → l = addEntries dup data → named = copyOf 0 l ++ copyOf 1 l →
       fieldOf data 0 1 = 1 → fieldOf data 1 1 ≠ 0 → fieldOf data 1 1 ≤ 64 → data.length = 4 + 4 * fieldOf data 1 1 →
       (sp = true → (s.suite n).protected = true) → (dup = true → ∀ r ∈ copyOf 0 l, hallOfRoom r = 0) →
       (∀ r ∈ copyOf 1 l, hallOfRoom r = 1) →
       (∀ r ∈ named, s.foreignRoom n r = false ∧ r < 1280 ∧ s.roomFree y.lanes r = true) → named.Nodup →
       s.fill y l named = some rooms → chosen = (copyOf 0 rooms ++ copyOf 1 rooms).filter (fun r => !named.contains r) →
       (s.acceptChange n (.add sp rooms false) named chosen = .ok (t, true) →
         exec (.roomAdd q n data) s = .next (s.keepQueue (answered s t q (0x3100 + n) 0x10))) ∧
       (Accepts s n (.add sp rooms false) named chosen →
         ∃ u, exec (.roomAdd q n data) s = .next u ∧ Queued s u n (.add sp rooms false))) ∧
     (Served s q (0x3100 + n) 0x11 2 → v.toNat ≤ y.ordinals →
       (s.acceptChange n (.remove v.toNat) [] [] = .ok (t, true) →
         exec (.roomRemove q n v) s = .next (s.keepQueue (answered s t q (0x3100 + n) 0x11))) ∧
       (Accepts s n (.remove v.toNat) [] [] →
         ∃ u, exec (.roomRemove q n v) s = .next u ∧ Queued s u n (.remove v.toNat))) ∧
     (Served s q (0x3100 + n) 0x11 2 → y.ordinals < v.toNat →
       exec (.roomRemove q n v) s = .next (s.keepQueue (s.refuse q (0x3100 + n) 0x11 0x06090031))) ∧
     (Served s q (0x3100 + n) 0x12 4 → s.foreignRoom n (bitsOf w.toNat 10 0) = false →
       (bitsOf w.toNat 31 31 = 0 ∨ dup = true) → (dup = true → hallOfRoom (bitsOf w.toNat 10 0) = bitsOf w.toNat 31 31) →
       bitsOf w.toNat 30 20 < y.rooms.length + y.spares.length → bitsOf w.toNat 10 0 < 1280 →
       s.roomFree y.lanes (bitsOf w.toNat 10 0) = true →
       (s.acceptChange n (.move (bitsOf w.toNat 31 31) (bitsOf w.toNat 30 20) (bitsOf w.toNat 10 0)) [bitsOf w.toNat 10 0] [] =
           .ok (t, true) →
         exec (.roomMove q n w) s = .next (s.keepQueue (answered s t q (0x3100 + n) 0x12))) ∧
       (Accepts s n (.move (bitsOf w.toNat 31 31) (bitsOf w.toNat 30 20) (bitsOf w.toNat 10 0)) [bitsOf w.toNat 10 0] [] →
         ∃ u, exec (.roomMove q n w) s = .next u ∧
           Queued s u n (.move (bitsOf w.toNat 31 31) (bitsOf w.toNat 30 20) (bitsOf w.toNat 10 0)))) ∧
     (v.toNat ≤ 128 - s.groupSize 3 → s.groupName v.toNat = v.toNat →
       (Served s q (0x3100 + n) 0x13 2 → (dup = true → v.toNat < 64) →
         (∀ g ∈ (s.suite n).boundNames v.toNat, s.groupOk g = true) →
         (s.acceptChange n (.bindGroup v.toNat) [] [] = .ok (t, true) →
           exec (.groupBind q n v) s = .next (s.keepQueue (answered s t q (0x3100 + n) 0x13))) ∧
         (Accepts s n (.bindGroup v.toNat) [] [] →
           ∃ u, exec (.groupBind q n v) s = .next u ∧ Queued s u n (.bindGroup v.toNat))) ∧
       (Served s q (0x3100 + n) 0x14 2 → v.toNat ∈ y.groups →
         (s.acceptChange n (.unbindGroup v.toNat) [] [] = .ok (t, true) →
           exec (.groupUnbind q n v) s = .next (s.keepQueue (answered s t q (0x3100 + n) 0x14))) ∧
         (Accepts s n (.unbindGroup v.toNat) [] [] →
           ∃ u, exec (.groupUnbind q n v) s = .next u ∧ Queued s u n (.unbindGroup v.toNat)))) ∧
     (Served s q (0x3100 + n) 0x15 1 → (port.toNat < 12 ∨ 16 ≤ port.toNat ∧ port.toNat < 20) →
       ((16 ≤ port.toNat → s.portHolder n port.toNat = none) → bitOf (s.envPorts (s.suite n).owner) port.toNat = true →
         (s.acceptChange n (.bindPort port.toNat) [] [] = .ok (t, true) →
           exec (.portBind q n port) s = .next (s.keepQueue (answered s t q (0x3100 + n) 0x15))) ∧
         (Accepts s n (.bindPort port.toNat) [] [] →
           ∃ u, exec (.portBind q n port) s = .next u ∧ Queued s u n (.bindPort port.toNat))) ∧
       (port.toNat ∈ y.ports →
         (s.acceptChange n (.unbindPort port.toNat) [] [] = .ok (t, true) →
           exec (.portUnbind q n port) s = .next (s.keepQueue (answered s t q (0x3100 + n) 0x15))) ∧
         (Accepts s n (.unbindPort port.toNat) [] [] →
           ∃ u, exec (.portUnbind q n port) s = .next u ∧ Queued s u n (.unbindPort port.toNat))))) ∧
  ∀ (s : State) (n : Nat) (c : Change) (named chosen : List Nat),
    (∀ t now, s.acceptChange n c named chosen = .ok (t, now) → now = true ∧ Queued s t n c ∧
      s.bandwidthFits n { t.suite n with acceptedGen := (s.suite n).acceptedGen } = true) ∧
    (Accepts s n c named chosen ↔ ∃ t, s.acceptChange n c named chosen = .ok (t, true))

/-- The Configuration Landing, the end of a Whitewash and the wait for equal PAIRED settings (R262, R263, R268). At the
boundary a Suite being released is freed, and another takes its changes; where they only set values, groups and ports, and
every member Room still serves, the Landing is complete at once: nothing waits, the groups, ports and lanes are the new
ones, and APPLIED_GEN and APPLIED_TIME say so. A Room that has passed its Whitewash holds nothing of what it held, and the
last one completes the Landing. -/
def Obligations.ConfigurationEvents : Prop :=
  ∀ (s : State) (n r g : Nat) (x y : Suite),
    (isSuite n = true →
      ((s.suite n).draining = false → (s.suite n).st = .releasing → (s.suite n).step = none → exec (.configurationLanding n) s =
        .next (s.keepQueue ((s.finishRelease n).progressClosing (s.suite n).owner)) ∧
        (Store.wf ({} : Suite) s.suites = true → (s.house (s.suite n).owner).st ≠ .closing →
          ∃ t, exec (.configurationLanding n) s = .next t ∧ (t.suite n).st = .free ∧ (t.suite n).step = none ∧
            (t.suite n).rooms = [] ∧ (t.suite n).groups = [] ∧ (t.suite n).ports = [])) ∧
      ((s.suite n).draining = false → (s.suite n).st ≠ .releasing → exec (.configurationLanding n) s =
        .next (s.keepQueue ((s.configure n).progressClosing (s.suite n).owner))) ∧
      ((s.suite n).step ≠ none → s.configure n = s) ∧
      (∀ h, (s.house h).st ≠ .closing → s.progressClosing h = s) ∧
      (x = s.suite n → y = x.changes.foldl Suite.applyChange x → x.draining = false → x.step = none → x.st ≠ .free →
        x.st ≠ .releasing → x.applying = none → x.mode = .simplex → x.changes ≠ [] →
        (∀ c ∈ x.changes, c.places = false) → x.spares = [] → y.cache = x.cache → x.refill = false →
        (∀ q ∈ x.allRooms, (s.room q).usable = true ∧ y.lanes ≤ (s.room q).bricksUp ∧ (s.room q).cutOff = false ∧
          (s.room q).joining = false) → (s.house x.owner).st ≠ .closing →
        ∃ t, exec (.configurationLanding n) s = .next t ∧ (t.suite n).changes = [] ∧ (t.suite n).applying = none ∧
          (t.suite n).groups = y.groups ∧ (t.suite n).ports = y.ports ∧ (t.suite n).lanes = y.lanes ∧
          (t.suite n).rooms = x.rooms ∧ (t.suite n).acceptedGen = x.acceptedGen ∧
          (t.suite n).appliedGen = x.acceptedGen ∧ (t.suite n).appliedTime = s.time ∧ t.hbm = s.hbm)) ∧
    (isSuite n = true → s.asleep = false → s.failSilent = false →
      ((s.suite n).mode = .paired → (s.suite n).waitSince ≠ 0 → (s.suite n).settingsRecorded = false →
        (s.suite n).waitSince + 100000000 ≤ s.time → ∃ t, exec (.pairedSettingsWait n) s = .next t ∧
          (t.suite n).settingsRecorded = true ∧ t.rooms = s.rooms ∧ t.contexts = s.contexts ∧ t.households = s.households) ∧
      (((s.suite n).mode ≠ .paired ∨ s.time < (s.suite n).waitSince + 100000000) →
        exec (.pairedSettingsWait n) s = .next s)) ∧
    (isRoom r = true →
      (((s.room r).joining = false ∨ (s.room r).power = .doze) → exec (.roomWhitewashComplete r true) s = .next s ∧
        exec (.roomWhitewashComplete r false) s = .next s) ∧
      ((s.room r).joining = true → (s.room r).power ≠ .doze → s.suiteOf r = some n →
        exec (.roomWhitewashComplete r true) s = .next (s.keepQueue
          ((s.modRoom r fun x => { x.cleared with joining := false }).finishLanding n)) ∧
        exec (.roomWhitewashComplete r false) s = .next (s.keepQueue ((s.whitewashFailed r).finishLanding n)) ∧
        ((s.suite n).applying = none → exec (.roomWhitewashComplete r true) s =
          .next (s.modRoom r fun x => { x.cleared with joining := false })) ∧
        ((s.suite n).applying = some g → (s.suite n).moves = [] →
          (∀ q ∈ (s.suite n).allRooms, q ≠ r → (s.room q).joining = false) →
          ∃ t, exec (.roomWhitewashComplete r true) s = .next t ∧
            t.room r = { (s.room r).cleared with joining := false } ∧ (t.suite n).applying = none ∧
            (t.suite n).appliedGen = g ∧ (t.suite n).appliedTime = s.time ∧ (∀ q, q ≠ r → t.room q = s.room q)))) ∧
    ∀ x : Room, x.cleared.pantry = [] ∧ x.cleared.microStore = [] ∧ (∀ b, (x.cleared.brick b).hod = []) ∧
      x.cleared.foreman = {} ∧ x.cleared.member = x.member

/-! ### The dictionary's channels (R284 to R306) -/

/-- Object writes and reads, window channels, CAN FD frames, tunnels, and the answers that time brings (R284 to R302).
-/
def Obligations.ChannelCommands : Prop :=
  ∀ (s t : State) (q : Chan) (i sub c h n node : Nat) (data b : List Byte) (f : Frame) (x : Segments) (ch : WindowChannel)
    (w : Withheld) (plane nd hh : Nat),
    (Served s q i sub data.length → actFor q i sub data s = .ok (t, true) →
      exec (.registerWrite q (.object i sub) data) s = .next (s.keepQueue (answered s t q i sub))) ∧
    (isChan q = true → isHall h = true → isQueue n = true →
      exec (.registerWrite q (.frame h n f) data) s =
        .next (if s.hostServes h then s.modChannel h n ({ · with request := f }) else s)) ∧
    (isChan q = true → isHall h = true → s.hostServes h = true → data ≠ [] → data.length ≤ 8 →
      exec (.registerWrite q (.bar0 h 0x20) data) s = .next (s.modHall h ({ · with
        bar4Base := patchNat 8 (s.hall h).bar4Base 0 data % 2 ^ 38 / 2 ^ s.bar4Log2 h * 2 ^ s.bar4Log2 h }))) ∧
    (isChan q = true → isHall h = true → s.asleep = false → s.hostLink h = true → n ≤ 4 →
      exec (.registerWrite q (.bar0Read h 0x18 n) data) s = .next (s.emit (.hostAnswer h true false
        ((leBytes 4 (s.hall h).drops).take n)))) ∧
    (isChan q = true → s.asleep = false → s.chanDead q = false →
      (sub ≠ 0xFF → s.readObject q i sub = (0, b, t) →
        exec (.upload q i sub) s = .next (s.keepQueue (t.reply q i sub 0 b)) ∧
        ∃ u, exec (.upload q i sub) s = .next u ∧ Output.answer q i sub 0 b ∈ u.out) ∧
      (sub ≠ 0xFF → c ≠ 0 → s.unreadable q i sub = some c →
        exec (.upload q i sub) s = .next (s.keepQueue (s.refuse q i sub c))) ∧
      (isSingle i = false → s.gate q i 0 false = none → ((s.beforeRead q i).wholeIndex q i).length ≤ 8192 →
        exec (.wholeIndexUpload q i) s = .next (s.keepQueue
          ((s.beforeRead q i).reply q i 0xFF 0 ((s.beforeRead q i).wholeIndex q i)))) ∧
      (isSingle i = false → s.gate q i 0 false = none → 8192 < ((s.beforeRead q i).wholeIndex q i).length →
        exec (.wholeIndexUpload q i) s = .next (s.keepQueue (s.refuse q i 0xFF 0x05040005)))) ∧
    (isHall h = true → isQueue n = true → ch = Store.get {} (s.hall h).channels n →
      (s.hostServes h = false → exec (.windowGo h n) s = .next s) ∧
      (s.hostServes h = true → ch.busy = true → exec (.windowGo h n) s = .next (s.keepQueue (s.bump 0x2900 6 32))) ∧
      (s.hostServes h = true → ch.busy = false →
        (ctlRemote ch.control = false ∨ ctlPlane ch.control = s.plane ∧ ctlNode ch.control = s.node) →
        exec (.windowGo h n) s = .next (s.keepQueue ((s.modChannel h n fun _ =>
          { ch with copied := ch.request, busy := true, done := false, lost := false }).serve (.window h n) ch.request)) ∧
        (ch.request = .empty → ∃ u, exec (.windowGo h n) s = .next u ∧ u.rooms = s.rooms ∧ u.suites = s.suites ∧ u.dict = s.dict ∧
          Store.get {} (u.hall h).channels n = { ch with copied := .empty, response := .abort 0x05040001, busy := false, done := true
                                                         lost := false, tunnelAt := none, tunnelPort := none })) ∧
      (s.hostServes h = true → ch.busy = false → ctlRemote ch.control = true →
        ¬ (ctlPlane ch.control = s.plane ∧ ctlNode ch.control = s.node) →
        t = s.modChannel h n (fun _ => { ch with copied := ch.request, busy := true, done := false, lost := false }) →
        exec (.windowGo h n) s = .next (s.keepQueue ((if frameInitiates ch.request then t.displace (.window h n) else t).tunnelOut
          h n { ch with copied := ch.request, busy := true, done := false, lost := false }))) ∧
      (ch.tunnelAt = none → exec (.tunnelTimeout h n) s = .next s) ∧
      (∀ t0, ch.tunnelAt = some t0 →
        (s.time < t0 + 10000000 → exec (.tunnelTimeout h n) s = .next s) ∧
        (t0 + 10000000 ≤ s.time →
          exec (.tunnelTimeout h n) s = .next (s.keepQueue (s.reply (.window h n) 0 0 0x05040000 []))))) ∧
    (isHall h = true → isNode node = true →
      (s.canAlive h = true → (s.hall h).nmt ≠ .stopped →
        exec (.usdoFrame h node f) s = .next (s.keepQueue (s.serve (.can h node) f)) ∧
        (∀ e ∈ [Frame.empty, .reply data, .broadcast, .routed], ∃ u, exec (.usdoFrame h node e) s = .next u ∧
          Output.usdo h node (.abort 0x05040001) ∈ u.out ∧ u.rooms = s.rooms ∧ u.suites = s.suites ∧ u.dict = s.dict)) ∧
      (s.canAlive h = true → (s.hall h).nmt = .stopped → s.failSilent = false → exec (.usdoFrame h node f) s = .next s) ∧
      (s.canAlive h = false → exec (.usdoFrame h node f) s = .next s)) ∧
    (s.asleep = false → s.failSilent = false →
      (s.tunnelAdmits plane nd hh = true →
        exec (.tunnelRequest 1 plane nd hh f) s = .next (s.keepQueue (s.serve (.tunnel plane nd hh) f)) ∧
        (∀ e ∈ [Frame.empty, .reply data, .broadcast, .routed], ∃ u, exec (.tunnelRequest 1 plane nd hh e) s = .next u ∧
          Output.tunnelAnswer plane nd (.abort 0x05040001) ∈ u.out ∧ u.rooms = s.rooms ∧ u.suites = s.suites ∧
          u.dict = s.dict)) ∧
      (s.tunnelAdmits plane nd hh = false → exec (.tunnelRequest 1 plane nd hh f) s =
        .next (s.keepQueue (s.refuse (.tunnel plane nd hh) (frameNames f).1 (frameNames f).2 0x06010000))) ∧
      exec (.tunnelRequest 2 plane nd hh f) s =
        .next (s.keepQueue (s.replyFrame (.tunnel plane nd hh) (.abort 0x06090030)))) ∧
    (isChan q = true →
      (s.session q = none → exec (.segmentTimeout q) s = .next s) ∧
      (s.session q = some x → s.time < x.last + 1000000000 → exec (.segmentTimeout q) s = .next s) ∧
      (s.session q = some x → x.last + 1000000000 ≤ s.time → exec (.segmentTimeout q) s =
        .next (s.keepQueue ((s.endSession q).reply q x.index x.sub 0x05040000 [])))) ∧
    (s.withheld[n]? = none → exec (.notPermittedAnswer n) s = .next s) ∧
    (s.withheld[n]? = some w →
      (s.time < w.arrived + 50000 → exec (.notPermittedAnswer n) s = .next s) ∧
      (w.arrived + 50000 ≤ s.time → exec (.notPermittedAnswer n) s = .next (s.keepQueue
        ((State.reply { s with withheld := s.withheld.take n ++ s.withheld.drop (n + 1) } w.chan w.index w.sub 0x06010000
          []).bump 0x2900 5 32))))

/-- The CAN FD device of a Hall: NMT resets and states, heartbeats, and the controller's error state (R296, R297,
R442). -/
def Obligations.CanDevice : Prop :=
  ∀ (s : State) (h : Nat) (st : NmtState) (e : CanState), isHall h = true → s.asleep = false →
    (s.failSilent = false → 2 ≤ (s.hall h).up.stage → ∀ i, i = .nmtResetApplication h ∨ i = .nmtResetCommunication h →
      exec i s = .next (s.keepQueue (((s.modHall h fun x => { x with
        can := .active, nmt := .preOperational, sessions := x.sessions.filter fun y => !isCan y.chan }).emit
          (.canBootUp h)).refresh))) ∧
    (s.canAlive h = true → s.failSilent = false →
      exec (.nmtStateCommand h st) s = .next (s.modHall h ({ · with nmt := st }))) ∧
    (s.canAlive h = true → s.dictGet 0x1017 0 ≠ 0 →
      exec (.heartbeat h) s = .next (s.emit (.heartbeat h (s.hall h).nmt))) ∧
    (s.dictGet 0x1017 0 = 0 → exec (.heartbeat h) s = .next s) ∧
    exec (.canErrorState h e) s = .next (s.keepQueue ((s.modHall h ({ · with can := e })).refresh))

/-! ### The coherence protocol (R178 to R189) -/

/-- What the home does with a message: requests, evictions by caches, and the ends of transactions (R148, R182 to R185). -/
def Obligations.HomeMessages : Prop :=
  ∀ (s t u : State) (r l k p : Nat) (m : CohMsg) (e : DirEntry) (x : Txn) (b : List Byte), isRoom r = true →
    (∀ i kind, (i, kind) ∈ [(Instr.gets r l, CohKind.gets), (.getm r l, .getm), (.putm r l, .putm), (.pute r l, .pute),
      (.puts r l, .puts), (.fwdAck r l, .fwdAck), (.data r l, .data), (.nack r l, .nack), (.putAck r l, .putAck)] →
      s.takeMsg kind r l = none → exec i s = .next s) ∧
    (∀ i kind, (i, kind) ∈ [(Instr.gets r l, CohKind.gets), (.getm r l, .getm)] → s.takeMsg kind r l = some (m, t) →
      (t.keptOut r l = true ∨ ∃ k e, t.dirFind l = some (k, e) ∧ e.txn.isSome = true) →
      exec i s = .next (s.keepQueue (t.nackRequest r l)) ∧
      (t.nackRequest r l).net = t.net ++ [{ kind := .nack, room := r, line := l }] ∧
      (t.nackRequest r l).directory = s.directory) ∧
    (s.takeMsg .gets r l = some (m, t) → t.keptOut r l = false →
      (t.dirFind l = none → (dirKeys l).find? (fun k => (Store.get none t.directory k).isNone) = some k →
        u = (t.accept r l false).setDir k (some { line := l, st := .excl, owner := r, stamp := (t.accept r l false).dirStamp
                                                  txn := some { requester := some r, exclusive := false } }) →
        exec (.gets r l) s = .next (s.keepQueue (State.dataFromHbm { u with dirStamp := u.dirStamp + 1 } r l .e 0))) ∧
      (t.dirFind l = some (k, e) → e.txn = none → ∃ u, exec (.gets r l) s = .next u ∧ u = s.keepQueue (t.getsEntry k e r) ∧
        Store.get none u.directory k =
          some { e with txn := some { requester := some r, exclusive := false, fwdAckDue := e.st == .excl } } ∧
        u.net = t.net ++ [if e.st = .shared then
          { kind := .data, room := r, line := l, bytes := some (s.hbmRead (l * 128) 128), take := .s, count := 0
            poisoned := (t.accept r l false).poisonedAt (l * 128) 128 }
          else { kind := .fwdGets, room := e.owner, line := l, peer := some r }])) ∧
    (s.takeMsg .getm r l = some (m, t) → t.keptOut r l = false →
      (t.dirFind l = none → exec (.getm r l) s = .next (s.keepQueue (t.allocate r l true))) ∧
      (t.dirFind l = some (k, e) → e.txn = none → ∃ u, exec (.getm r l) s = .next u ∧ u = s.keepQueue (t.getmEntry k e r) ∧
        Store.get none u.directory k = some { e with txn := some { requester := some r, exclusive := true } } ∧
        (e.st = .excl → u.net = t.net ++ [{ kind := .fwdGetm, room := e.owner, line := l, peer := some r, count := 0 }]) ∧
        (e.st = .shared → e.lists r = true → u.net = t.net ++
          (e.sharers.rooms.filter (· != r)).map (fun q => { kind := .inv, room := q, line := l, peer := some r }) ++
          [{ kind := .data, room := r, line := l, take := .m, count := (e.sharers.rooms.filter (· != r)).length }]))) ∧
    (∀ i kind, (i, kind) ∈ [(Instr.putm r l, CohKind.putm), (.pute r l, .pute), (.puts r l, .puts)] →
      s.takeMsg kind r l = some (m, t) → t.dirFind l = some (k, e) → e.knows kind r = true →
      kind = .putm ∧ m.bytes = none ∨ kind ≠ .putm →
      exec i s = .next (s.keepQueue (((t.setDir k (e.without r)).send
        { kind := .putAck, room := r, line := l, stale := false }).serveWaiters)) ∧
      (s.waiters = [] → ∃ u, exec i s = .next u ∧ u.directory = Store.set none s.directory k (e.without r) ∧
        u.net = t.net ++ [{ kind := .putAck, room := r, line := l, stale := false }] ∧ u.hbm = s.hbm ∧ u.rooms = s.rooms)) ∧
    (s.takeMsg .putm r l = some (m, t) → t.dirFind l = some (k, e) → e.knows .putm r = true → m.bytes = some b →
      (t.hbmWrite (l * 128) b = (u, true) → exec (.putm r l) s = .next (s.keepQueue (((u.setDir k (e.without r)).send
        { kind := .putAck, room := r, line := l, stale := false }).serveWaiters))) ∧
      (t.hbmWrite (l * 128) b = (u, false) → exec (.putm r l) s = .next (s.keepQueue ((((u.setDir k (e.without r)).send
        { kind := .putAck, room := r, line := l, stale := false }).serveWaiters).hardwareFault r)))) ∧
    (s.takeMsg .putm r l = some (m, t) → (t.dirFind l = none ∨ ∃ k e, t.dirFind l = some (k, e) ∧ e.knows .putm r = false) →
      exec (.putm r l) s = .next (s.keepQueue (t.send { kind := .putAck, room := r, line := l, stale := true }))) ∧
    (s.ackDue l = true → exec (.done r l) s = .next s) ∧
    (s.ackDue l = false → s.takeMsg .done r l = some (m, t) → t.dirFind l = some (k, e) → e.txn = some x →
      x.requester = some r → exec (.done r l) s = .next (s.keepQueue ((t.setDir k (some (e.closed x r))).serveWaiters)) ∧
      (s.waiters = [] → exec (.done r l) s = .next (s.keepQueue (t.setDir k (some (e.closed x r)))))) ∧
    (s.takeMsg .fwdAck r l = some (m, t) → t.dirFind l = some (k, e) → e.txn = some x → x.fwdAckDue = true →
      x.evicting = false → x.requester = some p → exec (.fwdAck r l) s = .next (s.keepQueue (t.setDir k (some
        { e with txn := some { x with fwdAckDue := false, ownerWasM := m.wasM, data := none } }))))

/-- What owners, sharers and requesters do with a message, which first ungates the Room that it reaches (R151, R178, R179,
R182 to R185, R189, R308, R316). -/
def Obligations.CacheMessages : Prop :=
  ∀ (s t u v : State) (r l p set : Nat) (m : CohMsg) (x : CacheLine) (ms : Miss) (st : Moesi), isRoom r = true →
    ((t.room r).isParked = true → t.reachRoom r = t.bump (0x2420 + r / 320) 9 32) ∧
    ((t.room r).isParked = false → t.reachRoom r = t.modRoom r fun y => { y with power := y.power.ungate }) ∧
    (s.takeMsg .fwdGets r l = some (m, t) → u = t.reachRoom r → (u.room r).cache.held l = some x → m.peer = some p →
      v = (u.send { kind := .data, room := p, line := l, peer := some r, bytes := some x.data, take := .s
                    count := m.count }).modCache r
        (·.served l (fun y => some { y with st := if isDirty y.st then .o else .s }) fun _ => .o) →
      exec (.fwdGets r l) s = .next (s.keepQueue
        (if u.ackDue l then v.send { kind := .fwdAck, room := r, line := l, wasM := x.st == .m } else v))) ∧
    (s.takeMsg .fwdGetm r l = some (m, t) → u = t.reachRoom r → (u.room r).cache.held l = some x → m.peer = some p →
      exec (.fwdGetm r l) s = .next (s.keepQueue (((u.send { kind := .data, room := p, line := l, peer := some r
                                                             bytes := some x.data, take := .m, count := m.count }).modCache r
        (·.served l (fun _ => none) fun _ => .s)).wakeRoom r l))) ∧
    (s.takeMsg .fwdGetm r l = some (m, t) → u = t.reachRoom r → (u.room r).cache.held l = none → m.peer = some p →
      ∃ v, exec (.fwdGetm r l) s = .next v ∧ v.net = t.net ++ [{ kind := .data, room := p, line := l, peer := some r
                                                                 bytes := some (s.hbmRead (l * 128) 128), take := .m
                                                                 count := m.count }]) ∧
    (s.takeMsg .recall r l = some (m, t) → u = t.reachRoom r → (u.room r).cache.held l = some x →
      exec (.recall r l) s = .next (s.keepQueue (((u.modCache r (·.served l (fun _ => none) fun _ => .s)).send
        { kind := .fwdAck, room := r, line := l, wasM := isDirty x.st, bytes := some x.data }).wakeRoom r l))) ∧
    (s.takeMsg .inv r l = some (m, t) → u = t.reachRoom r →
      ((u.room r).cache.line? l = none →
        exec (.inv r l) s = .next (s.keepQueue (u.send { kind := .invAck, room := r, line := l, peer := m.peer }))) ∧
      ((u.room r).cache.line? l = some x → x.st ≠ .s →
        exec (.inv r l) s = .next (s.keepQueue (u.send { kind := .invAck, room := r, line := l, peer := m.peer }))) ∧
      ((u.room r).cache.line? l = some x → x.st = .s → exec (.inv r l) s = .next (s.keepQueue
        (((u.modCache r (·.mapLine l fun _ => none)).wakeRoom r l).send
          { kind := .invAck, room := r, line := l, peer := m.peer })))) ∧
    (s.takeMsg .data r l = some (m, t) → u = t.reachRoom r → (u.room r).cache.miss = some ms →
      (ms.line ≠ l → exec (.data r l) s = .next (s.keepQueue u)) ∧
      (ms.line = l → m.poisoned = true → exec (.data r l) s = .next (s.keepQueue
        ((((u.modCache r fun c => { c with miss := none }).send { kind := .done, room := r, line := l }).send
          { kind := if m.take = .s then .puts else .pute, room := r, line := l }).hardwareFault r))) ∧
      (ms.line = l → m.poisoned = false → exec (.data r l) s = .next (s.keepQueue ((u.modMiss r l fun y =>
        { y with granted := some m.take, data := m.bytes, acksDue := some m.count }).settleMiss r)) ∧
        (m.bytes = some x.data → x.addr = l → x.st = m.take → m.count ≤ ms.acks → Store.wf ({} : Room) s.rooms = true →
          set = setOf (cacheSets (u.portion r)) l → ∃ v, exec (.data r l) s = .next v ∧
          (v.room r).cache = Cache.install { (s.room r).cache with miss := none } set x ∧
          v.net = t.net ++ [{ kind := .done, room := r, line := l }] ∧ v.hbm = s.hbm ∧ v.directory = s.directory))) ∧
    (s.takeMsg .invAck r l = some (m, t) → m.peer = some p → u = t.reachRoom p →
      exec (.invAck r l) s = .next (s.keepQueue ((u.modMiss p l fun y => { y with acks := y.acks + 1 }).settleMiss p))) ∧
    (s.takeMsg .nack r l = some (m, t) → u = t.reachRoom r → (u.room r).cache.miss = some ms → ms.line = l →
      ms.nacks + 1 ≠ 8 → exec (.nack r l) s = .next (s.keepQueue (u.modMiss r l fun y =>
        { y with nacks := ms.nacks + 1, retryAt := s.time + 32 * 2 ^ min ms.nacks 5 }))) ∧
    ((s.room r).cache.miss = some ms → ms.line = l → ms.retryAt ≠ 0 →
      (s.time < ms.retryAt → exec (.nackRetry r l) s = .next s) ∧
      (ms.retryAt ≤ s.time → exec (.nackRetry r l) s = .next (s.keepQueue ((s.modMiss r l ({ · with retryAt := 0 })).send
        { kind := if ms.exclusive then .getm else .gets, room := r, line := l })))) ∧
    (s.takeMsg .putAck r l = some (m, t) → exec (.putAck r l) s = .next (s.keepQueue ((t.reachRoom r).modCache r fun c =>
      { c with writeBack := removeFirst (·.addr == l) c.writeBack }))) ∧
    ((s.room r).cache.miss = some ms → ms.granted = some st → ms.acksDue = some p → p ≤ ms.acks →
      set = setOf (cacheSets (s.portion r)) ms.line → ms.data = some x.data → x.addr = ms.line → x.st = st →
      s.settleMiss r = (s.modCache r fun c => Cache.install { c with miss := none } set x).send
        { kind := .done, room := r, line := ms.line })

/-! ### HBM, its queues and its answers (R149 to R171, R186, R242, R243) -/

/-- A waiting request issues with tokens and room; levels are published; the controller schedules, refreshes and
completes accesses; the scrub asks for its unit; answers reach what waits for them (R148 to R157, R160 to R171, R186,
R242, R243, R447). -/
def Obligations.MemoryEvents : Prop :=
  ∀ (s t : State) (p stack hall a len k st' pc need lane : Nat) (q : MemReq) (rest : List MemReq) (kind : AccKind) (w : Waiter)
    (c : Completion) (x : RemoteReq) (b : List Byte) (d : Option Nat) (cl : Bool) (g : Regulator),
    (isMaster p = true → t = s.refill p →
      (t.nextRequest p = none → exec (.portRegulatorIssue p) s = .next (s.keepQueue t)) ∧
      (t.nextRequest p = some q → (t.reg p).tokens < (q.len + 63) / 64 * 256000 →
        exec (.portRegulatorIssue p) s = .next (s.keepQueue t)) ∧
      (t.nextRequest p = some q → t.mayIssue p q = false → exec (.portRegulatorIssue p) s = .next (s.keepQueue t)) ∧
      (t.nextRequest p = some q → need = (q.len + 63) / 64 * 256000 → need ≤ (t.reg p).tokens → t.mayIssue p q = true →
        t.deadlineAt (t.portSetting p) q = (d, cl) → pc = t.pcOf q.lpa →
        exec (.portRegulatorIssue p) s = .next (s.keepQueue ((t.modReg p (·.issued p t.time need q cl)).modPc pc fun y =>
          { y with queue := y.queue ++
              accessesOf { q with cls := regClass (t.portSetting p), deadline := d, arrival := t.time } })))) ∧
    (isCopyPort p = false → s.nextRequest p = (s.reg p).waiting.head?) ∧
    ((g.issued p k need q cl).tokens = g.tokens - need ∧ (g.issued p k need q cl).waiting = removeFirst (· == q) g.waiting ∧
      (g.issued p k need q cl).granted = satAdd 64 g.granted q.len ∧ (g.issued p k need q cl).misses = g.misses ∧
      (g.issued p k need q cl).clamped = if cl then satAdd 32 g.clamped 1 else g.clamped) ∧
    (regClass k ≠ 0 → s.deadlineAt k q = (none, false)) ∧
    (isFloor stack = true → exec (.congestionPublish stack) s = .next (s.keepQueue (s.publishLevels stack)) ∧
      (s.publishLevels stack).dict = s.dict ∧ (s.publishLevels stack).hbm = s.hbm ∧ (s.publishLevels stack).pcs = s.pcs ∧
      (Store.wf (0 : Nat) s.levels = true → ∀ j < 32 / s.groupSize stack,
        Store.get 0 (s.publishLevels stack).levels (stack * 32 + j * s.groupSize stack) =
          s.groupLevel (stack * 32 + j * s.groupSize stack)) ∧
      (a = stack * 2 ^ 36 + (s.floor stack).scrub * 64 → pc = s.pcOf a →
        ((s.pc pc).admits 3 1 = false → exec (.patrolScrub stack) s = .next s) ∧
        ((s.pc pc).admits 3 1 = true → t = (s.modPc pc fun y => { y with queue := y.queue ++
            [{ port := controllerPort, lpa := a, len := 64, write := false, cls := 3, arrival := s.time }] }) →
          ((s.floor stack).scrub + 1 < stackUnits → exec (.patrolScrub stack) s =
            .next (s.keepQueue (t.modFloor stack ({ · with scrub := (s.floor stack).scrub + 1 })))) ∧
          (stackUnits ≤ (s.floor stack).scrub + 1 → exec (.patrolScrub stack) s =
            .next (s.keepQueue ((t.modFloor stack ({ · with scrub := 0 })).bump (0x2601 + stack) 5 32)))))) ∧
    (s.heldAnswers = [] → s.removals = [] → s.releaseAnswers = s) ∧
    (isPc p = true → t = s.modPc p (PseudoChannel.admitRewrites controllerPort s.time) →
      exec (.hbmRefresh p) s =
        .next (s.modPc p fun y => { y with refreshDue := y.refreshDue + (s.floor (p / 32)).refresh }) ∧
      ((t.pc p).inService.isSome = true → exec (.pcSchedule p) s = .next (s.keepQueue t.releaseAnswers)) ∧
      ((t.pc p).inService = none → 0 < (t.pc p).refreshDue → (t.pc p).queue.filter (·.urgent t.time) = [] →
        exec (.pcSchedule p) s = .next (s.keepQueue (t.modPc p PseudoChannel.refreshed).releaseAnswers)) ∧
      ((t.pc p).inService = none → (t.pc p).refreshDue = 0 → t.groupOk (t.groupName p) = false → (t.pc p).queue = q :: rest →
        exec (.pcSchedule p) s = .next (s.keepQueue ((t.modPc p ({ · with queue := rest })).dropAccess p q).releaseAnswers)) ∧
      ((t.pc p).inService = none → (t.pc p).refreshDue = 0 → t.groupOk (t.groupName p) = true →
        earliest ((t.pc p).queue.filter (·.urgent t.time)) = some q →
        exec (.pcSchedule p) s = .next (s.keepQueue (t.serveAccess p q (t.pc p).batch).releaseAnswers)) ∧
      ((t.pc p).inService = none → (t.pc p).refreshDue = 0 → t.groupOk (t.groupName p) = true →
        earliest ((t.pc p).queue.filter (·.urgent t.time)) = none → (t.pc p).batch < 64 → t.pickAccess (t.pc p) = some q →
        exec (.pcSchedule p) s = .next (s.keepQueue (t.serveAccess p q ((t.pc p).batch + 1)).releaseAnswers) ∧
        (s.heldAnswers = [] → s.removals = [] → Store.wf ({} : PseudoChannel) s.pcs = true →
          ∃ u, exec (.pcSchedule p) s = .next u ∧ (u.pc p).inService = some q ∧
            (u.pc p).queue = removeFirst (· == q) (t.pc p).queue ∧ (u.pc p).batch = (t.pc p).batch + 1 ∧
            u.hbm = s.hbm ∧ u.rooms = s.rooms ∧ u.regulators = s.regulators)) ∧
      ((s.pc p).inService = none → exec (.hbmAccessComplete p .ok) s = .next (s.keepQueue s.releaseAnswers)) ∧
      ((s.pc p).inService = some q → s.badUnits.contains (q.lpa / 64) = false →
        exec (.hbmAccessComplete p .ok) s = .next (s.keepQueue (s.endAccess p q).releaseAnswers) ∧
        (s.heldAnswers = [] → s.removals = [] → Store.wf ({} : PseudoChannel) s.pcs = true → q.cls ≠ 0 →
          ∃ u, exec (.hbmAccessComplete p .ok) s = .next u ∧
            u.pc p = { s.pc p with inService := none, retries := 0 } ∧ u.hbm = s.hbm ∧ u.rooms = s.rooms ∧
            u.badUnits = s.badUnits ∧ u.halls = s.halls ∧ u.dict = (s.bump (0x2610 + p) (if q.write then 8 else 7) 64 q.len).dict) ∧
        (q.write = false → exec (.hbmAccessComplete p .uncorrectable) s = .next (s.keepQueue
          ((((State.markReader { s with badUnits := s.badUnits ++ [q.lpa / 64] } q).dropGroup p).recordBad p q.lpa).endAccess
            p q).releaseAnswers)) ∧
        (lane < 36 → q.write = false → exec (.hbmAccessComplete p (.corrected lane)) s =
          .next (s.keepQueue ((s.correct p lane q).endAccess p q).releaseAnswers)) ∧
        ((s.pc p).retries < 3 → exec (.hbmAccessComplete p .parityCommand) s = .next (s.keepQueue
          ((s.bump (0x2610 + p) 1 32).modPc p fun y => { y with retries := y.retries + 1 }).releaseAnswers)))) ∧
    (s.waiters = [] → s.isWashing (a / 4096) = false → populatedRange a (AccKind.size kind len) = true →
      exec (.uncachedAccess a len kind) s = .next (s.keepQueue (s.homeOp a (AccKind.size kind len) kind).2)) ∧
    (s.waiters = [] → s.isWashing (a / 4096) = false →
      (populatedRange a len = true → (∀ l ∈ linesOf a len, s.dirFind l = none) →
        exec (.uncachedAccess a len .read) s = .next (s.keepQueue (s.bump (0x2841 + a / 2 ^ 36) 6 64))) ∧
      (populatedRange a b.length = true → (∀ l ∈ linesOf a b.length, s.dirFind l = none) →
        ∃ u, exec (.uncachedAccess a len (.write b)) s = .next u ∧ u.hbm = (s.hbmWrite a b).1.hbm ∧
          u.rooms = (linesOf a b.length).foldl (fun r l => Store.mapValues {} (wakeOn l) r) s.rooms)) ∧
    (s.waiters = [w] → w.addr = a → w.acc.len = AccKind.size kind len → w.acc.kind = kind →
      exec (.uncachedAccess a len kind) s = .next (s.keepQueue (State.performArrived { s with waiters := [] } w))) ∧
    (isHall hall = true →
      exec (.pcieCompletion hall a len c) s = .next { s with
        hostReads := modifyFirst (fun y => y.is hall a len && y.answer.isNone && !y.poisoned)
          (fun y => { y with answer := some (fitCompletion len c) }) s.hostReads } ∧
      exec (.pcieCompletionTimeout hall a) s = .next { s with
        hostReads := modifyFirst (fun y => y.hall == hall && y.addr == a && y.answer.isNone && !y.poisoned)
          (fun y => { y with poisoned := true }) s.hostReads }) ∧
    (s.remotes[k]? = some x → exec (.remoteResponseTimeout k) s = .next (s.keepQueue (s.answerRemote (· == x) 2 []))) ∧
    (s.remotes[k]? = none → exec (.remoteResponseTimeout k) s = .next s) ∧
    (s.remotes = [x] → x.answer = none → (1280 ≤ x.room ∨ (s.suite x.suite).step ≠ none) →
      s.answerRemote (· == x) st' b = { s with remotes := [{ x with answer := some (st', b) }] })

/-! ### Links, ingest and time (R142, R242, R429 to R442) -/

/-- A Mortar port trains or is held down; a failed flit is asked for again, a group of Gutter flits closes with its parity, a
crossing edge that does not match fails the round, and a response reaches its request; links come up and go down; NODE and
PLANE are set only without Suites (R133, R142, R331, R358, R421, R429 to R431, R433). -/
def Obligations.LinkEvents : Prop :=
  ∀ (s t : State) (p l h rate width fab st suite tree round node fmt op bytes : Nat) (extra : List Nat) (peer : MortarPeer)
    (b b' : FlitBody) (data : List Byte) (q : Chan) (v : BitVec 16) (e : TreeNode),
    (isMortar p = true →
      (s.linked = false ∨ (s.port p).st ≠ 1 → exec (.mortarLinkTrain p peer) s = .next s) ∧
      (s.linked = true → (s.port p).st = 1 →
        t = s.modPort p ({ · with peerNode := peer.node, peerPlane := peer.plane, version := min peer.version 1 }) →
        (t.heldDown p peer = true → exec (.mortarLinkTrain p peer) s = .next (s.keepQueue
          ((t.modPort p ({ · with st := 3, lanes := 0 })).report 4 3 2 7 p 0 (Config.detail peer.plane peer.node)))) ∧
        (t.heldDown p peer = false → peer.lanes < 2 → exec (.mortarLinkTrain p peer) s = .next (s.keepQueue
          (t.modPort p ({ · with st := 0, lanes := 0 })))) ∧
        (t.heldDown p peer = false → 2 ≤ peer.lanes → ∃ u, exec (.mortarLinkTrain p peer) s = .next u ∧
          (u.port p).st = 2 ∧ (u.port p).lanes = (if 4 ≤ peer.lanes then 4 else 2) ∧ (u.port p).peerNode = peer.node ∧
          (∀ o, o ≠ p → u.port o = s.port o) ∧ p ∉ u.linksLost ∧ u.rooms = s.rooms ∧ u.hbm = s.hbm)) ∧
      (s.linked = true → s.portUp p = true →
        (exec (.mortarFlitReceive p ⟨false, .other⟩) s = .next (s.keepQueue
          ((s.emit (.mortarReplay p)).modPort p fun x => { x with replays := satAdd 32 x.replays 1 }))) ∧
        exec (.mortarFlitReceive p ⟨true, .other⟩) s = .next s ∧
        exec (.mortarFlitReceive p ⟨true, .response fab st data⟩) s =
          .next (s.keepQueue (s.answerRemote (fun x => x.fabric == fab) st data)) ∧
        (b = .gutter suite tree round node op data →
          exec (.mortarFlitReceive p ⟨false, b⟩) s = .next (s.keepQueue (s.modPort p fun x =>
            { x with failed := x.failed ++ [b] })) ∧
          exec (.mortarFlitReceive p ⟨true, b⟩) s = .next (s.keepQueue
            ((s.modPort p fun x => { x with group := x.group ++ [data] }).takePiece p suite tree round node op data))) ∧
        (t = s.modPort p ({ · with group := [], failed := [] }) →
          ((s.port p).failed = [b] → exec (.mortarFlitReceive p ⟨true, .parity data⟩) s = .next (s.keepQueue
            ((t.bump 0x2828 1 32).takeBody p (withData b ((s.port p).group.foldl xorBytes data))))) ∧
          (∀ l, (s.port p).failed = b :: b' :: l → exec (.mortarFlitReceive p ⟨true, .parity data⟩) s =
            .next (s.keepQueue ((t.bump 0x2828 2 32).emit (.mortarReplay p))))) ∧
        ((s.tree suite tree).nodes[node]? = some e → e.port = p + 1 → e.children = 0 → (s.suite suite).step ≠ none →
          op ≠ (s.tree suite tree).op →
          exec (.mortarFlitReceive p ⟨true, .gutterEdge suite tree round node fmt op bytes extra⟩) s =
            .next (s.keepQueue ((s.failRound suite 0 tree round).emit (.gutterFail p suite tree round))))) ∧
      (s.portUp p = false → exec (.mortarFlitReceive p ⟨true, b⟩) s = .next s)) ∧
    (isLink l = true → s.failSilent = false → s.asleep = false → Store.wf ({} : MortarPort) s.mortar = true →
      Store.wf ({} : IngestPort) s.ingest = true → Store.wf ({} : Hall) s.halls = true →
      (l ∈ s.linksLost → exec (.linkDown l) s = .next s) ∧
      (l ∉ s.linksLost → l < 20 → (12 ≤ l ∨ s.portDirection l ≠ 6) → ∃ u, exec (.linkDown l) s = .next u ∧
        u.linksLost = s.linksLost ++ [l] ∧
        (l < 12 → (u.port l).st = 0 ∧ u.ingest = s.ingest) ∧ (16 ≤ l → (u.feed (l - 16)).up = false ∧ u.mortar = s.mortar) ∧
        u.rooms = s.rooms ∧ u.suites = s.suites ∧ u.hbm = s.hbm) ∧
      (l ∉ s.linksLost → l = 24 + h → h < 2 → ∃ u, exec (.linkDown l) s = .next u ∧ u.linksLost = s.linksLost ++ [l] ∧
        (u.hall h).hostUp = false ∧ u.rooms = s.rooms ∧ u.suites = s.suites ∧ u.mortar = s.mortar ∧ u.ingest = s.ingest) ∧
      (l < 12 → exec (.linkUp l rate width) s = .next s) ∧
      (16 ≤ l → l < 20 → ∃ u, exec (.linkUp l rate width) s = .next u ∧ l ∉ u.linksLost ∧ (u.feed (l - 16)).up = true ∧
        u.rooms = s.rooms ∧ u.hbm = s.hbm)) ∧
    (Served s q 0x2851 4 2 → (∀ e ∈ s.suites, e.2.st = .free) → v.toNat ≤ 32767 →
      exec (.nodePlaneWrite q false v) s = .next (s.keepQueue
        (answered s (s.dictSet 0x2851 4 v.toNat).retrainAll q 0x2851 4)) ∧
      ((s.hall s.senior).up.stage = 9 → Store.wf ({} : MortarPort) s.mortar = true → ∃ u,
        exec (.nodePlaneWrite q false v) s = .next u ∧ (∀ p < 12, (u.port p).st = 1 ∧ (u.port p).lanes = 0) ∧
        u.rooms = s.rooms ∧ u.suites = s.suites)) ∧
    (Served s q 0x2851 4 2 → 32767 < v.toNat →
      exec (.nodePlaneWrite q false v) s = .next (s.keepQueue (s.refuse q 0x2851 4 0x06090031))) ∧
    exec .lineDown s = .next { s with lineDown := true }

/-- An ingest port drops or keeps a frame, and writes it to its ring; time goes out on the links that are up and at whole
seconds; a source in use steps device time before READY and slews it afterwards (R435 to R438). -/
def Obligations.IngestAndTime : Prop :=
  ∀ (s t u w : State) (p k : Nat) (f : AvtpFrame) (off : Int), s.asleep = false → s.failSilent = false →
    (isIngest p = true →
      ((s.feed p).up = false → exec (.ingestFrame p f) s = .next s) ∧
      ((s.feed p).up = true → (s.hall (p / 2)).lost = false → t = State.drainIngest p (s.feed p).buffer.length s →
        (t.ingestBound p f = false ∨ 2016 < f.payload.length → exec (.ingestFrame p f) s = .next (s.keepQueue
          (t.modFeed p fun y => { y with dropped := satAdd 32 y.dropped 1 }))) ∧
        (t.ingestBound p f = true → f.payload.length ≤ 2016 → (t.feed p).room f.payload.length = true →
          exec (.ingestFrame p f) s = .next (s.keepQueue (State.drainIngest p ((t.feed p).buffer.length + 1)
            (t.modFeed p fun y => { y with buffer := y.buffer ++ [(t.time, f)] }))))) ∧
      ((s.feed p).up = true → (s.hall (p / 2)).lost = false → (s.feed p).buffer = [] → s.ingestBound p f = true →
        f.payload.length ≤ 2016 → (s.feed p).room f.payload.length = true →
        u = s.modFeed p (fun y => { y with buffer := [(s.time, f)] }) →
        u.writeVa (ingestMaster p) (s.feed p).ctx
          ((s.feed p).ringBase + 2048 * ((s.feed p).tail.toNat % 2 ^ (s.feed p).ringLog2)) (ingestSlot s.time f) false = (.ok (), w) →
        Store.wf ({} : IngestPort) w.ingest = true → ∃ v, exec (.ingestFrame p f) s = .next v ∧
          (v.feed p).buffer = [] ∧ (v.feed p).tail = (w.feed p).tail + 1 ∧ v.hbm = w.hbm ∧ v.rooms = w.rooms)) ∧
    (∃ u, exec .timeMessage s = .next u ∧
      u.out = s.out ++ ((List.range 12).filter s.portUp).map (fun p => Output.mortarTime p s.time) ∧
      { u with out := s.out } = s) ∧
    (s.time % 1000000000 = 0 → exec .timePps s = .next (s.emit (.pps s.time))) ∧
    (s.time % 1000000000 ≠ 0 → exec .timePps s = .next s) ∧
    (isSource k = true → k ≠ 0 → s.sourcePath k = true →
      t = { s with clock := { s.clock with available := listSet s.clock.available k true } } →
      (t.bestSource ≠ k → exec (.timeSyncExchange k off) s = .next { t with clock := { t.clock with source := t.bestSource } }) ∧
      (t.bestSource = k → s.ready = false → exec (.timeSyncExchange k off) s = .next { t with
        time := (s.time + off).toNat, clock := { t.clock with source := k, offset := off, slew := 0 } }) ∧
      (t.bestSource = k → s.ready = true → exec (.timeSyncExchange k off) s = .next { t with
        clock := { t.clock with source := k, offset := off, slew := off } })) ∧
    (exec (.timeSyncExchange 0 off) s = .next s) ∧
    (s.clock.source = 0 → exec .timeSourceLost s = .next s) ∧
    (s.clock.source ≠ 0 →
      t = { s with clock := { s.clock with available := listSet s.clock.available s.clock.source false, slew := 0 } } →
      exec .timeSourceLost s = .next { t with clock := { t.clock with source := t.bestSource } })

/-! ### Power (R307 to R332) -/

/-- SLEEP and the wakes: SLEEP is answered and entered without ACTIVE households or Suites; an enabled wake of a
sleeping module reboots it, names its sources and is counted, and one of a module that is up is kept for the next SLEEP (log
entry 88); a hot module shuts down (R307, R310 to R312, R325, R326). -/
def Obligations.SleepAndWake : Prop :=
  ∀ (s t : State) (q : Chan) (h f since : Nat) (temp : Int), isHall h = true →
    (Served s q 0x2401 2 1 → (∀ e ∈ s.households, e.2.st ≠ .active) → (∀ e ∈ s.suites, e.2.st = .free) →
      exec (.sleepRequest q) s = .next (s.keepQueue (noted s ((s.reply q 0x2401 2 0 []).enterSleep false) q 0x2401 2)) ∧
      (s.power.wakeSeen = 0 → s.alarmDue = false → ∃ u, exec (.sleepRequest q) s = .next u ∧ u.power.st = .sleep ∧
        u.power.sleepAt = s.time ∧ u.power.thermalShutdown = false ∧ u.rooms = [] ∧ u.suites = [] ∧ u.hbm = [])) ∧
    (Served s q 0x2401 2 1 → (∃ e ∈ s.suites, e.2.st ≠ .free) →
      exec (.sleepRequest q) s = .next (s.keepQueue (s.refuse q 0x2401 2 0x08000022))) ∧
    (∀ i n, (i, n) ∈ [(Instr.wakePin, 1), (.canWakeFrame h, 2), (.pcieWake h, 3)] →
      (s.power.st = .sleep → s.wakeEnabled n = true → exec i s = .next (s.keepQueue (s.wake n))) ∧
      (s.power.st = .sleep → s.wakeEnabled n = false → exec i s = .next s) ∧
      (s.power.st ≠ .sleep → s.ready = false → exec i s = .next (s.keepQueue (s.joinWake n))) ∧
      (s.power.st ≠ .sleep → s.ready = true → exec i s =
        .next { s with power := { s.power with wakeSeen := s.power.wakeSeen ||| 2 ^ (n - 1) } })) ∧
    (s.alarmDue = true → exec .hearthAlarm s = .next (s.keepQueue (s.wake 4))) ∧
    (s.alarmDue = false → exec .hearthAlarm s = .next s) ∧
    (s.power.thermalShutdown = true → (∀ x ∈ s.dieTemps, x < 170) → s.power.inlet < 120 →
      exec .thermalWake s = .next (s.keepQueue (s.wake 6))) ∧
    (s.power.thermalShutdown = false → exec .thermalWake s = .next s) ∧
    (s.power.st = .sleep → ∀ k, (s.wake k).power.wakes = satAdd 32 s.power.wakes 1 ∧ (s.wake k).power.wakeAt = s.time ∧
      (s.wake k).power.st = .powerUp ∧ (s.alarmDue = false → (s.wake k).power.wakeRecord =
        wakeWord s.power.thermalShutdown (2 ^ (k - 1))) ∧
      (s.wake k).suites = [] ∧ (s.wake k).rooms = [] ∧ (s.wake k).time = s.time) ∧
    (s.power.hot = [] → 160 ≤ s.power.inlet → s.tooHot = some (276, s.power.inlet)) ∧
    (isFloor f = true → s.power.hot = [(272 + f, some since)] → since + 10000 ≤ s.time →
      s.tooHot = some (272 + f, (s.floor f).stackTemp)) ∧
    (s.tooHot = none ∨ s.asleep = true → exec .thermalShutdown s = .next s) ∧
    (s.asleep = false → s.tooHot = some (f, temp) →
      t = s.lastWord s.senior { cls := 5, code := 3, severity := 4, kind := 0, index := 0
                                detail := Config.detail f temp.toNat, time := s.time } →
      exec .thermalShutdown s = .next (s.keepQueue (t.enterSleep true)) ∧
      (t.power = s.power → t.alarmDue = false → s.power.wakeSeen = 0 → ∃ u, exec .thermalShutdown s = .next u ∧
        u.power.st = .sleep ∧ u.power.thermalShutdown = true ∧ u.faultPin = true ∧ u.suites = []))

/-- The power controllers: samples, the cap, the brakes and the current and thermal limits, each followed by the
applied clocks and flags (R319 to R325, R331, R424). -/
def Obligations.PowerControl : Prop :=
  ∀ (s t : State) (h mV mA f k peak mean : Nat) (half : Int), s.asleep = false →
    (isHall h = true → h ≠ s.senior → exec (.powerSample h mV mA) s = .next s) ∧
    (isHall h = true → h = s.senior → ∃ u, exec (.powerSample h mV mA) s = .next u ∧ u.power.millivolts = mV ∧
      u.power.milliamps = mA ∧ u.power.energy = s.power.energy + mV * mA ∧
      u.power.samples = (mV * mA :: s.power.samples).take 1000 ∧ u.rooms = s.rooms ∧ u.hbm = s.hbm) ∧
    (t = { s with power := { s.power with ticksSinceUp := min 10 (s.power.ticksSinceUp + 1) } } →
      (5 * s.effectiveCap * 1000000 < 4 * s.power.means10 →
        exec .capTick s = .next (s.keepQueue (t.capDown.capDown.capDown.capDown.refresh)) ∧
        (4 ≤ s.power.clockLimit → ∃ u, exec .capTick s = .next u ∧
          u.power = { t.power with clockLimit := s.power.clockLimit - 4 } ∧ u.rooms = s.rooms)) ∧
      (4 * s.power.means10 ≤ 5 * s.effectiveCap * 1000000 → s.effectiveCap * 1000000 < s.power.means1000 →
        exec .capTick s = .next (s.keepQueue t.capDown.refresh) ∧
        (0 < s.power.clockLimit → ∃ u, exec .capTick s = .next u ∧
          u.power = { t.power with clockLimit := s.power.clockLimit - 1 } ∧ u.rooms = s.rooms)) ∧
      (4 * s.power.means10 ≤ 5 * s.effectiveCap * 1000000 → s.power.means1000 ≤ s.effectiveCap * 1000000 →
        s.power.ticksSinceUp < 9 → ∃ u, exec .capTick s = .next u ∧ u.power = t.power ∧ u.rooms = s.rooms) ∧
      (4 * s.power.means10 ≤ 5 * s.effectiveCap * 1000000 →
        50 * s.power.means1000 + max 250 s.effectiveCap * 1000000 < 50 * s.effectiveCap * 1000000 →
        9 ≤ s.power.ticksSinceUp → s.power.duty = 16 → s.power.clockLimit < 30 → ∃ u, exec .capTick s = .next u ∧
          u.power.clockLimit = s.power.clockLimit + 1 ∧ u.power.ticksSinceUp = 0 ∧ u.power.duty = 16 ∧ u.rooms = s.rooms)) ∧
    (∀ x : State, 0 < x.power.clockLimit → x.capDown = { x with power := { x.power with clockLimit := x.power.clockLimit - 1 } }) ∧
    (Store.wf ({} : Floor) s.floors = true → ∃ u, exec .powerBrakeAssert s = .next u ∧ u.power = { s.power with brakePin := true } ∧
      (∀ f, f < 4 → (u.floor f).applied ≤ s.dictGet 0x2401 5)) ∧
    (s.power.brakePin = true → s.power.brownOut = false → ∃ u, exec .powerBrakeRelease s = .next u ∧
      u.power = { s.power with brakePin := false, clockLimit := min s.power.clockLimit (s.dictGet 0x2401 5) }) ∧
    (s.power.brakePin = false → exec .powerBrakeRelease s = .next s) ∧
    (s.ready = true → s.power.brownOut = false → ∃ u, exec (.brownOut true) s = .next u ∧
      u.power = { s.power with brownOut := true }) ∧
    (s.ready = false → exec (.brownOut true) s = .next s ∧ exec (.brownOut false) s = .next s) ∧
    (isFloor f = true →
      exec (.currentSample f peak mean) s = .next (s.keepQueue ((s.modFloor f (·.current s.time peak mean)).refresh)) ∧
      (Store.wf ({} : Floor) s.floors = true → ∃ u, exec (.currentSample f peak mean) s = .next u ∧
        u.power = s.power ∧ u.rooms = s.rooms ∧ (u.floor f).railMean = mean ∧
        (u.floor f).currentLimit = ((s.floor f).current s.time peak mean).currentLimit ∧
        (1800 < peak → (u.floor f).halfDutyUntil = s.time + 10000)) ∧
      (t = { s.modFloor f ({ · with stackTemp := half }) with power := s.power.noteHot (.stack f) half s.time } →
        exec (.thermalSensorChange (.stack f) half) s = .next (s.keepQueue ((t.modFloor f (·.stack half)).refresh)) ∧
        (Store.wf ({} : Floor) s.floors = true → ∃ u, exec (.thermalSensorChange (.stack f) half) s = .next u ∧
          (u.floor f).stackTemp = half ∧ (u.floor f).hbmLevel = hbmLevelOf (s.floor f).hbmLevel half ∧
          (170 < half → (u.floor f).refresh = 2) ∧
          (230 ≤ half → s.power.hot = [] → u.power.hot = [(272 + f, some s.time)]) ∧ u.rooms = s.rooms)) ∧
      (k < 64 → t = { s.modFloor f (fun x => { x with junctions := Store.set 0 x.junctions k half }) with
          power := s.power.noteHot (.junction f k) half s.time } →
        exec (.thermalSensorChange (.junction f k) half) s = .next (s.keepQueue ((t.modFloor f (·.thermal s.time)).refresh))) ∧
      exec (.thermalSensorChange .inlet half) s =
        .next (s.keepQueue (State.refresh { s with power := { s.power with inlet := half } }))) ∧
    (∀ (x : Floor) (now : Nat), (x.thermal now).thermalLimit = 0 ∨ (x.thermal now).thermalLimit + 1 = x.thermalLimit ∨
      (x.thermal now).thermalLimit = x.thermalLimit ∨ (x.thermal now).thermalLimit = x.thermalLimit + 1) ∧
    (∀ (x : Floor) (now : Nat), ((∃ e ∈ x.junctions, 210 ≤ e.2) → (x.thermal now).thermalLimit = 0) ∧
      (x.phaseLost = false → 1100 < mean → 0 < x.currentLimit → x.currentMoved + 10000 ≤ now →
        (x.current now peak mean).currentLimit = x.currentLimit - 1) ∧
      (x.phaseLost = false → mean < 1050 → x.currentLimit < 30 → x.currentMoved + 100000 ≤ now →
        (x.current now peak mean).currentLimit = x.currentLimit + 1))

/-- Phases, droop, settlement, and the DOZE and gated states of a Room (R308, R309, R323, R324, R327). -/
def Obligations.FloorAndRoomPower : Prop :=
  ∀ (s t : State) (f r worst : Nat) (x : Floor), s.asleep = false →
    (isFloor f = true →
      ((s.floor f).phaseLost = true → exec (.phaseLoss f) s = .next s) ∧
      ((s.floor f).phaseLost = false → exec (.phaseLoss f) s = .next (s.keepQueue
        ((s.draw.2.modFloor f ({ · with phaseLost := true })).report 5 4 2 5 f 0 (Config.detail f s.draw.1)))) ∧
      exec (.phaseRestore f) s = .next (s.modFloor f ({ · with phaseLost := false })) ∧
      exec (.settlementMeasure f worst false) s = .next (s.modFloor f ({ · with worstMargin := worst })) ∧
      (x = { s.floor f with worstMargin := worst } → (s.floor f).offset < 60 → (s.floor f).offsetRaised = none →
        Store.wf ({} : Floor) s.floors = true → ∃ u, exec (.settlementMeasure f worst true) s = .next u ∧
          u.floor f = { x with offset := min 60 (x.offset + 5), offsetRaised := some s.time } ∧
          (∀ g, g ≠ f → u.floor g = s.floor g) ∧ u.rooms = s.rooms)) ∧
    (isRoom r = true →
      ((s.room r).stretched = false → (s.room r).power ≠ .doze → (s.room r).power ≠ .fenced →
        t = s.modRoom r (fun y => { y with
          stretched := true, marks := if (s.stepOf r).isSome then y.marks ++ [y.course.ordinal] else y.marks }) →
        exec (.droopDetect r) s = .next (s.keepQueue ((t.bump (0x2420 + r / 320) 7 32).refresh))) ∧
      ((s.room r).stretched = true →
        exec (.droopDetect r) s = .next s ∧
        exec (.droopRelease r) s = .next (s.keepQueue ((s.modRoom r ({ · with stretched := false })).refresh))) ∧
      ((s.room r).stretched = false → exec (.droopRelease r) s = .next s) ∧
      (s.ready = true → (s.room r).isFree = true → ((s.room r).power = .clocked ∨ (s.room r).power = .gated) →
        ((s.room r).freeSince + 1000 * s.dictGet 0x2401 7 ≤ s.time →
          exec (.roomDozeEntry r) s = .next (s.modRoom r fun y => { y.cleared with power := .doze })) ∧
        (s.time < (s.room r).freeSince + 1000 * s.dictGet 0x2401 7 → exec (.roomDozeEntry r) s = .next s)) ∧
      ((s.room r).isFree = false → exec (.roomDozeEntry r) s = .next s) ∧
      ((s.room r).power = .clocked → (s.room r).atRest = true →
        exec (.roomClockGate r) s = .next (s.modRoom r ({ · with power := .gated }))) ∧
      ((s.room r).atRest = false → exec (.roomClockGate r) s = .next s))

/-! ### Bring-up, errors and failover (R313, R333 to R377, R411 to R442) -/

/-- Power steps, switch groups, the stages and their limits, SVC_EN#, the input switch, PERST# and the loss of
presence (R262, R313, R314, R415 to R418, R420, R422, R425, R428, R441, R442). -/
def Obligations.BringUpEvents : Prop :=
  ∀ (s t : State) (h f n : Nat) (failed : List Nat) (rep : StageReport),
    (n = s.power.upStep + 1 → n ≤ 10 →
      (s.bringing 0 = true ∧ (s.hall 0).up.stage = stepStage n ∨ s.bringing 1 = true ∧ (s.hall 1).up.stage = stepStage n) →
      (n < 7 → exec (.powerUpStep true) s = .next { s with power := { s.power with upStep := n } }) ∧
      (7 ≤ n → exec (.powerUpStep true) s = .next (State.modFloor { s with power := { s.power with upStep := n } }
        (stepFloor n) ({ · with powerGood := true })) ∧
        exec (.powerUpStep false) s = .next (s.keepQueue (State.stageFail { s.draw.2 with
          faultPin := true, power := { s.power with upStep := n, upFailed := true } } (stepFloor n / 2) 0x0E (stepFloor n))))) ∧
    (10 ≤ s.power.upStep → exec (.powerUpStep true) s = .next s) ∧
    (isFloor f = true →
      (s.time < (s.floor f).switchFrom → exec (.roomSwitchGroup f failed) s = .next s) ∧
      ((s.floor f).switchFrom ≤ s.time → s.ready = false →
        (20 ≤ (s.floor f).switchGroups → exec (.roomSwitchGroup f failed) s = .next s) ∧
        (s.bringing (f / 2) = true → (s.hall (f / 2)).up.stage = 5 → n = (s.floor f).switchGroups → n < 20 →
          exec (.roomSwitchGroup f failed) s = .next (s.keepQueue ((s.modFloor f ({ · with switchGroups := n + 1 })).closeSwitches f
            (span (320 * f + 16 * n) 16) failed)) ∧
          (Store.wf ({} : Room) s.rooms = true → Store.wf ({} : Floor) s.floors = true → ∃ u,
            exec (.roomSwitchGroup f failed) s = .next u ∧ (u.floor f).switchGroups = n + 1 ∧
            (u.floor f).switchFrom = s.time + 20000 ∧
            (∀ r ∈ span (320 * f + 16 * n) 16, (failed.contains r = true → (u.room r).life = .lostAtTest ∧ (u.room r).power = .fenced) ∧
              (failed.contains r = false → (u.room r).power = .clocked ∧ (u.room r).life = (s.room r).life)) ∧
            (∀ r, r ∉ span (320 * f + 16 * n) 16 → u.room r = s.room r)))) ∧
      ((s.floor f).switchFrom ≤ s.time → s.ready = true → exec (.roomSwitchGroup f []) s =
        .next (s.keepQueue (s.closeSwitches f ((s.wakingRooms f).take 16) [])))) ∧
    (isHall h = true →
      (s.bringing h = false → exec (.bringupStage h rep) s = .next s ∧ exec (.stageTimeout h) s = .next s) ∧
      (s.bringing h = true → n = (s.hall h).up.stage →
        (rep.failure ≠ 0 → reportable n rep.failure = true →
          exec (.bringupStage h rep) s = .next (s.keepQueue (s.stageFail h rep.failure rep.detail))) ∧
        (rep.failure = 0 → s.stageDue h n = false → exec (.bringupStage h rep) s = .next s) ∧
        (rep.failure = 0 → s.stageDue h n = true → s.stageWork h n rep = .inl t →
          (n ≠ 2 → exec (.bringupStage h rep) s =
            .next (s.keepQueue (t.stagePass h (if n = 8 then t.planDetail else 0)))) ∧
          (n = 2 → exec (.bringupStage h rep) s = .next (s.keepQueue (t.passTwo h)))) ∧
        (rep.failure = 0 → s.stageDue h n = true → s.stageWork h n rep = .inr t →
          exec (.bringupStage h rep) s = .next (s.keepQueue t)) ∧
        (rep.failure = 0 → n = 0 → 2 ≤ s.power.upStep → ∃ u, exec (.bringupStage h rep) s = .next u ∧
          (u.hall h).up.stage = 1 ∧ (u.hall h).up.start = s.time ∧ (u.hall h).up.ended = false ∧ u.rooms = s.rooms) ∧
        (s.stageTime h < stageLimit s n → exec (.stageTimeout h) s = .next s) ∧
        (stageLimit s n ≤ s.stageTime h → exec (.stageTimeout h) s = .next (s.keepQueue (State.refresh (State.goSilent
          (s.modUp h fun u => { u.close 2 0x11 (stageLimit s n / 1000) s.time with ended := true, held := false })))))) ∧
      (wingScope n = true → (s.hall (1 - h)).up.held = false → s.stageFail h n f = State.refresh (State.loseChannels
        ((s.modUp h fun u => { u.close 2 n f s.time with ended := true, held := true }).modHall h ({ · with lost := true })) h)) ∧
      ((s.hall h).svcLow = false →
        exec (.svcEn h true) s = .next (s.modHall h ({ · with svcLow := true, svcSince := s.time })) ∧
        exec (.svcEn h false) s = .next s) ∧
      exec (.perstDeassert h) s = .next (s.modHall h ({ · with perst := false, wakeOut := false })) ∧
      ((s.hall h).hostUp = false → exec (.perstAssert h) s = .next (s.modHall h
        ({ · with perst := true, hostUp := false, hostRate := 0, hostWidth := 0 }))) ∧
      ((s.hall h).hostUp = true → exec (.perstAssert h) s = .next (s.keepQueue ((s.linkDown (24 + h)).modHall h
        ({ · with perst := true, hostUp := false, hostRate := 0, hostWidth := 0 }))))) ∧
    (∃ u, exec .inputSwitchOpen s = .next u ∧ u.power.st = .off ∧ u.time = 0 ∧ u.rooms = [] ∧ u.hbm = [] ∧ u.dict = [] ∧
      u.security.keys = [] ∧ u.security.tokens = s.security.tokens ∧ u.resetCause = 0) ∧
    (s.power.st = .off → ∃ u, exec .inputRestore s = .next u ∧ u.power.st = .powerUp ∧ u.time = 0 ∧ u.resetCause = 0 ∧
      u.failSilent = false ∧ (∀ h, h < 2 → (u.hall h).up.stage = 0)) ∧
    (s.power.st ≠ .off → exec .inputRestore s = .next s) ∧
    ((∀ p, p < 12 → (s.port p).st ≠ 2) → (s.hall 1).hostUp = false →
      ((s.hall 0).hostUp = false → exec .presenceLoss s = .next s) ∧
      ((s.hall 0).hostUp = true → ((s.linkDown 24).hall 1).hostUp = false →
        exec .presenceLoss s = .next (s.keepQueue (s.linkDown 24))))

/-- Reports are recorded or coalesced and storms end; Tallies fire; rungs end or time out; Wardens fail; the module
goes fail-silent or resets (R359 to R377). -/
def Obligations.ErrorEvents : Prop :=
  ∀ (s v : State) (q : Chan) (h g r t rung p : Nat) (rep : Report) (u : UnitRef),
    (isHall h = true →
      ((s.hall h).ledger.next = none → exec (.ledgerRecord h) s = .next s) ∧
      ((s.hall h).ledger.next = some rep → s.failSilent = false → (s.hall h).ledger.storm = false →
        exec (.ledgerRecord h) s = .next (s.keepQueue ((s.modLedger h fun l => { l with
          queue := removeFirst (· == rep) l.queue, calmSince := l.calmSince }).writeRecord h rep))) ∧
      ((s.hall h).ledger.opened = [] → ∃ l, ((s.writeRecord h rep).hall h).ledger = l ∧
        l.tail = (s.hall h).ledger.tail + 1 ∧ (∃ x, l.bySeq l.tail = some x ∧ x.report = rep) ∧
        l.queue = (s.hall h).ledger.queue) ∧
      ((s.hall h).ledger.calmSince = some t → (s.hall h).ledger.storm = true → s.failSilent = false → t + 1000000 ≤ s.time →
        exec (.stormEnd h) s = .next (s.keepQueue
          (((s.modLedger h ({ · with storm := false, calmSince := none })).bump (0x5004 + h) 12 32).writeRecord h
            { cls := 11, code := 2, severity := 0, kind := 6, index := h, detail := (s.hall h).ledger.stormLost, time := s.time }))) ∧
      ((s.hall h).ledger.calmSince = none → exec (.stormEnd h) s = .next s) ∧
      (s.copyBusy h = false → exec (.tallyFire 9 (.copyEngine h)) s = .next s) ∧
      (s.copyBusy h = true → v = (s.report 6 1 3 8 (2560 + 16 * h + 9) 0 (9 + s.tallyWindow 9 (.copyEngine h) * 16)).bump 0x5021 9 64 →
        exec (.tallyFire 9 (.copyEngine h)) s = .next (s.keepQueue
          ((v.killIn (v.usesSegment (.copyEngine h))).startRung 3 (.copyEngine h)))) ∧
      ((s.hall h).warden.running = false → exec (.wardenMismatch h) s = .next s ∧ exec (.wardenRungOverdue h) s = .next s) ∧
      ((s.hall h).warden.running = true → exec (.wardenMismatch h) s = .next (s.keepQueue
        ((s.draw.2.lastWord h { cls := 7, code := s.draw.1 % 65536, severity := 4, kind := 6, index := h
                                time := s.draw.2.time }).modWarden h
          fun w => { w with running := false, rungs := [], mismatches := w.mismatches + 1 }))) ∧
      ((s.hall h).warden.running = true →
        (∃ x ∈ (s.hall (1 - h)).warden.rungs, x.2.2 + 2 * rungTimeout x.1 ≤ s.time) →
        exec (.wardenRungOverdue h) s = .next (s.keepQueue ((s.hallLost (1 - h)).startWing (1 - h)))) ∧
      ((s.hall h).warden.running = true → exec (.failSilent h) s = .next s) ∧
      ((s.hall h).warden.running = false →
        max (s.hall h).warden.lintelLease (s.hall h).warden.lineLease + 150000 ≤ s.time →
        exec (.failSilent h) s = .next (s.keepQueue s.goSilent) ∧
        (s.failSilent = false → ∃ u, exec (.failSilent h) s = .next u ∧ u.failSilent = true ∧ u.faultPin = true ∧
          (∀ p, p < 12 → (u.port p).st = 3) ∧ u.rooms = s.rooms ∧ u.suites = s.suites))) ∧
    (isMortar p = true → s.linkSuspended p = false → ∃ u, exec (.tallyFire 7 (.link p)) s = .next u ∧ (u.port p).st = 1 ∧
      (p, s.time) ∈ u.retraining ∧ u.rooms = s.rooms ∧ u.suites = s.suites) ∧
    (isMortar p = true → s.linkSuspended p = true → exec (.tallyFire 7 (.link p)) s = .next s) ∧
    (isRung rung = true → isUnit u = true → s.heldRung rung u = none →
      exec (.rungComplete rung u) s = .next s ∧ exec (.rungTimeout rung u) s = .next s) ∧
    (isRoom r = true → s.heldRung 2 (.room r) = some (h, t) →
      exec (.rungComplete 2 (.room r)) s = .next (s.keepQueue (((s.dropRung h 2 (.room r)).report 7 2 3 2 r 0
        (2 + (s.time - t) * 8)).modForeman r fun f => if f.run == .hold then { f with run := .idle } else f)) ∧
      (s.time < t + 50000 → exec (.rungTimeout 2 (.room r)) s = .next s) ∧
      (t + 50000 ≤ s.time → exec (.rungTimeout 2 (.room r)) s = .next (s.keepQueue
        ((((s.dropRung h 2 (.room r)).report 7 3 3 2 r 0 (2 + (s.time - t) * 8)).bump 0x5032 2 32).loseRoom r)))) ∧
    (g < 327680 → s.heldRung 1 (.brick g) = some (h, t) → t + 5000 ≤ s.time →
      exec (.rungTimeout 1 (.brick g)) s = .next (s.keepQueue
        ((((s.dropRung h 1 (.brick g)).report 7 3 3 1 g 0 (1 + (s.time - t) * 8)).bump 0x5032 1 32).loseBrick g))) ∧
    (isHall g = true → s.heldRung 5 (.wing g) = some (h, t) → t + 256000000 ≤ s.time →
      exec (.rungTimeout 5 (.wing g)) s = .next (s.keepQueue
        ((((s.dropRung h 5 (.wing g)).report 7 3 3 6 g 0 (5 + (s.time - t) * 8)).bump 0x5032 5 32).goSilent))) ∧
    (Served s q 0x5030 1 1 →
      exec (.moduleReset q) s = .next (s.keepQueue (noted s ((s.reply q 0x5030 1 0 []).moduleRung 2) q 0x5030 1)) ∧
      ∃ u, exec (.moduleReset q) s = .next u ∧ u.rooms = [] ∧ u.suites = [] ∧ u.contexts = [] ∧ u.dict = [] ∧
        u.ready = false ∧ u.resetCause = 2 ∧ u.time = s.time) ∧
    ((s.moduleRung t).rooms = [] ∧ (s.moduleRung t).suites = [] ∧ (s.moduleRung t).contexts = [] ∧ (s.moduleRung t).dict = [] ∧
      (s.moduleRung t).ready = false ∧ (s.moduleRung t).resetCause = t ∧ (s.moduleRung t).time = s.time) ∧
    (s.goSilent.failSilent = true ∧ (s.failSilent = false → s.goSilent.faultPin = true ∧
      (p < 12 → (s.goSilent.port p).st = 3)))

/-- Comparisons and votes, leases between Halls and modules, the arbiter, self-tests, and the loss of a Floor's power
(R116, R117, R333, R334, R341, R343 to R354). -/
def Obligations.RedundancyEvents : Prop :=
  ∀ (s t w : State) (n r k h p epoch f x y z o : Nat) (larger : List Bool) (l : List Nat) (st : Step) (m : Member) (v : Vote)
    (u : UnitRef) (ok : Bool) (dead : List Nat),
    (isSuite n = true →
      ((s.suite n).step = none → exec (.courseDigestCompare n larger) s = .next s) ∧
      ((s.suite n).compares = false → exec (.courseDigestCompare n larger) s = .next s) ∧
      ((s.suite n).step = some st → (s.suite n).compares = true → (s.suite n).vote = none → (s.suite n).mode = .duplex →
        k = st.compared → t = s.exchangeResults n k →
        ((∀ o, o < (s.suite n).ordinals → s.agreeAt n o k = true) →
          exec (.courseDigestCompare n larger) s = .next (s.keepQueue (t.confirm n k [])) ∧
          ∃ a, exec (.courseDigestCompare n larger) s = .next a ∧ (a.suite n).step = some { st with compared := k + 1 } ∧
            a.out = s.out ++ [.courseResult n k []] ∧ a.hbm = s.hbm) ∧
        (s.comparable n k = true → s.differ n k = x :: l → (∀ o, o < (s.suite n).ordinals → s.bothFaulted n o k = false) →
          exec (.courseDigestCompare n larger) s = .next (s.keepQueue (((t.emit (.courseResult n k (x :: l))).controlAll
            (s.suite n).share (.hall (t.decider n)) (s.suite n).allRooms).startVote n k (x :: l)))) ∧
        ((List.range (s.suite n).ordinals).find? (fun o => s.bothFaulted n o k) = some o →
          exec (.courseDigestCompare n larger) s = .next (s.keepQueue (t.faultBoth n o))) ∧
        (s.comparable n k = false → (∀ o, o < (s.suite n).ordinals → s.bothFaulted n o k = false) →
          exec (.courseDigestCompare n larger) s = .next s))) ∧
    (isRoom r = true →
      ((s.room r).member = none → exec (.courseOverrun r) s = .next s) ∧
      ((s.room r).member = some m → s.stepOf r = some st → (s.room r).foreman.run = .running →
        (s.room r).course.overrun = false →
        (s.time ≤ (s.room r).course.start + 250000 → exec (.courseOverrun r) s = .next s) ∧
        ((s.room r).course.start + 250000 < s.time → ∃ a, exec (.courseOverrun r) s = .next a ∧
          (a.room r).course.overrun = true ∧ (a.suite m.suite).overruns = satAdd 32 (s.suite m.suite).overruns 1 ∧
          (a.suite m.suite).step = (s.suite m.suite).step ∧ (∀ o, o ≠ r → a.room o = s.room o))) ∧
      (s.suiteOf r = some n → (s.suite n).vote = none → exec (.spareLoadComplete r) s = .next s) ∧
      (s.suiteOf r = some n → (s.suite n).vote = some v → r ∉ v.loading → exec (.spareLoadComplete r) s = .next s) ∧
      (s.suiteOf r = some n → (s.suite n).vote = some v → r ∈ v.loading → (s.suite n).step = some st → s.loadSource n r = some x →
        t = s.modRoom r (fun z => { z.withContents (s.room x) st.lanes with
          checkpoints := (s.room x).checkpoints, foreman := { z.foreman with program := (s.room x).foreman.program } }) →
        w = (t.modRoom r ({ · with loading := false })).modSuite n
          ({ · with vote := some { v with loading := v.loading.filter (· != r) } }) →
        exec (.spareLoadComplete r) s = .next (s.keepQueue (w.tryRerun n)) ∧
        (v.loading.filter (· != r) ≠ [] → exec (.spareLoadComplete r) s = .next (s.keepQueue w)))) ∧
    (isHall h = true →
      (s.leases h = false → exec (.hallLease h) s = .next s ∧ exec (.hallLeaseTimeout h) s = .next s) ∧
      (s.leases h = true →
        (s.lintelDown = true → exec (.hallLease h) s = .next (s.modWarden (1 - h) fun w => { w with
          lineLease := if s.lineDown then w.lineLease else s.time })) ∧
        (s.lintelDown = false → exec (.hallLease h) s = .next (s.keepQueue
          ((s.control s.moduleClass (.hall h) (.hall (1 - h))).modWarden (1 - h) fun w => { w with
            lintelLease := s.time, lineLease := if s.lineDown then w.lineLease else s.time })))) ∧
      (s.leases h = true → s.asleep = false → y = max (s.hall h).warden.lintelLease (s.hall h).warden.lineLease → z = 1 - h →
        (s.time < y + 150000 → exec (.hallLeaseTimeout h) s = .next s) ∧
        (y + 150000 ≤ s.time → exec (.hallLeaseTimeout h) s = .next (s.keepQueue (s.hallLost z)) ∧
          (s.ready = true → (s.hall z).lost = true → exec (.hallLeaseTimeout h) s = .next s) ∧
          (s.ready = true → (s.hall z).lost = false →
            t = ((s.bump 0x5200 2 32).modHall z ({ · with lost := true })).loseChannels z →
            w = ((t.report 9 3 2 6 z 0 (t.dictGet 0x5200 2)).dropWing z) →
            exec (.hallLeaseTimeout h) s = .next (s.keepQueue
              ((w.takeover z).killIn fun n => w.usesWing z n).refresh))))) ∧
    ((s.hall 0).lost = false → (s.hall 1).lost = false → exec .hallRejoin s = .next s) ∧
    (s.failSilent = false → (s.hall 1).lost = true → exec .hallRejoin s = .next (s.keepQueue
      ((s.modWarden 0 fun w => { w with lintelLease := s.time, lineLease := s.time }).startWing 1))) ∧
    (isMortar p = true → s.failSilent = false → s.pairRole ≠ 0 → s.portDirection p = 6 → s.portUp p = true →
      (epoch < s.pairEpoch → exec (.pairLease p epoch) s = .next (s.emit (.pairLease p s.pairEpoch))) ∧
      (s.pairEpoch ≤ epoch → Store.wf none s.dict = true → ∃ a, exec (.pairLease p epoch) s = .next a ∧ a.pairEpoch = epoch ∧
        (a.port p).lastLease = s.time ∧ a.out = s.out ++ [.pairLease p s.pairEpoch] ∧ a.rooms = s.rooms)) ∧
    (s.failSilent = false → s.pairRole ≠ 0 → s.pair.lost = false → s.pair.arbiterIn = false → s.asleep = false →
      (∀ o ∈ s.pairPorts, (s.port o).lastLease + 200000 ≤ s.time) → ∃ a, exec .pairLeaseTimeout s = .next a ∧
        a.pair.lost = true ∧ a.pair.arbiterOut = true ∧ a.pair.claimAt = s.time ∧ a.suites = s.suites) ∧
    (s.pair.lost = true → exec .pairLeaseTimeout s = .next s) ∧
    (s.pair.lost = false →
      exec .arbiterGrant s = .next { s with pair := { s.pair with arbiterIn := true } } ∧
      exec .arbiterWithdraw s = .next { s with pair := { s.pair with arbiterIn := false } } ∧
      exec .islandModeEntry s = .next s ∧ exec .pairRejoin s = .next s) ∧
    (t = s.dictSet 0x5200 5 4 → w = t.killIn (fun n => !t.envFlag (t.suite n).owner 1) →
      s.island = w.dropPartner fun x => w.envFlag x.owner 1) ∧
    (s.pair.lost = true → s.failSilent = false →
      exec .arbiterGrant s = .next (s.keepQueue
        ((State.dictSet { s with pair := { s.pair with arbiterIn := true } } 0x5200 5 3).dropPartner fun _ => true)) ∧
      (s.pairState = 3 → exec .arbiterWithdraw s =
        .next (s.keepQueue (State.island { s with pair := { s.pair with arbiterIn := false } }))) ∧
      (s.pairState = 2 → s.pair.arbiterIn = false → s.pair.claimAt + 100000 ≤ s.time →
        exec .islandModeEntry s = .next (s.keepQueue s.island)) ∧
      (s.pairState = 3 → exec .pairRejoin s = .next (s.keepQueue
        (State.dictSet { s with free := s.free + 1, pair := { s.pair with lost := false, arbiterOut := false } } 0x5200 5 1)))) ∧
    (isUnit u = true → (s.failSilent = true → exec (.reintegrationSelfTest u ok dead) s = .next s) ∧
      (s.failSilent = false → exec (.reintegrationSelfTest u ok dead) s = .next (s.keepQueue (s.selfTest u ok dead)))) ∧
    (isRoom r = true → s.failSilent = false →
      ((s.room r).life ≠ .fencedInService ∨ ok = false → exec (.reintegrationSelfTest (.room r) ok dead) s = .next s) ∧
      ((s.room r).life = .fencedInService → exec (.reintegrationSelfTest (.room r) true dead) s = .next (s.keepQueue
        (State.checkRoutes (r / 320) 320 (s.planChange true 2 r fun a => a.modRoom r fun x => { x with
          life := .working, power := .gated, freeSince := a.time
          deadBricks := dead.foldl (fun m b => m ||| (1#256 <<< b)) x.deadBricks }))))) ∧
    (isFloor f = true →
      ((s.floor f).powerGood = false → exec (.floorPowerGoodLoss f) s = .next s) ∧
      ((s.floor f).powerGood = true → s.failSilent = false →
        t = (s.modFloor f ({ · with powerGood := false })).startSegment (.clock f) →
        exec (.floorPowerGoodLoss f) s =
          .next (s.keepQueue ((t.rooms.map (·.1)).foldl (State.losePower f) t).refresh) ∧
        (s.rooms = [] → s.suites = [] → Store.wf ({} : Floor) s.floors = true → ∃ a,
          exec (.floorPowerGoodLoss f) s = .next a ∧ (a.floor f).powerGood = false ∧ a.rooms = [] ∧ a.suites = [])))

/-! ### Security (R380 to R410) -/

/-- The life cycle, Open House, Latchkey and blob commands, and a tamper event, with their checks passed or failed
(R382, R385, R398 to R406). The SPDM responses on the DOE mailbox of a Hall whose link is up: the body of each, and
the error for a version that is not served (R395 to R397). -/
def Obligations.SecurityCommands : Prop :=
  (∀ (s t w : State) (q : Chan) (hh sensor h at' target slot : Nat) (data key k c sig : List Byte) (b : Byte) (l : LatchSession)
     (j : BlobJob), isHousehold hh = true → isChan q = true →
     (Served s q 0x5401 2 data.length → s.security.alarm = false → target = fieldOf data 1 1 →
       (s.trustKey = some key → (data.drop 4).take 16 = s.security.serial →
         Config.ecdsaVerify key (data.take 80) (data.drop 80) = true → fieldOf data 0 1 = 1 →
         target = s.security.lifecycle + 1 → target ≤ 3 → s.security.openHouse = false →
         t = (s.advanceLife target data).report 10 3 0 0 0 0 target →
         exec (.lcAdvance q data) s = .next (s.keepQueue (answered s
           { t with security := { t.security with resetAt := some (t.time + 1000000) } } q 0x5401 2))) ∧
       ((data.drop 4).take 16 ≠ s.security.serial → exec (.lcAdvance q data) s = .next (s.keepQueue
         (noted s (s.authFail q 0x5401 2 0) q 0x5401 2)))) ∧
     (s.security.resetAt = none → exec .lcAdvanceReset s = .next s) ∧
     (s.security.resetAt = some at' → s.asleep = false →
       (s.time < at' → exec .lcAdvanceReset s = .next s) ∧
       (at' ≤ s.time → exec .lcAdvanceReset s = .next (s.keepQueue (s.moduleRung 3)))) ∧
     (s.asleep = false → s.chanDead q = false → s.gate q 0x5402 3 false = none →
       (s.security.alarm = false → ∃ u, exec (.openHouseChallenge q) s = .next u ∧
         u.security.challenge = some (Config.random (Config.free s.free) 32 ++ s.security.serial, s.time)) ∧
       (s.security.alarm = true → exec (.openHouseChallenge q) s = .next (s.keepQueue (s.refuse q 0x5402 3 0x06010000)))) ∧
     (s.challengeOld = true → exec .challengeExpiry s = .next { s with security := { s.security with challenge := none } }) ∧
     (s.challengeOld = false → exec .challengeExpiry s = .next s) ∧
     (Served s q 0x5402 4 data.length → s.security.lifecycle = 2 → s.security.openHouse = false → s.security.alarm = false →
       bitOf s.policy 1 = true → s.security.challenge = some (c, at') → s.challengeOld = false →
       (Config.ecdsaVerify (Config.rootKey s.security.rootHash) c data = true → 0 < s.tokensLeft →
         (∀ e ∈ s.households, ¬ (e.2.st = .active ∧ s.envFlag e.1 0 = true)) →
         t = { s with security := { s.security with tokens := spendToken s.security.tokens, openHouse := true, challenge := none }
                      households := Store.mapValues {} (fun h => { h with latch := none }) s.households } →
         exec (.openHouseResponse q data) s = .next (s.keepQueue
           (answered s (t.report 10 5 2 0 0 0 t.tokensLeft) q 0x5402 4))) ∧
       (Config.ecdsaVerify (Config.rootKey s.security.rootHash) c data = false →
         exec (.openHouseResponse q data) s = .next (s.keepQueue (noted s (s.authFail q 0x5402 4 0) q 0x5402 4)))) ∧
     (Served s q (0x5500 + hh) 0x20 data.length → s.security.alarm = false → s.ownsSlot hh (fieldOf data 0 1) = true →
       s.houseActive hh = true → s.keysPermitted = true →
       sig = s.draw.2.latchOffer hh (fieldOf data 0 1) (s.security.sessions + 1) s.draw.1 (data.drop 1) →
       t = { s.draw.2 with security := { s.security with sessions := s.security.sessions + 1 } } →
       exec (.latchOpen q hh data) s = .next (s.keepQueue (answered s (t.modHouse hh ({ · with
         latch := some { number := s.security.sessions + 1, opened := s.time, slot := fieldOf data 0 1, offer := sig
                         programChain := (s.house hh).programChain, blobChain := (s.house hh).blobChain
                         lifecycle := s.security.lifecycle }
         latchOffer := sig })) q (0x5500 + hh) 0x20))) ∧
     (Served s q (0x5500 + hh) 0x22 data.length → (s.house hh).latch = some l →
       (s.latchStands hh data l = true → fieldOf data 0 1 = 1 → latchKey hh data l = some k →
         t = { s with security := { s.security with keys := Store.set none s.security.keys l.slot (some k) } } →
         exec (.latchRelease q hh data) s = .next (s.keepQueue (answered s
           ((t.modHouse hh ({ · with latch := none })).report 10 8 0 0 0 hh (Config.detail l.slot hh)) q (0x5500 + hh) 0x22))) ∧
       (s.latchStands hh data l = false → exec (.latchRelease q hh data) s = .next (s.keepQueue (noted s
         ((s.modHouse hh ({ · with latch := none })).refuse q (0x5500 + hh) 0x22 0x06010000) q (0x5500 + hh) 0x22)))) ∧
     (Served s q (0x5500 + hh) 0x23 1 → s.houseActive hh = true → s.ownsSlot hh b.toNat = true →
       exec (.slotClear q hh b) s = .next (s.keepQueue (answered s { s with security := { s.security with
         keys := Store.set none s.security.keys b.toNat none } } q (0x5500 + hh) 0x23))) ∧
     (Served s q (0x5500 + hh) 0x30 data.length → s.security.alarm = false → s.houseActive hh = true → s.keysPermitted = true →
       j = { slot := fieldOf data 1 1, length := fieldOf data 4 4, src := fieldOf data 8 8, dst := fieldOf data 16 8
             requester := q } →
       s.holds hh j.src (j.length + 80) = true → s.holds hh j.dst (max 1 j.length) = true → s.ownsSlot hh j.slot = true →
       s.slotKind j.slot = 1 → fieldOf data 0 1 = 1 → j.length % 64 = 0 → j.src % 64 = 0 → j.dst % 4096 = 0 →
       (j.src + j.length + 80 ≤ j.dst ∨ j.dst + j.length ≤ j.src) → (s.slotKey j.slot).isSome = true →
       (s.house hh).blob = none →
       exec (.blobDecrypt q hh data) s = .next (s.keepQueue (noted s
         (s.modHouse hh ({ · with blob := some j, blobStatus := 0x01100000 })) q (0x5500 + hh) 0x30))) ∧
     ((s.house hh).blob = none → exec (.blobDecryptDone hh) s = .next s) ∧
     ((s.house hh).blob = some j → s.failSilent = false →
       exec (.blobDecryptDone hh) s = .next (s.keepQueue (s.blobDone hh j)) ∧
       (t = (s.copyMove j.src (j.length + 80) false).copyMove j.dst j.length true →
         (t.poisonedAt j.src (j.length + 80) = true → exec (.blobDecryptDone hh) s = .next (s.keepQueue
           (((t.washBlob j).modHouse hh ({ · with blob := none, blobStatus := 0x01330000 })).refuse j.requester (0x5500 + hh) 0x30
             0x08000022))) ∧
         (t.poisonedAt j.src (j.length + 80) = false → (t.slotKey j.slot).bind (t.openBlob j) = some c →
           t.hbmWrite j.dst (c.take j.length) = (w, true) → ∃ u, exec (.blobDecryptDone hh) s = .next u ∧
           (u.house hh).blob = none ∧ (u.house hh).blobStatus = 0x01200000 ∧ u.hbm = w.hbm ∧ u.rooms = w.rooms))) ∧
     (isHall h = true → isTamper sensor = true → (sensor = 5 → bitOf s.policy 5 = true) → s.asleep = false →
       s.failSilent = false → s.ready = true → s.keyBusy = false →
       exec (.tamperEvent h sensor) s = .next (s.keepQueue
         (((s.noteTamper sensor 1).report 10 6 3 6 h 0 (Config.detail sensor 1)).abortKeys.tamperResponse)) ∧
       s.tamperResponse.security.alarm = true ∧
       (bitsOf s.policy 3 2 = 0 → ∃ u, exec (.tamperEvent h sensor) s = .next u ∧ u.security.alarm = true ∧
         u.security.fired = s.security.fired ||| 2 ^ (sensor - 1) ∧ u.security.keys = s.security.keys ∧ u.rooms = s.rooms))) ∧
  ∀ (s : State) (h slot off len index : Nat) (ver : Byte) (nonce : List Byte), isHall h = true → s.asleep = false →
    s.failSilent = false → s.hostLink h = true →
    exec (.getVersion (.doe h) ver) s = .next (s.emit (.spdm (.doe h) (Config.spdmBody 1 ver.toNat [0x12, 0x13]))) ∧
    (ver = 0x12 ∨ ver = 0x13 →
      exec (.getCapabilities (.doe h) ver) s = .next (s.emit (.spdm (.doe h) (Config.spdmBody 2 ver.toNat []))) ∧
      exec (.negotiateAlgorithms (.doe h) ver) s = .next (s.emit (.spdm (.doe h) (Config.spdmBody 3 ver.toNat []))) ∧
      exec (.getDigests (.doe h) ver) s = .next (s.emit (.spdm (.doe h) (Config.spdmBody 4 ver.toNat
        (([0, 1].filter s.spdmSlot).flatMap fun k => BitVec.ofNat 8 k :: Config.sha384 (s.spdmChain k))))) ∧
      (s.spdmSlot slot = true →
        exec (.getCertificate (.doe h) ver slot off len) s = .next (s.emit (.spdm (.doe h) (Config.spdmBody 5 ver.toNat
          (leBytes 1 slot ++ (((s.spdmChain slot).drop off).take len))))) ∧
        exec (.challenge (.doe h) ver slot nonce) s = .next (s.keepQueue (
          (State.signed slot 6 ver (leBytes 1 slot ++ nonce ++ Config.sha384 (s.spdmChain slot) ++ s.deedFlags) s).2.emit
          (.spdm (.doe h)
            (State.signed slot 6 ver (leBytes 1 slot ++ nonce ++ Config.sha384 (s.spdmChain slot) ++ s.deedFlags) s).1))) ∧
        (index ≤ 3 → 0 < index → ∃ u body, exec (.getMeasurements (.doe h) ver index slot nonce) s = .next u ∧
          u.out = s.out ++ [.spdm (.doe h) body] ∧ u.free = s.free + 1 ∧ u.security = s.security)) ∧
      (s.spdmSlot slot = false →
        exec (.getCertificate (.doe h) ver slot off len) s = .next (s.emit (.spdm (.doe h) (errorBody ver))) ∧
        exec (.challenge (.doe h) ver slot nonce) s = .next (s.emit (.spdm (.doe h) (errorBody ver))))) ∧
    (ver ≠ 0x12 → ver ≠ 0x13 → ∀ i ∈ [Instr.getCapabilities (.doe h) ver, .negotiateAlgorithms (.doe h) ver,
      .getDigests (.doe h) ver, .getCertificate (.doe h) ver slot off len, .challenge (.doe h) ver slot nonce,
      .getMeasurements (.doe h) ver index slot nonce],
      exec i s = .next (s.emit (.spdm (.doe h) (errorBody ver))))
end

