-- ==== Sys2Proof/Laws/State.lean ====
section
/-! SUPPORT. What each named update of the state leaves alone: one lemma per update and field, so that no proof unfolds
a record update. -/

namespace Sys2Proof.Machine

/-! ### `setRoom` -/

@[simp] theorem State.setRoom_time (s : State) (r : Nat) (x : Room) : (s.setRoom r x).time = s.time := rfl
@[simp] theorem State.setRoom_halls (s : State) (r : Nat) (x : Room) : (s.setRoom r x).halls = s.halls := rfl
@[simp] theorem State.setRoom_floors (s : State) (r : Nat) (x : Room) : (s.setRoom r x).floors = s.floors := rfl
@[simp] theorem State.setRoom_suites (s : State) (r : Nat) (x : Room) : (s.setRoom r x).suites = s.suites := rfl
@[simp] theorem State.setRoom_contexts (s : State) (r : Nat) (x : Room) : (s.setRoom r x).contexts = s.contexts := rfl
@[simp] theorem State.setRoom_households (s : State) (r : Nat) (x : Room) : (s.setRoom r x).households = s.households := rfl
@[simp] theorem State.setRoom_pages (s : State) (r : Nat) (x : Room) : (s.setRoom r x).pages = s.pages := rfl
@[simp] theorem State.setRoom_washFrom (s : State) (r : Nat) (x : Room) : (s.setRoom r x).washFrom = s.washFrom := rfl
@[simp] theorem State.setRoom_hbm (s : State) (r : Nat) (x : Room) : (s.setRoom r x).hbm = s.hbm := rfl
@[simp] theorem State.setRoom_badUnits (s : State) (r : Nat) (x : Room) : (s.setRoom r x).badUnits = s.badUnits := rfl
@[simp] theorem State.setRoom_splitWrites (s : State) (r : Nat) (x : Room) : (s.setRoom r x).splitWrites = s.splitWrites := rfl
@[simp] theorem State.setRoom_faultsDue (s : State) (r : Nat) (x : Room) : (s.setRoom r x).faultsDue = s.faultsDue := rfl
@[simp] theorem State.setRoom_tlb (s : State) (r : Nat) (x : Room) : (s.setRoom r x).tlb = s.tlb := rfl
@[simp] theorem State.setRoom_walks (s : State) (r : Nat) (x : Room) : (s.setRoom r x).walks = s.walks := rfl
@[simp] theorem State.setRoom_stalls (s : State) (r : Nat) (x : Room) : (s.setRoom r x).stalls = s.stalls := rfl
@[simp] theorem State.setRoom_windows (s : State) (r : Nat) (x : Room) : (s.setRoom r x).windows = s.windows := rfl
@[simp] theorem State.setRoom_windowRefusals (s : State) (r : Nat) (x : Room) : (s.setRoom r x).windowRefusals = s.windowRefusals := rfl
@[simp] theorem State.setRoom_remotes (s : State) (r : Nat) (x : Room) : (s.setRoom r x).remotes = s.remotes := rfl
@[simp] theorem State.setRoom_hostReads (s : State) (r : Nat) (x : Room) : (s.setRoom r x).hostReads = s.hostReads := rfl
@[simp] theorem State.setRoom_directory (s : State) (r : Nat) (x : Room) : (s.setRoom r x).directory = s.directory := rfl
@[simp] theorem State.setRoom_dirStamp (s : State) (r : Nat) (x : Room) : (s.setRoom r x).dirStamp = s.dirStamp := rfl
@[simp] theorem State.setRoom_reservations (s : State) (r : Nat) (x : Room) : (s.setRoom r x).reservations = s.reservations := rfl
@[simp] theorem State.setRoom_net (s : State) (r : Nat) (x : Room) : (s.setRoom r x).net = s.net := rfl
@[simp] theorem State.setRoom_packets (s : State) (r : Nat) (x : Room) : (s.setRoom r x).packets = s.packets := rfl
@[simp] theorem State.setRoom_links (s : State) (r : Nat) (x : Room) : (s.setRoom r x).links = s.links := rfl
@[simp] theorem State.setRoom_waiters (s : State) (r : Nat) (x : Room) : (s.setRoom r x).waiters = s.waiters := rfl
@[simp] theorem State.setRoom_heldAnswers (s : State) (r : Nat) (x : Room) : (s.setRoom r x).heldAnswers = s.heldAnswers := rfl
@[simp] theorem State.setRoom_removals (s : State) (r : Nat) (x : Room) : (s.setRoom r x).removals = s.removals := rfl
@[simp] theorem State.setRoom_regulators (s : State) (r : Nat) (x : Room) : (s.setRoom r x).regulators = s.regulators := rfl
@[simp] theorem State.setRoom_levels (s : State) (r : Nat) (x : Room) : (s.setRoom r x).levels = s.levels := rfl
@[simp] theorem State.setRoom_pcs (s : State) (r : Nat) (x : Room) : (s.setRoom r x).pcs = s.pcs := rfl
@[simp] theorem State.setRoom_dict (s : State) (r : Nat) (x : Room) : (s.setRoom r x).dict = s.dict := rfl
@[simp] theorem State.setRoom_blobs (s : State) (r : Nat) (x : Room) : (s.setRoom r x).blobs = s.blobs := rfl
@[simp] theorem State.setRoom_withheld (s : State) (r : Nat) (x : Room) : (s.setRoom r x).withheld = s.withheld := rfl
@[simp] theorem State.setRoom_power (s : State) (r : Nat) (x : Room) : (s.setRoom r x).power = s.power := rfl
@[simp] theorem State.setRoom_security (s : State) (r : Nat) (x : Room) : (s.setRoom r x).security = s.security := rfl
@[simp] theorem State.setRoom_mortar (s : State) (r : Nat) (x : Room) : (s.setRoom r x).mortar = s.mortar := rfl
@[simp] theorem State.setRoom_ingest (s : State) (r : Nat) (x : Room) : (s.setRoom r x).ingest = s.ingest := rfl
@[simp] theorem State.setRoom_linksLost (s : State) (r : Nat) (x : Room) : (s.setRoom r x).linksLost = s.linksLost := rfl
@[simp] theorem State.setRoom_retraining (s : State) (r : Nat) (x : Room) : (s.setRoom r x).retraining = s.retraining := rfl
@[simp] theorem State.setRoom_lintelDown (s : State) (r : Nat) (x : Room) : (s.setRoom r x).lintelDown = s.lintelDown := rfl
@[simp] theorem State.setRoom_lineDown (s : State) (r : Nat) (x : Room) : (s.setRoom r x).lineDown = s.lineDown := rfl
@[simp] theorem State.setRoom_pair (s : State) (r : Nat) (x : Room) : (s.setRoom r x).pair = s.pair := rfl
@[simp] theorem State.setRoom_clock (s : State) (r : Nat) (x : Room) : (s.setRoom r x).clock = s.clock := rfl
@[simp] theorem State.setRoom_lockout (s : State) (r : Nat) (x : Room) : (s.setRoom r x).lockout = s.lockout := rfl
@[simp] theorem State.setRoom_failSilent (s : State) (r : Nat) (x : Room) : (s.setRoom r x).failSilent = s.failSilent := rfl
@[simp] theorem State.setRoom_faultPin (s : State) (r : Nat) (x : Room) : (s.setRoom r x).faultPin = s.faultPin := rfl
@[simp] theorem State.setRoom_ready (s : State) (r : Nat) (x : Room) : (s.setRoom r x).ready = s.ready := rfl
@[simp] theorem State.setRoom_resetCause (s : State) (r : Nat) (x : Room) : (s.setRoom r x).resetCause = s.resetCause := rfl
@[simp] theorem State.setRoom_out (s : State) (r : Nat) (x : Room) : (s.setRoom r x).out = s.out := rfl
@[simp] theorem State.setRoom_free (s : State) (r : Nat) (x : Room) : (s.setRoom r x).free = s.free := rfl
@[simp] theorem State.setRoom_pending (s : State) (r : Nat) (x : Room) : (s.setRoom r x).pending = s.pending := rfl

/-! ### `modRoom` -/

@[simp] theorem State.modRoom_time (s : State) (r : Nat) (f : Room → Room) : (s.modRoom r f).time = s.time := rfl
@[simp] theorem State.modRoom_halls (s : State) (r : Nat) (f : Room → Room) : (s.modRoom r f).halls = s.halls := rfl
@[simp] theorem State.modRoom_floors (s : State) (r : Nat) (f : Room → Room) : (s.modRoom r f).floors = s.floors := rfl
@[simp] theorem State.modRoom_suites (s : State) (r : Nat) (f : Room → Room) : (s.modRoom r f).suites = s.suites := rfl
@[simp] theorem State.modRoom_contexts (s : State) (r : Nat) (f : Room → Room) : (s.modRoom r f).contexts = s.contexts := rfl
@[simp] theorem State.modRoom_households (s : State) (r : Nat) (f : Room → Room) : (s.modRoom r f).households = s.households := rfl
@[simp] theorem State.modRoom_pages (s : State) (r : Nat) (f : Room → Room) : (s.modRoom r f).pages = s.pages := rfl
@[simp] theorem State.modRoom_washFrom (s : State) (r : Nat) (f : Room → Room) : (s.modRoom r f).washFrom = s.washFrom := rfl
@[simp] theorem State.modRoom_hbm (s : State) (r : Nat) (f : Room → Room) : (s.modRoom r f).hbm = s.hbm := rfl
@[simp] theorem State.modRoom_badUnits (s : State) (r : Nat) (f : Room → Room) : (s.modRoom r f).badUnits = s.badUnits := rfl
@[simp] theorem State.modRoom_splitWrites (s : State) (r : Nat) (f : Room → Room) : (s.modRoom r f).splitWrites = s.splitWrites := rfl
@[simp] theorem State.modRoom_faultsDue (s : State) (r : Nat) (f : Room → Room) : (s.modRoom r f).faultsDue = s.faultsDue := rfl
@[simp] theorem State.modRoom_tlb (s : State) (r : Nat) (f : Room → Room) : (s.modRoom r f).tlb = s.tlb := rfl
@[simp] theorem State.modRoom_walks (s : State) (r : Nat) (f : Room → Room) : (s.modRoom r f).walks = s.walks := rfl
@[simp] theorem State.modRoom_stalls (s : State) (r : Nat) (f : Room → Room) : (s.modRoom r f).stalls = s.stalls := rfl
@[simp] theorem State.modRoom_windows (s : State) (r : Nat) (f : Room → Room) : (s.modRoom r f).windows = s.windows := rfl
@[simp] theorem State.modRoom_windowRefusals (s : State) (r : Nat) (f : Room → Room) : (s.modRoom r f).windowRefusals = s.windowRefusals := rfl
@[simp] theorem State.modRoom_remotes (s : State) (r : Nat) (f : Room → Room) : (s.modRoom r f).remotes = s.remotes := rfl
@[simp] theorem State.modRoom_hostReads (s : State) (r : Nat) (f : Room → Room) : (s.modRoom r f).hostReads = s.hostReads := rfl
@[simp] theorem State.modRoom_directory (s : State) (r : Nat) (f : Room → Room) : (s.modRoom r f).directory = s.directory := rfl
@[simp] theorem State.modRoom_dirStamp (s : State) (r : Nat) (f : Room → Room) : (s.modRoom r f).dirStamp = s.dirStamp := rfl
@[simp] theorem State.modRoom_reservations (s : State) (r : Nat) (f : Room → Room) : (s.modRoom r f).reservations = s.reservations := rfl
@[simp] theorem State.modRoom_net (s : State) (r : Nat) (f : Room → Room) : (s.modRoom r f).net = s.net := rfl
@[simp] theorem State.modRoom_packets (s : State) (r : Nat) (f : Room → Room) : (s.modRoom r f).packets = s.packets := rfl
@[simp] theorem State.modRoom_links (s : State) (r : Nat) (f : Room → Room) : (s.modRoom r f).links = s.links := rfl
@[simp] theorem State.modRoom_waiters (s : State) (r : Nat) (f : Room → Room) : (s.modRoom r f).waiters = s.waiters := rfl
@[simp] theorem State.modRoom_heldAnswers (s : State) (r : Nat) (f : Room → Room) : (s.modRoom r f).heldAnswers = s.heldAnswers := rfl
@[simp] theorem State.modRoom_removals (s : State) (r : Nat) (f : Room → Room) : (s.modRoom r f).removals = s.removals := rfl
@[simp] theorem State.modRoom_regulators (s : State) (r : Nat) (f : Room → Room) : (s.modRoom r f).regulators = s.regulators := rfl
@[simp] theorem State.modRoom_levels (s : State) (r : Nat) (f : Room → Room) : (s.modRoom r f).levels = s.levels := rfl
@[simp] theorem State.modRoom_pcs (s : State) (r : Nat) (f : Room → Room) : (s.modRoom r f).pcs = s.pcs := rfl
@[simp] theorem State.modRoom_dict (s : State) (r : Nat) (f : Room → Room) : (s.modRoom r f).dict = s.dict := rfl
@[simp] theorem State.modRoom_blobs (s : State) (r : Nat) (f : Room → Room) : (s.modRoom r f).blobs = s.blobs := rfl
@[simp] theorem State.modRoom_withheld (s : State) (r : Nat) (f : Room → Room) : (s.modRoom r f).withheld = s.withheld := rfl
@[simp] theorem State.modRoom_power (s : State) (r : Nat) (f : Room → Room) : (s.modRoom r f).power = s.power := rfl
@[simp] theorem State.modRoom_security (s : State) (r : Nat) (f : Room → Room) : (s.modRoom r f).security = s.security := rfl
@[simp] theorem State.modRoom_mortar (s : State) (r : Nat) (f : Room → Room) : (s.modRoom r f).mortar = s.mortar := rfl
@[simp] theorem State.modRoom_ingest (s : State) (r : Nat) (f : Room → Room) : (s.modRoom r f).ingest = s.ingest := rfl
@[simp] theorem State.modRoom_linksLost (s : State) (r : Nat) (f : Room → Room) : (s.modRoom r f).linksLost = s.linksLost := rfl
@[simp] theorem State.modRoom_retraining (s : State) (r : Nat) (f : Room → Room) : (s.modRoom r f).retraining = s.retraining := rfl
@[simp] theorem State.modRoom_lintelDown (s : State) (r : Nat) (f : Room → Room) : (s.modRoom r f).lintelDown = s.lintelDown := rfl
@[simp] theorem State.modRoom_lineDown (s : State) (r : Nat) (f : Room → Room) : (s.modRoom r f).lineDown = s.lineDown := rfl
@[simp] theorem State.modRoom_pair (s : State) (r : Nat) (f : Room → Room) : (s.modRoom r f).pair = s.pair := rfl
@[simp] theorem State.modRoom_clock (s : State) (r : Nat) (f : Room → Room) : (s.modRoom r f).clock = s.clock := rfl
@[simp] theorem State.modRoom_lockout (s : State) (r : Nat) (f : Room → Room) : (s.modRoom r f).lockout = s.lockout := rfl
@[simp] theorem State.modRoom_failSilent (s : State) (r : Nat) (f : Room → Room) : (s.modRoom r f).failSilent = s.failSilent := rfl
@[simp] theorem State.modRoom_faultPin (s : State) (r : Nat) (f : Room → Room) : (s.modRoom r f).faultPin = s.faultPin := rfl
@[simp] theorem State.modRoom_ready (s : State) (r : Nat) (f : Room → Room) : (s.modRoom r f).ready = s.ready := rfl
@[simp] theorem State.modRoom_resetCause (s : State) (r : Nat) (f : Room → Room) : (s.modRoom r f).resetCause = s.resetCause := rfl
@[simp] theorem State.modRoom_out (s : State) (r : Nat) (f : Room → Room) : (s.modRoom r f).out = s.out := rfl
@[simp] theorem State.modRoom_free (s : State) (r : Nat) (f : Room → Room) : (s.modRoom r f).free = s.free := rfl
@[simp] theorem State.modRoom_pending (s : State) (r : Nat) (f : Room → Room) : (s.modRoom r f).pending = s.pending := rfl

/-! ### `modForeman` -/

@[simp] theorem State.modForeman_time (s : State) (r : Nat) (f : Foreman → Foreman) : (s.modForeman r f).time = s.time := rfl
@[simp] theorem State.modForeman_halls (s : State) (r : Nat) (f : Foreman → Foreman) : (s.modForeman r f).halls = s.halls := rfl
@[simp] theorem State.modForeman_floors (s : State) (r : Nat) (f : Foreman → Foreman) : (s.modForeman r f).floors = s.floors := rfl
@[simp] theorem State.modForeman_suites (s : State) (r : Nat) (f : Foreman → Foreman) : (s.modForeman r f).suites = s.suites := rfl
@[simp] theorem State.modForeman_contexts (s : State) (r : Nat) (f : Foreman → Foreman) : (s.modForeman r f).contexts = s.contexts := rfl
@[simp] theorem State.modForeman_households (s : State) (r : Nat) (f : Foreman → Foreman) : (s.modForeman r f).households = s.households := rfl
@[simp] theorem State.modForeman_pages (s : State) (r : Nat) (f : Foreman → Foreman) : (s.modForeman r f).pages = s.pages := rfl
@[simp] theorem State.modForeman_washFrom (s : State) (r : Nat) (f : Foreman → Foreman) : (s.modForeman r f).washFrom = s.washFrom := rfl
@[simp] theorem State.modForeman_hbm (s : State) (r : Nat) (f : Foreman → Foreman) : (s.modForeman r f).hbm = s.hbm := rfl
@[simp] theorem State.modForeman_badUnits (s : State) (r : Nat) (f : Foreman → Foreman) : (s.modForeman r f).badUnits = s.badUnits := rfl
@[simp] theorem State.modForeman_splitWrites (s : State) (r : Nat) (f : Foreman → Foreman) : (s.modForeman r f).splitWrites = s.splitWrites := rfl
@[simp] theorem State.modForeman_faultsDue (s : State) (r : Nat) (f : Foreman → Foreman) : (s.modForeman r f).faultsDue = s.faultsDue := rfl
@[simp] theorem State.modForeman_tlb (s : State) (r : Nat) (f : Foreman → Foreman) : (s.modForeman r f).tlb = s.tlb := rfl
@[simp] theorem State.modForeman_walks (s : State) (r : Nat) (f : Foreman → Foreman) : (s.modForeman r f).walks = s.walks := rfl
@[simp] theorem State.modForeman_stalls (s : State) (r : Nat) (f : Foreman → Foreman) : (s.modForeman r f).stalls = s.stalls := rfl
@[simp] theorem State.modForeman_windows (s : State) (r : Nat) (f : Foreman → Foreman) : (s.modForeman r f).windows = s.windows := rfl
@[simp] theorem State.modForeman_windowRefusals (s : State) (r : Nat) (f : Foreman → Foreman) : (s.modForeman r f).windowRefusals = s.windowRefusals := rfl
@[simp] theorem State.modForeman_remotes (s : State) (r : Nat) (f : Foreman → Foreman) : (s.modForeman r f).remotes = s.remotes := rfl
@[simp] theorem State.modForeman_hostReads (s : State) (r : Nat) (f : Foreman → Foreman) : (s.modForeman r f).hostReads = s.hostReads := rfl
@[simp] theorem State.modForeman_directory (s : State) (r : Nat) (f : Foreman → Foreman) : (s.modForeman r f).directory = s.directory := rfl
@[simp] theorem State.modForeman_dirStamp (s : State) (r : Nat) (f : Foreman → Foreman) : (s.modForeman r f).dirStamp = s.dirStamp := rfl
@[simp] theorem State.modForeman_reservations (s : State) (r : Nat) (f : Foreman → Foreman) : (s.modForeman r f).reservations = s.reservations := rfl
@[simp] theorem State.modForeman_net (s : State) (r : Nat) (f : Foreman → Foreman) : (s.modForeman r f).net = s.net := rfl
@[simp] theorem State.modForeman_packets (s : State) (r : Nat) (f : Foreman → Foreman) : (s.modForeman r f).packets = s.packets := rfl
@[simp] theorem State.modForeman_links (s : State) (r : Nat) (f : Foreman → Foreman) : (s.modForeman r f).links = s.links := rfl
@[simp] theorem State.modForeman_waiters (s : State) (r : Nat) (f : Foreman → Foreman) : (s.modForeman r f).waiters = s.waiters := rfl
@[simp] theorem State.modForeman_heldAnswers (s : State) (r : Nat) (f : Foreman → Foreman) : (s.modForeman r f).heldAnswers = s.heldAnswers := rfl
@[simp] theorem State.modForeman_removals (s : State) (r : Nat) (f : Foreman → Foreman) : (s.modForeman r f).removals = s.removals := rfl
@[simp] theorem State.modForeman_regulators (s : State) (r : Nat) (f : Foreman → Foreman) : (s.modForeman r f).regulators = s.regulators := rfl
@[simp] theorem State.modForeman_levels (s : State) (r : Nat) (f : Foreman → Foreman) : (s.modForeman r f).levels = s.levels := rfl
@[simp] theorem State.modForeman_pcs (s : State) (r : Nat) (f : Foreman → Foreman) : (s.modForeman r f).pcs = s.pcs := rfl
@[simp] theorem State.modForeman_dict (s : State) (r : Nat) (f : Foreman → Foreman) : (s.modForeman r f).dict = s.dict := rfl
@[simp] theorem State.modForeman_blobs (s : State) (r : Nat) (f : Foreman → Foreman) : (s.modForeman r f).blobs = s.blobs := rfl
@[simp] theorem State.modForeman_withheld (s : State) (r : Nat) (f : Foreman → Foreman) : (s.modForeman r f).withheld = s.withheld := rfl
@[simp] theorem State.modForeman_power (s : State) (r : Nat) (f : Foreman → Foreman) : (s.modForeman r f).power = s.power := rfl
@[simp] theorem State.modForeman_security (s : State) (r : Nat) (f : Foreman → Foreman) : (s.modForeman r f).security = s.security := rfl
@[simp] theorem State.modForeman_mortar (s : State) (r : Nat) (f : Foreman → Foreman) : (s.modForeman r f).mortar = s.mortar := rfl
@[simp] theorem State.modForeman_ingest (s : State) (r : Nat) (f : Foreman → Foreman) : (s.modForeman r f).ingest = s.ingest := rfl
@[simp] theorem State.modForeman_linksLost (s : State) (r : Nat) (f : Foreman → Foreman) : (s.modForeman r f).linksLost = s.linksLost := rfl
@[simp] theorem State.modForeman_retraining (s : State) (r : Nat) (f : Foreman → Foreman) : (s.modForeman r f).retraining = s.retraining := rfl
@[simp] theorem State.modForeman_lintelDown (s : State) (r : Nat) (f : Foreman → Foreman) : (s.modForeman r f).lintelDown = s.lintelDown := rfl
@[simp] theorem State.modForeman_lineDown (s : State) (r : Nat) (f : Foreman → Foreman) : (s.modForeman r f).lineDown = s.lineDown := rfl
@[simp] theorem State.modForeman_pair (s : State) (r : Nat) (f : Foreman → Foreman) : (s.modForeman r f).pair = s.pair := rfl
@[simp] theorem State.modForeman_clock (s : State) (r : Nat) (f : Foreman → Foreman) : (s.modForeman r f).clock = s.clock := rfl
@[simp] theorem State.modForeman_lockout (s : State) (r : Nat) (f : Foreman → Foreman) : (s.modForeman r f).lockout = s.lockout := rfl
@[simp] theorem State.modForeman_failSilent (s : State) (r : Nat) (f : Foreman → Foreman) : (s.modForeman r f).failSilent = s.failSilent := rfl
@[simp] theorem State.modForeman_faultPin (s : State) (r : Nat) (f : Foreman → Foreman) : (s.modForeman r f).faultPin = s.faultPin := rfl
@[simp] theorem State.modForeman_ready (s : State) (r : Nat) (f : Foreman → Foreman) : (s.modForeman r f).ready = s.ready := rfl
@[simp] theorem State.modForeman_resetCause (s : State) (r : Nat) (f : Foreman → Foreman) : (s.modForeman r f).resetCause = s.resetCause := rfl
@[simp] theorem State.modForeman_out (s : State) (r : Nat) (f : Foreman → Foreman) : (s.modForeman r f).out = s.out := rfl
@[simp] theorem State.modForeman_free (s : State) (r : Nat) (f : Foreman → Foreman) : (s.modForeman r f).free = s.free := rfl
@[simp] theorem State.modForeman_pending (s : State) (r : Nat) (f : Foreman → Foreman) : (s.modForeman r f).pending = s.pending := rfl

/-! ### `modHall` -/

@[simp] theorem State.modHall_time (s : State) (h : Nat) (f : Hall → Hall) : (s.modHall h f).time = s.time := rfl
@[simp] theorem State.modHall_floors (s : State) (h : Nat) (f : Hall → Hall) : (s.modHall h f).floors = s.floors := rfl
@[simp] theorem State.modHall_rooms (s : State) (h : Nat) (f : Hall → Hall) : (s.modHall h f).rooms = s.rooms := rfl
@[simp] theorem State.modHall_suites (s : State) (h : Nat) (f : Hall → Hall) : (s.modHall h f).suites = s.suites := rfl
@[simp] theorem State.modHall_contexts (s : State) (h : Nat) (f : Hall → Hall) : (s.modHall h f).contexts = s.contexts := rfl
@[simp] theorem State.modHall_households (s : State) (h : Nat) (f : Hall → Hall) : (s.modHall h f).households = s.households := rfl
@[simp] theorem State.modHall_pages (s : State) (h : Nat) (f : Hall → Hall) : (s.modHall h f).pages = s.pages := rfl
@[simp] theorem State.modHall_washFrom (s : State) (h : Nat) (f : Hall → Hall) : (s.modHall h f).washFrom = s.washFrom := rfl
@[simp] theorem State.modHall_hbm (s : State) (h : Nat) (f : Hall → Hall) : (s.modHall h f).hbm = s.hbm := rfl
@[simp] theorem State.modHall_badUnits (s : State) (h : Nat) (f : Hall → Hall) : (s.modHall h f).badUnits = s.badUnits := rfl
@[simp] theorem State.modHall_splitWrites (s : State) (h : Nat) (f : Hall → Hall) : (s.modHall h f).splitWrites = s.splitWrites := rfl
@[simp] theorem State.modHall_faultsDue (s : State) (h : Nat) (f : Hall → Hall) : (s.modHall h f).faultsDue = s.faultsDue := rfl
@[simp] theorem State.modHall_tlb (s : State) (h : Nat) (f : Hall → Hall) : (s.modHall h f).tlb = s.tlb := rfl
@[simp] theorem State.modHall_walks (s : State) (h : Nat) (f : Hall → Hall) : (s.modHall h f).walks = s.walks := rfl
@[simp] theorem State.modHall_stalls (s : State) (h : Nat) (f : Hall → Hall) : (s.modHall h f).stalls = s.stalls := rfl
@[simp] theorem State.modHall_windows (s : State) (h : Nat) (f : Hall → Hall) : (s.modHall h f).windows = s.windows := rfl
@[simp] theorem State.modHall_windowRefusals (s : State) (h : Nat) (f : Hall → Hall) : (s.modHall h f).windowRefusals = s.windowRefusals := rfl
@[simp] theorem State.modHall_remotes (s : State) (h : Nat) (f : Hall → Hall) : (s.modHall h f).remotes = s.remotes := rfl
@[simp] theorem State.modHall_hostReads (s : State) (h : Nat) (f : Hall → Hall) : (s.modHall h f).hostReads = s.hostReads := rfl
@[simp] theorem State.modHall_directory (s : State) (h : Nat) (f : Hall → Hall) : (s.modHall h f).directory = s.directory := rfl
@[simp] theorem State.modHall_dirStamp (s : State) (h : Nat) (f : Hall → Hall) : (s.modHall h f).dirStamp = s.dirStamp := rfl
@[simp] theorem State.modHall_reservations (s : State) (h : Nat) (f : Hall → Hall) : (s.modHall h f).reservations = s.reservations := rfl
@[simp] theorem State.modHall_net (s : State) (h : Nat) (f : Hall → Hall) : (s.modHall h f).net = s.net := rfl
@[simp] theorem State.modHall_packets (s : State) (h : Nat) (f : Hall → Hall) : (s.modHall h f).packets = s.packets := rfl
@[simp] theorem State.modHall_links (s : State) (h : Nat) (f : Hall → Hall) : (s.modHall h f).links = s.links := rfl
@[simp] theorem State.modHall_waiters (s : State) (h : Nat) (f : Hall → Hall) : (s.modHall h f).waiters = s.waiters := rfl
@[simp] theorem State.modHall_heldAnswers (s : State) (h : Nat) (f : Hall → Hall) : (s.modHall h f).heldAnswers = s.heldAnswers := rfl
@[simp] theorem State.modHall_removals (s : State) (h : Nat) (f : Hall → Hall) : (s.modHall h f).removals = s.removals := rfl
@[simp] theorem State.modHall_regulators (s : State) (h : Nat) (f : Hall → Hall) : (s.modHall h f).regulators = s.regulators := rfl
@[simp] theorem State.modHall_levels (s : State) (h : Nat) (f : Hall → Hall) : (s.modHall h f).levels = s.levels := rfl
@[simp] theorem State.modHall_pcs (s : State) (h : Nat) (f : Hall → Hall) : (s.modHall h f).pcs = s.pcs := rfl
@[simp] theorem State.modHall_dict (s : State) (h : Nat) (f : Hall → Hall) : (s.modHall h f).dict = s.dict := rfl
@[simp] theorem State.modHall_blobs (s : State) (h : Nat) (f : Hall → Hall) : (s.modHall h f).blobs = s.blobs := rfl
@[simp] theorem State.modHall_withheld (s : State) (h : Nat) (f : Hall → Hall) : (s.modHall h f).withheld = s.withheld := rfl
@[simp] theorem State.modHall_power (s : State) (h : Nat) (f : Hall → Hall) : (s.modHall h f).power = s.power := rfl
@[simp] theorem State.modHall_security (s : State) (h : Nat) (f : Hall → Hall) : (s.modHall h f).security = s.security := rfl
@[simp] theorem State.modHall_mortar (s : State) (h : Nat) (f : Hall → Hall) : (s.modHall h f).mortar = s.mortar := rfl
@[simp] theorem State.modHall_ingest (s : State) (h : Nat) (f : Hall → Hall) : (s.modHall h f).ingest = s.ingest := rfl
@[simp] theorem State.modHall_linksLost (s : State) (h : Nat) (f : Hall → Hall) : (s.modHall h f).linksLost = s.linksLost := rfl
@[simp] theorem State.modHall_retraining (s : State) (h : Nat) (f : Hall → Hall) : (s.modHall h f).retraining = s.retraining := rfl
@[simp] theorem State.modHall_lintelDown (s : State) (h : Nat) (f : Hall → Hall) : (s.modHall h f).lintelDown = s.lintelDown := rfl
@[simp] theorem State.modHall_lineDown (s : State) (h : Nat) (f : Hall → Hall) : (s.modHall h f).lineDown = s.lineDown := rfl
@[simp] theorem State.modHall_pair (s : State) (h : Nat) (f : Hall → Hall) : (s.modHall h f).pair = s.pair := rfl
@[simp] theorem State.modHall_clock (s : State) (h : Nat) (f : Hall → Hall) : (s.modHall h f).clock = s.clock := rfl
@[simp] theorem State.modHall_lockout (s : State) (h : Nat) (f : Hall → Hall) : (s.modHall h f).lockout = s.lockout := rfl
@[simp] theorem State.modHall_failSilent (s : State) (h : Nat) (f : Hall → Hall) : (s.modHall h f).failSilent = s.failSilent := rfl
@[simp] theorem State.modHall_faultPin (s : State) (h : Nat) (f : Hall → Hall) : (s.modHall h f).faultPin = s.faultPin := rfl
@[simp] theorem State.modHall_ready (s : State) (h : Nat) (f : Hall → Hall) : (s.modHall h f).ready = s.ready := rfl
@[simp] theorem State.modHall_resetCause (s : State) (h : Nat) (f : Hall → Hall) : (s.modHall h f).resetCause = s.resetCause := rfl
@[simp] theorem State.modHall_out (s : State) (h : Nat) (f : Hall → Hall) : (s.modHall h f).out = s.out := rfl
@[simp] theorem State.modHall_free (s : State) (h : Nat) (f : Hall → Hall) : (s.modHall h f).free = s.free := rfl
@[simp] theorem State.modHall_pending (s : State) (h : Nat) (f : Hall → Hall) : (s.modHall h f).pending = s.pending := rfl

/-! ### `modFloor` -/

@[simp] theorem State.modFloor_time (s : State) (n : Nat) (f : Floor → Floor) : (s.modFloor n f).time = s.time := rfl
@[simp] theorem State.modFloor_halls (s : State) (n : Nat) (f : Floor → Floor) : (s.modFloor n f).halls = s.halls := rfl
@[simp] theorem State.modFloor_rooms (s : State) (n : Nat) (f : Floor → Floor) : (s.modFloor n f).rooms = s.rooms := rfl
@[simp] theorem State.modFloor_suites (s : State) (n : Nat) (f : Floor → Floor) : (s.modFloor n f).suites = s.suites := rfl
@[simp] theorem State.modFloor_contexts (s : State) (n : Nat) (f : Floor → Floor) : (s.modFloor n f).contexts = s.contexts := rfl
@[simp] theorem State.modFloor_households (s : State) (n : Nat) (f : Floor → Floor) : (s.modFloor n f).households = s.households := rfl
@[simp] theorem State.modFloor_pages (s : State) (n : Nat) (f : Floor → Floor) : (s.modFloor n f).pages = s.pages := rfl
@[simp] theorem State.modFloor_washFrom (s : State) (n : Nat) (f : Floor → Floor) : (s.modFloor n f).washFrom = s.washFrom := rfl
@[simp] theorem State.modFloor_hbm (s : State) (n : Nat) (f : Floor → Floor) : (s.modFloor n f).hbm = s.hbm := rfl
@[simp] theorem State.modFloor_badUnits (s : State) (n : Nat) (f : Floor → Floor) : (s.modFloor n f).badUnits = s.badUnits := rfl
@[simp] theorem State.modFloor_splitWrites (s : State) (n : Nat) (f : Floor → Floor) : (s.modFloor n f).splitWrites = s.splitWrites := rfl
@[simp] theorem State.modFloor_faultsDue (s : State) (n : Nat) (f : Floor → Floor) : (s.modFloor n f).faultsDue = s.faultsDue := rfl
@[simp] theorem State.modFloor_tlb (s : State) (n : Nat) (f : Floor → Floor) : (s.modFloor n f).tlb = s.tlb := rfl
@[simp] theorem State.modFloor_walks (s : State) (n : Nat) (f : Floor → Floor) : (s.modFloor n f).walks = s.walks := rfl
@[simp] theorem State.modFloor_stalls (s : State) (n : Nat) (f : Floor → Floor) : (s.modFloor n f).stalls = s.stalls := rfl
@[simp] theorem State.modFloor_windows (s : State) (n : Nat) (f : Floor → Floor) : (s.modFloor n f).windows = s.windows := rfl
@[simp] theorem State.modFloor_windowRefusals (s : State) (n : Nat) (f : Floor → Floor) : (s.modFloor n f).windowRefusals = s.windowRefusals := rfl
@[simp] theorem State.modFloor_remotes (s : State) (n : Nat) (f : Floor → Floor) : (s.modFloor n f).remotes = s.remotes := rfl
@[simp] theorem State.modFloor_hostReads (s : State) (n : Nat) (f : Floor → Floor) : (s.modFloor n f).hostReads = s.hostReads := rfl
@[simp] theorem State.modFloor_directory (s : State) (n : Nat) (f : Floor → Floor) : (s.modFloor n f).directory = s.directory := rfl
@[simp] theorem State.modFloor_dirStamp (s : State) (n : Nat) (f : Floor → Floor) : (s.modFloor n f).dirStamp = s.dirStamp := rfl
@[simp] theorem State.modFloor_reservations (s : State) (n : Nat) (f : Floor → Floor) : (s.modFloor n f).reservations = s.reservations := rfl
@[simp] theorem State.modFloor_net (s : State) (n : Nat) (f : Floor → Floor) : (s.modFloor n f).net = s.net := rfl
@[simp] theorem State.modFloor_packets (s : State) (n : Nat) (f : Floor → Floor) : (s.modFloor n f).packets = s.packets := rfl
@[simp] theorem State.modFloor_links (s : State) (n : Nat) (f : Floor → Floor) : (s.modFloor n f).links = s.links := rfl
@[simp] theorem State.modFloor_waiters (s : State) (n : Nat) (f : Floor → Floor) : (s.modFloor n f).waiters = s.waiters := rfl
@[simp] theorem State.modFloor_heldAnswers (s : State) (n : Nat) (f : Floor → Floor) : (s.modFloor n f).heldAnswers = s.heldAnswers := rfl
@[simp] theorem State.modFloor_removals (s : State) (n : Nat) (f : Floor → Floor) : (s.modFloor n f).removals = s.removals := rfl
@[simp] theorem State.modFloor_regulators (s : State) (n : Nat) (f : Floor → Floor) : (s.modFloor n f).regulators = s.regulators := rfl
@[simp] theorem State.modFloor_levels (s : State) (n : Nat) (f : Floor → Floor) : (s.modFloor n f).levels = s.levels := rfl
@[simp] theorem State.modFloor_pcs (s : State) (n : Nat) (f : Floor → Floor) : (s.modFloor n f).pcs = s.pcs := rfl
@[simp] theorem State.modFloor_dict (s : State) (n : Nat) (f : Floor → Floor) : (s.modFloor n f).dict = s.dict := rfl
@[simp] theorem State.modFloor_blobs (s : State) (n : Nat) (f : Floor → Floor) : (s.modFloor n f).blobs = s.blobs := rfl
@[simp] theorem State.modFloor_withheld (s : State) (n : Nat) (f : Floor → Floor) : (s.modFloor n f).withheld = s.withheld := rfl
@[simp] theorem State.modFloor_power (s : State) (n : Nat) (f : Floor → Floor) : (s.modFloor n f).power = s.power := rfl
@[simp] theorem State.modFloor_security (s : State) (n : Nat) (f : Floor → Floor) : (s.modFloor n f).security = s.security := rfl
@[simp] theorem State.modFloor_mortar (s : State) (n : Nat) (f : Floor → Floor) : (s.modFloor n f).mortar = s.mortar := rfl
@[simp] theorem State.modFloor_ingest (s : State) (n : Nat) (f : Floor → Floor) : (s.modFloor n f).ingest = s.ingest := rfl
@[simp] theorem State.modFloor_linksLost (s : State) (n : Nat) (f : Floor → Floor) : (s.modFloor n f).linksLost = s.linksLost := rfl
@[simp] theorem State.modFloor_retraining (s : State) (n : Nat) (f : Floor → Floor) : (s.modFloor n f).retraining = s.retraining := rfl
@[simp] theorem State.modFloor_lintelDown (s : State) (n : Nat) (f : Floor → Floor) : (s.modFloor n f).lintelDown = s.lintelDown := rfl
@[simp] theorem State.modFloor_lineDown (s : State) (n : Nat) (f : Floor → Floor) : (s.modFloor n f).lineDown = s.lineDown := rfl
@[simp] theorem State.modFloor_pair (s : State) (n : Nat) (f : Floor → Floor) : (s.modFloor n f).pair = s.pair := rfl
@[simp] theorem State.modFloor_clock (s : State) (n : Nat) (f : Floor → Floor) : (s.modFloor n f).clock = s.clock := rfl
@[simp] theorem State.modFloor_lockout (s : State) (n : Nat) (f : Floor → Floor) : (s.modFloor n f).lockout = s.lockout := rfl
@[simp] theorem State.modFloor_failSilent (s : State) (n : Nat) (f : Floor → Floor) : (s.modFloor n f).failSilent = s.failSilent := rfl
@[simp] theorem State.modFloor_faultPin (s : State) (n : Nat) (f : Floor → Floor) : (s.modFloor n f).faultPin = s.faultPin := rfl
@[simp] theorem State.modFloor_ready (s : State) (n : Nat) (f : Floor → Floor) : (s.modFloor n f).ready = s.ready := rfl
@[simp] theorem State.modFloor_resetCause (s : State) (n : Nat) (f : Floor → Floor) : (s.modFloor n f).resetCause = s.resetCause := rfl
@[simp] theorem State.modFloor_out (s : State) (n : Nat) (f : Floor → Floor) : (s.modFloor n f).out = s.out := rfl
@[simp] theorem State.modFloor_free (s : State) (n : Nat) (f : Floor → Floor) : (s.modFloor n f).free = s.free := rfl
@[simp] theorem State.modFloor_pending (s : State) (n : Nat) (f : Floor → Floor) : (s.modFloor n f).pending = s.pending := rfl

/-! ### `modSuite` -/

@[simp] theorem State.modSuite_time (s : State) (n : Nat) (f : Suite → Suite) : (s.modSuite n f).time = s.time := rfl
@[simp] theorem State.modSuite_halls (s : State) (n : Nat) (f : Suite → Suite) : (s.modSuite n f).halls = s.halls := rfl
@[simp] theorem State.modSuite_floors (s : State) (n : Nat) (f : Suite → Suite) : (s.modSuite n f).floors = s.floors := rfl
@[simp] theorem State.modSuite_rooms (s : State) (n : Nat) (f : Suite → Suite) : (s.modSuite n f).rooms = s.rooms := rfl
@[simp] theorem State.modSuite_contexts (s : State) (n : Nat) (f : Suite → Suite) : (s.modSuite n f).contexts = s.contexts := rfl
@[simp] theorem State.modSuite_households (s : State) (n : Nat) (f : Suite → Suite) : (s.modSuite n f).households = s.households := rfl
@[simp] theorem State.modSuite_pages (s : State) (n : Nat) (f : Suite → Suite) : (s.modSuite n f).pages = s.pages := rfl
@[simp] theorem State.modSuite_washFrom (s : State) (n : Nat) (f : Suite → Suite) : (s.modSuite n f).washFrom = s.washFrom := rfl
@[simp] theorem State.modSuite_hbm (s : State) (n : Nat) (f : Suite → Suite) : (s.modSuite n f).hbm = s.hbm := rfl
@[simp] theorem State.modSuite_badUnits (s : State) (n : Nat) (f : Suite → Suite) : (s.modSuite n f).badUnits = s.badUnits := rfl
@[simp] theorem State.modSuite_splitWrites (s : State) (n : Nat) (f : Suite → Suite) : (s.modSuite n f).splitWrites = s.splitWrites := rfl
@[simp] theorem State.modSuite_faultsDue (s : State) (n : Nat) (f : Suite → Suite) : (s.modSuite n f).faultsDue = s.faultsDue := rfl
@[simp] theorem State.modSuite_tlb (s : State) (n : Nat) (f : Suite → Suite) : (s.modSuite n f).tlb = s.tlb := rfl
@[simp] theorem State.modSuite_walks (s : State) (n : Nat) (f : Suite → Suite) : (s.modSuite n f).walks = s.walks := rfl
@[simp] theorem State.modSuite_stalls (s : State) (n : Nat) (f : Suite → Suite) : (s.modSuite n f).stalls = s.stalls := rfl
@[simp] theorem State.modSuite_windows (s : State) (n : Nat) (f : Suite → Suite) : (s.modSuite n f).windows = s.windows := rfl
@[simp] theorem State.modSuite_windowRefusals (s : State) (n : Nat) (f : Suite → Suite) : (s.modSuite n f).windowRefusals = s.windowRefusals := rfl
@[simp] theorem State.modSuite_remotes (s : State) (n : Nat) (f : Suite → Suite) : (s.modSuite n f).remotes = s.remotes := rfl
@[simp] theorem State.modSuite_hostReads (s : State) (n : Nat) (f : Suite → Suite) : (s.modSuite n f).hostReads = s.hostReads := rfl
@[simp] theorem State.modSuite_directory (s : State) (n : Nat) (f : Suite → Suite) : (s.modSuite n f).directory = s.directory := rfl
@[simp] theorem State.modSuite_dirStamp (s : State) (n : Nat) (f : Suite → Suite) : (s.modSuite n f).dirStamp = s.dirStamp := rfl
@[simp] theorem State.modSuite_reservations (s : State) (n : Nat) (f : Suite → Suite) : (s.modSuite n f).reservations = s.reservations := rfl
@[simp] theorem State.modSuite_net (s : State) (n : Nat) (f : Suite → Suite) : (s.modSuite n f).net = s.net := rfl
@[simp] theorem State.modSuite_packets (s : State) (n : Nat) (f : Suite → Suite) : (s.modSuite n f).packets = s.packets := rfl
@[simp] theorem State.modSuite_links (s : State) (n : Nat) (f : Suite → Suite) : (s.modSuite n f).links = s.links := rfl
@[simp] theorem State.modSuite_waiters (s : State) (n : Nat) (f : Suite → Suite) : (s.modSuite n f).waiters = s.waiters := rfl
@[simp] theorem State.modSuite_heldAnswers (s : State) (n : Nat) (f : Suite → Suite) : (s.modSuite n f).heldAnswers = s.heldAnswers := rfl
@[simp] theorem State.modSuite_removals (s : State) (n : Nat) (f : Suite → Suite) : (s.modSuite n f).removals = s.removals := rfl
@[simp] theorem State.modSuite_regulators (s : State) (n : Nat) (f : Suite → Suite) : (s.modSuite n f).regulators = s.regulators := rfl
@[simp] theorem State.modSuite_levels (s : State) (n : Nat) (f : Suite → Suite) : (s.modSuite n f).levels = s.levels := rfl
@[simp] theorem State.modSuite_pcs (s : State) (n : Nat) (f : Suite → Suite) : (s.modSuite n f).pcs = s.pcs := rfl
@[simp] theorem State.modSuite_dict (s : State) (n : Nat) (f : Suite → Suite) : (s.modSuite n f).dict = s.dict := rfl
@[simp] theorem State.modSuite_blobs (s : State) (n : Nat) (f : Suite → Suite) : (s.modSuite n f).blobs = s.blobs := rfl
@[simp] theorem State.modSuite_withheld (s : State) (n : Nat) (f : Suite → Suite) : (s.modSuite n f).withheld = s.withheld := rfl
@[simp] theorem State.modSuite_power (s : State) (n : Nat) (f : Suite → Suite) : (s.modSuite n f).power = s.power := rfl
@[simp] theorem State.modSuite_security (s : State) (n : Nat) (f : Suite → Suite) : (s.modSuite n f).security = s.security := rfl
@[simp] theorem State.modSuite_mortar (s : State) (n : Nat) (f : Suite → Suite) : (s.modSuite n f).mortar = s.mortar := rfl
@[simp] theorem State.modSuite_ingest (s : State) (n : Nat) (f : Suite → Suite) : (s.modSuite n f).ingest = s.ingest := rfl
@[simp] theorem State.modSuite_linksLost (s : State) (n : Nat) (f : Suite → Suite) : (s.modSuite n f).linksLost = s.linksLost := rfl
@[simp] theorem State.modSuite_retraining (s : State) (n : Nat) (f : Suite → Suite) : (s.modSuite n f).retraining = s.retraining := rfl
@[simp] theorem State.modSuite_lintelDown (s : State) (n : Nat) (f : Suite → Suite) : (s.modSuite n f).lintelDown = s.lintelDown := rfl
@[simp] theorem State.modSuite_lineDown (s : State) (n : Nat) (f : Suite → Suite) : (s.modSuite n f).lineDown = s.lineDown := rfl
@[simp] theorem State.modSuite_pair (s : State) (n : Nat) (f : Suite → Suite) : (s.modSuite n f).pair = s.pair := rfl
@[simp] theorem State.modSuite_clock (s : State) (n : Nat) (f : Suite → Suite) : (s.modSuite n f).clock = s.clock := rfl
@[simp] theorem State.modSuite_lockout (s : State) (n : Nat) (f : Suite → Suite) : (s.modSuite n f).lockout = s.lockout := rfl
@[simp] theorem State.modSuite_failSilent (s : State) (n : Nat) (f : Suite → Suite) : (s.modSuite n f).failSilent = s.failSilent := rfl
@[simp] theorem State.modSuite_faultPin (s : State) (n : Nat) (f : Suite → Suite) : (s.modSuite n f).faultPin = s.faultPin := rfl
@[simp] theorem State.modSuite_ready (s : State) (n : Nat) (f : Suite → Suite) : (s.modSuite n f).ready = s.ready := rfl
@[simp] theorem State.modSuite_resetCause (s : State) (n : Nat) (f : Suite → Suite) : (s.modSuite n f).resetCause = s.resetCause := rfl
@[simp] theorem State.modSuite_out (s : State) (n : Nat) (f : Suite → Suite) : (s.modSuite n f).out = s.out := rfl
@[simp] theorem State.modSuite_free (s : State) (n : Nat) (f : Suite → Suite) : (s.modSuite n f).free = s.free := rfl
@[simp] theorem State.modSuite_pending (s : State) (n : Nat) (f : Suite → Suite) : (s.modSuite n f).pending = s.pending := rfl

/-! ### `modHouse` -/

@[simp] theorem State.modHouse_time (s : State) (h : Nat) (f : Household → Household) : (s.modHouse h f).time = s.time := rfl
@[simp] theorem State.modHouse_halls (s : State) (h : Nat) (f : Household → Household) : (s.modHouse h f).halls = s.halls := rfl
@[simp] theorem State.modHouse_floors (s : State) (h : Nat) (f : Household → Household) : (s.modHouse h f).floors = s.floors := rfl
@[simp] theorem State.modHouse_rooms (s : State) (h : Nat) (f : Household → Household) : (s.modHouse h f).rooms = s.rooms := rfl
@[simp] theorem State.modHouse_suites (s : State) (h : Nat) (f : Household → Household) : (s.modHouse h f).suites = s.suites := rfl
@[simp] theorem State.modHouse_contexts (s : State) (h : Nat) (f : Household → Household) : (s.modHouse h f).contexts = s.contexts := rfl
@[simp] theorem State.modHouse_pages (s : State) (h : Nat) (f : Household → Household) : (s.modHouse h f).pages = s.pages := rfl
@[simp] theorem State.modHouse_washFrom (s : State) (h : Nat) (f : Household → Household) : (s.modHouse h f).washFrom = s.washFrom := rfl
@[simp] theorem State.modHouse_hbm (s : State) (h : Nat) (f : Household → Household) : (s.modHouse h f).hbm = s.hbm := rfl
@[simp] theorem State.modHouse_badUnits (s : State) (h : Nat) (f : Household → Household) : (s.modHouse h f).badUnits = s.badUnits := rfl
@[simp] theorem State.modHouse_splitWrites (s : State) (h : Nat) (f : Household → Household) : (s.modHouse h f).splitWrites = s.splitWrites := rfl
@[simp] theorem State.modHouse_faultsDue (s : State) (h : Nat) (f : Household → Household) : (s.modHouse h f).faultsDue = s.faultsDue := rfl
@[simp] theorem State.modHouse_tlb (s : State) (h : Nat) (f : Household → Household) : (s.modHouse h f).tlb = s.tlb := rfl
@[simp] theorem State.modHouse_walks (s : State) (h : Nat) (f : Household → Household) : (s.modHouse h f).walks = s.walks := rfl
@[simp] theorem State.modHouse_stalls (s : State) (h : Nat) (f : Household → Household) : (s.modHouse h f).stalls = s.stalls := rfl
@[simp] theorem State.modHouse_windows (s : State) (h : Nat) (f : Household → Household) : (s.modHouse h f).windows = s.windows := rfl
@[simp] theorem State.modHouse_windowRefusals (s : State) (h : Nat) (f : Household → Household) : (s.modHouse h f).windowRefusals = s.windowRefusals := rfl
@[simp] theorem State.modHouse_remotes (s : State) (h : Nat) (f : Household → Household) : (s.modHouse h f).remotes = s.remotes := rfl
@[simp] theorem State.modHouse_hostReads (s : State) (h : Nat) (f : Household → Household) : (s.modHouse h f).hostReads = s.hostReads := rfl
@[simp] theorem State.modHouse_directory (s : State) (h : Nat) (f : Household → Household) : (s.modHouse h f).directory = s.directory := rfl
@[simp] theorem State.modHouse_dirStamp (s : State) (h : Nat) (f : Household → Household) : (s.modHouse h f).dirStamp = s.dirStamp := rfl
@[simp] theorem State.modHouse_reservations (s : State) (h : Nat) (f : Household → Household) : (s.modHouse h f).reservations = s.reservations := rfl
@[simp] theorem State.modHouse_net (s : State) (h : Nat) (f : Household → Household) : (s.modHouse h f).net = s.net := rfl
@[simp] theorem State.modHouse_packets (s : State) (h : Nat) (f : Household → Household) : (s.modHouse h f).packets = s.packets := rfl
@[simp] theorem State.modHouse_links (s : State) (h : Nat) (f : Household → Household) : (s.modHouse h f).links = s.links := rfl
@[simp] theorem State.modHouse_waiters (s : State) (h : Nat) (f : Household → Household) : (s.modHouse h f).waiters = s.waiters := rfl
@[simp] theorem State.modHouse_heldAnswers (s : State) (h : Nat) (f : Household → Household) : (s.modHouse h f).heldAnswers = s.heldAnswers := rfl
@[simp] theorem State.modHouse_removals (s : State) (h : Nat) (f : Household → Household) : (s.modHouse h f).removals = s.removals := rfl
@[simp] theorem State.modHouse_regulators (s : State) (h : Nat) (f : Household → Household) : (s.modHouse h f).regulators = s.regulators := rfl
@[simp] theorem State.modHouse_levels (s : State) (h : Nat) (f : Household → Household) : (s.modHouse h f).levels = s.levels := rfl
@[simp] theorem State.modHouse_pcs (s : State) (h : Nat) (f : Household → Household) : (s.modHouse h f).pcs = s.pcs := rfl
@[simp] theorem State.modHouse_dict (s : State) (h : Nat) (f : Household → Household) : (s.modHouse h f).dict = s.dict := rfl
@[simp] theorem State.modHouse_blobs (s : State) (h : Nat) (f : Household → Household) : (s.modHouse h f).blobs = s.blobs := rfl
@[simp] theorem State.modHouse_withheld (s : State) (h : Nat) (f : Household → Household) : (s.modHouse h f).withheld = s.withheld := rfl
@[simp] theorem State.modHouse_power (s : State) (h : Nat) (f : Household → Household) : (s.modHouse h f).power = s.power := rfl
@[simp] theorem State.modHouse_security (s : State) (h : Nat) (f : Household → Household) : (s.modHouse h f).security = s.security := rfl
@[simp] theorem State.modHouse_mortar (s : State) (h : Nat) (f : Household → Household) : (s.modHouse h f).mortar = s.mortar := rfl
@[simp] theorem State.modHouse_ingest (s : State) (h : Nat) (f : Household → Household) : (s.modHouse h f).ingest = s.ingest := rfl
@[simp] theorem State.modHouse_linksLost (s : State) (h : Nat) (f : Household → Household) : (s.modHouse h f).linksLost = s.linksLost := rfl
@[simp] theorem State.modHouse_retraining (s : State) (h : Nat) (f : Household → Household) : (s.modHouse h f).retraining = s.retraining := rfl
@[simp] theorem State.modHouse_lintelDown (s : State) (h : Nat) (f : Household → Household) : (s.modHouse h f).lintelDown = s.lintelDown := rfl
@[simp] theorem State.modHouse_lineDown (s : State) (h : Nat) (f : Household → Household) : (s.modHouse h f).lineDown = s.lineDown := rfl
@[simp] theorem State.modHouse_pair (s : State) (h : Nat) (f : Household → Household) : (s.modHouse h f).pair = s.pair := rfl
@[simp] theorem State.modHouse_clock (s : State) (h : Nat) (f : Household → Household) : (s.modHouse h f).clock = s.clock := rfl
@[simp] theorem State.modHouse_lockout (s : State) (h : Nat) (f : Household → Household) : (s.modHouse h f).lockout = s.lockout := rfl
@[simp] theorem State.modHouse_failSilent (s : State) (h : Nat) (f : Household → Household) : (s.modHouse h f).failSilent = s.failSilent := rfl
@[simp] theorem State.modHouse_faultPin (s : State) (h : Nat) (f : Household → Household) : (s.modHouse h f).faultPin = s.faultPin := rfl
@[simp] theorem State.modHouse_ready (s : State) (h : Nat) (f : Household → Household) : (s.modHouse h f).ready = s.ready := rfl
@[simp] theorem State.modHouse_resetCause (s : State) (h : Nat) (f : Household → Household) : (s.modHouse h f).resetCause = s.resetCause := rfl
@[simp] theorem State.modHouse_out (s : State) (h : Nat) (f : Household → Household) : (s.modHouse h f).out = s.out := rfl
@[simp] theorem State.modHouse_free (s : State) (h : Nat) (f : Household → Household) : (s.modHouse h f).free = s.free := rfl
@[simp] theorem State.modHouse_pending (s : State) (h : Nat) (f : Household → Household) : (s.modHouse h f).pending = s.pending := rfl

/-! ### `setCtx` -/

@[simp] theorem State.setCtx_time (s : State) (c : Nat) (x : Option Context) : (s.setCtx c x).time = s.time := rfl
@[simp] theorem State.setCtx_halls (s : State) (c : Nat) (x : Option Context) : (s.setCtx c x).halls = s.halls := rfl
@[simp] theorem State.setCtx_floors (s : State) (c : Nat) (x : Option Context) : (s.setCtx c x).floors = s.floors := rfl
@[simp] theorem State.setCtx_rooms (s : State) (c : Nat) (x : Option Context) : (s.setCtx c x).rooms = s.rooms := rfl
@[simp] theorem State.setCtx_suites (s : State) (c : Nat) (x : Option Context) : (s.setCtx c x).suites = s.suites := rfl
@[simp] theorem State.setCtx_households (s : State) (c : Nat) (x : Option Context) : (s.setCtx c x).households = s.households := rfl
@[simp] theorem State.setCtx_pages (s : State) (c : Nat) (x : Option Context) : (s.setCtx c x).pages = s.pages := rfl
@[simp] theorem State.setCtx_washFrom (s : State) (c : Nat) (x : Option Context) : (s.setCtx c x).washFrom = s.washFrom := rfl
@[simp] theorem State.setCtx_hbm (s : State) (c : Nat) (x : Option Context) : (s.setCtx c x).hbm = s.hbm := rfl
@[simp] theorem State.setCtx_badUnits (s : State) (c : Nat) (x : Option Context) : (s.setCtx c x).badUnits = s.badUnits := rfl
@[simp] theorem State.setCtx_splitWrites (s : State) (c : Nat) (x : Option Context) : (s.setCtx c x).splitWrites = s.splitWrites := rfl
@[simp] theorem State.setCtx_faultsDue (s : State) (c : Nat) (x : Option Context) : (s.setCtx c x).faultsDue = s.faultsDue := rfl
@[simp] theorem State.setCtx_tlb (s : State) (c : Nat) (x : Option Context) : (s.setCtx c x).tlb = s.tlb := rfl
@[simp] theorem State.setCtx_walks (s : State) (c : Nat) (x : Option Context) : (s.setCtx c x).walks = s.walks := rfl
@[simp] theorem State.setCtx_stalls (s : State) (c : Nat) (x : Option Context) : (s.setCtx c x).stalls = s.stalls := rfl
@[simp] theorem State.setCtx_windows (s : State) (c : Nat) (x : Option Context) : (s.setCtx c x).windows = s.windows := rfl
@[simp] theorem State.setCtx_windowRefusals (s : State) (c : Nat) (x : Option Context) : (s.setCtx c x).windowRefusals = s.windowRefusals := rfl
@[simp] theorem State.setCtx_remotes (s : State) (c : Nat) (x : Option Context) : (s.setCtx c x).remotes = s.remotes := rfl
@[simp] theorem State.setCtx_hostReads (s : State) (c : Nat) (x : Option Context) : (s.setCtx c x).hostReads = s.hostReads := rfl
@[simp] theorem State.setCtx_directory (s : State) (c : Nat) (x : Option Context) : (s.setCtx c x).directory = s.directory := rfl
@[simp] theorem State.setCtx_dirStamp (s : State) (c : Nat) (x : Option Context) : (s.setCtx c x).dirStamp = s.dirStamp := rfl
@[simp] theorem State.setCtx_reservations (s : State) (c : Nat) (x : Option Context) : (s.setCtx c x).reservations = s.reservations := rfl
@[simp] theorem State.setCtx_net (s : State) (c : Nat) (x : Option Context) : (s.setCtx c x).net = s.net := rfl
@[simp] theorem State.setCtx_packets (s : State) (c : Nat) (x : Option Context) : (s.setCtx c x).packets = s.packets := rfl
@[simp] theorem State.setCtx_links (s : State) (c : Nat) (x : Option Context) : (s.setCtx c x).links = s.links := rfl
@[simp] theorem State.setCtx_waiters (s : State) (c : Nat) (x : Option Context) : (s.setCtx c x).waiters = s.waiters := rfl
@[simp] theorem State.setCtx_heldAnswers (s : State) (c : Nat) (x : Option Context) : (s.setCtx c x).heldAnswers = s.heldAnswers := rfl
@[simp] theorem State.setCtx_removals (s : State) (c : Nat) (x : Option Context) : (s.setCtx c x).removals = s.removals := rfl
@[simp] theorem State.setCtx_regulators (s : State) (c : Nat) (x : Option Context) : (s.setCtx c x).regulators = s.regulators := rfl
@[simp] theorem State.setCtx_levels (s : State) (c : Nat) (x : Option Context) : (s.setCtx c x).levels = s.levels := rfl
@[simp] theorem State.setCtx_pcs (s : State) (c : Nat) (x : Option Context) : (s.setCtx c x).pcs = s.pcs := rfl
@[simp] theorem State.setCtx_dict (s : State) (c : Nat) (x : Option Context) : (s.setCtx c x).dict = s.dict := rfl
@[simp] theorem State.setCtx_blobs (s : State) (c : Nat) (x : Option Context) : (s.setCtx c x).blobs = s.blobs := rfl
@[simp] theorem State.setCtx_withheld (s : State) (c : Nat) (x : Option Context) : (s.setCtx c x).withheld = s.withheld := rfl
@[simp] theorem State.setCtx_power (s : State) (c : Nat) (x : Option Context) : (s.setCtx c x).power = s.power := rfl
@[simp] theorem State.setCtx_security (s : State) (c : Nat) (x : Option Context) : (s.setCtx c x).security = s.security := rfl
@[simp] theorem State.setCtx_mortar (s : State) (c : Nat) (x : Option Context) : (s.setCtx c x).mortar = s.mortar := rfl
@[simp] theorem State.setCtx_ingest (s : State) (c : Nat) (x : Option Context) : (s.setCtx c x).ingest = s.ingest := rfl
@[simp] theorem State.setCtx_linksLost (s : State) (c : Nat) (x : Option Context) : (s.setCtx c x).linksLost = s.linksLost := rfl
@[simp] theorem State.setCtx_retraining (s : State) (c : Nat) (x : Option Context) : (s.setCtx c x).retraining = s.retraining := rfl
@[simp] theorem State.setCtx_lintelDown (s : State) (c : Nat) (x : Option Context) : (s.setCtx c x).lintelDown = s.lintelDown := rfl
@[simp] theorem State.setCtx_lineDown (s : State) (c : Nat) (x : Option Context) : (s.setCtx c x).lineDown = s.lineDown := rfl
@[simp] theorem State.setCtx_pair (s : State) (c : Nat) (x : Option Context) : (s.setCtx c x).pair = s.pair := rfl
@[simp] theorem State.setCtx_clock (s : State) (c : Nat) (x : Option Context) : (s.setCtx c x).clock = s.clock := rfl
@[simp] theorem State.setCtx_lockout (s : State) (c : Nat) (x : Option Context) : (s.setCtx c x).lockout = s.lockout := rfl
@[simp] theorem State.setCtx_failSilent (s : State) (c : Nat) (x : Option Context) : (s.setCtx c x).failSilent = s.failSilent := rfl
@[simp] theorem State.setCtx_faultPin (s : State) (c : Nat) (x : Option Context) : (s.setCtx c x).faultPin = s.faultPin := rfl
@[simp] theorem State.setCtx_ready (s : State) (c : Nat) (x : Option Context) : (s.setCtx c x).ready = s.ready := rfl
@[simp] theorem State.setCtx_resetCause (s : State) (c : Nat) (x : Option Context) : (s.setCtx c x).resetCause = s.resetCause := rfl
@[simp] theorem State.setCtx_out (s : State) (c : Nat) (x : Option Context) : (s.setCtx c x).out = s.out := rfl
@[simp] theorem State.setCtx_free (s : State) (c : Nat) (x : Option Context) : (s.setCtx c x).free = s.free := rfl
@[simp] theorem State.setCtx_pending (s : State) (c : Nat) (x : Option Context) : (s.setCtx c x).pending = s.pending := rfl

/-! ### `modCtx` -/

@[simp] theorem State.modCtx_time (s : State) (c : Nat) (f : Context → Context) : (s.modCtx c f).time = s.time := rfl
@[simp] theorem State.modCtx_halls (s : State) (c : Nat) (f : Context → Context) : (s.modCtx c f).halls = s.halls := rfl
@[simp] theorem State.modCtx_floors (s : State) (c : Nat) (f : Context → Context) : (s.modCtx c f).floors = s.floors := rfl
@[simp] theorem State.modCtx_rooms (s : State) (c : Nat) (f : Context → Context) : (s.modCtx c f).rooms = s.rooms := rfl
@[simp] theorem State.modCtx_suites (s : State) (c : Nat) (f : Context → Context) : (s.modCtx c f).suites = s.suites := rfl
@[simp] theorem State.modCtx_households (s : State) (c : Nat) (f : Context → Context) : (s.modCtx c f).households = s.households := rfl
@[simp] theorem State.modCtx_pages (s : State) (c : Nat) (f : Context → Context) : (s.modCtx c f).pages = s.pages := rfl
@[simp] theorem State.modCtx_washFrom (s : State) (c : Nat) (f : Context → Context) : (s.modCtx c f).washFrom = s.washFrom := rfl
@[simp] theorem State.modCtx_hbm (s : State) (c : Nat) (f : Context → Context) : (s.modCtx c f).hbm = s.hbm := rfl
@[simp] theorem State.modCtx_badUnits (s : State) (c : Nat) (f : Context → Context) : (s.modCtx c f).badUnits = s.badUnits := rfl
@[simp] theorem State.modCtx_splitWrites (s : State) (c : Nat) (f : Context → Context) : (s.modCtx c f).splitWrites = s.splitWrites := rfl
@[simp] theorem State.modCtx_faultsDue (s : State) (c : Nat) (f : Context → Context) : (s.modCtx c f).faultsDue = s.faultsDue := rfl
@[simp] theorem State.modCtx_tlb (s : State) (c : Nat) (f : Context → Context) : (s.modCtx c f).tlb = s.tlb := rfl
@[simp] theorem State.modCtx_walks (s : State) (c : Nat) (f : Context → Context) : (s.modCtx c f).walks = s.walks := rfl
@[simp] theorem State.modCtx_stalls (s : State) (c : Nat) (f : Context → Context) : (s.modCtx c f).stalls = s.stalls := rfl
@[simp] theorem State.modCtx_windows (s : State) (c : Nat) (f : Context → Context) : (s.modCtx c f).windows = s.windows := rfl
@[simp] theorem State.modCtx_windowRefusals (s : State) (c : Nat) (f : Context → Context) : (s.modCtx c f).windowRefusals = s.windowRefusals := rfl
@[simp] theorem State.modCtx_remotes (s : State) (c : Nat) (f : Context → Context) : (s.modCtx c f).remotes = s.remotes := rfl
@[simp] theorem State.modCtx_hostReads (s : State) (c : Nat) (f : Context → Context) : (s.modCtx c f).hostReads = s.hostReads := rfl
@[simp] theorem State.modCtx_directory (s : State) (c : Nat) (f : Context → Context) : (s.modCtx c f).directory = s.directory := rfl
@[simp] theorem State.modCtx_dirStamp (s : State) (c : Nat) (f : Context → Context) : (s.modCtx c f).dirStamp = s.dirStamp := rfl
@[simp] theorem State.modCtx_reservations (s : State) (c : Nat) (f : Context → Context) : (s.modCtx c f).reservations = s.reservations := rfl
@[simp] theorem State.modCtx_net (s : State) (c : Nat) (f : Context → Context) : (s.modCtx c f).net = s.net := rfl
@[simp] theorem State.modCtx_packets (s : State) (c : Nat) (f : Context → Context) : (s.modCtx c f).packets = s.packets := rfl
@[simp] theorem State.modCtx_links (s : State) (c : Nat) (f : Context → Context) : (s.modCtx c f).links = s.links := rfl
@[simp] theorem State.modCtx_waiters (s : State) (c : Nat) (f : Context → Context) : (s.modCtx c f).waiters = s.waiters := rfl
@[simp] theorem State.modCtx_heldAnswers (s : State) (c : Nat) (f : Context → Context) : (s.modCtx c f).heldAnswers = s.heldAnswers := rfl
@[simp] theorem State.modCtx_removals (s : State) (c : Nat) (f : Context → Context) : (s.modCtx c f).removals = s.removals := rfl
@[simp] theorem State.modCtx_regulators (s : State) (c : Nat) (f : Context → Context) : (s.modCtx c f).regulators = s.regulators := rfl
@[simp] theorem State.modCtx_levels (s : State) (c : Nat) (f : Context → Context) : (s.modCtx c f).levels = s.levels := rfl
@[simp] theorem State.modCtx_pcs (s : State) (c : Nat) (f : Context → Context) : (s.modCtx c f).pcs = s.pcs := rfl
@[simp] theorem State.modCtx_dict (s : State) (c : Nat) (f : Context → Context) : (s.modCtx c f).dict = s.dict := rfl
@[simp] theorem State.modCtx_blobs (s : State) (c : Nat) (f : Context → Context) : (s.modCtx c f).blobs = s.blobs := rfl
@[simp] theorem State.modCtx_withheld (s : State) (c : Nat) (f : Context → Context) : (s.modCtx c f).withheld = s.withheld := rfl
@[simp] theorem State.modCtx_power (s : State) (c : Nat) (f : Context → Context) : (s.modCtx c f).power = s.power := rfl
@[simp] theorem State.modCtx_security (s : State) (c : Nat) (f : Context → Context) : (s.modCtx c f).security = s.security := rfl
@[simp] theorem State.modCtx_mortar (s : State) (c : Nat) (f : Context → Context) : (s.modCtx c f).mortar = s.mortar := rfl
@[simp] theorem State.modCtx_ingest (s : State) (c : Nat) (f : Context → Context) : (s.modCtx c f).ingest = s.ingest := rfl
@[simp] theorem State.modCtx_linksLost (s : State) (c : Nat) (f : Context → Context) : (s.modCtx c f).linksLost = s.linksLost := rfl
@[simp] theorem State.modCtx_retraining (s : State) (c : Nat) (f : Context → Context) : (s.modCtx c f).retraining = s.retraining := rfl
@[simp] theorem State.modCtx_lintelDown (s : State) (c : Nat) (f : Context → Context) : (s.modCtx c f).lintelDown = s.lintelDown := rfl
@[simp] theorem State.modCtx_lineDown (s : State) (c : Nat) (f : Context → Context) : (s.modCtx c f).lineDown = s.lineDown := rfl
@[simp] theorem State.modCtx_pair (s : State) (c : Nat) (f : Context → Context) : (s.modCtx c f).pair = s.pair := rfl
@[simp] theorem State.modCtx_clock (s : State) (c : Nat) (f : Context → Context) : (s.modCtx c f).clock = s.clock := rfl
@[simp] theorem State.modCtx_lockout (s : State) (c : Nat) (f : Context → Context) : (s.modCtx c f).lockout = s.lockout := rfl
@[simp] theorem State.modCtx_failSilent (s : State) (c : Nat) (f : Context → Context) : (s.modCtx c f).failSilent = s.failSilent := rfl
@[simp] theorem State.modCtx_faultPin (s : State) (c : Nat) (f : Context → Context) : (s.modCtx c f).faultPin = s.faultPin := rfl
@[simp] theorem State.modCtx_ready (s : State) (c : Nat) (f : Context → Context) : (s.modCtx c f).ready = s.ready := rfl
@[simp] theorem State.modCtx_resetCause (s : State) (c : Nat) (f : Context → Context) : (s.modCtx c f).resetCause = s.resetCause := rfl
@[simp] theorem State.modCtx_out (s : State) (c : Nat) (f : Context → Context) : (s.modCtx c f).out = s.out := rfl
@[simp] theorem State.modCtx_free (s : State) (c : Nat) (f : Context → Context) : (s.modCtx c f).free = s.free := rfl
@[simp] theorem State.modCtx_pending (s : State) (c : Nat) (f : Context → Context) : (s.modCtx c f).pending = s.pending := rfl

/-! ### `modPc` -/

@[simp] theorem State.modPc_time (s : State) (p : Nat) (f : PseudoChannel → PseudoChannel) : (s.modPc p f).time = s.time := rfl
@[simp] theorem State.modPc_halls (s : State) (p : Nat) (f : PseudoChannel → PseudoChannel) : (s.modPc p f).halls = s.halls := rfl
@[simp] theorem State.modPc_floors (s : State) (p : Nat) (f : PseudoChannel → PseudoChannel) : (s.modPc p f).floors = s.floors := rfl
@[simp] theorem State.modPc_rooms (s : State) (p : Nat) (f : PseudoChannel → PseudoChannel) : (s.modPc p f).rooms = s.rooms := rfl
@[simp] theorem State.modPc_suites (s : State) (p : Nat) (f : PseudoChannel → PseudoChannel) : (s.modPc p f).suites = s.suites := rfl
@[simp] theorem State.modPc_contexts (s : State) (p : Nat) (f : PseudoChannel → PseudoChannel) : (s.modPc p f).contexts = s.contexts := rfl
@[simp] theorem State.modPc_households (s : State) (p : Nat) (f : PseudoChannel → PseudoChannel) : (s.modPc p f).households = s.households := rfl
@[simp] theorem State.modPc_pages (s : State) (p : Nat) (f : PseudoChannel → PseudoChannel) : (s.modPc p f).pages = s.pages := rfl
@[simp] theorem State.modPc_washFrom (s : State) (p : Nat) (f : PseudoChannel → PseudoChannel) : (s.modPc p f).washFrom = s.washFrom := rfl
@[simp] theorem State.modPc_hbm (s : State) (p : Nat) (f : PseudoChannel → PseudoChannel) : (s.modPc p f).hbm = s.hbm := rfl
@[simp] theorem State.modPc_badUnits (s : State) (p : Nat) (f : PseudoChannel → PseudoChannel) : (s.modPc p f).badUnits = s.badUnits := rfl
@[simp] theorem State.modPc_splitWrites (s : State) (p : Nat) (f : PseudoChannel → PseudoChannel) : (s.modPc p f).splitWrites = s.splitWrites := rfl
@[simp] theorem State.modPc_faultsDue (s : State) (p : Nat) (f : PseudoChannel → PseudoChannel) : (s.modPc p f).faultsDue = s.faultsDue := rfl
@[simp] theorem State.modPc_tlb (s : State) (p : Nat) (f : PseudoChannel → PseudoChannel) : (s.modPc p f).tlb = s.tlb := rfl
@[simp] theorem State.modPc_walks (s : State) (p : Nat) (f : PseudoChannel → PseudoChannel) : (s.modPc p f).walks = s.walks := rfl
@[simp] theorem State.modPc_stalls (s : State) (p : Nat) (f : PseudoChannel → PseudoChannel) : (s.modPc p f).stalls = s.stalls := rfl
@[simp] theorem State.modPc_windows (s : State) (p : Nat) (f : PseudoChannel → PseudoChannel) : (s.modPc p f).windows = s.windows := rfl
@[simp] theorem State.modPc_windowRefusals (s : State) (p : Nat) (f : PseudoChannel → PseudoChannel) : (s.modPc p f).windowRefusals = s.windowRefusals := rfl
@[simp] theorem State.modPc_remotes (s : State) (p : Nat) (f : PseudoChannel → PseudoChannel) : (s.modPc p f).remotes = s.remotes := rfl
@[simp] theorem State.modPc_hostReads (s : State) (p : Nat) (f : PseudoChannel → PseudoChannel) : (s.modPc p f).hostReads = s.hostReads := rfl
@[simp] theorem State.modPc_directory (s : State) (p : Nat) (f : PseudoChannel → PseudoChannel) : (s.modPc p f).directory = s.directory := rfl
@[simp] theorem State.modPc_dirStamp (s : State) (p : Nat) (f : PseudoChannel → PseudoChannel) : (s.modPc p f).dirStamp = s.dirStamp := rfl
@[simp] theorem State.modPc_reservations (s : State) (p : Nat) (f : PseudoChannel → PseudoChannel) : (s.modPc p f).reservations = s.reservations := rfl
@[simp] theorem State.modPc_net (s : State) (p : Nat) (f : PseudoChannel → PseudoChannel) : (s.modPc p f).net = s.net := rfl
@[simp] theorem State.modPc_packets (s : State) (p : Nat) (f : PseudoChannel → PseudoChannel) : (s.modPc p f).packets = s.packets := rfl
@[simp] theorem State.modPc_links (s : State) (p : Nat) (f : PseudoChannel → PseudoChannel) : (s.modPc p f).links = s.links := rfl
@[simp] theorem State.modPc_waiters (s : State) (p : Nat) (f : PseudoChannel → PseudoChannel) : (s.modPc p f).waiters = s.waiters := rfl
@[simp] theorem State.modPc_heldAnswers (s : State) (p : Nat) (f : PseudoChannel → PseudoChannel) : (s.modPc p f).heldAnswers = s.heldAnswers := rfl
@[simp] theorem State.modPc_removals (s : State) (p : Nat) (f : PseudoChannel → PseudoChannel) : (s.modPc p f).removals = s.removals := rfl
@[simp] theorem State.modPc_regulators (s : State) (p : Nat) (f : PseudoChannel → PseudoChannel) : (s.modPc p f).regulators = s.regulators := rfl
@[simp] theorem State.modPc_levels (s : State) (p : Nat) (f : PseudoChannel → PseudoChannel) : (s.modPc p f).levels = s.levels := rfl
@[simp] theorem State.modPc_dict (s : State) (p : Nat) (f : PseudoChannel → PseudoChannel) : (s.modPc p f).dict = s.dict := rfl
@[simp] theorem State.modPc_blobs (s : State) (p : Nat) (f : PseudoChannel → PseudoChannel) : (s.modPc p f).blobs = s.blobs := rfl
@[simp] theorem State.modPc_withheld (s : State) (p : Nat) (f : PseudoChannel → PseudoChannel) : (s.modPc p f).withheld = s.withheld := rfl
@[simp] theorem State.modPc_power (s : State) (p : Nat) (f : PseudoChannel → PseudoChannel) : (s.modPc p f).power = s.power := rfl
@[simp] theorem State.modPc_security (s : State) (p : Nat) (f : PseudoChannel → PseudoChannel) : (s.modPc p f).security = s.security := rfl
@[simp] theorem State.modPc_mortar (s : State) (p : Nat) (f : PseudoChannel → PseudoChannel) : (s.modPc p f).mortar = s.mortar := rfl
@[simp] theorem State.modPc_ingest (s : State) (p : Nat) (f : PseudoChannel → PseudoChannel) : (s.modPc p f).ingest = s.ingest := rfl
@[simp] theorem State.modPc_linksLost (s : State) (p : Nat) (f : PseudoChannel → PseudoChannel) : (s.modPc p f).linksLost = s.linksLost := rfl
@[simp] theorem State.modPc_retraining (s : State) (p : Nat) (f : PseudoChannel → PseudoChannel) : (s.modPc p f).retraining = s.retraining := rfl
@[simp] theorem State.modPc_lintelDown (s : State) (p : Nat) (f : PseudoChannel → PseudoChannel) : (s.modPc p f).lintelDown = s.lintelDown := rfl
@[simp] theorem State.modPc_lineDown (s : State) (p : Nat) (f : PseudoChannel → PseudoChannel) : (s.modPc p f).lineDown = s.lineDown := rfl
@[simp] theorem State.modPc_pair (s : State) (p : Nat) (f : PseudoChannel → PseudoChannel) : (s.modPc p f).pair = s.pair := rfl
@[simp] theorem State.modPc_clock (s : State) (p : Nat) (f : PseudoChannel → PseudoChannel) : (s.modPc p f).clock = s.clock := rfl
@[simp] theorem State.modPc_lockout (s : State) (p : Nat) (f : PseudoChannel → PseudoChannel) : (s.modPc p f).lockout = s.lockout := rfl
@[simp] theorem State.modPc_failSilent (s : State) (p : Nat) (f : PseudoChannel → PseudoChannel) : (s.modPc p f).failSilent = s.failSilent := rfl
@[simp] theorem State.modPc_faultPin (s : State) (p : Nat) (f : PseudoChannel → PseudoChannel) : (s.modPc p f).faultPin = s.faultPin := rfl
@[simp] theorem State.modPc_ready (s : State) (p : Nat) (f : PseudoChannel → PseudoChannel) : (s.modPc p f).ready = s.ready := rfl
@[simp] theorem State.modPc_resetCause (s : State) (p : Nat) (f : PseudoChannel → PseudoChannel) : (s.modPc p f).resetCause = s.resetCause := rfl
@[simp] theorem State.modPc_out (s : State) (p : Nat) (f : PseudoChannel → PseudoChannel) : (s.modPc p f).out = s.out := rfl
@[simp] theorem State.modPc_free (s : State) (p : Nat) (f : PseudoChannel → PseudoChannel) : (s.modPc p f).free = s.free := rfl
@[simp] theorem State.modPc_pending (s : State) (p : Nat) (f : PseudoChannel → PseudoChannel) : (s.modPc p f).pending = s.pending := rfl

/-! ### `modReg` -/

@[simp] theorem State.modReg_time (s : State) (p : Nat) (f : Regulator → Regulator) : (s.modReg p f).time = s.time := rfl
@[simp] theorem State.modReg_halls (s : State) (p : Nat) (f : Regulator → Regulator) : (s.modReg p f).halls = s.halls := rfl
@[simp] theorem State.modReg_floors (s : State) (p : Nat) (f : Regulator → Regulator) : (s.modReg p f).floors = s.floors := rfl
@[simp] theorem State.modReg_rooms (s : State) (p : Nat) (f : Regulator → Regulator) : (s.modReg p f).rooms = s.rooms := rfl
@[simp] theorem State.modReg_suites (s : State) (p : Nat) (f : Regulator → Regulator) : (s.modReg p f).suites = s.suites := rfl
@[simp] theorem State.modReg_contexts (s : State) (p : Nat) (f : Regulator → Regulator) : (s.modReg p f).contexts = s.contexts := rfl
@[simp] theorem State.modReg_households (s : State) (p : Nat) (f : Regulator → Regulator) : (s.modReg p f).households = s.households := rfl
@[simp] theorem State.modReg_pages (s : State) (p : Nat) (f : Regulator → Regulator) : (s.modReg p f).pages = s.pages := rfl
@[simp] theorem State.modReg_washFrom (s : State) (p : Nat) (f : Regulator → Regulator) : (s.modReg p f).washFrom = s.washFrom := rfl
@[simp] theorem State.modReg_hbm (s : State) (p : Nat) (f : Regulator → Regulator) : (s.modReg p f).hbm = s.hbm := rfl
@[simp] theorem State.modReg_badUnits (s : State) (p : Nat) (f : Regulator → Regulator) : (s.modReg p f).badUnits = s.badUnits := rfl
@[simp] theorem State.modReg_splitWrites (s : State) (p : Nat) (f : Regulator → Regulator) : (s.modReg p f).splitWrites = s.splitWrites := rfl
@[simp] theorem State.modReg_faultsDue (s : State) (p : Nat) (f : Regulator → Regulator) : (s.modReg p f).faultsDue = s.faultsDue := rfl
@[simp] theorem State.modReg_tlb (s : State) (p : Nat) (f : Regulator → Regulator) : (s.modReg p f).tlb = s.tlb := rfl
@[simp] theorem State.modReg_walks (s : State) (p : Nat) (f : Regulator → Regulator) : (s.modReg p f).walks = s.walks := rfl
@[simp] theorem State.modReg_stalls (s : State) (p : Nat) (f : Regulator → Regulator) : (s.modReg p f).stalls = s.stalls := rfl
@[simp] theorem State.modReg_windows (s : State) (p : Nat) (f : Regulator → Regulator) : (s.modReg p f).windows = s.windows := rfl
@[simp] theorem State.modReg_windowRefusals (s : State) (p : Nat) (f : Regulator → Regulator) : (s.modReg p f).windowRefusals = s.windowRefusals := rfl
@[simp] theorem State.modReg_remotes (s : State) (p : Nat) (f : Regulator → Regulator) : (s.modReg p f).remotes = s.remotes := rfl
@[simp] theorem State.modReg_hostReads (s : State) (p : Nat) (f : Regulator → Regulator) : (s.modReg p f).hostReads = s.hostReads := rfl
@[simp] theorem State.modReg_directory (s : State) (p : Nat) (f : Regulator → Regulator) : (s.modReg p f).directory = s.directory := rfl
@[simp] theorem State.modReg_dirStamp (s : State) (p : Nat) (f : Regulator → Regulator) : (s.modReg p f).dirStamp = s.dirStamp := rfl
@[simp] theorem State.modReg_reservations (s : State) (p : Nat) (f : Regulator → Regulator) : (s.modReg p f).reservations = s.reservations := rfl
@[simp] theorem State.modReg_net (s : State) (p : Nat) (f : Regulator → Regulator) : (s.modReg p f).net = s.net := rfl
@[simp] theorem State.modReg_packets (s : State) (p : Nat) (f : Regulator → Regulator) : (s.modReg p f).packets = s.packets := rfl
@[simp] theorem State.modReg_links (s : State) (p : Nat) (f : Regulator → Regulator) : (s.modReg p f).links = s.links := rfl
@[simp] theorem State.modReg_waiters (s : State) (p : Nat) (f : Regulator → Regulator) : (s.modReg p f).waiters = s.waiters := rfl
@[simp] theorem State.modReg_heldAnswers (s : State) (p : Nat) (f : Regulator → Regulator) : (s.modReg p f).heldAnswers = s.heldAnswers := rfl
@[simp] theorem State.modReg_removals (s : State) (p : Nat) (f : Regulator → Regulator) : (s.modReg p f).removals = s.removals := rfl
@[simp] theorem State.modReg_levels (s : State) (p : Nat) (f : Regulator → Regulator) : (s.modReg p f).levels = s.levels := rfl
@[simp] theorem State.modReg_pcs (s : State) (p : Nat) (f : Regulator → Regulator) : (s.modReg p f).pcs = s.pcs := rfl
@[simp] theorem State.modReg_dict (s : State) (p : Nat) (f : Regulator → Regulator) : (s.modReg p f).dict = s.dict := rfl
@[simp] theorem State.modReg_blobs (s : State) (p : Nat) (f : Regulator → Regulator) : (s.modReg p f).blobs = s.blobs := rfl
@[simp] theorem State.modReg_withheld (s : State) (p : Nat) (f : Regulator → Regulator) : (s.modReg p f).withheld = s.withheld := rfl
@[simp] theorem State.modReg_power (s : State) (p : Nat) (f : Regulator → Regulator) : (s.modReg p f).power = s.power := rfl
@[simp] theorem State.modReg_security (s : State) (p : Nat) (f : Regulator → Regulator) : (s.modReg p f).security = s.security := rfl
@[simp] theorem State.modReg_mortar (s : State) (p : Nat) (f : Regulator → Regulator) : (s.modReg p f).mortar = s.mortar := rfl
@[simp] theorem State.modReg_ingest (s : State) (p : Nat) (f : Regulator → Regulator) : (s.modReg p f).ingest = s.ingest := rfl
@[simp] theorem State.modReg_linksLost (s : State) (p : Nat) (f : Regulator → Regulator) : (s.modReg p f).linksLost = s.linksLost := rfl
@[simp] theorem State.modReg_retraining (s : State) (p : Nat) (f : Regulator → Regulator) : (s.modReg p f).retraining = s.retraining := rfl
@[simp] theorem State.modReg_lintelDown (s : State) (p : Nat) (f : Regulator → Regulator) : (s.modReg p f).lintelDown = s.lintelDown := rfl
@[simp] theorem State.modReg_lineDown (s : State) (p : Nat) (f : Regulator → Regulator) : (s.modReg p f).lineDown = s.lineDown := rfl
@[simp] theorem State.modReg_pair (s : State) (p : Nat) (f : Regulator → Regulator) : (s.modReg p f).pair = s.pair := rfl
@[simp] theorem State.modReg_clock (s : State) (p : Nat) (f : Regulator → Regulator) : (s.modReg p f).clock = s.clock := rfl
@[simp] theorem State.modReg_lockout (s : State) (p : Nat) (f : Regulator → Regulator) : (s.modReg p f).lockout = s.lockout := rfl
@[simp] theorem State.modReg_failSilent (s : State) (p : Nat) (f : Regulator → Regulator) : (s.modReg p f).failSilent = s.failSilent := rfl
@[simp] theorem State.modReg_faultPin (s : State) (p : Nat) (f : Regulator → Regulator) : (s.modReg p f).faultPin = s.faultPin := rfl
@[simp] theorem State.modReg_ready (s : State) (p : Nat) (f : Regulator → Regulator) : (s.modReg p f).ready = s.ready := rfl
@[simp] theorem State.modReg_resetCause (s : State) (p : Nat) (f : Regulator → Regulator) : (s.modReg p f).resetCause = s.resetCause := rfl
@[simp] theorem State.modReg_out (s : State) (p : Nat) (f : Regulator → Regulator) : (s.modReg p f).out = s.out := rfl
@[simp] theorem State.modReg_free (s : State) (p : Nat) (f : Regulator → Regulator) : (s.modReg p f).free = s.free := rfl
@[simp] theorem State.modReg_pending (s : State) (p : Nat) (f : Regulator → Regulator) : (s.modReg p f).pending = s.pending := rfl

/-! ### `modPort` -/

@[simp] theorem State.modPort_time (s : State) (p : Nat) (f : MortarPort → MortarPort) : (s.modPort p f).time = s.time := rfl
@[simp] theorem State.modPort_halls (s : State) (p : Nat) (f : MortarPort → MortarPort) : (s.modPort p f).halls = s.halls := rfl
@[simp] theorem State.modPort_floors (s : State) (p : Nat) (f : MortarPort → MortarPort) : (s.modPort p f).floors = s.floors := rfl
@[simp] theorem State.modPort_rooms (s : State) (p : Nat) (f : MortarPort → MortarPort) : (s.modPort p f).rooms = s.rooms := rfl
@[simp] theorem State.modPort_suites (s : State) (p : Nat) (f : MortarPort → MortarPort) : (s.modPort p f).suites = s.suites := rfl
@[simp] theorem State.modPort_contexts (s : State) (p : Nat) (f : MortarPort → MortarPort) : (s.modPort p f).contexts = s.contexts := rfl
@[simp] theorem State.modPort_households (s : State) (p : Nat) (f : MortarPort → MortarPort) : (s.modPort p f).households = s.households := rfl
@[simp] theorem State.modPort_pages (s : State) (p : Nat) (f : MortarPort → MortarPort) : (s.modPort p f).pages = s.pages := rfl
@[simp] theorem State.modPort_washFrom (s : State) (p : Nat) (f : MortarPort → MortarPort) : (s.modPort p f).washFrom = s.washFrom := rfl
@[simp] theorem State.modPort_hbm (s : State) (p : Nat) (f : MortarPort → MortarPort) : (s.modPort p f).hbm = s.hbm := rfl
@[simp] theorem State.modPort_badUnits (s : State) (p : Nat) (f : MortarPort → MortarPort) : (s.modPort p f).badUnits = s.badUnits := rfl
@[simp] theorem State.modPort_splitWrites (s : State) (p : Nat) (f : MortarPort → MortarPort) : (s.modPort p f).splitWrites = s.splitWrites := rfl
@[simp] theorem State.modPort_faultsDue (s : State) (p : Nat) (f : MortarPort → MortarPort) : (s.modPort p f).faultsDue = s.faultsDue := rfl
@[simp] theorem State.modPort_tlb (s : State) (p : Nat) (f : MortarPort → MortarPort) : (s.modPort p f).tlb = s.tlb := rfl
@[simp] theorem State.modPort_walks (s : State) (p : Nat) (f : MortarPort → MortarPort) : (s.modPort p f).walks = s.walks := rfl
@[simp] theorem State.modPort_stalls (s : State) (p : Nat) (f : MortarPort → MortarPort) : (s.modPort p f).stalls = s.stalls := rfl
@[simp] theorem State.modPort_windows (s : State) (p : Nat) (f : MortarPort → MortarPort) : (s.modPort p f).windows = s.windows := rfl
@[simp] theorem State.modPort_windowRefusals (s : State) (p : Nat) (f : MortarPort → MortarPort) : (s.modPort p f).windowRefusals = s.windowRefusals := rfl
@[simp] theorem State.modPort_remotes (s : State) (p : Nat) (f : MortarPort → MortarPort) : (s.modPort p f).remotes = s.remotes := rfl
@[simp] theorem State.modPort_hostReads (s : State) (p : Nat) (f : MortarPort → MortarPort) : (s.modPort p f).hostReads = s.hostReads := rfl
@[simp] theorem State.modPort_directory (s : State) (p : Nat) (f : MortarPort → MortarPort) : (s.modPort p f).directory = s.directory := rfl
@[simp] theorem State.modPort_dirStamp (s : State) (p : Nat) (f : MortarPort → MortarPort) : (s.modPort p f).dirStamp = s.dirStamp := rfl
@[simp] theorem State.modPort_reservations (s : State) (p : Nat) (f : MortarPort → MortarPort) : (s.modPort p f).reservations = s.reservations := rfl
@[simp] theorem State.modPort_net (s : State) (p : Nat) (f : MortarPort → MortarPort) : (s.modPort p f).net = s.net := rfl
@[simp] theorem State.modPort_packets (s : State) (p : Nat) (f : MortarPort → MortarPort) : (s.modPort p f).packets = s.packets := rfl
@[simp] theorem State.modPort_links (s : State) (p : Nat) (f : MortarPort → MortarPort) : (s.modPort p f).links = s.links := rfl
@[simp] theorem State.modPort_waiters (s : State) (p : Nat) (f : MortarPort → MortarPort) : (s.modPort p f).waiters = s.waiters := rfl
@[simp] theorem State.modPort_heldAnswers (s : State) (p : Nat) (f : MortarPort → MortarPort) : (s.modPort p f).heldAnswers = s.heldAnswers := rfl
@[simp] theorem State.modPort_removals (s : State) (p : Nat) (f : MortarPort → MortarPort) : (s.modPort p f).removals = s.removals := rfl
@[simp] theorem State.modPort_regulators (s : State) (p : Nat) (f : MortarPort → MortarPort) : (s.modPort p f).regulators = s.regulators := rfl
@[simp] theorem State.modPort_levels (s : State) (p : Nat) (f : MortarPort → MortarPort) : (s.modPort p f).levels = s.levels := rfl
@[simp] theorem State.modPort_pcs (s : State) (p : Nat) (f : MortarPort → MortarPort) : (s.modPort p f).pcs = s.pcs := rfl
@[simp] theorem State.modPort_dict (s : State) (p : Nat) (f : MortarPort → MortarPort) : (s.modPort p f).dict = s.dict := rfl
@[simp] theorem State.modPort_blobs (s : State) (p : Nat) (f : MortarPort → MortarPort) : (s.modPort p f).blobs = s.blobs := rfl
@[simp] theorem State.modPort_withheld (s : State) (p : Nat) (f : MortarPort → MortarPort) : (s.modPort p f).withheld = s.withheld := rfl
@[simp] theorem State.modPort_power (s : State) (p : Nat) (f : MortarPort → MortarPort) : (s.modPort p f).power = s.power := rfl
@[simp] theorem State.modPort_security (s : State) (p : Nat) (f : MortarPort → MortarPort) : (s.modPort p f).security = s.security := rfl
@[simp] theorem State.modPort_ingest (s : State) (p : Nat) (f : MortarPort → MortarPort) : (s.modPort p f).ingest = s.ingest := rfl
@[simp] theorem State.modPort_linksLost (s : State) (p : Nat) (f : MortarPort → MortarPort) : (s.modPort p f).linksLost = s.linksLost := rfl
@[simp] theorem State.modPort_retraining (s : State) (p : Nat) (f : MortarPort → MortarPort) : (s.modPort p f).retraining = s.retraining := rfl
@[simp] theorem State.modPort_lintelDown (s : State) (p : Nat) (f : MortarPort → MortarPort) : (s.modPort p f).lintelDown = s.lintelDown := rfl
@[simp] theorem State.modPort_lineDown (s : State) (p : Nat) (f : MortarPort → MortarPort) : (s.modPort p f).lineDown = s.lineDown := rfl
@[simp] theorem State.modPort_pair (s : State) (p : Nat) (f : MortarPort → MortarPort) : (s.modPort p f).pair = s.pair := rfl
@[simp] theorem State.modPort_clock (s : State) (p : Nat) (f : MortarPort → MortarPort) : (s.modPort p f).clock = s.clock := rfl
@[simp] theorem State.modPort_lockout (s : State) (p : Nat) (f : MortarPort → MortarPort) : (s.modPort p f).lockout = s.lockout := rfl
@[simp] theorem State.modPort_failSilent (s : State) (p : Nat) (f : MortarPort → MortarPort) : (s.modPort p f).failSilent = s.failSilent := rfl
@[simp] theorem State.modPort_faultPin (s : State) (p : Nat) (f : MortarPort → MortarPort) : (s.modPort p f).faultPin = s.faultPin := rfl
@[simp] theorem State.modPort_ready (s : State) (p : Nat) (f : MortarPort → MortarPort) : (s.modPort p f).ready = s.ready := rfl
@[simp] theorem State.modPort_resetCause (s : State) (p : Nat) (f : MortarPort → MortarPort) : (s.modPort p f).resetCause = s.resetCause := rfl
@[simp] theorem State.modPort_out (s : State) (p : Nat) (f : MortarPort → MortarPort) : (s.modPort p f).out = s.out := rfl
@[simp] theorem State.modPort_free (s : State) (p : Nat) (f : MortarPort → MortarPort) : (s.modPort p f).free = s.free := rfl
@[simp] theorem State.modPort_pending (s : State) (p : Nat) (f : MortarPort → MortarPort) : (s.modPort p f).pending = s.pending := rfl

/-! ### `modFeed` -/

@[simp] theorem State.modFeed_time (s : State) (p : Nat) (f : IngestPort → IngestPort) : (s.modFeed p f).time = s.time := rfl
@[simp] theorem State.modFeed_halls (s : State) (p : Nat) (f : IngestPort → IngestPort) : (s.modFeed p f).halls = s.halls := rfl
@[simp] theorem State.modFeed_floors (s : State) (p : Nat) (f : IngestPort → IngestPort) : (s.modFeed p f).floors = s.floors := rfl
@[simp] theorem State.modFeed_rooms (s : State) (p : Nat) (f : IngestPort → IngestPort) : (s.modFeed p f).rooms = s.rooms := rfl
@[simp] theorem State.modFeed_suites (s : State) (p : Nat) (f : IngestPort → IngestPort) : (s.modFeed p f).suites = s.suites := rfl
@[simp] theorem State.modFeed_contexts (s : State) (p : Nat) (f : IngestPort → IngestPort) : (s.modFeed p f).contexts = s.contexts := rfl
@[simp] theorem State.modFeed_households (s : State) (p : Nat) (f : IngestPort → IngestPort) : (s.modFeed p f).households = s.households := rfl
@[simp] theorem State.modFeed_pages (s : State) (p : Nat) (f : IngestPort → IngestPort) : (s.modFeed p f).pages = s.pages := rfl
@[simp] theorem State.modFeed_washFrom (s : State) (p : Nat) (f : IngestPort → IngestPort) : (s.modFeed p f).washFrom = s.washFrom := rfl
@[simp] theorem State.modFeed_hbm (s : State) (p : Nat) (f : IngestPort → IngestPort) : (s.modFeed p f).hbm = s.hbm := rfl
@[simp] theorem State.modFeed_badUnits (s : State) (p : Nat) (f : IngestPort → IngestPort) : (s.modFeed p f).badUnits = s.badUnits := rfl
@[simp] theorem State.modFeed_splitWrites (s : State) (p : Nat) (f : IngestPort → IngestPort) : (s.modFeed p f).splitWrites = s.splitWrites := rfl
@[simp] theorem State.modFeed_faultsDue (s : State) (p : Nat) (f : IngestPort → IngestPort) : (s.modFeed p f).faultsDue = s.faultsDue := rfl
@[simp] theorem State.modFeed_tlb (s : State) (p : Nat) (f : IngestPort → IngestPort) : (s.modFeed p f).tlb = s.tlb := rfl
@[simp] theorem State.modFeed_walks (s : State) (p : Nat) (f : IngestPort → IngestPort) : (s.modFeed p f).walks = s.walks := rfl
@[simp] theorem State.modFeed_stalls (s : State) (p : Nat) (f : IngestPort → IngestPort) : (s.modFeed p f).stalls = s.stalls := rfl
@[simp] theorem State.modFeed_windows (s : State) (p : Nat) (f : IngestPort → IngestPort) : (s.modFeed p f).windows = s.windows := rfl
@[simp] theorem State.modFeed_windowRefusals (s : State) (p : Nat) (f : IngestPort → IngestPort) : (s.modFeed p f).windowRefusals = s.windowRefusals := rfl
@[simp] theorem State.modFeed_remotes (s : State) (p : Nat) (f : IngestPort → IngestPort) : (s.modFeed p f).remotes = s.remotes := rfl
@[simp] theorem State.modFeed_hostReads (s : State) (p : Nat) (f : IngestPort → IngestPort) : (s.modFeed p f).hostReads = s.hostReads := rfl
@[simp] theorem State.modFeed_directory (s : State) (p : Nat) (f : IngestPort → IngestPort) : (s.modFeed p f).directory = s.directory := rfl
@[simp] theorem State.modFeed_dirStamp (s : State) (p : Nat) (f : IngestPort → IngestPort) : (s.modFeed p f).dirStamp = s.dirStamp := rfl
@[simp] theorem State.modFeed_reservations (s : State) (p : Nat) (f : IngestPort → IngestPort) : (s.modFeed p f).reservations = s.reservations := rfl
@[simp] theorem State.modFeed_net (s : State) (p : Nat) (f : IngestPort → IngestPort) : (s.modFeed p f).net = s.net := rfl
@[simp] theorem State.modFeed_packets (s : State) (p : Nat) (f : IngestPort → IngestPort) : (s.modFeed p f).packets = s.packets := rfl
@[simp] theorem State.modFeed_links (s : State) (p : Nat) (f : IngestPort → IngestPort) : (s.modFeed p f).links = s.links := rfl
@[simp] theorem State.modFeed_waiters (s : State) (p : Nat) (f : IngestPort → IngestPort) : (s.modFeed p f).waiters = s.waiters := rfl
@[simp] theorem State.modFeed_heldAnswers (s : State) (p : Nat) (f : IngestPort → IngestPort) : (s.modFeed p f).heldAnswers = s.heldAnswers := rfl
@[simp] theorem State.modFeed_removals (s : State) (p : Nat) (f : IngestPort → IngestPort) : (s.modFeed p f).removals = s.removals := rfl
@[simp] theorem State.modFeed_regulators (s : State) (p : Nat) (f : IngestPort → IngestPort) : (s.modFeed p f).regulators = s.regulators := rfl
@[simp] theorem State.modFeed_levels (s : State) (p : Nat) (f : IngestPort → IngestPort) : (s.modFeed p f).levels = s.levels := rfl
@[simp] theorem State.modFeed_pcs (s : State) (p : Nat) (f : IngestPort → IngestPort) : (s.modFeed p f).pcs = s.pcs := rfl
@[simp] theorem State.modFeed_dict (s : State) (p : Nat) (f : IngestPort → IngestPort) : (s.modFeed p f).dict = s.dict := rfl
@[simp] theorem State.modFeed_blobs (s : State) (p : Nat) (f : IngestPort → IngestPort) : (s.modFeed p f).blobs = s.blobs := rfl
@[simp] theorem State.modFeed_withheld (s : State) (p : Nat) (f : IngestPort → IngestPort) : (s.modFeed p f).withheld = s.withheld := rfl
@[simp] theorem State.modFeed_power (s : State) (p : Nat) (f : IngestPort → IngestPort) : (s.modFeed p f).power = s.power := rfl
@[simp] theorem State.modFeed_security (s : State) (p : Nat) (f : IngestPort → IngestPort) : (s.modFeed p f).security = s.security := rfl
@[simp] theorem State.modFeed_mortar (s : State) (p : Nat) (f : IngestPort → IngestPort) : (s.modFeed p f).mortar = s.mortar := rfl
@[simp] theorem State.modFeed_linksLost (s : State) (p : Nat) (f : IngestPort → IngestPort) : (s.modFeed p f).linksLost = s.linksLost := rfl
@[simp] theorem State.modFeed_retraining (s : State) (p : Nat) (f : IngestPort → IngestPort) : (s.modFeed p f).retraining = s.retraining := rfl
@[simp] theorem State.modFeed_lintelDown (s : State) (p : Nat) (f : IngestPort → IngestPort) : (s.modFeed p f).lintelDown = s.lintelDown := rfl
@[simp] theorem State.modFeed_lineDown (s : State) (p : Nat) (f : IngestPort → IngestPort) : (s.modFeed p f).lineDown = s.lineDown := rfl
@[simp] theorem State.modFeed_pair (s : State) (p : Nat) (f : IngestPort → IngestPort) : (s.modFeed p f).pair = s.pair := rfl
@[simp] theorem State.modFeed_clock (s : State) (p : Nat) (f : IngestPort → IngestPort) : (s.modFeed p f).clock = s.clock := rfl
@[simp] theorem State.modFeed_lockout (s : State) (p : Nat) (f : IngestPort → IngestPort) : (s.modFeed p f).lockout = s.lockout := rfl
@[simp] theorem State.modFeed_failSilent (s : State) (p : Nat) (f : IngestPort → IngestPort) : (s.modFeed p f).failSilent = s.failSilent := rfl
@[simp] theorem State.modFeed_faultPin (s : State) (p : Nat) (f : IngestPort → IngestPort) : (s.modFeed p f).faultPin = s.faultPin := rfl
@[simp] theorem State.modFeed_ready (s : State) (p : Nat) (f : IngestPort → IngestPort) : (s.modFeed p f).ready = s.ready := rfl
@[simp] theorem State.modFeed_resetCause (s : State) (p : Nat) (f : IngestPort → IngestPort) : (s.modFeed p f).resetCause = s.resetCause := rfl
@[simp] theorem State.modFeed_out (s : State) (p : Nat) (f : IngestPort → IngestPort) : (s.modFeed p f).out = s.out := rfl
@[simp] theorem State.modFeed_free (s : State) (p : Nat) (f : IngestPort → IngestPort) : (s.modFeed p f).free = s.free := rfl
@[simp] theorem State.modFeed_pending (s : State) (p : Nat) (f : IngestPort → IngestPort) : (s.modFeed p f).pending = s.pending := rfl

/-! ### `modPage` -/

@[simp] theorem State.modPage_time (s : State) (n : Nat) (f : Page → Page) : (s.modPage n f).time = s.time := rfl
@[simp] theorem State.modPage_halls (s : State) (n : Nat) (f : Page → Page) : (s.modPage n f).halls = s.halls := rfl
@[simp] theorem State.modPage_floors (s : State) (n : Nat) (f : Page → Page) : (s.modPage n f).floors = s.floors := rfl
@[simp] theorem State.modPage_rooms (s : State) (n : Nat) (f : Page → Page) : (s.modPage n f).rooms = s.rooms := rfl
@[simp] theorem State.modPage_suites (s : State) (n : Nat) (f : Page → Page) : (s.modPage n f).suites = s.suites := rfl
@[simp] theorem State.modPage_contexts (s : State) (n : Nat) (f : Page → Page) : (s.modPage n f).contexts = s.contexts := rfl
@[simp] theorem State.modPage_households (s : State) (n : Nat) (f : Page → Page) : (s.modPage n f).households = s.households := rfl
@[simp] theorem State.modPage_washFrom (s : State) (n : Nat) (f : Page → Page) : (s.modPage n f).washFrom = s.washFrom := rfl
@[simp] theorem State.modPage_hbm (s : State) (n : Nat) (f : Page → Page) : (s.modPage n f).hbm = s.hbm := rfl
@[simp] theorem State.modPage_badUnits (s : State) (n : Nat) (f : Page → Page) : (s.modPage n f).badUnits = s.badUnits := rfl
@[simp] theorem State.modPage_splitWrites (s : State) (n : Nat) (f : Page → Page) : (s.modPage n f).splitWrites = s.splitWrites := rfl
@[simp] theorem State.modPage_faultsDue (s : State) (n : Nat) (f : Page → Page) : (s.modPage n f).faultsDue = s.faultsDue := rfl
@[simp] theorem State.modPage_tlb (s : State) (n : Nat) (f : Page → Page) : (s.modPage n f).tlb = s.tlb := rfl
@[simp] theorem State.modPage_walks (s : State) (n : Nat) (f : Page → Page) : (s.modPage n f).walks = s.walks := rfl
@[simp] theorem State.modPage_stalls (s : State) (n : Nat) (f : Page → Page) : (s.modPage n f).stalls = s.stalls := rfl
@[simp] theorem State.modPage_windows (s : State) (n : Nat) (f : Page → Page) : (s.modPage n f).windows = s.windows := rfl
@[simp] theorem State.modPage_windowRefusals (s : State) (n : Nat) (f : Page → Page) : (s.modPage n f).windowRefusals = s.windowRefusals := rfl
@[simp] theorem State.modPage_remotes (s : State) (n : Nat) (f : Page → Page) : (s.modPage n f).remotes = s.remotes := rfl
@[simp] theorem State.modPage_hostReads (s : State) (n : Nat) (f : Page → Page) : (s.modPage n f).hostReads = s.hostReads := rfl
@[simp] theorem State.modPage_directory (s : State) (n : Nat) (f : Page → Page) : (s.modPage n f).directory = s.directory := rfl
@[simp] theorem State.modPage_dirStamp (s : State) (n : Nat) (f : Page → Page) : (s.modPage n f).dirStamp = s.dirStamp := rfl
@[simp] theorem State.modPage_reservations (s : State) (n : Nat) (f : Page → Page) : (s.modPage n f).reservations = s.reservations := rfl
@[simp] theorem State.modPage_net (s : State) (n : Nat) (f : Page → Page) : (s.modPage n f).net = s.net := rfl
@[simp] theorem State.modPage_packets (s : State) (n : Nat) (f : Page → Page) : (s.modPage n f).packets = s.packets := rfl
@[simp] theorem State.modPage_links (s : State) (n : Nat) (f : Page → Page) : (s.modPage n f).links = s.links := rfl
@[simp] theorem State.modPage_waiters (s : State) (n : Nat) (f : Page → Page) : (s.modPage n f).waiters = s.waiters := rfl
@[simp] theorem State.modPage_heldAnswers (s : State) (n : Nat) (f : Page → Page) : (s.modPage n f).heldAnswers = s.heldAnswers := rfl
@[simp] theorem State.modPage_removals (s : State) (n : Nat) (f : Page → Page) : (s.modPage n f).removals = s.removals := rfl
@[simp] theorem State.modPage_regulators (s : State) (n : Nat) (f : Page → Page) : (s.modPage n f).regulators = s.regulators := rfl
@[simp] theorem State.modPage_levels (s : State) (n : Nat) (f : Page → Page) : (s.modPage n f).levels = s.levels := rfl
@[simp] theorem State.modPage_pcs (s : State) (n : Nat) (f : Page → Page) : (s.modPage n f).pcs = s.pcs := rfl
@[simp] theorem State.modPage_dict (s : State) (n : Nat) (f : Page → Page) : (s.modPage n f).dict = s.dict := rfl
@[simp] theorem State.modPage_blobs (s : State) (n : Nat) (f : Page → Page) : (s.modPage n f).blobs = s.blobs := rfl
@[simp] theorem State.modPage_withheld (s : State) (n : Nat) (f : Page → Page) : (s.modPage n f).withheld = s.withheld := rfl
@[simp] theorem State.modPage_power (s : State) (n : Nat) (f : Page → Page) : (s.modPage n f).power = s.power := rfl
@[simp] theorem State.modPage_security (s : State) (n : Nat) (f : Page → Page) : (s.modPage n f).security = s.security := rfl
@[simp] theorem State.modPage_mortar (s : State) (n : Nat) (f : Page → Page) : (s.modPage n f).mortar = s.mortar := rfl
@[simp] theorem State.modPage_ingest (s : State) (n : Nat) (f : Page → Page) : (s.modPage n f).ingest = s.ingest := rfl
@[simp] theorem State.modPage_linksLost (s : State) (n : Nat) (f : Page → Page) : (s.modPage n f).linksLost = s.linksLost := rfl
@[simp] theorem State.modPage_retraining (s : State) (n : Nat) (f : Page → Page) : (s.modPage n f).retraining = s.retraining := rfl
@[simp] theorem State.modPage_lintelDown (s : State) (n : Nat) (f : Page → Page) : (s.modPage n f).lintelDown = s.lintelDown := rfl
@[simp] theorem State.modPage_lineDown (s : State) (n : Nat) (f : Page → Page) : (s.modPage n f).lineDown = s.lineDown := rfl
@[simp] theorem State.modPage_pair (s : State) (n : Nat) (f : Page → Page) : (s.modPage n f).pair = s.pair := rfl
@[simp] theorem State.modPage_clock (s : State) (n : Nat) (f : Page → Page) : (s.modPage n f).clock = s.clock := rfl
@[simp] theorem State.modPage_lockout (s : State) (n : Nat) (f : Page → Page) : (s.modPage n f).lockout = s.lockout := rfl
@[simp] theorem State.modPage_failSilent (s : State) (n : Nat) (f : Page → Page) : (s.modPage n f).failSilent = s.failSilent := rfl
@[simp] theorem State.modPage_faultPin (s : State) (n : Nat) (f : Page → Page) : (s.modPage n f).faultPin = s.faultPin := rfl
@[simp] theorem State.modPage_ready (s : State) (n : Nat) (f : Page → Page) : (s.modPage n f).ready = s.ready := rfl
@[simp] theorem State.modPage_resetCause (s : State) (n : Nat) (f : Page → Page) : (s.modPage n f).resetCause = s.resetCause := rfl
@[simp] theorem State.modPage_out (s : State) (n : Nat) (f : Page → Page) : (s.modPage n f).out = s.out := rfl
@[simp] theorem State.modPage_free (s : State) (n : Nat) (f : Page → Page) : (s.modPage n f).free = s.free := rfl
@[simp] theorem State.modPage_pending (s : State) (n : Nat) (f : Page → Page) : (s.modPage n f).pending = s.pending := rfl

/-! ### `emit` -/

@[simp] theorem State.emit_time (s : State) (o : Output) : (s.emit o).time = s.time := rfl
@[simp] theorem State.emit_halls (s : State) (o : Output) : (s.emit o).halls = s.halls := rfl
@[simp] theorem State.emit_floors (s : State) (o : Output) : (s.emit o).floors = s.floors := rfl
@[simp] theorem State.emit_rooms (s : State) (o : Output) : (s.emit o).rooms = s.rooms := rfl
@[simp] theorem State.emit_suites (s : State) (o : Output) : (s.emit o).suites = s.suites := rfl
@[simp] theorem State.emit_contexts (s : State) (o : Output) : (s.emit o).contexts = s.contexts := rfl
@[simp] theorem State.emit_households (s : State) (o : Output) : (s.emit o).households = s.households := rfl
@[simp] theorem State.emit_pages (s : State) (o : Output) : (s.emit o).pages = s.pages := rfl
@[simp] theorem State.emit_washFrom (s : State) (o : Output) : (s.emit o).washFrom = s.washFrom := rfl
@[simp] theorem State.emit_hbm (s : State) (o : Output) : (s.emit o).hbm = s.hbm := rfl
@[simp] theorem State.emit_badUnits (s : State) (o : Output) : (s.emit o).badUnits = s.badUnits := rfl
@[simp] theorem State.emit_splitWrites (s : State) (o : Output) : (s.emit o).splitWrites = s.splitWrites := rfl
@[simp] theorem State.emit_faultsDue (s : State) (o : Output) : (s.emit o).faultsDue = s.faultsDue := rfl
@[simp] theorem State.emit_tlb (s : State) (o : Output) : (s.emit o).tlb = s.tlb := rfl
@[simp] theorem State.emit_walks (s : State) (o : Output) : (s.emit o).walks = s.walks := rfl
@[simp] theorem State.emit_stalls (s : State) (o : Output) : (s.emit o).stalls = s.stalls := rfl
@[simp] theorem State.emit_windows (s : State) (o : Output) : (s.emit o).windows = s.windows := rfl
@[simp] theorem State.emit_windowRefusals (s : State) (o : Output) : (s.emit o).windowRefusals = s.windowRefusals := rfl
@[simp] theorem State.emit_remotes (s : State) (o : Output) : (s.emit o).remotes = s.remotes := rfl
@[simp] theorem State.emit_hostReads (s : State) (o : Output) : (s.emit o).hostReads = s.hostReads := rfl
@[simp] theorem State.emit_directory (s : State) (o : Output) : (s.emit o).directory = s.directory := rfl
@[simp] theorem State.emit_dirStamp (s : State) (o : Output) : (s.emit o).dirStamp = s.dirStamp := rfl
@[simp] theorem State.emit_reservations (s : State) (o : Output) : (s.emit o).reservations = s.reservations := rfl
@[simp] theorem State.emit_net (s : State) (o : Output) : (s.emit o).net = s.net := rfl
@[simp] theorem State.emit_packets (s : State) (o : Output) : (s.emit o).packets = s.packets := rfl
@[simp] theorem State.emit_links (s : State) (o : Output) : (s.emit o).links = s.links := rfl
@[simp] theorem State.emit_waiters (s : State) (o : Output) : (s.emit o).waiters = s.waiters := rfl
@[simp] theorem State.emit_heldAnswers (s : State) (o : Output) : (s.emit o).heldAnswers = s.heldAnswers := rfl
@[simp] theorem State.emit_removals (s : State) (o : Output) : (s.emit o).removals = s.removals := rfl
@[simp] theorem State.emit_regulators (s : State) (o : Output) : (s.emit o).regulators = s.regulators := rfl
@[simp] theorem State.emit_levels (s : State) (o : Output) : (s.emit o).levels = s.levels := rfl
@[simp] theorem State.emit_pcs (s : State) (o : Output) : (s.emit o).pcs = s.pcs := rfl
@[simp] theorem State.emit_dict (s : State) (o : Output) : (s.emit o).dict = s.dict := rfl
@[simp] theorem State.emit_blobs (s : State) (o : Output) : (s.emit o).blobs = s.blobs := rfl
@[simp] theorem State.emit_withheld (s : State) (o : Output) : (s.emit o).withheld = s.withheld := rfl
@[simp] theorem State.emit_power (s : State) (o : Output) : (s.emit o).power = s.power := rfl
@[simp] theorem State.emit_security (s : State) (o : Output) : (s.emit o).security = s.security := rfl
@[simp] theorem State.emit_mortar (s : State) (o : Output) : (s.emit o).mortar = s.mortar := rfl
@[simp] theorem State.emit_ingest (s : State) (o : Output) : (s.emit o).ingest = s.ingest := rfl
@[simp] theorem State.emit_linksLost (s : State) (o : Output) : (s.emit o).linksLost = s.linksLost := rfl
@[simp] theorem State.emit_retraining (s : State) (o : Output) : (s.emit o).retraining = s.retraining := rfl
@[simp] theorem State.emit_lintelDown (s : State) (o : Output) : (s.emit o).lintelDown = s.lintelDown := rfl
@[simp] theorem State.emit_lineDown (s : State) (o : Output) : (s.emit o).lineDown = s.lineDown := rfl
@[simp] theorem State.emit_pair (s : State) (o : Output) : (s.emit o).pair = s.pair := rfl
@[simp] theorem State.emit_clock (s : State) (o : Output) : (s.emit o).clock = s.clock := rfl
@[simp] theorem State.emit_lockout (s : State) (o : Output) : (s.emit o).lockout = s.lockout := rfl
@[simp] theorem State.emit_failSilent (s : State) (o : Output) : (s.emit o).failSilent = s.failSilent := rfl
@[simp] theorem State.emit_faultPin (s : State) (o : Output) : (s.emit o).faultPin = s.faultPin := rfl
@[simp] theorem State.emit_ready (s : State) (o : Output) : (s.emit o).ready = s.ready := rfl
@[simp] theorem State.emit_resetCause (s : State) (o : Output) : (s.emit o).resetCause = s.resetCause := rfl
@[simp] theorem State.emit_free (s : State) (o : Output) : (s.emit o).free = s.free := rfl
@[simp] theorem State.emit_pending (s : State) (o : Output) : (s.emit o).pending = s.pending := rfl
@[simp] theorem State.emit_out (s : State) (o : Output) : (s.emit o).out = s.out ++ [o] := rfl

/-! ### `dictSet` -/

@[simp] theorem State.dictSet_time (s : State) (i sub v : Nat) : (s.dictSet i sub v).time = s.time := rfl
@[simp] theorem State.dictSet_halls (s : State) (i sub v : Nat) : (s.dictSet i sub v).halls = s.halls := rfl
@[simp] theorem State.dictSet_floors (s : State) (i sub v : Nat) : (s.dictSet i sub v).floors = s.floors := rfl
@[simp] theorem State.dictSet_rooms (s : State) (i sub v : Nat) : (s.dictSet i sub v).rooms = s.rooms := rfl
@[simp] theorem State.dictSet_suites (s : State) (i sub v : Nat) : (s.dictSet i sub v).suites = s.suites := rfl
@[simp] theorem State.dictSet_contexts (s : State) (i sub v : Nat) : (s.dictSet i sub v).contexts = s.contexts := rfl
@[simp] theorem State.dictSet_households (s : State) (i sub v : Nat) : (s.dictSet i sub v).households = s.households := rfl
@[simp] theorem State.dictSet_pages (s : State) (i sub v : Nat) : (s.dictSet i sub v).pages = s.pages := rfl
@[simp] theorem State.dictSet_washFrom (s : State) (i sub v : Nat) : (s.dictSet i sub v).washFrom = s.washFrom := rfl
@[simp] theorem State.dictSet_hbm (s : State) (i sub v : Nat) : (s.dictSet i sub v).hbm = s.hbm := rfl
@[simp] theorem State.dictSet_badUnits (s : State) (i sub v : Nat) : (s.dictSet i sub v).badUnits = s.badUnits := rfl
@[simp] theorem State.dictSet_splitWrites (s : State) (i sub v : Nat) : (s.dictSet i sub v).splitWrites = s.splitWrites := rfl
@[simp] theorem State.dictSet_faultsDue (s : State) (i sub v : Nat) : (s.dictSet i sub v).faultsDue = s.faultsDue := rfl
@[simp] theorem State.dictSet_tlb (s : State) (i sub v : Nat) : (s.dictSet i sub v).tlb = s.tlb := rfl
@[simp] theorem State.dictSet_walks (s : State) (i sub v : Nat) : (s.dictSet i sub v).walks = s.walks := rfl
@[simp] theorem State.dictSet_stalls (s : State) (i sub v : Nat) : (s.dictSet i sub v).stalls = s.stalls := rfl
@[simp] theorem State.dictSet_windows (s : State) (i sub v : Nat) : (s.dictSet i sub v).windows = s.windows := rfl
@[simp] theorem State.dictSet_windowRefusals (s : State) (i sub v : Nat) : (s.dictSet i sub v).windowRefusals = s.windowRefusals := rfl
@[simp] theorem State.dictSet_remotes (s : State) (i sub v : Nat) : (s.dictSet i sub v).remotes = s.remotes := rfl
@[simp] theorem State.dictSet_hostReads (s : State) (i sub v : Nat) : (s.dictSet i sub v).hostReads = s.hostReads := rfl
@[simp] theorem State.dictSet_directory (s : State) (i sub v : Nat) : (s.dictSet i sub v).directory = s.directory := rfl
@[simp] theorem State.dictSet_dirStamp (s : State) (i sub v : Nat) : (s.dictSet i sub v).dirStamp = s.dirStamp := rfl
@[simp] theorem State.dictSet_reservations (s : State) (i sub v : Nat) : (s.dictSet i sub v).reservations = s.reservations := rfl
@[simp] theorem State.dictSet_net (s : State) (i sub v : Nat) : (s.dictSet i sub v).net = s.net := rfl
@[simp] theorem State.dictSet_packets (s : State) (i sub v : Nat) : (s.dictSet i sub v).packets = s.packets := rfl
@[simp] theorem State.dictSet_links (s : State) (i sub v : Nat) : (s.dictSet i sub v).links = s.links := rfl
@[simp] theorem State.dictSet_waiters (s : State) (i sub v : Nat) : (s.dictSet i sub v).waiters = s.waiters := rfl
@[simp] theorem State.dictSet_heldAnswers (s : State) (i sub v : Nat) : (s.dictSet i sub v).heldAnswers = s.heldAnswers := rfl
@[simp] theorem State.dictSet_removals (s : State) (i sub v : Nat) : (s.dictSet i sub v).removals = s.removals := rfl
@[simp] theorem State.dictSet_regulators (s : State) (i sub v : Nat) : (s.dictSet i sub v).regulators = s.regulators := rfl
@[simp] theorem State.dictSet_levels (s : State) (i sub v : Nat) : (s.dictSet i sub v).levels = s.levels := rfl
@[simp] theorem State.dictSet_pcs (s : State) (i sub v : Nat) : (s.dictSet i sub v).pcs = s.pcs := rfl
@[simp] theorem State.dictSet_blobs (s : State) (i sub v : Nat) : (s.dictSet i sub v).blobs = s.blobs := rfl
@[simp] theorem State.dictSet_withheld (s : State) (i sub v : Nat) : (s.dictSet i sub v).withheld = s.withheld := rfl
@[simp] theorem State.dictSet_power (s : State) (i sub v : Nat) : (s.dictSet i sub v).power = s.power := rfl
@[simp] theorem State.dictSet_security (s : State) (i sub v : Nat) : (s.dictSet i sub v).security = s.security := rfl
@[simp] theorem State.dictSet_mortar (s : State) (i sub v : Nat) : (s.dictSet i sub v).mortar = s.mortar := rfl
@[simp] theorem State.dictSet_ingest (s : State) (i sub v : Nat) : (s.dictSet i sub v).ingest = s.ingest := rfl
@[simp] theorem State.dictSet_linksLost (s : State) (i sub v : Nat) : (s.dictSet i sub v).linksLost = s.linksLost := rfl
@[simp] theorem State.dictSet_retraining (s : State) (i sub v : Nat) : (s.dictSet i sub v).retraining = s.retraining := rfl
@[simp] theorem State.dictSet_lintelDown (s : State) (i sub v : Nat) : (s.dictSet i sub v).lintelDown = s.lintelDown := rfl
@[simp] theorem State.dictSet_lineDown (s : State) (i sub v : Nat) : (s.dictSet i sub v).lineDown = s.lineDown := rfl
@[simp] theorem State.dictSet_pair (s : State) (i sub v : Nat) : (s.dictSet i sub v).pair = s.pair := rfl
@[simp] theorem State.dictSet_clock (s : State) (i sub v : Nat) : (s.dictSet i sub v).clock = s.clock := rfl
@[simp] theorem State.dictSet_lockout (s : State) (i sub v : Nat) : (s.dictSet i sub v).lockout = s.lockout := rfl
@[simp] theorem State.dictSet_failSilent (s : State) (i sub v : Nat) : (s.dictSet i sub v).failSilent = s.failSilent := rfl
@[simp] theorem State.dictSet_faultPin (s : State) (i sub v : Nat) : (s.dictSet i sub v).faultPin = s.faultPin := rfl
@[simp] theorem State.dictSet_ready (s : State) (i sub v : Nat) : (s.dictSet i sub v).ready = s.ready := rfl
@[simp] theorem State.dictSet_resetCause (s : State) (i sub v : Nat) : (s.dictSet i sub v).resetCause = s.resetCause := rfl
@[simp] theorem State.dictSet_out (s : State) (i sub v : Nat) : (s.dictSet i sub v).out = s.out := rfl
@[simp] theorem State.dictSet_free (s : State) (i sub v : Nat) : (s.dictSet i sub v).free = s.free := rfl
@[simp] theorem State.dictSet_pending (s : State) (i sub v : Nat) : (s.dictSet i sub v).pending = s.pending := rfl

/-! ### `setBlob` -/

@[simp] theorem State.setBlob_time (s : State) (i sub : Nat) (v : List Byte) : (s.setBlob i sub v).time = s.time := rfl
@[simp] theorem State.setBlob_halls (s : State) (i sub : Nat) (v : List Byte) : (s.setBlob i sub v).halls = s.halls := rfl
@[simp] theorem State.setBlob_floors (s : State) (i sub : Nat) (v : List Byte) : (s.setBlob i sub v).floors = s.floors := rfl
@[simp] theorem State.setBlob_rooms (s : State) (i sub : Nat) (v : List Byte) : (s.setBlob i sub v).rooms = s.rooms := rfl
@[simp] theorem State.setBlob_suites (s : State) (i sub : Nat) (v : List Byte) : (s.setBlob i sub v).suites = s.suites := rfl
@[simp] theorem State.setBlob_contexts (s : State) (i sub : Nat) (v : List Byte) : (s.setBlob i sub v).contexts = s.contexts := rfl
@[simp] theorem State.setBlob_households (s : State) (i sub : Nat) (v : List Byte) : (s.setBlob i sub v).households = s.households := rfl
@[simp] theorem State.setBlob_pages (s : State) (i sub : Nat) (v : List Byte) : (s.setBlob i sub v).pages = s.pages := rfl
@[simp] theorem State.setBlob_washFrom (s : State) (i sub : Nat) (v : List Byte) : (s.setBlob i sub v).washFrom = s.washFrom := rfl
@[simp] theorem State.setBlob_hbm (s : State) (i sub : Nat) (v : List Byte) : (s.setBlob i sub v).hbm = s.hbm := rfl
@[simp] theorem State.setBlob_badUnits (s : State) (i sub : Nat) (v : List Byte) : (s.setBlob i sub v).badUnits = s.badUnits := rfl
@[simp] theorem State.setBlob_splitWrites (s : State) (i sub : Nat) (v : List Byte) : (s.setBlob i sub v).splitWrites = s.splitWrites := rfl
@[simp] theorem State.setBlob_faultsDue (s : State) (i sub : Nat) (v : List Byte) : (s.setBlob i sub v).faultsDue = s.faultsDue := rfl
@[simp] theorem State.setBlob_tlb (s : State) (i sub : Nat) (v : List Byte) : (s.setBlob i sub v).tlb = s.tlb := rfl
@[simp] theorem State.setBlob_walks (s : State) (i sub : Nat) (v : List Byte) : (s.setBlob i sub v).walks = s.walks := rfl
@[simp] theorem State.setBlob_stalls (s : State) (i sub : Nat) (v : List Byte) : (s.setBlob i sub v).stalls = s.stalls := rfl
@[simp] theorem State.setBlob_windows (s : State) (i sub : Nat) (v : List Byte) : (s.setBlob i sub v).windows = s.windows := rfl
@[simp] theorem State.setBlob_windowRefusals (s : State) (i sub : Nat) (v : List Byte) : (s.setBlob i sub v).windowRefusals = s.windowRefusals := rfl
@[simp] theorem State.setBlob_remotes (s : State) (i sub : Nat) (v : List Byte) : (s.setBlob i sub v).remotes = s.remotes := rfl
@[simp] theorem State.setBlob_hostReads (s : State) (i sub : Nat) (v : List Byte) : (s.setBlob i sub v).hostReads = s.hostReads := rfl
@[simp] theorem State.setBlob_directory (s : State) (i sub : Nat) (v : List Byte) : (s.setBlob i sub v).directory = s.directory := rfl
@[simp] theorem State.setBlob_dirStamp (s : State) (i sub : Nat) (v : List Byte) : (s.setBlob i sub v).dirStamp = s.dirStamp := rfl
@[simp] theorem State.setBlob_reservations (s : State) (i sub : Nat) (v : List Byte) : (s.setBlob i sub v).reservations = s.reservations := rfl
@[simp] theorem State.setBlob_net (s : State) (i sub : Nat) (v : List Byte) : (s.setBlob i sub v).net = s.net := rfl
@[simp] theorem State.setBlob_packets (s : State) (i sub : Nat) (v : List Byte) : (s.setBlob i sub v).packets = s.packets := rfl
@[simp] theorem State.setBlob_links (s : State) (i sub : Nat) (v : List Byte) : (s.setBlob i sub v).links = s.links := rfl
@[simp] theorem State.setBlob_waiters (s : State) (i sub : Nat) (v : List Byte) : (s.setBlob i sub v).waiters = s.waiters := rfl
@[simp] theorem State.setBlob_heldAnswers (s : State) (i sub : Nat) (v : List Byte) : (s.setBlob i sub v).heldAnswers = s.heldAnswers := rfl
@[simp] theorem State.setBlob_removals (s : State) (i sub : Nat) (v : List Byte) : (s.setBlob i sub v).removals = s.removals := rfl
@[simp] theorem State.setBlob_regulators (s : State) (i sub : Nat) (v : List Byte) : (s.setBlob i sub v).regulators = s.regulators := rfl
@[simp] theorem State.setBlob_levels (s : State) (i sub : Nat) (v : List Byte) : (s.setBlob i sub v).levels = s.levels := rfl
@[simp] theorem State.setBlob_pcs (s : State) (i sub : Nat) (v : List Byte) : (s.setBlob i sub v).pcs = s.pcs := rfl
@[simp] theorem State.setBlob_dict (s : State) (i sub : Nat) (v : List Byte) : (s.setBlob i sub v).dict = s.dict := rfl
@[simp] theorem State.setBlob_withheld (s : State) (i sub : Nat) (v : List Byte) : (s.setBlob i sub v).withheld = s.withheld := rfl
@[simp] theorem State.setBlob_power (s : State) (i sub : Nat) (v : List Byte) : (s.setBlob i sub v).power = s.power := rfl
@[simp] theorem State.setBlob_security (s : State) (i sub : Nat) (v : List Byte) : (s.setBlob i sub v).security = s.security := rfl
@[simp] theorem State.setBlob_mortar (s : State) (i sub : Nat) (v : List Byte) : (s.setBlob i sub v).mortar = s.mortar := rfl
@[simp] theorem State.setBlob_ingest (s : State) (i sub : Nat) (v : List Byte) : (s.setBlob i sub v).ingest = s.ingest := rfl
@[simp] theorem State.setBlob_linksLost (s : State) (i sub : Nat) (v : List Byte) : (s.setBlob i sub v).linksLost = s.linksLost := rfl
@[simp] theorem State.setBlob_retraining (s : State) (i sub : Nat) (v : List Byte) : (s.setBlob i sub v).retraining = s.retraining := rfl
@[simp] theorem State.setBlob_lintelDown (s : State) (i sub : Nat) (v : List Byte) : (s.setBlob i sub v).lintelDown = s.lintelDown := rfl
@[simp] theorem State.setBlob_lineDown (s : State) (i sub : Nat) (v : List Byte) : (s.setBlob i sub v).lineDown = s.lineDown := rfl
@[simp] theorem State.setBlob_pair (s : State) (i sub : Nat) (v : List Byte) : (s.setBlob i sub v).pair = s.pair := rfl
@[simp] theorem State.setBlob_clock (s : State) (i sub : Nat) (v : List Byte) : (s.setBlob i sub v).clock = s.clock := rfl
@[simp] theorem State.setBlob_lockout (s : State) (i sub : Nat) (v : List Byte) : (s.setBlob i sub v).lockout = s.lockout := rfl
@[simp] theorem State.setBlob_failSilent (s : State) (i sub : Nat) (v : List Byte) : (s.setBlob i sub v).failSilent = s.failSilent := rfl
@[simp] theorem State.setBlob_faultPin (s : State) (i sub : Nat) (v : List Byte) : (s.setBlob i sub v).faultPin = s.faultPin := rfl
@[simp] theorem State.setBlob_ready (s : State) (i sub : Nat) (v : List Byte) : (s.setBlob i sub v).ready = s.ready := rfl
@[simp] theorem State.setBlob_resetCause (s : State) (i sub : Nat) (v : List Byte) : (s.setBlob i sub v).resetCause = s.resetCause := rfl
@[simp] theorem State.setBlob_out (s : State) (i sub : Nat) (v : List Byte) : (s.setBlob i sub v).out = s.out := rfl
@[simp] theorem State.setBlob_free (s : State) (i sub : Nat) (v : List Byte) : (s.setBlob i sub v).free = s.free := rfl
@[simp] theorem State.setBlob_pending (s : State) (i sub : Nat) (v : List Byte) : (s.setBlob i sub v).pending = s.pending := rfl

/-! ### `keepQueue` -/

@[simp] theorem State.keepQueue_time (s : State) (t : State) : (s.keepQueue t).time = t.time := rfl
@[simp] theorem State.keepQueue_halls (s : State) (t : State) : (s.keepQueue t).halls = t.halls := rfl
@[simp] theorem State.keepQueue_floors (s : State) (t : State) : (s.keepQueue t).floors = t.floors := rfl
@[simp] theorem State.keepQueue_rooms (s : State) (t : State) : (s.keepQueue t).rooms = t.rooms := rfl
@[simp] theorem State.keepQueue_suites (s : State) (t : State) : (s.keepQueue t).suites = t.suites := rfl
@[simp] theorem State.keepQueue_contexts (s : State) (t : State) : (s.keepQueue t).contexts = t.contexts := rfl
@[simp] theorem State.keepQueue_households (s : State) (t : State) : (s.keepQueue t).households = t.households := rfl
@[simp] theorem State.keepQueue_pages (s : State) (t : State) : (s.keepQueue t).pages = t.pages := rfl
@[simp] theorem State.keepQueue_washFrom (s : State) (t : State) : (s.keepQueue t).washFrom = t.washFrom := rfl
@[simp] theorem State.keepQueue_hbm (s : State) (t : State) : (s.keepQueue t).hbm = t.hbm := rfl
@[simp] theorem State.keepQueue_badUnits (s : State) (t : State) : (s.keepQueue t).badUnits = t.badUnits := rfl
@[simp] theorem State.keepQueue_splitWrites (s : State) (t : State) : (s.keepQueue t).splitWrites = t.splitWrites := rfl
@[simp] theorem State.keepQueue_faultsDue (s : State) (t : State) : (s.keepQueue t).faultsDue = t.faultsDue := rfl
@[simp] theorem State.keepQueue_tlb (s : State) (t : State) : (s.keepQueue t).tlb = t.tlb := rfl
@[simp] theorem State.keepQueue_walks (s : State) (t : State) : (s.keepQueue t).walks = t.walks := rfl
@[simp] theorem State.keepQueue_stalls (s : State) (t : State) : (s.keepQueue t).stalls = t.stalls := rfl
@[simp] theorem State.keepQueue_windows (s : State) (t : State) : (s.keepQueue t).windows = t.windows := rfl
@[simp] theorem State.keepQueue_windowRefusals (s : State) (t : State) : (s.keepQueue t).windowRefusals = t.windowRefusals := rfl
@[simp] theorem State.keepQueue_remotes (s : State) (t : State) : (s.keepQueue t).remotes = t.remotes := rfl
@[simp] theorem State.keepQueue_hostReads (s : State) (t : State) : (s.keepQueue t).hostReads = t.hostReads := rfl
@[simp] theorem State.keepQueue_directory (s : State) (t : State) : (s.keepQueue t).directory = t.directory := rfl
@[simp] theorem State.keepQueue_dirStamp (s : State) (t : State) : (s.keepQueue t).dirStamp = t.dirStamp := rfl
@[simp] theorem State.keepQueue_reservations (s : State) (t : State) : (s.keepQueue t).reservations = t.reservations := rfl
@[simp] theorem State.keepQueue_net (s : State) (t : State) : (s.keepQueue t).net = t.net := rfl
@[simp] theorem State.keepQueue_packets (s : State) (t : State) : (s.keepQueue t).packets = t.packets := rfl
@[simp] theorem State.keepQueue_links (s : State) (t : State) : (s.keepQueue t).links = t.links := rfl
@[simp] theorem State.keepQueue_waiters (s : State) (t : State) : (s.keepQueue t).waiters = t.waiters := rfl
@[simp] theorem State.keepQueue_heldAnswers (s : State) (t : State) : (s.keepQueue t).heldAnswers = t.heldAnswers := rfl
@[simp] theorem State.keepQueue_removals (s : State) (t : State) : (s.keepQueue t).removals = t.removals := rfl
@[simp] theorem State.keepQueue_regulators (s : State) (t : State) : (s.keepQueue t).regulators = t.regulators := rfl
@[simp] theorem State.keepQueue_levels (s : State) (t : State) : (s.keepQueue t).levels = t.levels := rfl
@[simp] theorem State.keepQueue_pcs (s : State) (t : State) : (s.keepQueue t).pcs = t.pcs := rfl
@[simp] theorem State.keepQueue_dict (s : State) (t : State) : (s.keepQueue t).dict = t.dict := rfl
@[simp] theorem State.keepQueue_blobs (s : State) (t : State) : (s.keepQueue t).blobs = t.blobs := rfl
@[simp] theorem State.keepQueue_withheld (s : State) (t : State) : (s.keepQueue t).withheld = t.withheld := rfl
@[simp] theorem State.keepQueue_power (s : State) (t : State) : (s.keepQueue t).power = t.power := rfl
@[simp] theorem State.keepQueue_security (s : State) (t : State) : (s.keepQueue t).security = t.security := rfl
@[simp] theorem State.keepQueue_mortar (s : State) (t : State) : (s.keepQueue t).mortar = t.mortar := rfl
@[simp] theorem State.keepQueue_ingest (s : State) (t : State) : (s.keepQueue t).ingest = t.ingest := rfl
@[simp] theorem State.keepQueue_linksLost (s : State) (t : State) : (s.keepQueue t).linksLost = t.linksLost := rfl
@[simp] theorem State.keepQueue_retraining (s : State) (t : State) : (s.keepQueue t).retraining = t.retraining := rfl
@[simp] theorem State.keepQueue_lintelDown (s : State) (t : State) : (s.keepQueue t).lintelDown = t.lintelDown := rfl
@[simp] theorem State.keepQueue_lineDown (s : State) (t : State) : (s.keepQueue t).lineDown = t.lineDown := rfl
@[simp] theorem State.keepQueue_pair (s : State) (t : State) : (s.keepQueue t).pair = t.pair := rfl
@[simp] theorem State.keepQueue_clock (s : State) (t : State) : (s.keepQueue t).clock = t.clock := rfl
@[simp] theorem State.keepQueue_lockout (s : State) (t : State) : (s.keepQueue t).lockout = t.lockout := rfl
@[simp] theorem State.keepQueue_failSilent (s : State) (t : State) : (s.keepQueue t).failSilent = t.failSilent := rfl
@[simp] theorem State.keepQueue_faultPin (s : State) (t : State) : (s.keepQueue t).faultPin = t.faultPin := rfl
@[simp] theorem State.keepQueue_ready (s : State) (t : State) : (s.keepQueue t).ready = t.ready := rfl
@[simp] theorem State.keepQueue_resetCause (s : State) (t : State) : (s.keepQueue t).resetCause = t.resetCause := rfl
@[simp] theorem State.keepQueue_out (s : State) (t : State) : (s.keepQueue t).out = t.out := rfl
@[simp] theorem State.keepQueue_free (s : State) (t : State) : (s.keepQueue t).free = t.free := rfl
@[simp] theorem State.keepQueue_pending (s : State) (t : State) : (s.keepQueue t).pending = s.pending := rfl

end Sys2Proof.Machine
end

