-- ==== Sys2Proof/Laws/Store.lean ====
section
/-! SUPPORT. The laws of sparse storage: what a write changes, what it leaves, and that every operation keeps the
canonical form. -/

namespace Sys2Proof.Machine

variable {α : Type}

@[simp] theorem Store.get_nil (d : α) (a : Nat) : Store.get d [] a = d := rfl

/-- A write leaves every other key as it reads. -/
theorem Store.get_set_ne [DecidableEq α] (d : α) (m : Store α) (a b : Nat) (x : α) (h : b ≠ a) :
    Store.get d (Store.set d m a x) b = Store.get d m b := by
  induction m with
  | nil => by_cases hx : x = d <;> simp [Store.set, Store.get, hx, h]
  | cons e m ih =>
    obtain ⟨k, v⟩ := e
    simp only [Store.set]
    split
    · split <;> simp [Store.get, h]
    · split
      · rename_i _ hk
        subst hk
        split <;> simp [Store.get, h]
      · simp [Store.get, ih]

/-- A written value other than the default is read back. -/
theorem Store.get_set_self_of_ne [DecidableEq α] (d : α) (m : Store α) (a : Nat) (x : α) (h : x ≠ d) :
    Store.get d (Store.set d m a x) a = x := by
  induction m with
  | nil => simp [Store.set, Store.get, h]
  | cons e m ih =>
    obtain ⟨k, v⟩ := e
    simp only [Store.set, h, if_false]
    split
    · simp [Store.get]
    · split
      · simp [Store.get]
      · rename_i h1 h2
        simp [Store.get, h2, ih]

/-- Writing over a value that is not the default leaves what the second write alone would leave. -/
theorem Store.set_set_of_ne [DecidableEq α] (d : α) (m : Store α) (a : Nat) (x y : α) (h : x ≠ d) :
    Store.set d (Store.set d m a x) a y = Store.set d m a y := by
  induction m with
  | nil => simp [Store.set, h]
  | cons e m ih =>
    obtain ⟨k, v⟩ := e
    by_cases h1 : a < k
    · simp [Store.set, h, h1]
    · by_cases h2 : a = k
      · subst h2
        simp [Store.set, h]
      · simp [Store.set, h1, h2, ih]

theorem Store.wfFrom_mono [DecidableEq α] (d : α) (m : Store α) (lo lo' : Nat) (h : lo' ≤ lo)
    (hm : Store.wfFrom d lo m = true) : Store.wfFrom d lo' m = true := by
  cases m with
  | nil => rfl
  | cons e m =>
    obtain ⟨k, v⟩ := e
    simp only [Store.wfFrom, Bool.and_eq_true, decide_eq_true_eq] at hm ⊢
    exact ⟨⟨le_trans h hm.1.1, hm.1.2⟩, hm.2⟩

/-- A key below every listed one reads as the default. -/
theorem Store.get_of_wfFrom [DecidableEq α] (d : α) (m : Store α) (lo a : Nat) (h : a < lo)
    (hm : Store.wfFrom d lo m = true) : Store.get d m a = d := by
  induction m generalizing lo with
  | nil => rfl
  | cons e m ih =>
    obtain ⟨k, v⟩ := e
    simp only [Store.wfFrom, Bool.and_eq_true, decide_eq_true_eq] at hm
    have hk : a ≠ k := by omega
    simp only [Store.get, hk, if_false]
    exact ih (k + 1) (by omega) hm.2

theorem Store.wfFrom_set [DecidableEq α] (d : α) (m : Store α) (lo a : Nat) (x : α) (ha : lo ≤ a)
    (hm : Store.wfFrom d lo m = true) : Store.wfFrom d lo (Store.set d m a x) = true := by
  induction m generalizing lo with
  | nil => by_cases hx : x = d <;> simp [Store.set, Store.wfFrom, hx, ha]
  | cons e m ih =>
    obtain ⟨k, v⟩ := e
    simp only [Store.wfFrom, Bool.and_eq_true, decide_eq_true_eq] at hm
    simp only [Store.set]
    split
    · rename_i h1
      split
      · simp [Store.wfFrom, hm]
      · rename_i h2
        have : a + 1 ≤ k := h1
        simp [Store.wfFrom, hm.1.2, hm.2, ha, h2, this]
    · split
      · rename_i h2
        subst h2
        split
        · exact Store.wfFrom_mono d m _ _ (by omega) hm.2
        · rename_i h3
          simp [Store.wfFrom, hm.2, ha, h3]
      · rename_i h1 h2
        have := ih (k + 1) (by omega) hm.2
        simp [Store.wfFrom, hm.1.1, hm.1.2, this]

/-- A write keeps the canonical form. -/
theorem Store.wf_set [DecidableEq α] (d : α) (m : Store α) (a : Nat) (x : α) (hm : Store.wf d m = true) :
    Store.wf d (Store.set d m a x) = true := Store.wfFrom_set d m 0 a x (Nat.zero_le a) hm

/-- In canonical form, what is written is read back. -/
theorem Store.get_set_self [DecidableEq α] (d : α) (m : Store α) (a : Nat) (x : α) (hm : Store.wf d m = true) :
    Store.get d (Store.set d m a x) a = x := by
  by_cases hx : x = d
  · subst hx
    have aux : ∀ lo, Store.wfFrom x lo m = true → Store.get x (Store.set x m a x) a = x := by
      induction m with
      | nil => intro _ _; simp [Store.set, Store.get]
      | cons e m ih =>
        intro lo h
        obtain ⟨k, v⟩ := e
        simp only [Store.wfFrom, Bool.and_eq_true, decide_eq_true_eq] at h
        simp only [Store.set]
        split
        · rename_i h1
          have : a ≠ k := by omega
          simp only [if_true, Store.get, this, if_false]
          exact Store.get_of_wfFrom x m (k + 1) a (by omega) h.2
        · split
          · rename_i h2
            subst h2
            simp only [if_true]
            exact Store.get_of_wfFrom x m (a + 1) a (by omega) h.2
          · rename_i h1 h2
            simp only [Store.get, h2, if_false]
            exact ih (Store.wfFrom_mono x m (k + 1) 0 (Nat.zero_le _) h.2) (k + 1) h.2
    exact aux 0 hm
  · exact Store.get_set_self_of_ne d m a x hx

/-- A change of one value keeps the canonical form. -/
theorem Store.wf_modify [DecidableEq α] (d : α) (m : Store α) (a : Nat) (f : α → α) (hm : Store.wf d m = true) :
    Store.wf d (Store.modify d m a f) = true := Store.wf_set d m a _ hm

/-- Writing a range keeps the canonical form. -/
theorem Store.wf_setRange [DecidableEq α] (d : α) (l : List α) (m : Store α) (a : Nat) (hm : Store.wf d m = true) :
    Store.wf d (Store.setRange d m a l) = true := by
  induction l generalizing m a with
  | nil => exact hm
  | cons x l ih => exact ih (Store.set d m a x) (a + 1) (Store.wf_set d m a x hm)

theorem Store.wfFrom_mapValues [DecidableEq α] (d : α) (f : α → α) (m : Store α) (lo : Nat)
    (hm : Store.wfFrom d lo m = true) : Store.wfFrom d lo (Store.mapValues d f m) = true := by
  induction m generalizing lo with
  | nil => rfl
  | cons e m ih =>
    obtain ⟨k, v⟩ := e
    simp only [Store.wfFrom, Bool.and_eq_true, decide_eq_true_eq] at hm
    have h := ih (k + 1) hm.2
    simp only [Store.mapValues]
    split
    · exact Store.wfFrom_mono d _ _ _ (by omega) h
    · rename_i hv
      simp [Store.wfFrom, hm.1.1, hv, h]

/-- A change of every value keeps the canonical form. -/
theorem Store.wf_mapValues [DecidableEq α] (d : α) (f : α → α) (m : Store α) (hm : Store.wf d m = true) :
    Store.wf d (Store.mapValues d f m) = true := Store.wfFrom_mapValues d f m 0 hm

/-- A filter keeps the canonical form. -/
theorem Store.wfFrom_filter [DecidableEq α] (d : α) (p : Nat × α → Bool) (m : Store α) (lo : Nat)
    (hm : Store.wfFrom d lo m = true) : Store.wfFrom d lo (m.filter p) = true := by
  induction m generalizing lo with
  | nil => rfl
  | cons e m ih =>
    obtain ⟨k, v⟩ := e
    simp only [Store.wfFrom, Bool.and_eq_true, decide_eq_true_eq] at hm
    have h := ih (k + 1) hm.2
    by_cases hp : p (k, v) = true
    · rw [List.filter_cons_of_pos hp]
      simp [Store.wfFrom, hm.1, h]
    · rw [List.filter_cons_of_neg hp]
      exact Store.wfFrom_mono d _ _ _ (by omega) h

/-- Writing a range leaves every key outside it as it reads. -/
theorem Store.get_setRange_ne [DecidableEq α] (d : α) (l : List α) (m : Store α) (a b : Nat)
    (h : b < a ∨ a + l.length ≤ b) : Store.get d (Store.setRange d m a l) b = Store.get d m b := by
  induction l generalizing m a with
  | nil => rfl
  | cons x l ih =>
    simp only [List.length_cons] at h
    simp only [Store.setRange]
    rw [ih (Store.set d m a x) (a + 1) (by omega)]
    exact Store.get_set_ne d m a b x (by omega)

/-- In canonical form, every byte of a written range is read back. -/
theorem Store.get_setRange [DecidableEq α] (d : α) (l : List α) (m : Store α) (a k : Nat) (hk : k < l.length)
    (hm : Store.wf d m = true) : Store.get d (Store.setRange d m a l) (a + k) = l[k] := by
  induction l generalizing m a k with
  | nil => simp at hk
  | cons x l ih =>
    simp only [Store.setRange]
    cases k with
    | zero =>
      rw [Store.get_setRange_ne d l _ (a + 1) (a + 0) (by omega)]
      simpa using Store.get_set_self d m a x hm
    | succ k =>
      have := ih (Store.set d m a x) (a + 1) k (by simpa using hk) (Store.wf_set d m a x hm)
      rw [show a + (k + 1) = a + 1 + k by omega]
      simpa using this

@[simp] theorem leBytes_length (n w : Nat) : (leBytes n w).length = n := by
  induction n generalizing w with
  | zero => rfl
  | succ n ih => simp [leBytes, ih]

end Sys2Proof.Machine
end

