-- ==== Sys2Proof/Laws/Issue.lean ====
section
/-! SUPPORT. What the shared operations of commands answer: `onUnits`, and `foremanOp` with its three cases. -/

namespace Sys2Proof.Machine

open Sys2Proof.Safety

theorem onUnits_next (s t : State) : onUnits true s t = .next (s.keepQueue t) := rfl

theorem onUnits_of (wf : Bool) (s t : State) (h : wf = true) : onUnits wf s t = .next (s.keepQueue t) := by
  subst h; rfl

/-- A command refuses exactly the units that do not exist. -/
theorem onUnits_cases (wf : Bool) (s t : State) (o : Host.Outcome State Fault Refusal) (h : onUnits wf s t = o) :
    (wf = true ∧ o = .next (s.keepQueue t)) ∨ (wf = false ∧ o = .refused .noSuchUnit) := by
  cases wf
  · exact .inr ⟨rfl, h.symm⟩
  · exact .inl ⟨rfl, h.symm⟩

@[simp] theorem State.keepQueue_self (s : State) : s.keepQueue s = s := rfl

theorem State.keepQueue_of (s t : State) (h : t.pending = s.pending) : s.keepQueue t = t := by
  cases t; simp only [State.keepQueue] at *; subst h; rfl

/-- A Room whose Foreman does something is listed: changing it is read back. -/
theorem State.room_setRoom (s : State) (r : Nat) (x : Room) (h : x ≠ {}) : (s.setRoom r x).room r = x :=
  Store.get_set_self_of_ne ({} : Room) s.rooms r x h

theorem State.setRoom_setRoom (s : State) (r : Nat) (x y : Room) (h : x ≠ {}) :
    (s.setRoom r x).setRoom r y = s.setRoom r y := by
  simp only [State.setRoom, Store.set_set_of_ne _ _ _ _ _ h]

theorem State.room_setRoom_ne (s : State) (r q : Nat) (x : Room) (h : q ≠ r) : (s.setRoom r x).room q = s.room q :=
  Store.get_set_ne ({} : Room) s.rooms r q x h

theorem Room.ne_default_of_run (x : Room) (h : x.foreman.run ≠ .idle) : x ≠ {} := by
  intro e; subst e; exact h rfl

theorem State.room_modForeman (s : State) (r : Nat) (f : Foreman → Foreman)
    (h : (f (s.room r).foreman).run ≠ .idle) : (s.modForeman r f).room r = (s.room r).mapForeman f :=
  State.room_setRoom s r _ (Room.ne_default_of_run _ h)

theorem State.modForeman_modForeman (s : State) (r : Nat) (e f : Foreman → Foreman)
    (h : (e (s.room r).foreman).run ≠ .idle) :
    (s.modForeman r e).modForeman r f = s.modForeman r fun x => f (e x) := by
  have h1 := State.room_modForeman s r e h
  simp only [State.modForeman, State.modRoom] at h1 ⊢
  rw [h1, State.setRoom_setRoom _ _ _ _ (Room.ne_default_of_run _ h)]
  rfl

/-- The program counter passes the instruction, unless that leaves the program store. -/
theorem State.advance_of (s : State) (r : Nat) (h : GoesOn s r) : s.advance r = s.modForeman r passed := by
  simp only [GoesOn] at h
  simp only [State.advance, Foreman.after, h, if_true]
  rfl

theorem foremanOp_of (r : Nat) (g : Guard) (eff : State → Issue) (s : State) (h : Executes s r g) :
    foremanOp r g eff s = .next (s.keepQueue ((eff s).result r)) := by
  obtain ⟨h1, h2, h3⟩ := h
  simp [foremanOp, h1, h2, h3]

theorem foremanOp_guard (r : Nat) (g : Guard) (eff : State → Issue) (s : State) (h1 : isRoom r = true)
    (h2 : (s.room r).foreman.run = .running) (h3 : (s.room r).foreman.guarded g = false) :
    foremanOp r g eff s = .next (s.keepQueue (s.advance r)) := by
  simp [foremanOp, h1, h2, h3]

theorem foremanOp_idle (r : Nat) (g : Guard) (eff : State → Issue) (s : State) (h1 : isRoom r = true)
    (h2 : (s.room r).foreman.run ≠ .running) : foremanOp r g eff s = .next s := by
  simp [foremanOp, h1, h2]

/-- Everything a Foreman instruction can answer. -/
theorem foremanOp_cases (r : Nat) (g : Guard) (eff : State → Issue) (s : State) :
    (isRoom r = false ∧ foremanOp r g eff s = .refused .noSuchUnit) ∨
    (isRoom r = true ∧ ∃ t, foremanOp r g eff s = .next (s.keepQueue t) ∧
      (t = s ∨ t = s.advance r ∨ t = (eff s).result r)) := by
  unfold foremanOp
  by_cases h1 : isRoom r = true
  · refine .inr ⟨h1, ?_⟩
    simp only [h1, Bool.not_true, Bool.false_eq_true, if_false]
    split
    · exact ⟨s, by simp, .inl rfl⟩
    · split
      · exact ⟨_, rfl, .inr (.inl rfl)⟩
      · exact ⟨_, rfl, .inr (.inr rfl)⟩
  · exact .inl ⟨by simpa using h1, by simp [h1]⟩

@[simp] theorem Foreman.setReg_pc (f : Foreman) (k : BitVec 5) (v : W64) : (f.setReg k v).pc = f.pc := by
  unfold Foreman.setReg; split <;> rfl
@[simp] theorem Foreman.setReg_loops (f : Foreman) (k : BitVec 5) (v : W64) : (f.setReg k v).loops = f.loops := by
  unfold Foreman.setReg; split <;> rfl
@[simp] theorem Foreman.setReg_run (f : Foreman) (k : BitVec 5) (v : W64) : (f.setReg k v).run = f.run := by
  unfold Foreman.setReg; split <;> rfl
@[simp] theorem Foreman.setPred_pc (f : Foreman) (k : Nat) (v : Bool) : (f.setPred k v).pc = f.pc := by
  unfold Foreman.setPred; split <;> rfl
@[simp] theorem Foreman.setPred_loops (f : Foreman) (k : Nat) (v : Bool) : (f.setPred k v).loops = f.loops := by
  unfold Foreman.setPred; split <;> rfl
@[simp] theorem Foreman.setPred_run (f : Foreman) (k : Nat) (v : Bool) : (f.setPred k v).run = f.run := by
  unfold Foreman.setPred; split <;> rfl
@[simp] theorem Foreman.setDesc_pc (f : Foreman) (k : BitVec 4) (v : Desc) : (f.setDesc k v).pc = f.pc := rfl
@[simp] theorem Foreman.setDesc_loops (f : Foreman) (k : BitVec 4) (v : Desc) : (f.setDesc k v).loops = f.loops := rfl
@[simp] theorem Foreman.setDesc_run (f : Foreman) (k : BitVec 4) (v : Desc) : (f.setDesc k v).run = f.run := rfl

/-- An instruction that only writes registers of its Foreman. -/
theorem regs_result (s : State) (r : Nat) (e : Foreman → Foreman) (h : GoesOn s r)
    (hr : (s.room r).foreman.run = .running) (h1 : (e (s.room r).foreman).run = (s.room r).foreman.run)
    (h2 : (e (s.room r).foreman).pc = (s.room r).foreman.pc)
    (h3 : (e (s.room r).foreman).loops = (s.room r).foreman.loops) :
    (Issue.regs r s e).result r = did s r e := by
  have hi : (e (s.room r).foreman).run ≠ .idle := by rw [h1, hr]; simp
  have hroom := State.room_modForeman s r e hi
  have : GoesOn (s.modForeman r e) r := by
    simp only [GoesOn, hroom, Room.mapForeman, h2, h3]; exact h
  simp only [Issue.regs, Issue.result, State.advance_of _ _ this, did, State.modForeman_modForeman _ _ _ _ hi]

/-- What such an instruction answers. -/
theorem foremanOp_regs (s : State) (r : Nat) (g : Guard) (e : Foreman → Foreman) (eff : State → Issue)
    (he : Executes s r g) (h : GoesOn s r) (heff : eff s = Issue.regs r s e)
    (h1 : (e (s.room r).foreman).run = (s.room r).foreman.run)
    (h2 : (e (s.room r).foreman).pc = (s.room r).foreman.pc)
    (h3 : (e (s.room r).foreman).loops = (s.room r).foreman.loops) :
    foremanOp r g eff s = .next (did s r e) := by
  rw [foremanOp_of r g eff s he, heff, regs_result s r e h he.2.1 h1 h2 h3, State.keepQueue_of]
  rfl

end Sys2Proof.Machine
end

