-- ==== Sys2Proof/Laws/Dictionary.lean ====
section
/-! SUPPORT. What a download of the dictionary answers, once for every object. -/

namespace Sys2Proof.Machine

open Sys2Proof.Safety

/-- A served download answers what the object's own checks and effect say. -/
theorem served_download (s : State) (q : Chan) (i sub : Nat) (data : List Byte) (act : Act)
    (h : Served s q i sub data.length) :
    State.download q i sub data act s = match act s with
      | .error c => s.refuse q i sub c
      | .ok (t, now) => if now then (noted s t q i sub).reply q i sub 0 [] else noted s t q i sub := by
  obtain ⟨h1, h2, h3, h4, h5⟩ := h
  simp only [State.download, h2, h3, h4, h5, Bool.or_self, Bool.false_eq_true, if_false, Bool.not_true]
  rfl

/-- A served download whose effect completes at once. -/
theorem served_done (s t : State) (q : Chan) (i sub : Nat) (data : List Byte) (act : Act)
    (h : Served s q i sub data.length) (ha : act s = .ok (t, true)) :
    State.download q i sub data act s = answered s t q i sub := by
  rw [served_download s q i sub data act h, ha]; rfl

/-- A served download whose own checks refuse it. -/
theorem served_refused (s : State) (q : Chan) (i sub c : Nat) (data : List Byte) (act : Act)
    (h : Served s q i sub data.length) (ha : act s = .error c) :
    State.download q i sub data act s = s.refuse q i sub c := by
  rw [served_download s q i sub data act h, ha]

end Sys2Proof.Machine
end

