-- ==== Sys2Proof/Laws/Dispatch.lean ====
section
/-! SUPPORT. Which meaning each command calls: one lemma per arm of `exec`, so that no proof unfolds all of it. -/

namespace Sys2Proof.Machine

@[simp] theorem exec_add (r : Nat) (g : Guard) (rd ra rb : BitVec 5) (s : State) : exec (.add r g rd ra rb) s = execAdd r g rd ra rb s := rfl
@[simp] theorem exec_sub (r : Nat) (g : Guard) (rd ra rb : BitVec 5) (s : State) : exec (.sub r g rd ra rb) s = execSub r g rd ra rb s := rfl
@[simp] theorem exec_mul (r : Nat) (g : Guard) (rd ra rb : BitVec 5) (s : State) : exec (.mul r g rd ra rb) s = execMul r g rd ra rb s := rfl
@[simp] theorem exec_and (r : Nat) (g : Guard) (rd ra rb : BitVec 5) (s : State) : exec (.and r g rd ra rb) s = execAnd r g rd ra rb s := rfl
@[simp] theorem exec_or (r : Nat) (g : Guard) (rd ra rb : BitVec 5) (s : State) : exec (.or r g rd ra rb) s = execOr r g rd ra rb s := rfl
@[simp] theorem exec_xor (r : Nat) (g : Guard) (rd ra rb : BitVec 5) (s : State) : exec (.xor r g rd ra rb) s = execXor r g rd ra rb s := rfl
@[simp] theorem exec_shl (r : Nat) (g : Guard) (rd ra rb : BitVec 5) (s : State) : exec (.shl r g rd ra rb) s = execShl r g rd ra rb s := rfl
@[simp] theorem exec_shr (r : Nat) (g : Guard) (rd ra rb : BitVec 5) (s : State) : exec (.shr r g rd ra rb) s = execShr r g rd ra rb s := rfl
@[simp] theorem exec_sra (r : Nat) (g : Guard) (rd ra rb : BitVec 5) (s : State) : exec (.sra r g rd ra rb) s = execSra r g rd ra rb s := rfl
@[simp] theorem exec_addi (r : Nat) (g : Guard) (rd ra : BitVec 5) (imm : BitVec 12) (s : State) : exec (.addi r g rd ra imm) s = execAddi r g rd ra imm s := rfl
@[simp] theorem exec_ori (r : Nat) (g : Guard) (rd ra : BitVec 5) (imm : BitVec 12) (s : State) : exec (.ori r g rd ra imm) s = execOri r g rd ra imm s := rfl
@[simp] theorem exec_shli (r : Nat) (g : Guard) (rd ra : BitVec 5) (imm : BitVec 12) (s : State) : exec (.shli r g rd ra imm) s = execShli r g rd ra imm s := rfl
@[simp] theorem exec_movi (r : Nat) (g : Guard) (rd : BitVec 5) (imm : BitVec 16) (s : State) : exec (.movi r g rd imm) s = execMovi r g rd imm s := rfl
@[simp] theorem exec_cmp (r : Nat) (g : Guard) (rd ra rb : BitVec 5) (fn : BitVec 7) (s : State) : exec (.cmp r g rd ra rb fn) s = execCmp r g rd ra rb fn s := rfl
@[simp] theorem exec_cmpi (r : Nat) (g : Guard) (rd ra : BitVec 5) (imm : BitVec 12) (s : State) : exec (.cmpi r g rd ra imm) s = execCmpi r g rd ra imm s := rfl
@[simp] theorem exec_plog (r : Nat) (g : Guard) (rd ra rb : BitVec 5) (fn : BitVec 7) (s : State) : exec (.plog r g rd ra rb fn) s = execPlog r g rd ra rb fn s := rfl
@[simp] theorem exec_br (r : Nat) (g : Guard) (off : BitVec 22) (s : State) : exec (.br r g off) s = execBr r g off s := rfl
@[simp] theorem exec_loop (r : Nat) (g : Guard) (ra : BitVec 5) (len : BitVec 12) (s : State) : exec (.loop r g ra len) s = execLoop r g ra len s := rfl
@[simp] theorem exec_lds (r : Nat) (g : Guard) (rd ra : BitVec 5) (fn : BitVec 7) (s : State) : exec (.lds r g rd ra fn) s = execLds r g rd ra fn s := rfl
@[simp] theorem exec_sts (r : Nat) (g : Guard) (ra rb : BitVec 5) (fn : BitVec 7) (s : State) : exec (.sts r g ra rb fn) s = execSts r g ra rb fn s := rfl
@[simp] theorem exec_atomAdd (r : Nat) (g : Guard) (rd ra rb : BitVec 5) (s : State) : exec (.atomAdd r g rd ra rb) s = execAtomAdd r g rd ra rb s := rfl
@[simp] theorem exec_atomMax (r : Nat) (g : Guard) (rd ra rb : BitVec 5) (s : State) : exec (.atomMax r g rd ra rb) s = execAtomMax r g rd ra rb s := rfl
@[simp] theorem exec_atomMin (r : Nat) (g : Guard) (rd ra rb : BitVec 5) (s : State) : exec (.atomMin r g rd ra rb) s = execAtomMin r g rd ra rb s := rfl
@[simp] theorem exec_atomOr (r : Nat) (g : Guard) (rd ra rb : BitVec 5) (s : State) : exec (.atomOr r g rd ra rb) s = execAtomOr r g rd ra rb s := rfl
@[simp] theorem exec_atomAnd (r : Nat) (g : Guard) (rd ra rb : BitVec 5) (s : State) : exec (.atomAnd r g rd ra rb) s = execAtomAnd r g rd ra rb s := rfl
@[simp] theorem exec_atomSwap (r : Nat) (g : Guard) (rd ra rb : BitVec 5) (s : State) : exec (.atomSwap r g rd ra rb) s = execAtomSwap r g rd ra rb s := rfl
@[simp] theorem exec_atomCas (r : Nat) (g : Guard) (rd ra rb : BitVec 5) (s : State) : exec (.atomCas r g rd ra rb) s = execAtomCas r g rd ra rb s := rfl
@[simp] theorem exec_atomFadd (r : Nat) (g : Guard) (rd ra rb : BitVec 5) (s : State) : exec (.atomFadd r g rd ra rb) s = execAtomFadd r g rd ra rb s := rfl
@[simp] theorem exec_rdsr (r : Nat) (g : Guard) (rd : BitVec 5) (sel : BitVec 12) (s : State) : exec (.rdsr r g rd sel) s = execRdsr r g rd sel s := rfl
@[simp] theorem exec_rung (r : Nat) (g : Guard) (rd ra : BitVec 5) (imm : BitVec 12) (s : State) : exec (.rung r g rd ra imm) s = execRung r g rd ra imm s := rfl
@[simp] theorem exec_guard (r : Nat) (g : Guard) (td : BitVec 4) (rs : BitVec 5) (s : State) : exec (.guard r g td rs) s = execGuard r g td rs s := rfl
@[simp] theorem exec_tdld (r : Nat) (g : Guard) (td : BitVec 4) (rs : BitVec 5) (s : State) : exec (.tdld r g td rs) s = execTdld r g td rs s := rfl
@[simp] theorem exec_tdset (r : Nat) (g : Guard) (td : BitVec 4) (rs : BitVec 5) (mode : BitVec 5) (s : State) : exec (.tdset r g td rs mode) s = execTdset r g td rs mode s := rfl
@[simp] theorem exec_tdadv (r : Nat) (g : Guard) (td : BitVec 4) (rs : BitVec 5) (mode : BitVec 5) (s : State) : exec (.tdadv r g td rs mode) s = execTdadv r g td rs mode s := rfl
@[simp] theorem exec_tload (r : Nat) (g : Guard) (td ta : BitVec 4) (rs : BitVec 5) (mode : BitVec 5) (s : State) : exec (.tload r g td ta rs mode) s = execTload r g td ta rs mode s := rfl
@[simp] theorem exec_tstore (r : Nat) (g : Guard) (td ta : BitVec 4) (rs : BitVec 5) (mode : BitVec 5) (s : State) : exec (.tstore r g td ta rs mode) s = execTstore r g td ta rs mode s := rfl
@[simp] theorem exec_dmaget (r : Nat) (g : Guard) (td ta : BitVec 4) (mode : BitVec 5) (s : State) : exec (.dmaget r g td ta mode) s = execDmaget r g td ta mode s := rfl
@[simp] theorem exec_dmaput (r : Nat) (g : Guard) (td ta : BitVec 4) (mode : BitVec 5) (s : State) : exec (.dmaput r g td ta mode) s = execDmaput r g td ta mode s := rfl
@[simp] theorem exec_dmawait (r : Nat) (g : Guard) (imm : BitVec 16) (s : State) : exec (.dmawait r g imm) s = execDmawait r g imm s := rfl
@[simp] theorem exec_dmaTransferComplete (r k : Nat) (s : State) : exec (.dmaTransferComplete r k) s = execDmaTransferComplete r k s := rfl
@[simp] theorem exec_mma (r : Nat) (g : Guard) (td ta tb : BitVec 4) (mode : BitVec 5) (s : State) : exec (.mma r g td ta tb mode) s = execMma r g td ta tb mode s := rfl
@[simp] theorem exec_fold (r : Nat) (g : Guard) (td : BitVec 4) (s : State) : exec (.fold r g td) s = execFold r g td s := rfl
@[simp] theorem exec_vec (r : Nat) (g : Guard) (rs : BitVec 5) (s : State) : exec (.vec r g rs) s = execVec r g rs s := rfl
@[simp] theorem exec_upld (r : Nat) (g : Guard) (ta : BitVec 4) (rs : BitVec 5) (s : State) : exec (.upld r g ta rs) s = execUpld r g ta rs s := rfl
@[simp] theorem exec_conva (r : Nat) (g : Guard) (td ta tb : BitVec 4) (mode : BitVec 5) (s : State) : exec (.conva r g td ta tb mode) s = execConva r g td ta tb mode s := rfl
@[simp] theorem exec_convt (r : Nat) (g : Guard) (td ta : BitVec 4) (mode : BitVec 5) (s : State) : exec (.convt r g td ta mode) s = execConvt r g td ta mode s := rfl
@[simp] theorem exec_gsend (r : Nat) (g : Guard) (ta : BitVec 4) (rs : BitVec 5) (mode : BitVec 5) (s : State) : exec (.gsend r g ta rs mode) s = execGsend r g ta rs mode s := rfl
@[simp] theorem exec_grecv (r : Nat) (g : Guard) (td : BitVec 4) (rs : BitVec 5) (mode : BitVec 5) (s : State) : exec (.grecv r g td rs mode) s = execGrecv r g td rs mode s := rfl
@[simp] theorem exec_gwait (r : Nat) (g : Guard) (imm : BitVec 16) (s : State) : exec (.gwait r g imm) s = execGwait r g imm s := rfl
@[simp] theorem exec_signal (r : Nat) (g : Guard) (ra rb : BitVec 5) (s : State) : exec (.signal r g ra rb) s = execSignal r g ra rb s := rfl
@[simp] theorem exec_wait (r : Nat) (g : Guard) (ra rb : BitVec 5) (s : State) : exec (.wait r g ra rb) s = execWait r g ra rb s := rfl
@[simp] theorem exec_barrier (r : Nat) (g : Guard) (imm : BitVec 12) (s : State) : exec (.barrier r g imm) s = execBarrier r g imm s := rfl
@[simp] theorem exec_barrierRelease (suite copy n : Nat) (s : State) : exec (.barrierRelease suite copy n) s = execBarrierRelease suite copy n s := rfl
@[simp] theorem exec_course (r : Nat) (g : Guard) (imm : BitVec 16) (s : State) : exec (.course r g imm) s = execCourse r g imm s := rfl
@[simp] theorem exec_digest (r : Nat) (g : Guard) (ra : BitVec 5) (s : State) : exec (.digest r g ra) s = execDigest r g ra s := rfl
@[simp] theorem exec_commit (r : Nat) (g : Guard) (s : State) : exec (.commit r g) s = execCommit r g s := rfl
@[simp] theorem exec_plumb (r : Nat) (g : Guard) (td ta tb : BitVec 4) (s : State) : exec (.plumb r g td ta tb) s = execPlumb r g td ta tb s := rfl
@[simp] theorem exec_uopNop (r : Nat) (s : State) : exec (.uopNop r) s = execUopNop r s := rfl
@[simp] theorem exec_uopFma (r : Nat) (d a b c : BitVec 6) (mod : BitVec 4) (count : BitVec 8) (s : State) : exec (.uopFma r d a b c mod count) s = execUopFma r d a b c mod count s := rfl
@[simp] theorem exec_uopAdd (r : Nat) (d a b : BitVec 6) (mod : BitVec 4) (count : BitVec 8) (s : State) : exec (.uopAdd r d a b mod count) s = execUopAdd r d a b mod count s := rfl
@[simp] theorem exec_uopMul (r : Nat) (d a b : BitVec 6) (mod : BitVec 4) (count : BitVec 8) (s : State) : exec (.uopMul r d a b mod count) s = execUopMul r d a b mod count s := rfl
@[simp] theorem exec_uopMax (r : Nat) (d a b : BitVec 6) (mod : BitVec 4) (count : BitVec 8) (s : State) : exec (.uopMax r d a b mod count) s = execUopMax r d a b mod count s := rfl
@[simp] theorem exec_uopMin (r : Nat) (d a b : BitVec 6) (mod : BitVec 4) (count : BitVec 8) (s : State) : exec (.uopMin r d a b mod count) s = execUopMin r d a b mod count s := rfl
@[simp] theorem exec_uopFunc (r : Nat) (d a : BitVec 6) (mod : BitVec 4) (count : BitVec 8) (s : State) : exec (.uopFunc r d a mod count) s = execUopFunc r d a mod count s := rfl
@[simp] theorem exec_uopIadd (r : Nat) (d a b : BitVec 6) (mod : BitVec 4) (count : BitVec 8) (s : State) : exec (.uopIadd r d a b mod count) s = execUopIadd r d a b mod count s := rfl
@[simp] theorem exec_uopImul (r : Nat) (d a b : BitVec 6) (mod : BitVec 4) (count : BitVec 8) (s : State) : exec (.uopImul r d a b mod count) s = execUopImul r d a b mod count s := rfl
@[simp] theorem exec_uopIcvt (r : Nat) (d a : BitVec 6) (mod : BitVec 4) (count : BitVec 8) (s : State) : exec (.uopIcvt r d a mod count) s = execUopIcvt r d a mod count s := rfl
@[simp] theorem exec_uopLd (r : Nat) (d a : BitVec 6) (mod : BitVec 4) (haddr : BitVec 14) (count : BitVec 8) (s : State) : exec (.uopLd r d a mod haddr count) s = execUopLd r d a mod haddr count s := rfl
@[simp] theorem exec_uopSt (r : Nat) (d a : BitVec 6) (mod : BitVec 4) (haddr : BitVec 14) (count : BitVec 8) (s : State) : exec (.uopSt r d a mod haddr count) s = execUopSt r d a mod haddr count s := rfl
@[simp] theorem exec_uopSel (r : Nat) (d a b c : BitVec 6) (mod : BitVec 4) (count : BitVec 8) (s : State) : exec (.uopSel r d a b c mod count) s = execUopSel r d a b c mod count s := rfl
@[simp] theorem exec_uopLane (r : Nat) (d : BitVec 6) (mod : BitVec 4) (s : State) : exec (.uopLane r d mod) s = execUopLane r d mod s := rfl
@[simp] theorem exec_uopLoop (r : Nat) (count target : BitVec 8) (s : State) : exec (.uopLoop r count target) s = execUopLoop r count target s := rfl
@[simp] theorem exec_uopEnd (r : Nat) (s : State) : exec (.uopEnd r) s = execUopEnd r s := rfl
@[simp] theorem exec_gutterPieceReduce (suite copy tree round node piece : Nat) (s : State) : exec (.gutterPieceReduce suite copy tree round node piece) s = execGutterPieceReduce suite copy tree round node piece s := rfl
@[simp] theorem exec_descriptorFetch (ctx queue : Nat) (s : State) : exec (.descriptorFetch ctx queue) s = execDescriptorFetch ctx queue s := rfl
@[simp] theorem exec_waitRecheck (ctx queue : Nat) (s : State) : exec (.waitRecheck ctx queue) s = execWaitRecheck ctx queue s := rfl
@[simp] theorem exec_configurationLanding (suite : Nat) (s : State) : exec (.configurationLanding suite) s = execConfigurationLanding suite s := rfl
@[simp] theorem exec_roomWhitewashComplete (r : Nat) (pass : Bool) (s : State) : exec (.roomWhitewashComplete r pass) s = execRoomWhitewashComplete r pass s := rfl
@[simp] theorem exec_dispatchLanding (suite : Nat) (s : State) : exec (.dispatchLanding suite) s = execDispatchLanding suite s := rfl
@[simp] theorem exec_pairedSettingsWait (suite : Nat) (s : State) : exec (.pairedSettingsWait suite) s = execPairedSettingsWait suite s := rfl
@[simp] theorem exec_commitLanding (suite : Nat) (s : State) : exec (.commitLanding suite) s = execCommitLanding suite s := rfl
@[simp] theorem exec_markerPublish (ctx queue : Nat) (s : State) : exec (.markerPublish ctx queue) s = execMarkerPublish ctx queue s := rfl
@[simp] theorem exec_sliceExpiry (suite : Nat) (s : State) : exec (.sliceExpiry suite) s = execSliceExpiry suite s := rfl
@[simp] theorem exec_kill (q : Chan) (suite : Nat) (s : State) : exec (.kill q suite) s = execKill q suite s := rfl
@[simp] theorem exec_ctxRequest (q : Chan) (hh : Nat) (w : W64) (s : State) : exec (.ctxRequest q hh w) s = execCtxRequest q hh w s := rfl
@[simp] theorem exec_retry (q : Chan) (ctx : Nat) (s : State) : exec (.retry q ctx) s = execRetry q ctx s := rfl
@[simp] theorem exec_skip (q : Chan) (ctx : Nat) (s : State) : exec (.skip q ctx) s = execSkip q ctx s := rfl
@[simp] theorem exec_queueOpen (q : Chan) (ctx : Nat) (w : W64) (s : State) : exec (.queueOpen q ctx w) s = execQueueOpen q ctx w s := rfl
@[simp] theorem exec_queueClose (q : Chan) (ctx : Nat) (queue : Byte) (s : State) : exec (.queueClose q ctx queue) s = execQueueClose q ctx queue s := rfl
@[simp] theorem exec_close (q : Chan) (ctx : Nat) (s : State) : exec (.close q ctx) s = execClose q ctx s := rfl
@[simp] theorem exec_tailDoorbell (hall ctx queue size : Nat) (v : W32) (s : State) : exec (.tailDoorbell hall ctx queue size v) s = execTailDoorbell hall ctx queue size v s := rfl
@[simp] theorem exec_replay (hall ctx size : Nat) (version : Byte) (seq : W32) (s : State) : exec (.replay hall ctx size version seq) s = execReplay hall ctx size version seq s := rfl
@[simp] theorem exec_abort (hall ctx size : Nat) (version : Byte) (seq : W32) (s : State) : exec (.abort hall ctx size version seq) s = execAbort hall ctx size version seq s := rfl
@[simp] theorem exec_vectorUnmask (hall vec : Nat) (s : State) : exec (.vectorUnmask hall vec) s = execVectorUnmask hall vec s := rfl
@[simp] theorem exec_bar4Access (hall off len : Nat) (data : Option (List Byte)) (s : State) : exec (.bar4Access hall off len data) s = execBar4Access hall off len data s := rfl
@[simp] theorem exec_ptRoot (q : Chan) (hh : Nat) (w : W64) (s : State) : exec (.ptRoot q hh w) s = execPtRoot q hh w s := rfl
@[simp] theorem exec_tlbInval (q : Chan) (hh : Nat) (w : W64) (s : State) : exec (.tlbInval q hh w) s = execTlbInval q hh w s := rfl
@[simp] theorem exec_pageWalk (port ctx va : Nat) (write : Bool) (s : State) : exec (.pageWalk port ctx va write) s = execPageWalk port ctx va write s := rfl
@[simp] theorem exec_faultRecordWrite (hh : Nat) (s : State) : exec (.faultRecordWrite hh) s = execFaultRecordWrite hh s := rfl
@[simp] theorem exec_faultqBase (q : Chan) (hh : Nat) (w : W64) (s : State) : exec (.faultqBase q hh w) s = execFaultqBase q hh w s := rfl
@[simp] theorem exec_faultTimeout (port : Nat) (s : State) : exec (.faultTimeout port) s = execFaultTimeout port s := rfl
@[simp] theorem exec_windowAdd (q : Chan) (hh : Nat) (data : List Byte) (s : State) : exec (.windowAdd q hh data) s = execWindowAdd q hh data s := rfl
@[simp] theorem exec_windowRemove (q : Chan) (hh : Nat) (idx : BitVec 16) (s : State) : exec (.windowRemove q hh idx) s = execWindowRemove q hh idx s := rfl
@[simp] theorem exec_remoteAccessArrival (acc : RemoteAccess) (s : State) : exec (.remoteAccessArrival acc) s = execRemoteAccessArrival acc s := rfl
@[simp] theorem exec_windowRefusal (k : Nat) (s : State) : exec (.windowRefusal k) s = execWindowRefusal k s := rfl
@[simp] theorem exec_activate (q : Chan) (hh : Nat) (s : State) : exec (.activate q hh) s = execActivate q hh s := rfl
@[simp] theorem exec_deactivate (q : Chan) (hh : Nat) (s : State) : exec (.deactivate q hh) s = execDeactivate q hh s := rfl
@[simp] theorem exec_grant (q : Chan) (hh : Nat) (w : W64) (s : State) : exec (.grant q hh w) s = execGrant q hh w s := rfl
@[simp] theorem exec_withdraw (q : Chan) (hh : Nat) (w : W64) (s : State) : exec (.withdraw q hh w) s = execWithdraw q hh w s := rfl
@[simp] theorem exec_washPage (stack : Nat) (s : State) : exec (.washPage stack) s = execWashPage stack s := rfl
@[simp] theorem exec_suiteRequest (q : Chan) (hh : Nat) (w : W32) (s : State) : exec (.suiteRequest q hh w) s = execSuiteRequest q hh w s := rfl
@[simp] theorem exec_suiteRelease (q : Chan) (hh : Nat) (suite : Byte) (s : State) : exec (.suiteRelease q hh suite) s = execSuiteRelease q hh suite s := rfl
@[simp] theorem exec_roomAdd (q : Chan) (suite : Nat) (data : List Byte) (s : State) : exec (.roomAdd q suite data) s = execRoomAdd q suite data s := rfl
@[simp] theorem exec_roomRemove (q : Chan) (suite : Nat) (v : BitVec 16) (s : State) : exec (.roomRemove q suite v) s = execRoomRemove q suite v s := rfl
@[simp] theorem exec_roomMove (q : Chan) (suite : Nat) (w : W32) (s : State) : exec (.roomMove q suite w) s = execRoomMove q suite w s := rfl
@[simp] theorem exec_groupBind (q : Chan) (suite : Nat) (v : BitVec 16) (s : State) : exec (.groupBind q suite v) s = execGroupBind q suite v s := rfl
@[simp] theorem exec_groupUnbind (q : Chan) (suite : Nat) (v : BitVec 16) (s : State) : exec (.groupUnbind q suite v) s = execGroupUnbind q suite v s := rfl
@[simp] theorem exec_portBind (q : Chan) (suite : Nat) (port : BitVec 5) (s : State) : exec (.portBind q suite port) s = execPortBind q suite port s := rfl
@[simp] theorem exec_portUnbind (q : Chan) (suite : Nat) (port : BitVec 5) (s : State) : exec (.portUnbind q suite port) s = execPortUnbind q suite port s := rfl
@[simp] theorem exec_atFreezePoint (q : Chan) (hh : Nat) (s : State) : exec (.atFreezePoint q hh) s = execAtFreezePoint q hh s := rfl
@[simp] theorem exec_atNextBoundary (q : Chan) (hh : Nat) (s : State) : exec (.atNextBoundary q hh) s = execAtNextBoundary q hh s := rfl
@[simp] theorem exec_thaw (q : Chan) (hh : Nat) (s : State) : exec (.thaw q hh) s = execThaw q hh s := rfl
@[simp] theorem exec_save (q : Chan) (hh : Nat) (w : W64) (s : State) : exec (.save q hh w) s = execSave q hh w s := rfl
@[simp] theorem exec_restore (q : Chan) (hh : Nat) (w : W64) (s : State) : exec (.restore q hh w) s = execRestore q hh w s := rfl
@[simp] theorem exec_release (q : Chan) (suite : Nat) (s : State) : exec (.release q suite) s = execRelease q suite s := rfl
@[simp] theorem exec_registerWrite (q : Chan) (target : Target) (data : List Byte) (s : State) : exec (.registerWrite q target data) s = execRegisterWrite q target data s := rfl
@[simp] theorem exec_upload (q : Chan) (index sub : Nat) (s : State) : exec (.upload q index sub) s = execUpload q index sub s := rfl
@[simp] theorem exec_wholeIndexUpload (q : Chan) (index : Nat) (s : State) : exec (.wholeIndexUpload q index) s = execWholeIndexUpload q index s := rfl
@[simp] theorem exec_windowGo (hall n : Nat) (s : State) : exec (.windowGo hall n) s = execWindowGo hall n s := rfl
@[simp] theorem exec_usdoFrame (hall node : Nat) (f : Frame) (s : State) : exec (.usdoFrame hall node f) s = execUsdoFrame hall node f s := rfl
@[simp] theorem exec_tunnelRequest (version plane node household : Nat) (f : Frame) (s : State) : exec (.tunnelRequest version plane node household f) s = execTunnelRequest version plane node household f s := rfl
@[simp] theorem exec_tunnelTimeout (hall n : Nat) (s : State) : exec (.tunnelTimeout hall n) s = execTunnelTimeout hall n s := rfl
@[simp] theorem exec_segmentTimeout (q : Chan) (s : State) : exec (.segmentTimeout q) s = execSegmentTimeout q s := rfl
@[simp] theorem exec_notPermittedAnswer (k : Nat) (s : State) : exec (.notPermittedAnswer k) s = execNotPermittedAnswer k s := rfl
@[simp] theorem exec_nmtResetApplication (hall : Nat) (s : State) : exec (.nmtResetApplication hall) s = execNmtResetApplication hall s := rfl
@[simp] theorem exec_nmtResetCommunication (hall : Nat) (s : State) : exec (.nmtResetCommunication hall) s = execNmtResetCommunication hall s := rfl
@[simp] theorem exec_heartbeat (hall : Nat) (s : State) : exec (.heartbeat hall) s = execHeartbeat hall s := rfl
@[simp] theorem exec_sleepRequest (q : Chan) (s : State) : exec (.sleepRequest q) s = execSleepRequest q s := rfl
@[simp] theorem exec_wakePin (s : State) : exec .wakePin s = execWakePin s := rfl
@[simp] theorem exec_canWakeFrame (hall : Nat) (s : State) : exec (.canWakeFrame hall) s = execCanWakeFrame hall s := rfl
@[simp] theorem exec_pcieWake (hall : Nat) (s : State) : exec (.pcieWake hall) s = execPcieWake hall s := rfl
@[simp] theorem exec_hearthAlarm (s : State) : exec .hearthAlarm s = execHearthAlarm s := rfl
@[simp] theorem exec_thermalWake (s : State) : exec .thermalWake s = execThermalWake s := rfl
@[simp] theorem exec_powerUpStep (good : Bool) (s : State) : exec (.powerUpStep good) s = execPowerUpStep good s := rfl
@[simp] theorem exec_roomSwitchGroup (floor : Nat) (failed : List Nat) (s : State) : exec (.roomSwitchGroup floor failed) s = execRoomSwitchGroup floor failed s := rfl
@[simp] theorem exec_powerSample (hall mV mA : Nat) (s : State) : exec (.powerSample hall mV mA) s = execPowerSample hall mV mA s := rfl
@[simp] theorem exec_capTick (s : State) : exec .capTick s = execCapTick s := rfl
@[simp] theorem exec_powerBrakeAssert (s : State) : exec .powerBrakeAssert s = execPowerBrakeAssert s := rfl
@[simp] theorem exec_powerBrakeRelease (s : State) : exec .powerBrakeRelease s = execPowerBrakeRelease s := rfl
@[simp] theorem exec_currentSample (floor peak mean : Nat) (s : State) : exec (.currentSample floor peak mean) s = execCurrentSample floor peak mean s := rfl
@[simp] theorem exec_phaseLoss (floor : Nat) (s : State) : exec (.phaseLoss floor) s = execPhaseLoss floor s := rfl
@[simp] theorem exec_droopDetect (r : Nat) (s : State) : exec (.droopDetect r) s = execDroopDetect r s := rfl
@[simp] theorem exec_droopRelease (r : Nat) (s : State) : exec (.droopRelease r) s = execDroopRelease r s := rfl
@[simp] theorem exec_thermalSensorChange (sensor : Sensor) (half : Int) (s : State) : exec (.thermalSensorChange sensor half) s = execThermalSensorChange sensor half s := rfl
@[simp] theorem exec_thermalShutdown (s : State) : exec .thermalShutdown s = execThermalShutdown s := rfl
@[simp] theorem exec_settlementMeasure (floor worst : Nat) (short : Bool) (s : State) : exec (.settlementMeasure floor worst short) s = execSettlementMeasure floor worst short s := rfl
@[simp] theorem exec_roomDozeEntry (r : Nat) (s : State) : exec (.roomDozeEntry r) s = execRoomDozeEntry r s := rfl
@[simp] theorem exec_roomClockGate (r : Nat) (s : State) : exec (.roomClockGate r) s = execRoomClockGate r s := rfl
@[simp] theorem exec_courseDigestCompare (suite : Nat) (larger : List Bool) (s : State) : exec (.courseDigestCompare suite larger) s = execCourseDigestCompare suite larger s := rfl
@[simp] theorem exec_courseOverrun (r : Nat) (s : State) : exec (.courseOverrun r) s = execCourseOverrun r s := rfl
@[simp] theorem exec_spareLoadComplete (r : Nat) (s : State) : exec (.spareLoadComplete r) s = execSpareLoadComplete r s := rfl
@[simp] theorem exec_hallLease (hall : Nat) (s : State) : exec (.hallLease hall) s = execHallLease hall s := rfl
@[simp] theorem exec_hallLeaseTimeout (hall : Nat) (s : State) : exec (.hallLeaseTimeout hall) s = execHallLeaseTimeout hall s := rfl
@[simp] theorem exec_hallRejoin (s : State) : exec .hallRejoin s = execHallRejoin s := rfl
@[simp] theorem exec_pairLease (port epoch : Nat) (s : State) : exec (.pairLease port epoch) s = execPairLease port epoch s := rfl
@[simp] theorem exec_pairLeaseTimeout (s : State) : exec .pairLeaseTimeout s = execPairLeaseTimeout s := rfl
@[simp] theorem exec_arbiterGrant (s : State) : exec .arbiterGrant s = execArbiterGrant s := rfl
@[simp] theorem exec_arbiterWithdraw (s : State) : exec .arbiterWithdraw s = execArbiterWithdraw s := rfl
@[simp] theorem exec_islandModeEntry (s : State) : exec .islandModeEntry s = execIslandModeEntry s := rfl
@[simp] theorem exec_pairRejoin (s : State) : exec .pairRejoin s = execPairRejoin s := rfl
@[simp] theorem exec_linkDown (link : Nat) (s : State) : exec (.linkDown link) s = execLinkDown link s := rfl
@[simp] theorem exec_reintegrationSelfTest (u : UnitRef) (pass : Bool) (dead : List Nat) (s : State) : exec (.reintegrationSelfTest u pass dead) s = execReintegrationSelfTest u pass dead s := rfl
@[simp] theorem exec_ledgerRecord (hall : Nat) (s : State) : exec (.ledgerRecord hall) s = execLedgerRecord hall s := rfl
@[simp] theorem exec_stormEnd (hall : Nat) (s : State) : exec (.stormEnd hall) s = execStormEnd hall s := rfl
@[simp] theorem exec_tallyFire (kind : Nat) (u : UnitRef) (s : State) : exec (.tallyFire kind u) s = execTallyFire kind u s := rfl
@[simp] theorem exec_rungComplete (rung : Nat) (u : UnitRef) (s : State) : exec (.rungComplete rung u) s = execRungComplete rung u s := rfl
@[simp] theorem exec_rungTimeout (rung : Nat) (u : UnitRef) (s : State) : exec (.rungTimeout rung u) s = execRungTimeout rung u s := rfl
@[simp] theorem exec_moduleReset (q : Chan) (s : State) : exec (.moduleReset q) s = execModuleReset q s := rfl
@[simp] theorem exec_wardenMismatch (hall : Nat) (s : State) : exec (.wardenMismatch hall) s = execWardenMismatch hall s := rfl
@[simp] theorem exec_wardenRungOverdue (hall : Nat) (s : State) : exec (.wardenRungOverdue hall) s = execWardenRungOverdue hall s := rfl
@[simp] theorem exec_failSilent (hall : Nat) (s : State) : exec (.failSilent hall) s = execFailSilent hall s := rfl
@[simp] theorem exec_lcAdvance (q : Chan) (data : List Byte) (s : State) : exec (.lcAdvance q data) s = execLcAdvance q data s := rfl
@[simp] theorem exec_lcAdvanceReset (s : State) : exec .lcAdvanceReset s = execLcAdvanceReset s := rfl
@[simp] theorem exec_openHouseChallenge (q : Chan) (s : State) : exec (.openHouseChallenge q) s = execOpenHouseChallenge q s := rfl
@[simp] theorem exec_challengeExpiry (s : State) : exec .challengeExpiry s = execChallengeExpiry s := rfl
@[simp] theorem exec_openHouseResponse (q : Chan) (data : List Byte) (s : State) : exec (.openHouseResponse q data) s = execOpenHouseResponse q data s := rfl
@[simp] theorem exec_getVersion (via : SpdmVia) (version : Byte) (s : State) : exec (.getVersion via version) s = execGetVersion via version s := rfl
@[simp] theorem exec_getCapabilities (via : SpdmVia) (version : Byte) (s : State) : exec (.getCapabilities via version) s = execGetCapabilities via version s := rfl
@[simp] theorem exec_negotiateAlgorithms (via : SpdmVia) (version : Byte) (s : State) : exec (.negotiateAlgorithms via version) s = execNegotiateAlgorithms via version s := rfl
@[simp] theorem exec_getDigests (via : SpdmVia) (version : Byte) (s : State) : exec (.getDigests via version) s = execGetDigests via version s := rfl
@[simp] theorem exec_getCertificate (via : SpdmVia) (version : Byte) (slot offset len : Nat) (s : State) : exec (.getCertificate via version slot offset len) s = execGetCertificate via version slot offset len s := rfl
@[simp] theorem exec_challenge (via : SpdmVia) (version : Byte) (slot : Nat) (nonce : List Byte) (s : State) : exec (.challenge via version slot nonce) s = execChallenge via version slot nonce s := rfl
@[simp] theorem exec_getMeasurements (via : SpdmVia) (version : Byte) (index slot : Nat) (nonce : List Byte) (s : State) : exec (.getMeasurements via version index slot nonce) s = execGetMeasurements via version index slot nonce s := rfl
@[simp] theorem exec_latchOpen (q : Chan) (hh : Nat) (data : List Byte) (s : State) : exec (.latchOpen q hh data) s = execLatchOpen q hh data s := rfl
@[simp] theorem exec_latchRelease (q : Chan) (hh : Nat) (data : List Byte) (s : State) : exec (.latchRelease q hh data) s = execLatchRelease q hh data s := rfl
@[simp] theorem exec_slotClear (q : Chan) (hh : Nat) (slot : Byte) (s : State) : exec (.slotClear q hh slot) s = execSlotClear q hh slot s := rfl
@[simp] theorem exec_blobDecrypt (q : Chan) (hh : Nat) (data : List Byte) (s : State) : exec (.blobDecrypt q hh data) s = execBlobDecrypt q hh data s := rfl
@[simp] theorem exec_blobDecryptDone (hh : Nat) (s : State) : exec (.blobDecryptDone hh) s = execBlobDecryptDone hh s := rfl
@[simp] theorem exec_tamperEvent (hall sensor : Nat) (s : State) : exec (.tamperEvent hall sensor) s = execTamperEvent hall sensor s := rfl
@[simp] theorem exec_bringupStage (hall : Nat) (report : StageReport) (s : State) : exec (.bringupStage hall report) s = execBringupStage hall report s := rfl
@[simp] theorem exec_stageTimeout (hall : Nat) (s : State) : exec (.stageTimeout hall) s = execStageTimeout hall s := rfl
@[simp] theorem exec_svcEn (hall : Nat) (low : Bool) (s : State) : exec (.svcEn hall low) s = execSvcEn hall low s := rfl
@[simp] theorem exec_inputSwitchOpen (s : State) : exec .inputSwitchOpen s = execInputSwitchOpen s := rfl
@[simp] theorem exec_inputRestore (s : State) : exec .inputRestore s = execInputRestore s := rfl
@[simp] theorem exec_brownOut (enter : Bool) (s : State) : exec (.brownOut enter) s = execBrownOut enter s := rfl
@[simp] theorem exec_presenceLoss (s : State) : exec .presenceLoss s = execPresenceLoss s := rfl
@[simp] theorem exec_perstAssert (hall : Nat) (s : State) : exec (.perstAssert hall) s = execPerstAssert hall s := rfl
@[simp] theorem exec_perstDeassert (hall : Nat) (s : State) : exec (.perstDeassert hall) s = execPerstDeassert hall s := rfl
@[simp] theorem exec_mortarLinkTrain (port : Nat) (peer : MortarPeer) (s : State) : exec (.mortarLinkTrain port peer) s = execMortarLinkTrain port peer s := rfl
@[simp] theorem exec_mortarFlitReceive (port : Nat) (flit : Flit) (s : State) : exec (.mortarFlitReceive port flit) s = execMortarFlitReceive port flit s := rfl
@[simp] theorem exec_nodePlaneWrite (q : Chan) (plane : Bool) (v : BitVec 16) (s : State) : exec (.nodePlaneWrite q plane v) s = execNodePlaneWrite q plane v s := rfl
@[simp] theorem exec_ingestFrame (port : Nat) (frame : AvtpFrame) (s : State) : exec (.ingestFrame port frame) s = execIngestFrame port frame s := rfl
@[simp] theorem exec_timeMessage (s : State) : exec .timeMessage s = execTimeMessage s := rfl
@[simp] theorem exec_timeSourceLost (s : State) : exec .timeSourceLost s = execTimeSourceLost s := rfl
@[simp] theorem exec_timePps (s : State) : exec .timePps s = execTimePps s := rfl
@[simp] theorem exec_portRegulatorIssue (port : Nat) (s : State) : exec (.portRegulatorIssue port) s = execPortRegulatorIssue port s := rfl
@[simp] theorem exec_congestionPublish (stack : Nat) (s : State) : exec (.congestionPublish stack) s = execCongestionPublish stack s := rfl
@[simp] theorem exec_pcSchedule (pc : Nat) (s : State) : exec (.pcSchedule pc) s = execPcSchedule pc s := rfl
@[simp] theorem exec_hbmRefresh (pc : Nat) (s : State) : exec (.hbmRefresh pc) s = execHbmRefresh pc s := rfl
@[simp] theorem exec_hbmAccessComplete (pc : Nat) (result : HbmResult) (s : State) : exec (.hbmAccessComplete pc result) s = execHbmAccessComplete pc result s := rfl
@[simp] theorem exec_patrolScrub (stack : Nat) (s : State) : exec (.patrolScrub stack) s = execPatrolScrub stack s := rfl
@[simp] theorem exec_gets (r line : Nat) (s : State) : exec (.gets r line) s = execGets r line s := rfl
@[simp] theorem exec_getm (r line : Nat) (s : State) : exec (.getm r line) s = execGetm r line s := rfl
@[simp] theorem exec_putm (r line : Nat) (s : State) : exec (.putm r line) s = execPutm r line s := rfl
@[simp] theorem exec_pute (r line : Nat) (s : State) : exec (.pute r line) s = execPute r line s := rfl
@[simp] theorem exec_puts (r line : Nat) (s : State) : exec (.puts r line) s = execPuts r line s := rfl
@[simp] theorem exec_done (r line : Nat) (s : State) : exec (.done r line) s = execDone r line s := rfl
@[simp] theorem exec_fwdGets (r line : Nat) (s : State) : exec (.fwdGets r line) s = execFwdGets r line s := rfl
@[simp] theorem exec_fwdGetm (r line : Nat) (s : State) : exec (.fwdGetm r line) s = execFwdGetm r line s := rfl
@[simp] theorem exec_recall (r line : Nat) (s : State) : exec (.recall r line) s = execRecall r line s := rfl
@[simp] theorem exec_inv (r line : Nat) (s : State) : exec (.inv r line) s = execInv r line s := rfl
@[simp] theorem exec_data (r line : Nat) (s : State) : exec (.data r line) s = execData r line s := rfl
@[simp] theorem exec_invAck (r line : Nat) (s : State) : exec (.invAck r line) s = execInvAck r line s := rfl
@[simp] theorem exec_fwdAck (r line : Nat) (s : State) : exec (.fwdAck r line) s = execFwdAck r line s := rfl
@[simp] theorem exec_nack (r line : Nat) (s : State) : exec (.nack r line) s = execNack r line s := rfl
@[simp] theorem exec_nackRetry (r line : Nat) (s : State) : exec (.nackRetry r line) s = execNackRetry r line s := rfl
@[simp] theorem exec_putAck (r line : Nat) (s : State) : exec (.putAck r line) s = execPutAck r line s := rfl
@[simp] theorem exec_uncachedAccess (lpa len : Nat) (kind : AccKind) (s : State) : exec (.uncachedAccess lpa len kind) s = execUncachedAccess lpa len kind s := rfl
@[simp] theorem exec_linkUp (link rate width : Nat) (s : State) : exec (.linkUp link rate width) s = execLinkUp link rate width s := rfl
@[simp] theorem exec_lineDown (s : State) : exec .lineDown s = execLineDown s := rfl
@[simp] theorem exec_floorPowerGoodLoss (floor : Nat) (s : State) : exec (.floorPowerGoodLoss floor) s = execFloorPowerGoodLoss floor s := rfl
@[simp] theorem exec_phaseRestore (floor : Nat) (s : State) : exec (.phaseRestore floor) s = execPhaseRestore floor s := rfl
@[simp] theorem exec_canErrorState (hall : Nat) (st : CanState) (s : State) : exec (.canErrorState hall st) s = execCanErrorState hall st s := rfl
@[simp] theorem exec_nmtStateCommand (hall : Nat) (st : NmtState) (s : State) : exec (.nmtStateCommand hall st) s = execNmtStateCommand hall st s := rfl
@[simp] theorem exec_pcieCompletion (hall addr len : Nat) (c : Completion) (s : State) : exec (.pcieCompletion hall addr len c) s = execPcieCompletion hall addr len c s := rfl
@[simp] theorem exec_pcieCompletionTimeout (hall addr : Nat) (s : State) : exec (.pcieCompletionTimeout hall addr) s = execPcieCompletionTimeout hall addr s := rfl
@[simp] theorem exec_remoteResponseTimeout (k : Nat) (s : State) : exec (.remoteResponseTimeout k) s = execRemoteResponseTimeout k s := rfl
@[simp] theorem exec_saveDone (hh cause : Nat) (s : State) : exec (.saveDone hh cause) s = execSaveDone hh cause s := rfl
@[simp] theorem exec_restoreDone (hh cause : Nat) (s : State) : exec (.restoreDone hh cause) s = execRestoreDone hh cause s := rfl
@[simp] theorem exec_timeSyncExchange (source : Nat) (offset : Int) (s : State) : exec (.timeSyncExchange source offset) s = execTimeSyncExchange source offset s := rfl

end Sys2Proof.Machine
end

