-- ==== Sys2Proof/Laws/Frames.lean ====
section
/-! SUPPORT. What the shared operations of every family can change: a report, an MSI-X message, the refresh of clocks,
throttle reasons and error registers, a write to HBM, the end of a step, a context fault. -/

namespace Sys2Proof.Machine

theorem State.dictSet_frame (s : State) (i k v : Nat) : ∃ dict, s.dictSet i k v = { s with dict } := ⟨_, rfl⟩

theorem State.dictGet_dictSet_ne (s : State) (i k v j m : Nat) (h : entry j m ≠ entry i k) :
    (s.dictSet i k v).dictGet j m = s.dictGet j m := by
  simp only [State.dictGet, State.dictSet]; rw [Store.get_set_ne _ _ _ _ _ h]

/-- What bringing a throttle reason up to date can change: that reason's flag and count. -/
theorem State.refreshReason_frame (k : Nat) (s : State) : (∃ dict, s.refreshReason k = { s with dict }) ∧
    ∀ j m, j ≠ 0x2440 + k → m < 256 → (s.refreshReason k).dictGet j m = s.dictGet j m := by
  have ne (j m a : Nat) (hj : j ≠ 0x2440 + k) (hm : m < 256) (ha : a < 256) : entry j m ≠ entry (0x2440 + k) a := by
    simp only [entry]; omega
  unfold State.refreshReason
  split
  · exact ⟨⟨_, rfl⟩, fun _ _ _ _ => rfl⟩
  · split
    · refine ⟨⟨_, rfl⟩, fun j m hj hm => ?_⟩
      simp only [State.bump]
      rw [State.dictGet_dictSet_ne _ _ _ _ _ _ (ne j m 3 hj hm (by omega)),
        State.dictGet_dictSet_ne _ _ _ _ _ _ (ne j m 1 hj hm (by omega))]
    · refine ⟨⟨_, rfl⟩, fun j m hj hm => ?_⟩
      rw [State.dictGet_dictSet_ne _ _ _ _ _ _ (ne j m 1 hj hm (by omega))]

theorem State.refreshReasons_frame (n : Nat) (s : State) : (∃ dict, iterate State.refreshReason n s = { s with dict }) ∧
    ∀ j m, (j < 0x2440 ∨ 0x2440 + n ≤ j) → m < 256 → (iterate State.refreshReason n s).dictGet j m = s.dictGet j m := by
  induction n with
  | zero => exact ⟨⟨s.dict, rfl⟩, fun _ _ _ _ => rfl⟩
  | succ n ih =>
    obtain ⟨⟨d, hd⟩, hg⟩ := ih
    obtain ⟨⟨e, he⟩, hf⟩ := State.refreshReason_frame n (iterate State.refreshReason n s)
    refine ⟨⟨e, ?_⟩, fun j m hj hm => ?_⟩
    · show State.refreshReason n (iterate State.refreshReason n s) = _
      rw [he, hd]
    · show (State.refreshReason n (iterate State.refreshReason n s)).dictGet j m = _
      rw [hf j m (by omega) hm, hg j m (by omega) hm]

theorem State.refreshRegister_frame (s : State) (h : Nat) : ∃ halls out, s.refreshRegister h = { s with halls, out } ∧
    ∃ l, out = s.out ++ l := by
  unfold State.refreshRegister
  simp only
  split
  · exact ⟨s.halls, s.out, rfl, [], by simp⟩
  · exact ⟨_, _, rfl, _, rfl⟩

theorem State.refreshFloors_frame (n : Nat) (s : State) :
    ∃ floors, iterate (fun f s => s.modFloor f ({ · with applied := s.lowest f })) n s = { s with floors } := by
  induction n with
  | zero => exact ⟨s.floors, rfl⟩
  | succ n ih => obtain ⟨l, hl⟩ := ih; exact ⟨_, by rw [iterate, hl]; rfl⟩

theorem State.floor_modFloor (s : State) (n : Nat) (f : Floor → Floor) (hw : Store.wf ({} : Floor) s.floors = true) :
    (s.modFloor n f).floor n = f (s.floor n) := Store.get_set_self _ _ _ _ hw

theorem State.floor_modFloor_ne (s : State) (n k : Nat) (f : Floor → Floor) (h : k ≠ n) :
    (s.modFloor n f).floor k = s.floor k := Store.get_set_ne _ _ _ _ _ h

theorem State.refreshFloors_floor (n : Nat) (s : State) (hw : Store.wf ({} : Floor) s.floors = true) :
    Store.wf ({} : Floor) (iterate (fun f s => s.modFloor f ({ · with applied := s.lowest f })) n s).floors = true ∧
    ∀ f, (iterate (fun f s => s.modFloor f ({ · with applied := s.lowest f })) n s).floor f =
      if f < n then { s.floor f with applied := s.lowest f } else s.floor f := by
  induction n with
  | zero => exact ⟨hw, fun f => by simp [iterate]⟩
  | succ n ih =>
    obtain ⟨l, hl⟩ := State.refreshFloors_frame n s
    have hm : (iterate (fun f s => s.modFloor f ({ · with applied := s.lowest f })) n s).moduleLimit = s.moduleLimit := by
      rw [hl]; rfl
    rw [iterate]
    generalize iterate (fun f s => s.modFloor f ({ · with applied := s.lowest f })) n s = t at ih hm
    obtain ⟨hw', hf⟩ := ih
    refine ⟨Store.wf_set _ _ _ _ hw', fun f => ?_⟩
    have hn := hf n
    simp only [Nat.lt_irrefl, if_false] at hn
    by_cases h : f = n
    · subst h
      rw [State.floor_modFloor _ _ _ hw']
      simp only [State.lowest, hn, hm, Nat.lt_succ_self, if_true]
    · rw [State.floor_modFloor_ne _ _ _ _ h, hf f]
      by_cases h2 : f < n
      · simp [h2, Nat.lt_succ_of_lt h2]
      · have : ¬ f < n + 1 := by omega
        simp [h2, this]

theorem State.refresh_eq (s : State) : s.refresh = ((iterate State.refreshReason 8
    (iterate (fun f s => s.modFloor f ({ · with applied := s.lowest f })) 4 s)).refreshRegister 0).refreshRegister 1 := rfl

/-- Everything that bringing the clocks, reasons and error registers up to date can change: the applied clocks, the reasons
0x2440 to 0x2447, the error registers and the EMCY messages. -/
theorem State.refresh_frame (s : State) : (∃ floors dict halls out, s.refresh = { s with floors, dict, halls, out } ∧
      ∃ l, out = s.out ++ l) ∧
    ∀ j m, (j < 0x2440 ∨ 0x2448 ≤ j) → m < 256 → s.refresh.dictGet j m = s.dictGet j m := by
  obtain ⟨floors, h1⟩ := State.refreshFloors_frame 4 s
  have h := State.refreshReasons_frame 8 { s with floors }
  rw [State.refresh_eq, h1]
  generalize iterate State.refreshReason 8 { s with floors } = u at h
  obtain ⟨⟨dict, rfl⟩, hg⟩ := h
  obtain ⟨a, b, h3, l, hl⟩ := State.refreshRegister_frame { s with floors, dict } 0
  obtain ⟨c, d, h4, k, hk⟩ := State.refreshRegister_frame { s with floors, dict, halls := a, out := b } 1
  rw [h3, h4]
  refine ⟨⟨floors, dict, c, d, rfl, l ++ k, by rw [hk]; simp only [hl, List.append_assoc]⟩, fun j m hj hm => ?_⟩
  exact hg j m hj hm

/-- The applied clock of a Floor follows its limits (R331). -/
theorem State.refresh_floor (s : State) (f : Nat) (hf : f < 4) (hw : Store.wf ({} : Floor) s.floors = true) :
    s.refresh.floor f = { s.floor f with applied := s.lowest f } := by
  have h1 := (State.refreshFloors_floor 4 s hw).2 f
  simp only [hf, if_true] at h1
  rw [State.refresh_eq, ← h1]
  generalize iterate (fun f s => State.modFloor s f ({ · with applied := s.lowest f })) 4 s = u
  have h := (State.refreshReasons_frame 8 u).1
  generalize iterate State.refreshReason 8 u = v at h
  obtain ⟨d, rfl⟩ := h
  obtain ⟨a, b, h3, _⟩ := State.refreshRegister_frame { u with dict := d } 0
  rw [h3]
  obtain ⟨a', b', h4, _⟩ := State.refreshRegister_frame { u with dict := d, halls := a, out := b } 1
  rw [h4]; rfl

theorem State.sendVector_frame (s : State) (h v : Nat) : ∃ halls out, s.sendVector h v = { s with halls, out } := by
  unfold State.sendVector; split
  · exact ⟨s.halls, s.out, rfl⟩
  · split
    · exact ⟨_, s.out, rfl⟩
    · exact ⟨s.halls, _, rfl⟩

theorem State.modLedger_frame (s : State) (h : Nat) (f : Ledger → Ledger) : ∃ halls, s.modLedger h f = { s with halls } := ⟨_, rfl⟩

theorem State.writeRecord_frame (s : State) (h : Nat) (r : Report) : ∃ halls out, s.writeRecord h r = { s with halls, out } := by
  unfold State.writeRecord; simp only; split
  · exact ⟨_, s.out, rfl⟩
  · generalize hf : (fun l : Ledger => Ledger.lastWord _ _) = f
    obtain ⟨a, ha⟩ := State.modLedger_frame s h f
    rw [ha]
    split
    · obtain ⟨c, d, h⟩ := State.sendVector_frame { s with halls := a } h (bitsOf (State.dictGet { s with halls := a } 0x5000 3) 4 0)
      exact ⟨c, d, h⟩
    · exact ⟨a, s.out, rfl⟩

/-- A report changes nothing but the Ledger of the Hall that records it, its counts, and the MSI-X message that a record may
send (R359 to R363, R446). -/
theorem State.report_frame (s : State) (cls code severity kind index household detail : Nat) :
    ∃ halls dict out, s.report cls code severity kind index household detail = { s with halls, dict, out } := by
  unfold State.report; split
  · exact ⟨s.halls, s.dict, s.out, rfl⟩
  · unfold State.reportTo; simp only
    split
    · split
      · exact ⟨_, _, s.out, rfl⟩
      · obtain ⟨a, b, h⟩ := State.writeRecord_frame _ _ _
        rw [h]; exact ⟨a, _, b, rfl⟩
    · split
      · exact ⟨_, _, s.out, rfl⟩
      · exact ⟨_, _, s.out, rfl⟩

/-- A write to HBM changes memory and the uncorrectable units alone. -/
theorem State.hbmWrite_frame (s : State) (a : Nat) (b : List Byte) : ∃ hbm badUnits, (s.hbmWrite a b).1 = { s with hbm, badUnits } := by
  unfold State.hbmWrite
  generalize unitsOf a b.length = l
  suffices ∀ (l : List Nat) (x : State × Bool), (∃ hbm badUnits, x.1 = { s with hbm, badUnits }) →
      ∃ hbm badUnits, (l.foldl (fun acc u => State.hbmWriteUnit a b u acc) x).1 = { s with hbm, badUnits } from
    this l (s, true) ⟨s.hbm, s.badUnits, rfl⟩
  intro l
  induction l with
  | nil => intro x h; exact h
  | cons u l ih =>
    intro x h
    rw [List.foldl_cons]; apply ih
    obtain ⟨y, ok⟩ := x
    obtain ⟨p, q, rfl⟩ := h
    unfold State.hbmWriteUnit
    simp only
    split
    · exact ⟨_, _, rfl⟩
    · split
      · exact ⟨_, _, rfl⟩
      · split <;> exact ⟨_, _, rfl⟩

theorem State.inject_frame (s : State) (vc cls flits : Nat) (a b : Site) (cargo : Cargo) :
    ∃ packets, s.inject vc cls flits a b cargo = { s with packets } := by
  unfold State.inject
  split <;> exact ⟨_, rfl⟩

theorem State.traffic_frame (s : State) (port lpa len : Nat) (write : Bool) (cargo : Cargo) (cls : Option Nat) :
    ∃ packets, s.traffic port lpa len write cargo cls = { s with packets } := by
  have two (v c n : Nat) (x y : Site) (g : Cargo) (v' c' n' : Nat) (x' y' : Site) (g' : Cargo) :
      ∃ packets, (s.inject v c n x y g).inject v' c' n' x' y' g' = { s with packets } := by
    obtain ⟨p, h⟩ := State.inject_frame s v c n x y g
    obtain ⟨q, h2⟩ := State.inject_frame { s with packets := p } v' c' n' x' y' g'
    exact ⟨q, by rw [h, h2]⟩
  unfold State.traffic
  simp only
  generalize State.moduleClass s = m
  generalize State.shareOf s (port % 1280) = c
  cases write <;> exact two ..

/-- A request that waits at its port changes the Corridor's packets and the regulators alone. -/
theorem State.enqueue_frame (s : State) (port lpa len : Nat) (write : Bool) (deadline : Option Nat) (cargo : Cargo)
    (cls : Option Nat) (told : Bool) :
    ∃ packets regulators, s.enqueue port lpa len write deadline cargo cls told = { s with packets, regulators } := by
  unfold State.enqueue
  simp only
  split
  · exact ⟨_, _, rfl⟩
  · obtain ⟨p, h⟩ := State.traffic_frame s port lpa len write cargo cls
    rw [h]; exact ⟨_, _, rfl⟩

theorem State.writeBackLine_frame (s : State) (r : Nat) (x : CacheLine) :
    ∃ hbm badUnits faultsDue packets regulators, s.writeBackLine r x = { s with hbm, badUnits, faultsDue, packets, regulators } := by
  unfold State.writeBackLine
  obtain ⟨k, g, h⟩ := State.enqueue_frame s (cachePort r) (x.addr * 128) 128 true none .none none true
  rw [h]
  obtain ⟨p, q, h2⟩ := State.hbmWrite_frame { s with packets := k, regulators := g } (x.addr * 128) x.data
  simp only [h2]
  split <;> exact ⟨_, _, _, _, _, rfl⟩

/-- Writing a line back changes memory, its Room's cache, the directory, the requests at its cache port and the hardware faults that
are due alone. -/
theorem State.cleanLine_frame (r : Nat) (s : State) (x : CacheLine) :
    ∃ hbm badUnits faultsDue packets regulators rooms directory,
      s.cleanLine r x = { s with hbm, badUnits, faultsDue, packets, regulators, rooms, directory } := by
  unfold State.cleanLine
  split
  · exact ⟨_, _, _, _, _, _, _, rfl⟩
  · obtain ⟨a, b, c, d, e, h⟩ := State.writeBackLine_frame s r x
    simp only [h]
    split
    · split <;> exact ⟨_, _, _, _, _, _, _, rfl⟩
    · exact ⟨_, _, _, _, _, _, _, rfl⟩

theorem State.writeBackAll_frame (s : State) (r : Nat) :
    ∃ hbm badUnits faultsDue packets regulators rooms directory,
      s.writeBackAll r = { s with hbm, badUnits, faultsDue, packets, regulators, rooms, directory } := by
  unfold State.writeBackAll
  generalize (s.room r).cache.lines.filterMap (·.2) = l
  induction l generalizing s with
  | nil => exact ⟨_, _, _, _, _, _, _, rfl⟩
  | cons x l ih =>
    rw [List.foldl_cons]
    obtain ⟨a, b, c, d, e, f, g, h⟩ := State.cleanLine_frame r s x
    obtain ⟨a', b', c', d', e', f', g', h2⟩ := ih (s.cleanLine r x)
    exact ⟨a', b', c', d', e', f', g', by rw [h2, h]⟩

theorem State.endGrout_frame (s : State) (r : Nat) : ∃ dict rooms, s.endGrout r = { s with dict, rooms } := by
  unfold State.endGrout
  split
  · exact ⟨s.dict, s.rooms, rfl⟩
  · unfold State.bump
    exact ⟨_, _, rfl⟩

theorem State.stopRoom_frame (s : State) (r : Nat) :
    ∃ dict stalls rooms regulators, s.stopRoom r = { s with dict, stalls, rooms, regulators } := by
  unfold State.stopRoom State.haltRoom
  obtain ⟨d, x, h⟩ := State.endGrout_frame s r
  rw [h]
  exact ⟨d, _, _, _, rfl⟩

end Sys2Proof.Machine
end

