-- ==== Sys2Proof/Laws/PerInstr.lean ====
section
/-! SUPPORT. A family of statements made constructor by constructor: a Foreman instruction is well formed exactly when its
Room exists. -/

namespace Sys2Proof.Laws

open Sys2Proof.Safety

/-- A Foreman instruction names one unit, its Room (R16, R79). -/
def WellFormedUnits.Statement (i : Instr) : Prop := ∀ r g, foremanOf i = some (r, g) → i.wellFormed = isRoom r

theorem WellFormedUnits.add (r : Nat) (g : Guard) (rd ra rb : BitVec 5) :
    WellFormedUnits.Statement (.add r g rd ra rb) := by intro _ _ h; cases h; rfl
theorem WellFormedUnits.sub (r : Nat) (g : Guard) (rd ra rb : BitVec 5) :
    WellFormedUnits.Statement (.sub r g rd ra rb) := by intro _ _ h; cases h; rfl
theorem WellFormedUnits.mul (r : Nat) (g : Guard) (rd ra rb : BitVec 5) :
    WellFormedUnits.Statement (.mul r g rd ra rb) := by intro _ _ h; cases h; rfl
theorem WellFormedUnits.and (r : Nat) (g : Guard) (rd ra rb : BitVec 5) :
    WellFormedUnits.Statement (.and r g rd ra rb) := by intro _ _ h; cases h; rfl
theorem WellFormedUnits.or (r : Nat) (g : Guard) (rd ra rb : BitVec 5) :
    WellFormedUnits.Statement (.or r g rd ra rb) := by intro _ _ h; cases h; rfl
theorem WellFormedUnits.xor (r : Nat) (g : Guard) (rd ra rb : BitVec 5) :
    WellFormedUnits.Statement (.xor r g rd ra rb) := by intro _ _ h; cases h; rfl
theorem WellFormedUnits.shl (r : Nat) (g : Guard) (rd ra rb : BitVec 5) :
    WellFormedUnits.Statement (.shl r g rd ra rb) := by intro _ _ h; cases h; rfl
theorem WellFormedUnits.shr (r : Nat) (g : Guard) (rd ra rb : BitVec 5) :
    WellFormedUnits.Statement (.shr r g rd ra rb) := by intro _ _ h; cases h; rfl
theorem WellFormedUnits.sra (r : Nat) (g : Guard) (rd ra rb : BitVec 5) :
    WellFormedUnits.Statement (.sra r g rd ra rb) := by intro _ _ h; cases h; rfl
theorem WellFormedUnits.addi (r : Nat) (g : Guard) (rd ra : BitVec 5) (imm : BitVec 12) :
    WellFormedUnits.Statement (.addi r g rd ra imm) := by intro _ _ h; cases h; rfl
theorem WellFormedUnits.ori (r : Nat) (g : Guard) (rd ra : BitVec 5) (imm : BitVec 12) :
    WellFormedUnits.Statement (.ori r g rd ra imm) := by intro _ _ h; cases h; rfl
theorem WellFormedUnits.shli (r : Nat) (g : Guard) (rd ra : BitVec 5) (imm : BitVec 12) :
    WellFormedUnits.Statement (.shli r g rd ra imm) := by intro _ _ h; cases h; rfl
theorem WellFormedUnits.movi (r : Nat) (g : Guard) (rd : BitVec 5) (imm : BitVec 16) :
    WellFormedUnits.Statement (.movi r g rd imm) := by intro _ _ h; cases h; rfl
theorem WellFormedUnits.cmp (r : Nat) (g : Guard) (rd ra rb : BitVec 5) (fn : BitVec 7) :
    WellFormedUnits.Statement (.cmp r g rd ra rb fn) := by intro _ _ h; cases h; rfl
theorem WellFormedUnits.cmpi (r : Nat) (g : Guard) (rd ra : BitVec 5) (imm : BitVec 12) :
    WellFormedUnits.Statement (.cmpi r g rd ra imm) := by intro _ _ h; cases h; rfl
theorem WellFormedUnits.plog (r : Nat) (g : Guard) (rd ra rb : BitVec 5) (fn : BitVec 7) :
    WellFormedUnits.Statement (.plog r g rd ra rb fn) := by intro _ _ h; cases h; rfl
theorem WellFormedUnits.br (r : Nat) (g : Guard) (off : BitVec 22) :
    WellFormedUnits.Statement (.br r g off) := by intro _ _ h; cases h; rfl
theorem WellFormedUnits.loop (r : Nat) (g : Guard) (ra : BitVec 5) (len : BitVec 12) :
    WellFormedUnits.Statement (.loop r g ra len) := by intro _ _ h; cases h; rfl
theorem WellFormedUnits.lds (r : Nat) (g : Guard) (rd ra : BitVec 5) (fn : BitVec 7) :
    WellFormedUnits.Statement (.lds r g rd ra fn) := by intro _ _ h; cases h; rfl
theorem WellFormedUnits.sts (r : Nat) (g : Guard) (ra rb : BitVec 5) (fn : BitVec 7) :
    WellFormedUnits.Statement (.sts r g ra rb fn) := by intro _ _ h; cases h; rfl
theorem WellFormedUnits.atomAdd (r : Nat) (g : Guard) (rd ra rb : BitVec 5) :
    WellFormedUnits.Statement (.atomAdd r g rd ra rb) := by intro _ _ h; cases h; rfl
theorem WellFormedUnits.atomMax (r : Nat) (g : Guard) (rd ra rb : BitVec 5) :
    WellFormedUnits.Statement (.atomMax r g rd ra rb) := by intro _ _ h; cases h; rfl
theorem WellFormedUnits.atomMin (r : Nat) (g : Guard) (rd ra rb : BitVec 5) :
    WellFormedUnits.Statement (.atomMin r g rd ra rb) := by intro _ _ h; cases h; rfl
theorem WellFormedUnits.atomOr (r : Nat) (g : Guard) (rd ra rb : BitVec 5) :
    WellFormedUnits.Statement (.atomOr r g rd ra rb) := by intro _ _ h; cases h; rfl
theorem WellFormedUnits.atomAnd (r : Nat) (g : Guard) (rd ra rb : BitVec 5) :
    WellFormedUnits.Statement (.atomAnd r g rd ra rb) := by intro _ _ h; cases h; rfl
theorem WellFormedUnits.atomSwap (r : Nat) (g : Guard) (rd ra rb : BitVec 5) :
    WellFormedUnits.Statement (.atomSwap r g rd ra rb) := by intro _ _ h; cases h; rfl
theorem WellFormedUnits.atomCas (r : Nat) (g : Guard) (rd ra rb : BitVec 5) :
    WellFormedUnits.Statement (.atomCas r g rd ra rb) := by intro _ _ h; cases h; rfl
theorem WellFormedUnits.atomFadd (r : Nat) (g : Guard) (rd ra rb : BitVec 5) :
    WellFormedUnits.Statement (.atomFadd r g rd ra rb) := by intro _ _ h; cases h; rfl
theorem WellFormedUnits.rdsr (r : Nat) (g : Guard) (rd : BitVec 5) (sel : BitVec 12) :
    WellFormedUnits.Statement (.rdsr r g rd sel) := by intro _ _ h; cases h; rfl
theorem WellFormedUnits.rung (r : Nat) (g : Guard) (rd ra : BitVec 5) (imm : BitVec 12) :
    WellFormedUnits.Statement (.rung r g rd ra imm) := by intro _ _ h; cases h; rfl
theorem WellFormedUnits.guard (r : Nat) (g : Guard) (td : BitVec 4) (rs : BitVec 5) :
    WellFormedUnits.Statement (.guard r g td rs) := by intro _ _ h; cases h; rfl
theorem WellFormedUnits.tdld (r : Nat) (g : Guard) (td : BitVec 4) (rs : BitVec 5) :
    WellFormedUnits.Statement (.tdld r g td rs) := by intro _ _ h; cases h; rfl
theorem WellFormedUnits.tdset (r : Nat) (g : Guard) (td : BitVec 4) (rs : BitVec 5) (mode : BitVec 5) :
    WellFormedUnits.Statement (.tdset r g td rs mode) := by intro _ _ h; cases h; rfl
theorem WellFormedUnits.tdadv (r : Nat) (g : Guard) (td : BitVec 4) (rs : BitVec 5) (mode : BitVec 5) :
    WellFormedUnits.Statement (.tdadv r g td rs mode) := by intro _ _ h; cases h; rfl
theorem WellFormedUnits.tload (r : Nat) (g : Guard) (td ta : BitVec 4) (rs : BitVec 5) (mode : BitVec 5) :
    WellFormedUnits.Statement (.tload r g td ta rs mode) := by intro _ _ h; cases h; rfl
theorem WellFormedUnits.tstore (r : Nat) (g : Guard) (td ta : BitVec 4) (rs : BitVec 5) (mode : BitVec 5) :
    WellFormedUnits.Statement (.tstore r g td ta rs mode) := by intro _ _ h; cases h; rfl
theorem WellFormedUnits.dmaget (r : Nat) (g : Guard) (td ta : BitVec 4) (mode : BitVec 5) :
    WellFormedUnits.Statement (.dmaget r g td ta mode) := by intro _ _ h; cases h; rfl
theorem WellFormedUnits.dmaput (r : Nat) (g : Guard) (td ta : BitVec 4) (mode : BitVec 5) :
    WellFormedUnits.Statement (.dmaput r g td ta mode) := by intro _ _ h; cases h; rfl
theorem WellFormedUnits.dmawait (r : Nat) (g : Guard) (imm : BitVec 16) :
    WellFormedUnits.Statement (.dmawait r g imm) := by intro _ _ h; cases h; rfl
theorem WellFormedUnits.dmaTransferComplete (r k : Nat) :
    WellFormedUnits.Statement (.dmaTransferComplete r k) := by intro _ _ h; cases h
theorem WellFormedUnits.mma (r : Nat) (g : Guard) (td ta tb : BitVec 4) (mode : BitVec 5) :
    WellFormedUnits.Statement (.mma r g td ta tb mode) := by intro _ _ h; cases h; rfl
theorem WellFormedUnits.fold (r : Nat) (g : Guard) (td : BitVec 4) :
    WellFormedUnits.Statement (.fold r g td) := by intro _ _ h; cases h; rfl
theorem WellFormedUnits.vec (r : Nat) (g : Guard) (rs : BitVec 5) :
    WellFormedUnits.Statement (.vec r g rs) := by intro _ _ h; cases h; rfl
theorem WellFormedUnits.upld (r : Nat) (g : Guard) (ta : BitVec 4) (rs : BitVec 5) :
    WellFormedUnits.Statement (.upld r g ta rs) := by intro _ _ h; cases h; rfl
theorem WellFormedUnits.conva (r : Nat) (g : Guard) (td ta tb : BitVec 4) (mode : BitVec 5) :
    WellFormedUnits.Statement (.conva r g td ta tb mode) := by intro _ _ h; cases h; rfl
theorem WellFormedUnits.convt (r : Nat) (g : Guard) (td ta : BitVec 4) (mode : BitVec 5) :
    WellFormedUnits.Statement (.convt r g td ta mode) := by intro _ _ h; cases h; rfl
theorem WellFormedUnits.gsend (r : Nat) (g : Guard) (ta : BitVec 4) (rs : BitVec 5) (mode : BitVec 5) :
    WellFormedUnits.Statement (.gsend r g ta rs mode) := by intro _ _ h; cases h; rfl
theorem WellFormedUnits.grecv (r : Nat) (g : Guard) (td : BitVec 4) (rs : BitVec 5) (mode : BitVec 5) :
    WellFormedUnits.Statement (.grecv r g td rs mode) := by intro _ _ h; cases h; rfl
theorem WellFormedUnits.gwait (r : Nat) (g : Guard) (imm : BitVec 16) :
    WellFormedUnits.Statement (.gwait r g imm) := by intro _ _ h; cases h; rfl
theorem WellFormedUnits.signal (r : Nat) (g : Guard) (ra rb : BitVec 5) :
    WellFormedUnits.Statement (.signal r g ra rb) := by intro _ _ h; cases h; rfl
theorem WellFormedUnits.wait (r : Nat) (g : Guard) (ra rb : BitVec 5) :
    WellFormedUnits.Statement (.wait r g ra rb) := by intro _ _ h; cases h; rfl
theorem WellFormedUnits.barrier (r : Nat) (g : Guard) (imm : BitVec 12) :
    WellFormedUnits.Statement (.barrier r g imm) := by intro _ _ h; cases h; rfl
theorem WellFormedUnits.barrierRelease (suite copy n : Nat) :
    WellFormedUnits.Statement (.barrierRelease suite copy n) := by intro _ _ h; cases h
theorem WellFormedUnits.course (r : Nat) (g : Guard) (imm : BitVec 16) :
    WellFormedUnits.Statement (.course r g imm) := by intro _ _ h; cases h; rfl
theorem WellFormedUnits.digest (r : Nat) (g : Guard) (ra : BitVec 5) :
    WellFormedUnits.Statement (.digest r g ra) := by intro _ _ h; cases h; rfl
theorem WellFormedUnits.commit (r : Nat) (g : Guard) :
    WellFormedUnits.Statement (.commit r g) := by intro _ _ h; cases h; rfl
theorem WellFormedUnits.plumb (r : Nat) (g : Guard) (td ta tb : BitVec 4) :
    WellFormedUnits.Statement (.plumb r g td ta tb) := by intro _ _ h; cases h; rfl
theorem WellFormedUnits.uopNop (r : Nat) :
    WellFormedUnits.Statement (.uopNop r) := by intro _ _ h; cases h
theorem WellFormedUnits.uopFma (r : Nat) (d a b c : BitVec 6) (mod : BitVec 4) (count : BitVec 8) :
    WellFormedUnits.Statement (.uopFma r d a b c mod count) := by intro _ _ h; cases h
theorem WellFormedUnits.uopAdd (r : Nat) (d a b : BitVec 6) (mod : BitVec 4) (count : BitVec 8) :
    WellFormedUnits.Statement (.uopAdd r d a b mod count) := by intro _ _ h; cases h
theorem WellFormedUnits.uopMul (r : Nat) (d a b : BitVec 6) (mod : BitVec 4) (count : BitVec 8) :
    WellFormedUnits.Statement (.uopMul r d a b mod count) := by intro _ _ h; cases h
theorem WellFormedUnits.uopMax (r : Nat) (d a b : BitVec 6) (mod : BitVec 4) (count : BitVec 8) :
    WellFormedUnits.Statement (.uopMax r d a b mod count) := by intro _ _ h; cases h
theorem WellFormedUnits.uopMin (r : Nat) (d a b : BitVec 6) (mod : BitVec 4) (count : BitVec 8) :
    WellFormedUnits.Statement (.uopMin r d a b mod count) := by intro _ _ h; cases h
theorem WellFormedUnits.uopFunc (r : Nat) (d a : BitVec 6) (mod : BitVec 4) (count : BitVec 8) :
    WellFormedUnits.Statement (.uopFunc r d a mod count) := by intro _ _ h; cases h
theorem WellFormedUnits.uopIadd (r : Nat) (d a b : BitVec 6) (mod : BitVec 4) (count : BitVec 8) :
    WellFormedUnits.Statement (.uopIadd r d a b mod count) := by intro _ _ h; cases h
theorem WellFormedUnits.uopImul (r : Nat) (d a b : BitVec 6) (mod : BitVec 4) (count : BitVec 8) :
    WellFormedUnits.Statement (.uopImul r d a b mod count) := by intro _ _ h; cases h
theorem WellFormedUnits.uopIcvt (r : Nat) (d a : BitVec 6) (mod : BitVec 4) (count : BitVec 8) :
    WellFormedUnits.Statement (.uopIcvt r d a mod count) := by intro _ _ h; cases h
theorem WellFormedUnits.uopLd (r : Nat) (d a : BitVec 6) (mod : BitVec 4) (haddr : BitVec 14) (count : BitVec 8) :
    WellFormedUnits.Statement (.uopLd r d a mod haddr count) := by intro _ _ h; cases h
theorem WellFormedUnits.uopSt (r : Nat) (d a : BitVec 6) (mod : BitVec 4) (haddr : BitVec 14) (count : BitVec 8) :
    WellFormedUnits.Statement (.uopSt r d a mod haddr count) := by intro _ _ h; cases h
theorem WellFormedUnits.uopSel (r : Nat) (d a b c : BitVec 6) (mod : BitVec 4) (count : BitVec 8) :
    WellFormedUnits.Statement (.uopSel r d a b c mod count) := by intro _ _ h; cases h
theorem WellFormedUnits.uopLane (r : Nat) (d : BitVec 6) (mod : BitVec 4) :
    WellFormedUnits.Statement (.uopLane r d mod) := by intro _ _ h; cases h
theorem WellFormedUnits.uopLoop (r : Nat) (count target : BitVec 8) :
    WellFormedUnits.Statement (.uopLoop r count target) := by intro _ _ h; cases h
theorem WellFormedUnits.uopEnd (r : Nat) :
    WellFormedUnits.Statement (.uopEnd r) := by intro _ _ h; cases h
theorem WellFormedUnits.gutterPieceReduce (suite copy tree round node piece : Nat) :
    WellFormedUnits.Statement (.gutterPieceReduce suite copy tree round node piece) := by intro _ _ h; cases h
theorem WellFormedUnits.descriptorFetch (ctx queue : Nat) :
    WellFormedUnits.Statement (.descriptorFetch ctx queue) := by intro _ _ h; cases h
theorem WellFormedUnits.waitRecheck (ctx queue : Nat) :
    WellFormedUnits.Statement (.waitRecheck ctx queue) := by intro _ _ h; cases h
theorem WellFormedUnits.configurationLanding (suite : Nat) :
    WellFormedUnits.Statement (.configurationLanding suite) := by intro _ _ h; cases h
theorem WellFormedUnits.roomWhitewashComplete (r : Nat) (pass : Bool) :
    WellFormedUnits.Statement (.roomWhitewashComplete r pass) := by intro _ _ h; cases h
theorem WellFormedUnits.dispatchLanding (suite : Nat) :
    WellFormedUnits.Statement (.dispatchLanding suite) := by intro _ _ h; cases h
theorem WellFormedUnits.pairedSettingsWait (suite : Nat) :
    WellFormedUnits.Statement (.pairedSettingsWait suite) := by intro _ _ h; cases h
theorem WellFormedUnits.commitLanding (suite : Nat) :
    WellFormedUnits.Statement (.commitLanding suite) := by intro _ _ h; cases h
theorem WellFormedUnits.markerPublish (ctx queue : Nat) :
    WellFormedUnits.Statement (.markerPublish ctx queue) := by intro _ _ h; cases h
theorem WellFormedUnits.sliceExpiry (suite : Nat) :
    WellFormedUnits.Statement (.sliceExpiry suite) := by intro _ _ h; cases h
theorem WellFormedUnits.kill (q : Chan) (suite : Nat) :
    WellFormedUnits.Statement (.kill q suite) := by intro _ _ h; cases h
theorem WellFormedUnits.ctxRequest (q : Chan) (hh : Nat) (w : W64) :
    WellFormedUnits.Statement (.ctxRequest q hh w) := by intro _ _ h; cases h
theorem WellFormedUnits.retry (q : Chan) (ctx : Nat) :
    WellFormedUnits.Statement (.retry q ctx) := by intro _ _ h; cases h
theorem WellFormedUnits.skip (q : Chan) (ctx : Nat) :
    WellFormedUnits.Statement (.skip q ctx) := by intro _ _ h; cases h
theorem WellFormedUnits.queueOpen (q : Chan) (ctx : Nat) (w : W64) :
    WellFormedUnits.Statement (.queueOpen q ctx w) := by intro _ _ h; cases h
theorem WellFormedUnits.queueClose (q : Chan) (ctx : Nat) (queue : Byte) :
    WellFormedUnits.Statement (.queueClose q ctx queue) := by intro _ _ h; cases h
theorem WellFormedUnits.close (q : Chan) (ctx : Nat) :
    WellFormedUnits.Statement (.close q ctx) := by intro _ _ h; cases h
theorem WellFormedUnits.tailDoorbell (hall ctx queue size : Nat) (v : W32) :
    WellFormedUnits.Statement (.tailDoorbell hall ctx queue size v) := by intro _ _ h; cases h
theorem WellFormedUnits.replay (hall ctx size : Nat) (version : Byte) (seq : W32) :
    WellFormedUnits.Statement (.replay hall ctx size version seq) := by intro _ _ h; cases h
theorem WellFormedUnits.abort (hall ctx size : Nat) (version : Byte) (seq : W32) :
    WellFormedUnits.Statement (.abort hall ctx size version seq) := by intro _ _ h; cases h
theorem WellFormedUnits.vectorUnmask (hall vec : Nat) :
    WellFormedUnits.Statement (.vectorUnmask hall vec) := by intro _ _ h; cases h
theorem WellFormedUnits.bar4Access (hall off len : Nat) (data : Option (List Byte)) :
    WellFormedUnits.Statement (.bar4Access hall off len data) := by intro _ _ h; cases h
theorem WellFormedUnits.ptRoot (q : Chan) (hh : Nat) (w : W64) :
    WellFormedUnits.Statement (.ptRoot q hh w) := by intro _ _ h; cases h
theorem WellFormedUnits.tlbInval (q : Chan) (hh : Nat) (w : W64) :
    WellFormedUnits.Statement (.tlbInval q hh w) := by intro _ _ h; cases h
theorem WellFormedUnits.pageWalk (port ctx va : Nat) (write : Bool) :
    WellFormedUnits.Statement (.pageWalk port ctx va write) := by intro _ _ h; cases h
theorem WellFormedUnits.faultRecordWrite (hh : Nat) :
    WellFormedUnits.Statement (.faultRecordWrite hh) := by intro _ _ h; cases h
theorem WellFormedUnits.faultqBase (q : Chan) (hh : Nat) (w : W64) :
    WellFormedUnits.Statement (.faultqBase q hh w) := by intro _ _ h; cases h
theorem WellFormedUnits.faultTimeout (port : Nat) :
    WellFormedUnits.Statement (.faultTimeout port) := by intro _ _ h; cases h
theorem WellFormedUnits.windowAdd (q : Chan) (hh : Nat) (data : List Byte) :
    WellFormedUnits.Statement (.windowAdd q hh data) := by intro _ _ h; cases h
theorem WellFormedUnits.windowRemove (q : Chan) (hh : Nat) (idx : BitVec 16) :
    WellFormedUnits.Statement (.windowRemove q hh idx) := by intro _ _ h; cases h
theorem WellFormedUnits.remoteAccessArrival (acc : RemoteAccess) :
    WellFormedUnits.Statement (.remoteAccessArrival acc) := by intro _ _ h; cases h
theorem WellFormedUnits.windowRefusal (k : Nat) :
    WellFormedUnits.Statement (.windowRefusal k) := by intro _ _ h; cases h
theorem WellFormedUnits.activate (q : Chan) (hh : Nat) :
    WellFormedUnits.Statement (.activate q hh) := by intro _ _ h; cases h
theorem WellFormedUnits.deactivate (q : Chan) (hh : Nat) :
    WellFormedUnits.Statement (.deactivate q hh) := by intro _ _ h; cases h
theorem WellFormedUnits.grant (q : Chan) (hh : Nat) (w : W64) :
    WellFormedUnits.Statement (.grant q hh w) := by intro _ _ h; cases h
theorem WellFormedUnits.withdraw (q : Chan) (hh : Nat) (w : W64) :
    WellFormedUnits.Statement (.withdraw q hh w) := by intro _ _ h; cases h
theorem WellFormedUnits.washPage (stack : Nat) :
    WellFormedUnits.Statement (.washPage stack) := by intro _ _ h; cases h
theorem WellFormedUnits.suiteRequest (q : Chan) (hh : Nat) (w : W32) :
    WellFormedUnits.Statement (.suiteRequest q hh w) := by intro _ _ h; cases h
theorem WellFormedUnits.suiteRelease (q : Chan) (hh : Nat) (suite : Byte) :
    WellFormedUnits.Statement (.suiteRelease q hh suite) := by intro _ _ h; cases h
theorem WellFormedUnits.roomAdd (q : Chan) (suite : Nat) (data : List Byte) :
    WellFormedUnits.Statement (.roomAdd q suite data) := by intro _ _ h; cases h
theorem WellFormedUnits.roomRemove (q : Chan) (suite : Nat) (v : BitVec 16) :
    WellFormedUnits.Statement (.roomRemove q suite v) := by intro _ _ h; cases h
theorem WellFormedUnits.roomMove (q : Chan) (suite : Nat) (w : W32) :
    WellFormedUnits.Statement (.roomMove q suite w) := by intro _ _ h; cases h
theorem WellFormedUnits.groupBind (q : Chan) (suite : Nat) (v : BitVec 16) :
    WellFormedUnits.Statement (.groupBind q suite v) := by intro _ _ h; cases h
theorem WellFormedUnits.groupUnbind (q : Chan) (suite : Nat) (v : BitVec 16) :
    WellFormedUnits.Statement (.groupUnbind q suite v) := by intro _ _ h; cases h
theorem WellFormedUnits.portBind (q : Chan) (suite : Nat) (port : BitVec 5) :
    WellFormedUnits.Statement (.portBind q suite port) := by intro _ _ h; cases h
theorem WellFormedUnits.portUnbind (q : Chan) (suite : Nat) (port : BitVec 5) :
    WellFormedUnits.Statement (.portUnbind q suite port) := by intro _ _ h; cases h
theorem WellFormedUnits.atFreezePoint (q : Chan) (hh : Nat) :
    WellFormedUnits.Statement (.atFreezePoint q hh) := by intro _ _ h; cases h
theorem WellFormedUnits.atNextBoundary (q : Chan) (hh : Nat) :
    WellFormedUnits.Statement (.atNextBoundary q hh) := by intro _ _ h; cases h
theorem WellFormedUnits.thaw (q : Chan) (hh : Nat) :
    WellFormedUnits.Statement (.thaw q hh) := by intro _ _ h; cases h
theorem WellFormedUnits.save (q : Chan) (hh : Nat) (w : W64) :
    WellFormedUnits.Statement (.save q hh w) := by intro _ _ h; cases h
theorem WellFormedUnits.restore (q : Chan) (hh : Nat) (w : W64) :
    WellFormedUnits.Statement (.restore q hh w) := by intro _ _ h; cases h
theorem WellFormedUnits.release (q : Chan) (suite : Nat) :
    WellFormedUnits.Statement (.release q suite) := by intro _ _ h; cases h
theorem WellFormedUnits.registerWrite (q : Chan) (target : Target) (data : List Byte) :
    WellFormedUnits.Statement (.registerWrite q target data) := by intro _ _ h; cases h
theorem WellFormedUnits.upload (q : Chan) (index sub : Nat) :
    WellFormedUnits.Statement (.upload q index sub) := by intro _ _ h; cases h
theorem WellFormedUnits.wholeIndexUpload (q : Chan) (index : Nat) :
    WellFormedUnits.Statement (.wholeIndexUpload q index) := by intro _ _ h; cases h
theorem WellFormedUnits.windowGo (hall n : Nat) :
    WellFormedUnits.Statement (.windowGo hall n) := by intro _ _ h; cases h
theorem WellFormedUnits.usdoFrame (hall node : Nat) (f : Frame) :
    WellFormedUnits.Statement (.usdoFrame hall node f) := by intro _ _ h; cases h
theorem WellFormedUnits.tunnelRequest (version plane node household : Nat) (f : Frame) :
    WellFormedUnits.Statement (.tunnelRequest version plane node household f) := by intro _ _ h; cases h
theorem WellFormedUnits.tunnelTimeout (hall n : Nat) :
    WellFormedUnits.Statement (.tunnelTimeout hall n) := by intro _ _ h; cases h
theorem WellFormedUnits.segmentTimeout (q : Chan) :
    WellFormedUnits.Statement (.segmentTimeout q) := by intro _ _ h; cases h
theorem WellFormedUnits.notPermittedAnswer (k : Nat) :
    WellFormedUnits.Statement (.notPermittedAnswer k) := by intro _ _ h; cases h
theorem WellFormedUnits.nmtResetApplication (hall : Nat) :
    WellFormedUnits.Statement (.nmtResetApplication hall) := by intro _ _ h; cases h
theorem WellFormedUnits.nmtResetCommunication (hall : Nat) :
    WellFormedUnits.Statement (.nmtResetCommunication hall) := by intro _ _ h; cases h
theorem WellFormedUnits.heartbeat (hall : Nat) :
    WellFormedUnits.Statement (.heartbeat hall) := by intro _ _ h; cases h
theorem WellFormedUnits.sleepRequest (q : Chan) :
    WellFormedUnits.Statement (.sleepRequest q) := by intro _ _ h; cases h
theorem WellFormedUnits.wakePin :
    WellFormedUnits.Statement .wakePin := by intro _ _ h; cases h
theorem WellFormedUnits.canWakeFrame (hall : Nat) :
    WellFormedUnits.Statement (.canWakeFrame hall) := by intro _ _ h; cases h
theorem WellFormedUnits.pcieWake (hall : Nat) :
    WellFormedUnits.Statement (.pcieWake hall) := by intro _ _ h; cases h
theorem WellFormedUnits.hearthAlarm :
    WellFormedUnits.Statement .hearthAlarm := by intro _ _ h; cases h
theorem WellFormedUnits.thermalWake :
    WellFormedUnits.Statement .thermalWake := by intro _ _ h; cases h
theorem WellFormedUnits.powerUpStep (good : Bool) :
    WellFormedUnits.Statement (.powerUpStep good) := by intro _ _ h; cases h
theorem WellFormedUnits.roomSwitchGroup (floor : Nat) (failed : List Nat) :
    WellFormedUnits.Statement (.roomSwitchGroup floor failed) := by intro _ _ h; cases h
theorem WellFormedUnits.powerSample (hall mV mA : Nat) :
    WellFormedUnits.Statement (.powerSample hall mV mA) := by intro _ _ h; cases h
theorem WellFormedUnits.capTick :
    WellFormedUnits.Statement .capTick := by intro _ _ h; cases h
theorem WellFormedUnits.powerBrakeAssert :
    WellFormedUnits.Statement .powerBrakeAssert := by intro _ _ h; cases h
theorem WellFormedUnits.powerBrakeRelease :
    WellFormedUnits.Statement .powerBrakeRelease := by intro _ _ h; cases h
theorem WellFormedUnits.currentSample (floor peak mean : Nat) :
    WellFormedUnits.Statement (.currentSample floor peak mean) := by intro _ _ h; cases h
theorem WellFormedUnits.phaseLoss (floor : Nat) :
    WellFormedUnits.Statement (.phaseLoss floor) := by intro _ _ h; cases h
theorem WellFormedUnits.droopDetect (r : Nat) :
    WellFormedUnits.Statement (.droopDetect r) := by intro _ _ h; cases h
theorem WellFormedUnits.droopRelease (r : Nat) :
    WellFormedUnits.Statement (.droopRelease r) := by intro _ _ h; cases h
theorem WellFormedUnits.thermalSensorChange (sensor : Sensor) (half : Int) :
    WellFormedUnits.Statement (.thermalSensorChange sensor half) := by intro _ _ h; cases h
theorem WellFormedUnits.thermalShutdown :
    WellFormedUnits.Statement .thermalShutdown := by intro _ _ h; cases h
theorem WellFormedUnits.settlementMeasure (floor worst : Nat) (short : Bool) :
    WellFormedUnits.Statement (.settlementMeasure floor worst short) := by intro _ _ h; cases h
theorem WellFormedUnits.roomDozeEntry (r : Nat) :
    WellFormedUnits.Statement (.roomDozeEntry r) := by intro _ _ h; cases h
theorem WellFormedUnits.roomClockGate (r : Nat) :
    WellFormedUnits.Statement (.roomClockGate r) := by intro _ _ h; cases h
theorem WellFormedUnits.courseDigestCompare (suite : Nat) (larger : List Bool) :
    WellFormedUnits.Statement (.courseDigestCompare suite larger) := by intro _ _ h; cases h
theorem WellFormedUnits.courseOverrun (r : Nat) :
    WellFormedUnits.Statement (.courseOverrun r) := by intro _ _ h; cases h
theorem WellFormedUnits.spareLoadComplete (r : Nat) :
    WellFormedUnits.Statement (.spareLoadComplete r) := by intro _ _ h; cases h
theorem WellFormedUnits.hallLease (hall : Nat) :
    WellFormedUnits.Statement (.hallLease hall) := by intro _ _ h; cases h
theorem WellFormedUnits.hallLeaseTimeout (hall : Nat) :
    WellFormedUnits.Statement (.hallLeaseTimeout hall) := by intro _ _ h; cases h
theorem WellFormedUnits.hallRejoin :
    WellFormedUnits.Statement .hallRejoin := by intro _ _ h; cases h
theorem WellFormedUnits.pairLease (port epoch : Nat) :
    WellFormedUnits.Statement (.pairLease port epoch) := by intro _ _ h; cases h
theorem WellFormedUnits.pairLeaseTimeout :
    WellFormedUnits.Statement .pairLeaseTimeout := by intro _ _ h; cases h
theorem WellFormedUnits.arbiterGrant :
    WellFormedUnits.Statement .arbiterGrant := by intro _ _ h; cases h
theorem WellFormedUnits.arbiterWithdraw :
    WellFormedUnits.Statement .arbiterWithdraw := by intro _ _ h; cases h
theorem WellFormedUnits.islandModeEntry :
    WellFormedUnits.Statement .islandModeEntry := by intro _ _ h; cases h
theorem WellFormedUnits.pairRejoin :
    WellFormedUnits.Statement .pairRejoin := by intro _ _ h; cases h
theorem WellFormedUnits.linkDown (link : Nat) :
    WellFormedUnits.Statement (.linkDown link) := by intro _ _ h; cases h
theorem WellFormedUnits.reintegrationSelfTest (u : UnitRef) (pass : Bool) (dead : List Nat) :
    WellFormedUnits.Statement (.reintegrationSelfTest u pass dead) := by intro _ _ h; cases h
theorem WellFormedUnits.ledgerRecord (hall : Nat) :
    WellFormedUnits.Statement (.ledgerRecord hall) := by intro _ _ h; cases h
theorem WellFormedUnits.stormEnd (hall : Nat) :
    WellFormedUnits.Statement (.stormEnd hall) := by intro _ _ h; cases h
theorem WellFormedUnits.tallyFire (kind : Nat) (u : UnitRef) :
    WellFormedUnits.Statement (.tallyFire kind u) := by intro _ _ h; cases h
theorem WellFormedUnits.rungComplete (rung : Nat) (u : UnitRef) :
    WellFormedUnits.Statement (.rungComplete rung u) := by intro _ _ h; cases h
theorem WellFormedUnits.rungTimeout (rung : Nat) (u : UnitRef) :
    WellFormedUnits.Statement (.rungTimeout rung u) := by intro _ _ h; cases h
theorem WellFormedUnits.moduleReset (q : Chan) :
    WellFormedUnits.Statement (.moduleReset q) := by intro _ _ h; cases h
theorem WellFormedUnits.wardenMismatch (hall : Nat) :
    WellFormedUnits.Statement (.wardenMismatch hall) := by intro _ _ h; cases h
theorem WellFormedUnits.wardenRungOverdue (hall : Nat) :
    WellFormedUnits.Statement (.wardenRungOverdue hall) := by intro _ _ h; cases h
theorem WellFormedUnits.failSilent (hall : Nat) :
    WellFormedUnits.Statement (.failSilent hall) := by intro _ _ h; cases h
theorem WellFormedUnits.lcAdvance (q : Chan) (data : List Byte) :
    WellFormedUnits.Statement (.lcAdvance q data) := by intro _ _ h; cases h
theorem WellFormedUnits.lcAdvanceReset :
    WellFormedUnits.Statement .lcAdvanceReset := by intro _ _ h; cases h
theorem WellFormedUnits.openHouseChallenge (q : Chan) :
    WellFormedUnits.Statement (.openHouseChallenge q) := by intro _ _ h; cases h
theorem WellFormedUnits.challengeExpiry :
    WellFormedUnits.Statement .challengeExpiry := by intro _ _ h; cases h
theorem WellFormedUnits.openHouseResponse (q : Chan) (data : List Byte) :
    WellFormedUnits.Statement (.openHouseResponse q data) := by intro _ _ h; cases h
theorem WellFormedUnits.getVersion (via : SpdmVia) (version : Byte) :
    WellFormedUnits.Statement (.getVersion via version) := by intro _ _ h; cases h
theorem WellFormedUnits.getCapabilities (via : SpdmVia) (version : Byte) :
    WellFormedUnits.Statement (.getCapabilities via version) := by intro _ _ h; cases h
theorem WellFormedUnits.negotiateAlgorithms (via : SpdmVia) (version : Byte) :
    WellFormedUnits.Statement (.negotiateAlgorithms via version) := by intro _ _ h; cases h
theorem WellFormedUnits.getDigests (via : SpdmVia) (version : Byte) :
    WellFormedUnits.Statement (.getDigests via version) := by intro _ _ h; cases h
theorem WellFormedUnits.getCertificate (via : SpdmVia) (version : Byte) (slot offset len : Nat) :
    WellFormedUnits.Statement (.getCertificate via version slot offset len) := by intro _ _ h; cases h
theorem WellFormedUnits.challenge (via : SpdmVia) (version : Byte) (slot : Nat) (nonce : List Byte) :
    WellFormedUnits.Statement (.challenge via version slot nonce) := by intro _ _ h; cases h
theorem WellFormedUnits.getMeasurements (via : SpdmVia) (version : Byte) (index slot : Nat) (nonce : List Byte) :
    WellFormedUnits.Statement (.getMeasurements via version index slot nonce) := by intro _ _ h; cases h
theorem WellFormedUnits.latchOpen (q : Chan) (hh : Nat) (data : List Byte) :
    WellFormedUnits.Statement (.latchOpen q hh data) := by intro _ _ h; cases h
theorem WellFormedUnits.latchRelease (q : Chan) (hh : Nat) (data : List Byte) :
    WellFormedUnits.Statement (.latchRelease q hh data) := by intro _ _ h; cases h
theorem WellFormedUnits.slotClear (q : Chan) (hh : Nat) (slot : Byte) :
    WellFormedUnits.Statement (.slotClear q hh slot) := by intro _ _ h; cases h
theorem WellFormedUnits.blobDecrypt (q : Chan) (hh : Nat) (data : List Byte) :
    WellFormedUnits.Statement (.blobDecrypt q hh data) := by intro _ _ h; cases h
theorem WellFormedUnits.blobDecryptDone (hh : Nat) :
    WellFormedUnits.Statement (.blobDecryptDone hh) := by intro _ _ h; cases h
theorem WellFormedUnits.tamperEvent (hall sensor : Nat) :
    WellFormedUnits.Statement (.tamperEvent hall sensor) := by intro _ _ h; cases h
theorem WellFormedUnits.bringupStage (hall : Nat) (report : StageReport) :
    WellFormedUnits.Statement (.bringupStage hall report) := by intro _ _ h; cases h
theorem WellFormedUnits.stageTimeout (hall : Nat) :
    WellFormedUnits.Statement (.stageTimeout hall) := by intro _ _ h; cases h
theorem WellFormedUnits.svcEn (hall : Nat) (low : Bool) :
    WellFormedUnits.Statement (.svcEn hall low) := by intro _ _ h; cases h
theorem WellFormedUnits.inputSwitchOpen :
    WellFormedUnits.Statement .inputSwitchOpen := by intro _ _ h; cases h
theorem WellFormedUnits.inputRestore :
    WellFormedUnits.Statement .inputRestore := by intro _ _ h; cases h
theorem WellFormedUnits.brownOut (enter : Bool) :
    WellFormedUnits.Statement (.brownOut enter) := by intro _ _ h; cases h
theorem WellFormedUnits.presenceLoss :
    WellFormedUnits.Statement .presenceLoss := by intro _ _ h; cases h
theorem WellFormedUnits.perstAssert (hall : Nat) :
    WellFormedUnits.Statement (.perstAssert hall) := by intro _ _ h; cases h
theorem WellFormedUnits.perstDeassert (hall : Nat) :
    WellFormedUnits.Statement (.perstDeassert hall) := by intro _ _ h; cases h
theorem WellFormedUnits.mortarLinkTrain (port : Nat) (peer : MortarPeer) :
    WellFormedUnits.Statement (.mortarLinkTrain port peer) := by intro _ _ h; cases h
theorem WellFormedUnits.mortarFlitReceive (port : Nat) (flit : Flit) :
    WellFormedUnits.Statement (.mortarFlitReceive port flit) := by intro _ _ h; cases h
theorem WellFormedUnits.nodePlaneWrite (q : Chan) (plane : Bool) (v : BitVec 16) :
    WellFormedUnits.Statement (.nodePlaneWrite q plane v) := by intro _ _ h; cases h
theorem WellFormedUnits.ingestFrame (port : Nat) (frame : AvtpFrame) :
    WellFormedUnits.Statement (.ingestFrame port frame) := by intro _ _ h; cases h
theorem WellFormedUnits.timeMessage :
    WellFormedUnits.Statement .timeMessage := by intro _ _ h; cases h
theorem WellFormedUnits.timeSourceLost :
    WellFormedUnits.Statement .timeSourceLost := by intro _ _ h; cases h
theorem WellFormedUnits.timePps :
    WellFormedUnits.Statement .timePps := by intro _ _ h; cases h
theorem WellFormedUnits.portRegulatorIssue (port : Nat) :
    WellFormedUnits.Statement (.portRegulatorIssue port) := by intro _ _ h; cases h
theorem WellFormedUnits.congestionPublish (stack : Nat) :
    WellFormedUnits.Statement (.congestionPublish stack) := by intro _ _ h; cases h
theorem WellFormedUnits.pcSchedule (pc : Nat) :
    WellFormedUnits.Statement (.pcSchedule pc) := by intro _ _ h; cases h
theorem WellFormedUnits.hbmRefresh (pc : Nat) :
    WellFormedUnits.Statement (.hbmRefresh pc) := by intro _ _ h; cases h
theorem WellFormedUnits.hbmAccessComplete (pc : Nat) (result : HbmResult) :
    WellFormedUnits.Statement (.hbmAccessComplete pc result) := by intro _ _ h; cases h
theorem WellFormedUnits.patrolScrub (stack : Nat) :
    WellFormedUnits.Statement (.patrolScrub stack) := by intro _ _ h; cases h
theorem WellFormedUnits.gets (r line : Nat) :
    WellFormedUnits.Statement (.gets r line) := by intro _ _ h; cases h
theorem WellFormedUnits.getm (r line : Nat) :
    WellFormedUnits.Statement (.getm r line) := by intro _ _ h; cases h
theorem WellFormedUnits.putm (r line : Nat) :
    WellFormedUnits.Statement (.putm r line) := by intro _ _ h; cases h
theorem WellFormedUnits.pute (r line : Nat) :
    WellFormedUnits.Statement (.pute r line) := by intro _ _ h; cases h
theorem WellFormedUnits.puts (r line : Nat) :
    WellFormedUnits.Statement (.puts r line) := by intro _ _ h; cases h
theorem WellFormedUnits.done (r line : Nat) :
    WellFormedUnits.Statement (.done r line) := by intro _ _ h; cases h
theorem WellFormedUnits.fwdGets (r line : Nat) :
    WellFormedUnits.Statement (.fwdGets r line) := by intro _ _ h; cases h
theorem WellFormedUnits.fwdGetm (r line : Nat) :
    WellFormedUnits.Statement (.fwdGetm r line) := by intro _ _ h; cases h
theorem WellFormedUnits.recall (r line : Nat) :
    WellFormedUnits.Statement (.recall r line) := by intro _ _ h; cases h
theorem WellFormedUnits.inv (r line : Nat) :
    WellFormedUnits.Statement (.inv r line) := by intro _ _ h; cases h
theorem WellFormedUnits.data (r line : Nat) :
    WellFormedUnits.Statement (.data r line) := by intro _ _ h; cases h
theorem WellFormedUnits.invAck (r line : Nat) :
    WellFormedUnits.Statement (.invAck r line) := by intro _ _ h; cases h
theorem WellFormedUnits.fwdAck (r line : Nat) :
    WellFormedUnits.Statement (.fwdAck r line) := by intro _ _ h; cases h
theorem WellFormedUnits.nack (r line : Nat) :
    WellFormedUnits.Statement (.nack r line) := by intro _ _ h; cases h
theorem WellFormedUnits.nackRetry (r line : Nat) :
    WellFormedUnits.Statement (.nackRetry r line) := by intro _ _ h; cases h
theorem WellFormedUnits.putAck (r line : Nat) :
    WellFormedUnits.Statement (.putAck r line) := by intro _ _ h; cases h
theorem WellFormedUnits.uncachedAccess (lpa len : Nat) (kind : AccKind) :
    WellFormedUnits.Statement (.uncachedAccess lpa len kind) := by intro _ _ h; cases h
theorem WellFormedUnits.linkUp (link rate width : Nat) :
    WellFormedUnits.Statement (.linkUp link rate width) := by intro _ _ h; cases h
theorem WellFormedUnits.lineDown :
    WellFormedUnits.Statement .lineDown := by intro _ _ h; cases h
theorem WellFormedUnits.floorPowerGoodLoss (floor : Nat) :
    WellFormedUnits.Statement (.floorPowerGoodLoss floor) := by intro _ _ h; cases h
theorem WellFormedUnits.phaseRestore (floor : Nat) :
    WellFormedUnits.Statement (.phaseRestore floor) := by intro _ _ h; cases h
theorem WellFormedUnits.canErrorState (hall : Nat) (st : CanState) :
    WellFormedUnits.Statement (.canErrorState hall st) := by intro _ _ h; cases h
theorem WellFormedUnits.nmtStateCommand (hall : Nat) (st : NmtState) :
    WellFormedUnits.Statement (.nmtStateCommand hall st) := by intro _ _ h; cases h
theorem WellFormedUnits.pcieCompletion (hall addr len : Nat) (c : Completion) :
    WellFormedUnits.Statement (.pcieCompletion hall addr len c) := by intro _ _ h; cases h
theorem WellFormedUnits.pcieCompletionTimeout (hall addr : Nat) :
    WellFormedUnits.Statement (.pcieCompletionTimeout hall addr) := by intro _ _ h; cases h
theorem WellFormedUnits.remoteResponseTimeout (k : Nat) :
    WellFormedUnits.Statement (.remoteResponseTimeout k) := by intro _ _ h; cases h
theorem WellFormedUnits.saveDone (hh cause : Nat) :
    WellFormedUnits.Statement (.saveDone hh cause) := by intro _ _ h; cases h
theorem WellFormedUnits.restoreDone (hh cause : Nat) :
    WellFormedUnits.Statement (.restoreDone hh cause) := by intro _ _ h; cases h
theorem WellFormedUnits.timeSyncExchange (source : Nat) (offset : Int) :
    WellFormedUnits.Statement (.timeSyncExchange source offset) := by intro _ _ h; cases h

end Sys2Proof.Laws
end

