-- ==== Sys2Proof/Tests/Slice0.lean ====
section
/-! SUPPORT. The model's own tests: an ill-formed term for each check, words written out from the manual's encodings, single
commands on small states, and for every statement with hypotheses a state and operands that meet them. -/

namespace Sys2Proof.Tests

open Sys2Proof.Machine Sys2Proof.Safety

-- The tests are checked one after another: side by side, their threads wait for one another and take much memory.
set_option Elab.async false

/-! ### Well-formedness: each check refuses a term that names no unit of the module, and takes the last one that it has -/

theorem test_wf_rooms_and_halls : (Instr.wellFormed (.commit 1280 ⟨false, 0⟩) = false ∧
    Instr.wellFormed (.commit 1279 ⟨false, 0⟩) = true) ∧
    (Instr.wellFormed (.heartbeat 2) = false ∧ Instr.wellFormed (.heartbeat 1) = true) ∧
    (Instr.wellFormed (.washPage 4) = false ∧ Instr.wellFormed (.washPage 3) = true) ∧
    (Instr.wellFormed (.hbmRefresh 128) = false ∧ Instr.wellFormed (.hbmRefresh 127) = true) ∧
    (Instr.wellFormed (.hbmAccessComplete 0 (.corrected 36)) = false ∧
      Instr.wellFormed (.hbmAccessComplete 0 (.corrected 35)) = true) := by decide

theorem test_wf_suites_and_contexts : (Instr.wellFormed (.dispatchLanding 256) = false ∧
    Instr.wellFormed (.dispatchLanding 255) = true) ∧
    (Instr.wellFormed (.waitRecheck 4096 0) = false ∧ Instr.wellFormed (.waitRecheck 4095 16) = false ∧
      Instr.wellFormed (.waitRecheck 4095 15) = true) ∧
    (Instr.wellFormed (.activate .own 0) = false ∧ Instr.wellFormed (.activate .own 64) = false ∧
      Instr.wellFormed (.activate .own 63) = true) ∧
    (Instr.wellFormed (.barrierRelease 0 2 0) = false ∧ Instr.wellFormed (.barrierRelease 255 1 15) = true) := by decide

theorem test_wf_ports_and_links : (Instr.wellFormed (.portRegulatorIssue 2571) = false ∧
    Instr.wellFormed (.portRegulatorIssue 2592) = false ∧ Instr.wellFormed (.portRegulatorIssue 2586) = true) ∧
    (Instr.wellFormed (.pairLease 12 0) = false ∧ Instr.wellFormed (.pairLease 11 0) = true) ∧
    (Instr.wellFormed (.ingestFrame 4 ⟨0, none, []⟩) = false ∧ Instr.wellFormed (.ingestFrame 3 ⟨0, none, []⟩) = true) ∧
    (Instr.wellFormed (.linkDown 12) = false ∧ Instr.wellFormed (.linkDown 41) = false ∧
      Instr.wellFormed (.linkDown 40) = true) ∧
    (Instr.wellFormed (.vectorUnmask 1 2048) = false ∧ Instr.wellFormed (.vectorUnmask 1 2047) = true) := by decide

theorem test_wf_errors_and_channels : (Instr.wellFormed (.rungTimeout 6 (.room 0)) = false ∧
    Instr.wellFormed (.rungTimeout 0 (.room 0)) = false ∧ Instr.wellFormed (.rungTimeout 5 (.brick 327680)) = false ∧
    Instr.wellFormed (.rungTimeout 5 (.brick 327679)) = true) ∧
    (Instr.wellFormed (.tallyFire 10 (.room 0)) = false ∧ Instr.wellFormed (.tallyFire 9 (.copyEngine 1)) = true) ∧
    (Instr.wellFormed (.tamperEvent 0 6) = false ∧ Instr.wellFormed (.tamperEvent 0 5) = true) ∧
    (Instr.wellFormed (.timeSyncExchange 5 0) = false ∧ Instr.wellFormed (.timeSyncExchange 4 0) = true) ∧
    (Instr.wellFormed (.saveDone 1 7) = false ∧ Instr.wellFormed (.saveDone 1 6) = true) ∧
    (Instr.wellFormed (.upload (.can 0 128) 0 0) = false ∧ Instr.wellFormed (.upload (.can 1 127) 0 0) = true) ∧
    (Instr.wellFormed (.registerWrite .own (.bar0 0 65536) []) = false ∧
      Instr.wellFormed (.registerWrite .own (.bar0 0 65535) []) = true) ∧
    (Instr.wellFormed (.thermalSensorChange (.junction 0 64) 0) = false ∧
      Instr.wellFormed (.thermalSensorChange (.junction 3 63) 0) = true) ∧
    (Instr.wellFormed (.gutterPieceReduce 0 0 4096 0 0 0) = false ∧
      Instr.wellFormed (.gutterPieceReduce 0 0 4095 0 1023 4095) = true) ∧
    (Instr.wellFormed (.getVersion (.dict .own 64) 0) = false ∧ Instr.wellFormed (.getVersion (.doe 1) 0) = true) := by decide

/-! ### Words of the Foreman, written out from R79 to R81, and of the micro-program store, from R106 and R107 -/

theorem test_decode_scalar : decodeForeman 7 0b00000100000000100010000110000000#32 = some (.add 7 ⟨false, 0⟩ 1 2 3) ∧
    decodeForeman 7 0b01100100000000000000000000000000#32 = none ∧
    decodeForeman 7 0b00101010101111100001111111111111#32 = some (.addi 7 ⟨true, 2⟩ 31 1 0xFFF) ∧
    decodeForeman 7 0b00110100000001000000000000000101#32 = some (.movi 7 ⟨false, 0⟩ 2 5) ∧
    decodeForeman 7 0#32 = none := by decide

theorem test_decode_control : decodeForeman 0 0b01000100001111111111111111111110#32 = some (.br 0 ⟨false, 0⟩ 0x3FFFFE) ∧
    decodeForeman 0 0b01001000000010000000000000000011#32 = some (.loop 0 ⟨false, 0⟩ 4 3) ∧
    decodeForeman 0 0b00111000000000000001000100100000#32 = some (.cmp 0 ⟨false, 0⟩ 0 1 2 0x20) ∧
    decodeForeman 0 0b01010100000000100010000110101000#32 = some (.atomSwap 0 ⟨false, 0⟩ 1 2 3) ∧
    decodeForeman 0 0b01010100000000100010000111000000#32 = none := by decide

theorem test_decode_tiles : decodeForeman 0 0b10100000000001001000110000011000#32 = some (.mma 0 ⟨false, 0⟩ 1 2 3 0x18) ∧
    decodeForeman 0 0b10010100000001001000000000000011#32 = some (.dmaget 0 ⟨false, 0⟩ 1 2 3) ∧
    decodeForeman 0 0b10101000000000000000000010100000#32 = some (.vec 0 ⟨false, 0⟩ 5) ∧
    decodeForeman 0 0b10110000000001001000110000000010#32 = some (.conva 0 ⟨false, 0⟩ 1 2 3 2) ∧
    decodeForeman 0 0b11101100000001001000110000000000#32 = some (.plumb 0 ⟨false, 0⟩ 1 2 3) := by decide

theorem test_decode_waits : decodeForeman 0 0b11000000000000001000000001100001#32 = some (.gsend 0 ⟨false, 0⟩ 2 3 1) ∧
    decodeForeman 0 0b11001100000000000001000100000000#32 = some (.signal 0 ⟨false, 0⟩ 1 2) ∧
    decodeForeman 0 0b11010100000000000000000000001111#32 = some (.barrier 0 ⟨false, 0⟩ 15) ∧
    decodeForeman 0 0b11100000000000000000000000000001#32 = some (.course 0 ⟨false, 0⟩ 1) ∧
    decodeForeman 0 0b11101000000000000000000000000000#32 = some (.commit 0 ⟨false, 0⟩) := by decide

theorem test_decode_micro :
    decodeMicro 0x0410C40000000200#64 = some (.fma 1 3 4 0 0 2) ∧ decodeMicro 0x2800000000100300#64 = some (.ld 0 0 0 16 3) ∧
    decodeMicro 0x3800000000000105#64 = some (.loop 1 5) ∧ decodeMicro 0x3C00000000000000#64 = some .done ∧
    decodeMicro 0x4000000000000000#64 = none := by decide

/-- The opcode table gives its rows no bits. -/
theorem test_no_table_words : decodeTableWord 32 0x04022180 = none ∧ (State.reset.withFetchWord 32 0x04022180).pending = [] := by
  decide

/-! ### Single commands on small states -/

/-- A module whose Room 0 runs a program and belongs to no Suite. -/
def roomZero (f : Foreman) : State := { rooms := [(0, { foreman := { f with run := .running } })] }
/-- The guard p0: always executes. -/
def always : Guard := ⟨false, 0⟩
/-- A number read from the state that a command answers; none where it stops. -/
def seen {α : Type} (f : State → α) : Host.Outcome State Fault Refusal → Option α
  | .next t => some (f t)
  | _ => none
def reg (k : BitVec 5) (t : State) : W64 := (t.room 0).foreman.reg k
def pcOfZero (t : State) : Nat := (t.room 0).foreman.pc
def runOfZero (t : State) : RunState := (t.room 0).foreman.run

theorem test_add_wraps :
    seen (reg 1) (exec (.add 0 always 1 2 3) (roomZero { s := [(2, 0xFFFFFFFFFFFFFFFF#64), (3, 2)] })) = some 1 := by decide
theorem test_sub_own_source : seen (reg 2) (exec (.sub 0 always 2 2 3) (roomZero { s := [(2, 5), (3, 7)] })) =
    some 0xFFFFFFFFFFFFFFFE#64 := by decide
theorem test_write_to_s0_is_discarded : seen (reg 0) (exec (.movi 0 always 0 5) (roomZero {})) = some 0 ∧
    seen pcOfZero (exec (.movi 0 always 0 5) (roomZero {})) = some 1 := by decide
theorem test_movi_extends_sign : seen (reg 4) (exec (.movi 0 always 4 0x8000) (roomZero {})) =
    some 0xFFFFFFFFFFFF8000#64 := by decide
theorem test_ori_does_not : seen (reg 4) (exec (.ori 0 always 4 0 0x800) (roomZero {})) = some 0x800 := by decide
theorem test_sra_by_65_shifts_by_1 : seen (reg 1) (exec (.sra 0 always 1 2 3)
    (roomZero { s := [(2, 0x8000000000000000#64), (3, 65)] })) = some 0xC000000000000000#64 := by decide
theorem test_cmp_signed_and_unsigned :
    seen (fun t => (t.room 0).foreman.pred 1) (exec (.cmp 0 always 1 2 3 0x20) (roomZero { s := [(2, 0xFFFFFFFFFFFFFFFF#64), (3, 1)] })) =
      some false ∧
    seen (fun t => (t.room 0).foreman.pred 1) (exec (.cmp 0 always 1 2 3 0x40) (roomZero { s := [(2, 0xFFFFFFFFFFFFFFFF#64), (3, 1)] })) =
      some true := by decide
theorem test_false_guard : seen (reg 1) (exec (.movi 0 ⟨false, 1⟩ 1 5) (roomZero {})) = some 0 ∧
    seen (reg 1) (exec (.movi 0 ⟨true, 1⟩ 1 5) (roomZero {})) = some 5 := by decide
theorem test_branch_back : seen pcOfZero (exec (.br 0 always 0x3FFFFF) (roomZero { pc := 4 })) = some 3 := by decide
theorem test_loop_opens_and_repeats :
    seen (fun t => (t.room 0).foreman.loops) (exec (.loop 0 always 1 2) (roomZero { s := [(1, 3)] })) = some [⟨1, 2, 3⟩] ∧
    seen pcOfZero (exec (.movi 0 always 0 0) (roomZero { pc := 2, loops := [⟨1, 2, 3⟩] })) = some 1 ∧
    seen pcOfZero (exec (.movi 0 always 0 0) (roomZero { pc := 2, loops := [⟨1, 2, 1⟩] })) = some 3 := by decide
theorem test_fifth_loop_faults : seen runOfZero (exec (.loop 0 always 1 2)
    (roomZero { s := [(1, 1)], loops := List.replicate 4 ⟨0, 9, 2⟩ })) = some (.faulted 0x0A) := by decide
theorem test_program_store_ends : seen runOfZero (exec (.movi 0 always 1 5) (roomZero { pc := 4095 })) = some (.faulted 0x04) := by
  decide
theorem test_reserved_selector : seen runOfZero (exec (.rdsr 0 always 1 11) (roomZero {})) = some (.faulted 0x01) := by decide
theorem test_store_is_little_endian :
    seen (fun t => Store.range 0 (t.room 0).pantry 8 4) (exec (.sts 0 always 1 2 0x20) (roomZero { s := [(1, 8), (2, 0x11223344)] })) =
      some [0x44, 0x33, 0x22, 0x11] := by decide
theorem test_load_misaligned : seen runOfZero (exec (.lds 0 always 1 2 0x30) (roomZero { s := [(2, 4)] })) = some (.faulted 0x05) := by
  decide
theorem test_load_past_the_pantry : seen runOfZero (exec (.lds 0 always 1 2 0x00) (roomZero { s := [(2, 0x100000)] })) =
    some (.faulted 0x04) := by decide
theorem test_tdset_layer : seen (fun t => ((t.room 0).foreman.desc 3).layer) (exec (.tdset 0 always 3 1 5) (roomZero { s := [(1, 0x1234)] })) =
    some 0x234 := by decide
theorem test_tdset_reserved : seen runOfZero (exec (.tdset 0 always 3 1 8) (roomZero {})) = some (.faulted 0x01) := by decide
theorem test_xorshift : xorshift 1 = 0x0000000040822041#64 := by decide
theorem test_fp32_add_ties_to_even : fp32Add 0x4B800000#32 0x3F800000#32 = 0x4B800000#32 ∧
    fp32Add 0x7F7FFFFF#32 0x7F7FFFFF#32 = 0x7F800000#32 ∧ fp32Add 0x00000000#32 0x80000000#32 = 0#32 ∧
    fp32Add 0x7F800000#32 0xFF800000#32 = 0x7FC00000#32 := by decide
theorem test_uop_iadd_wraps : seen (fun t => Store.get 0 (((t.room 0).brick 0).acc) 2)
    (exec (.uopIadd 0 2 0 1 0 0) (State.modSuite (State.setCtx { roomZero {} with rooms := [(0, {
      foreman := { run := .running }, member := some ⟨0, 0, 0, false⟩, bricks := [(0, { acc := [(0, 0xFFFFFFFF#32), (1, 3)] })] })] } 0 none) 0
      fun x => { x with step := some { ctx := 0, queue := 0, count := 0, dispatched := 0, det := false, lanes := 16, nrooms := 1, cacheBytes := 0
                                       desc := parseStep [] } })) = some 2 := by decide
theorem test_uop_end_of_store : seen runOfZero (exec (.uopNop 0) { rooms := [(0, { foreman := { run := .running }, micro := { pc := 255 } })] }) =
    some (.faulted 0x09) := by decide

/-! ### States and operands that meet the hypotheses of the statements -/

/-- A step of 16 lanes in deterministic mode, from context 0. -/
def someStep : Step :=
  { ctx := 0, queue := 0, count := 0, desc := parseStep [], dispatched := 0, det := true, lanes := 16, nrooms := 1, cacheBytes := 65536
    ladder := [{ curRung := 1, maxRung := 3, plumbRate := 0, ctrl := 0xF0 }] }
/-- A module in service: household 1 is ACTIVE, Suite 0 of it runs the step in Room 0, context 0 is OPEN, and virtual page 0
of the context is page 4 of HBM, for the Porters of Floor 0 and of both Halls. -/
def inService (x : Room) : State :=
  { rooms := [(0, { x with member := some ⟨0, 0, 0, false⟩, power := .clocked, foreman := { x.foreman with run := .running } })]
    suites := [(0, { st := .active, owner := 1, rooms := [(some 0, none)], present := (true, false), step := some someStep })]
    contexts := [(0, some { household := 1, suite := 0, pasid := 7, home := 0, serving := 0
                            queues := [(0, { st := .opened, blocked := false })] })]
    households := [(1, { st := .active })]
    tlb := [⟨0, 0, 0, 4096, 16384, true, false⟩, ⟨4, 0, 0, 4096, 16384, true, false⟩, ⟨5, 0, 0, 4096, 16384, true, false⟩]
    power := { st := .active }
    ready := true
    floors := [(0, { powerGood := true })]
    halls := [(0, { hostUp := true, up := { stage := 10 } }), (1, { hostUp := true, up := { stage := 10 } })] }
/-- A tile of version 1, layer 0 and tile 0, packed rows 16 bytes apart. -/
def tileOf (fmt space rows cols base : Nat) : Desc :=
  descOf (2 ^ 56 + fmt * 2 ^ 51 + space * 2 ^ 48) base 0 (rows * 2 ^ 48 + cols * 2 ^ 32 + 2 ^ 16 + rows)

theorem witness_StepRunsFront : ({ pending := [.wakePin, .capTick] } : State).pending = .wakePin :: [.capTick] := by decide
theorem witness_UnitsRefused : Instr.wellFormed (.plumb 1280 always 0 0 0) = false ∧
    Instr.wellFormed (.plumb 1279 always 0 0 0) = true := by decide
theorem witness_StepKeepsQueueOk : QueueOk State.reset ∧ QueueOk { pending := [.commit 1279 always, .heartbeat 1] } := by
  unfold QueueOk; decide
theorem witness_FalseGuardIsNoOperation : foremanOf (.commit 0 ⟨true, 0⟩) = some (0, ⟨true, 0⟩) ∧ isRoom 0 = true ∧
    ((roomZero { pc := 4094 }).room 0).foreman.run = .running ∧
    ((roomZero { pc := 4094 }).room 0).foreman.guarded ⟨true, 0⟩ = false ∧ GoesOn (roomZero { pc := 4094 }) 0 ∧
    (State.reset.room 0).foreman.run ≠ .running := by unfold GoesOn; decide
theorem witness_ForemanWordsRoundTrip : encodeForeman (.commit 0 always) = some 0xE8000000#32 := by decide
theorem witness_RegisterFiles : RegistersOk {} ∧ RegistersOk { s := [(31, 5)], t := [(15, ⟨1⟩)], p := [(7, true)] } := by
  unfold RegistersOk; decide
theorem witness_ArithmeticResults : Executes (roomZero { pc := 4094 }) 0 always ∧ GoesOn (roomZero { pc := 4094 }) 0 := by
  unfold Executes GoesOn; decide
theorem witness_PredicateResults : Executes (roomZero {}) 0 always ∧ GoesOn (roomZero {}) 0 ∧ (0x5F : BitVec 7).toNat / 16 < 6 := by
  unfold Executes GoesOn; decide
theorem witness_LoopRules : Executes (roomZero { pc := 4094 }) 0 always ∧
    (((roomZero { pc := 4094 }).room 0).foreman.pc : Int) + (1 : BitVec 22).toInt = 4095 ∧
    (((roomZero { pc := 4094 }).room 0).foreman.pc : Int) + (2 : BitVec 22).toInt = 4096 ∧
    ((roomZero { loops := List.replicate 4 ⟨0, 9, 2⟩ }).room 0).foreman.loops.length = 4 ∧
    ((roomZero { pc := 4094, s := [(1, 1)] }).room 0).foreman.reg 1 ≠ 0 ∧ ((roomZero {}).room 0).foreman.reg 1 = 0 ∧
    (leaveLoops (((roomZero {}).room 0).foreman.pc + 4094) ((roomZero {}).room 0).foreman.loops).2 = 4095 ∧
    ¬ GoesOn (roomZero { pc := 4095 }) 0 ∧ ((roomZero { pc := 4095 }).room 0).foreman.guarded ⟨true, 0⟩ = false := by
  unfold Executes GoesOn; decide
theorem witness_SpecialRegisters : Executes (inService {}) 0 always ∧ GoesOn (inService {}) 0 ∧
    (inService {}).stepOf 0 = some someStep ∧ (inService {}).special 0 9 = some 0 ∧ (inService {}).special 0 11 = none ∧
    (inService {}).det 0 = true ∧ (roomZero {}).det 0 = false ∧
    someStep.ladder[(((inService {}).room 0).foreman.reg 0 + (0 : BitVec 12).signExtend 64).toNat % 4096]? =
      some { curRung := 1, maxRung := 3, plumbRate := 0, ctrl := 0xF0 } ∧
    (inService {}).stepOf 0 = (inService {}).stepOf 0 := by unfold Executes GoesOn; decide
theorem witness_LoadStore : Executes (roomZero { s := [(1, 0xFFFF8)] }) 0 always ∧ GoesOn (roomZero { s := [(1, 0xFFFF8)] }) 0 ∧
    (2 ^ ((0x30 : BitVec 7).toNat / 16 % 4) = 8 ∧ (0x30 : BitVec 7).getLsbD 6 = false ∧ 0xFFFF8 % 8 = 0 ∧
      0xFFFF8 + 8 ≤ 0x100000 - (roomZero { s := [(1, 0xFFFF8)] }).portion 0) ∧
    0xFFFFC % 8 ≠ 0 ∧ 0x100000 - (inService {}).portion 0 < 0xEFFF8 + 16 ∧
    Store.wf (0 : Byte) ((roomZero {}).room 0).pantry = true := by unfold Executes GoesOn; decide

/-- Room 0 in service with line 128, the one of virtual address 0, held in M. -/
def cached : State := inService { cache := { lines := [(0, some ⟨128, .m, List.replicate 128 0⟩)] } }
theorem witness_AtomicOperations : Executes cached 0 always ∧ GoesOn cached 0 ∧ cached.det 0 = true ∧ (roomZero {}).det 0 = false ∧
    ((cached.portAccess 0 0 8 (.atomic 4 0 0)).1 = .ok (List.replicate 8 0) ∧
      ((cached.portAccess 0 0 8 (.atomic 4 0 0)).2.room 0).foreman = (cached.room 0).foreman) ∧
    ((cached.portAccess 0 0 8 (.signal 0)).1 = .ok (List.replicate 8 0) ∧
      ((cached.portAccess 0 0 8 (.signal 0)).2.room 0).foreman = (cached.room 0).foreman) ∧
    ((cached.portAccess 0 0 8 (.await 0)).1 = .ok (List.replicate 8 0) ∧
      ((cached.portAccess 0 0 8 (.await 0)).2.room 0).foreman = (cached.room 0).foreman) ∧
    (0x54000078#32).extractLsb' 26 6 = 0x15 ∧ ((0x54000078#32).extractLsb' 3 4).toNat = 15 ∧
    ((0x54000038#32).extractLsb' 3 4).toNat = 7 := by unfold Executes GoesOn; decide
theorem witness_DescriptorRegisters : Executes (roomZero { s := [(1, 0xFFFE0)] }) 0 always ∧
    GoesOn (roomZero { s := [(1, 0xFFFE0)] }) 0 ∧ 0xFFFE0 % 32 = 0 ∧
    0xFFFE0 + 32 ≤ 0x100000 - (roomZero { s := [(1, 0xFFFE0)] }).portion 0 ∧
    (tdset {} (7 : BitVec 5).toNat 31).isSome = true ∧ 8 ≤ (8 : BitVec 5).toNat := by unfold Executes GoesOn; decide

/-- Room 0 in service with tile descriptors and scalars. -/
def withTiles (t : Store Desc) (s : Store W64) : State := inService { foreman := { t, s } }
/-- A Pantry tile, a Hod tile, device memory and an accumulator block of the same shape. -/
def tiles : State := withTiles [(0, tileOf 0x02 0 1 16 0), (1, tileOf 0x02 1 1 16 0), (2, tileOf 0x02 2 1 16 0)] [(1, 15)]
theorem witness_TileMoves : Executes tiles 0 always ∧ GoesOn tiles 0 ∧
    moveFault ((tiles.room 0).foreman.desc 0) ((tiles.room 0).foreman.desc 1) ((0 : BitVec 5).toNat / 8) (tiles.lanes 0)
      (tiles.portion 0) 15 = none ∧
    moveFault ((tiles.room 0).foreman.desc 0) ((tiles.room 0).foreman.desc 1) ((0x10 : BitVec 5).toNat / 8) (tiles.lanes 0)
      (tiles.portion 0) 0 = none ∧ (0x08 : BitVec 5).toNat / 8 < 2 := by unfold Executes GoesOn; decide

/-- Room 0 with one transfer in each direction under way. -/
def moving (isGet : Bool) : State :=
  let s := tiles
  s.modRoom 0 fun x => { x with dma := [{ isGet, tag := 15, pantry := tileOf 0x02 0 1 16 0, device := tileOf 0x02 2 1 16 0, ctx := 0 }] }
theorem witness_RoomDma : Executes tiles 0 always ∧ GoesOn tiles 0 ∧
    dmaFault ((tiles.room 0).foreman.desc 0) ((tiles.room 0).foreman.desc 2) (tiles.portion 0) = none ∧
    (∀ x ∈ (tiles.room 0).dma, (0xFFFF : BitVec 16).getLsbD x.tag = false) ∧
    (∃ x ∈ ((moving true).room 0).dma, (0x8000 : BitVec 16).getLsbD x.tag = true) ∧
    (tiles.room 0).dma[0]? = none ∧
    ((moving true).readMany (dmaPort 0) 0 (tileOf 0x02 2 1 16 0).ranges false).1 = .ok (List.replicate 16 0) ∧
    (moving false).listener 0 = false ∧ (moving false).hitsEvent (dmaPort 0) 0 (tileOf 0x02 2 1 16 0).ranges = false ∧
    ((moving false).writeMany (dmaPort 0) 0 (tileOf 0x02 2 1 16 0).ranges (List.replicate 16 0) false).1 = .ok () ∧
    ((roomZero {}).room 0).foreman.run = .running ∧ (roomZero {}).suiteOf 0 = none := by unfold Executes GoesOn; decide

/-- Room 0 in service with an accumulator block (I8 products), its operands, and a Pantry destination. -/
def macState : State := withTiles [(0, tileOf 0x08 3 1 1 63), (1, tileOf 0x02 0 1 16 0), (2, tileOf 0x02 1 1 16 0),
  (3, tileOf 0x02 0 16 1 0), (4, tileOf 0x02 0 16 1 0x400), (5, tileOf 0x08 3 9 9 0), (6, tileOf 0x02 2 1 16 0)] [(1, 255)]
/-- The same Room with 16 open guard slots of other keys. -/
def slotsFull : State := macState.modRoom 0 fun x =>
  { x with course := { x.course with slots := (List.range 16).map fun k => { layer := 1, tile := k } } }
theorem witness_MatrixCompletes : Executes macState 0 always ∧ GoesOn macState 0 ∧
    mmaFault ((macState.room 0).foreman.desc 0) ((macState.room 0).foreman.desc 1) ((macState.room 0).foreman.desc 2) false
      (macState.portion 0) = none ∧ ((macState.room 0).course.openSlot 0 0).isSome = true ∧
    foldFault ((macState.room 0).foreman.desc 0) (macState.portion 0) = none ∧
    Executes slotsFull 0 always ∧ (∀ x ∈ (slotsFull.room 0).course.slots, ¬ (x.layer = 0 ∧ x.tile = 0 ∧ x.isOpen = true)) ∧
    ((slotsFull.room 0).course.slots.filter (·.isOpen)).length = 16 ∧
    convtFault ((slotsFull.room 0).foreman.desc 3) ((slotsFull.room 0).foreman.desc 4) 0x10 (slotsFull.portion 0) = none := by
  unfold Executes GoesOn; decide
theorem witness_MatrixLane : Store.wf (0 : W32) ({ acc := [(63, 1)] } : Brick).acc = true := by decide
theorem witness_FoldRule : Executes macState 0 always ∧
    (((macState.room 0).foreman.desc 3).check (macState.portion 0) = none ∧ ((macState.room 0).foreman.desc 3).space ≠ 3) ∧
    (((macState.room 0).foreman.desc 5).check (macState.portion 0) = none ∧ ((macState.room 0).foreman.desc 5).space = 3 ∧
      ((macState.room 0).foreman.desc 5).fmt = 0x08 ∧ 64 < 0 + 9 * 9) ∧ (tileOf 0x07 3 1 1 0).fmt = 0x07 ∧
    Store.wf ({} : Brick) [(15, { acc := [(63, 1)] })] = true := by unfold Executes; decide
theorem witness_ConversionsComplete : Executes macState 0 always ∧ GoesOn macState 0 ∧
    convaFault ((macState.room 0).foreman.desc 3) ((macState.room 0).foreman.desc 0) ((macState.room 0).foreman.desc 4) 0x10
      (macState.lanes 0) (macState.portion 0) = none ∧ ((macState.room 0).course.openSlot 0 0).isSome = true ∧
    convtFault ((macState.room 0).foreman.desc 3) ((macState.room 0).foreman.desc 4) 0 (macState.portion 0) = none ∧
    ((tileOf 0x02 0 1 1 0).check (macState.portion 0) = none ∧ ((macState.room 0).foreman.reg 1).toNat % 256 + 1 ≤ 256 ∧
      0 + 8 * 1 ≤ 0x100000 - macState.portion 0) ∧
    Store.wf (0 : W64) (macState.room 0).microStore = true := by unfold Executes GoesOn; decide

/-- A tile of layer 0 stored in this Course, with its activations and its reference weights in device memory; the layer's
PLUMB_RATE, and its reference format FP8 E4M3. -/
def plumbState (rate : Nat) (slots : List GuardSlot) : State :=
  let s := withTiles [(0, tileOf 0x02 0 1 16 0), (1, tileOf 0x02 0 1 16 0), (2, tileOf 0x03 2 16 16 0)] []
  (s.modRoom 0 fun x => { x with course := { x.course with slots } }).modStep 0 fun st =>
    { st with ladder := [{ plumbRate := rate, refFmt := 0x03 }] }
theorem witness_PlumbChecks : Executes (plumbState 0 []) 0 always ∧ GoesOn (plumbState 0 []) 0 ∧
    ((plumbState 0 []).room 0).course.slots.all (·.isOpen) = true ∧
    (tileOf 0x02 0 1 16 0).check ((plumbState 0 []).portion 0) = none ∧
    ((plumbState 15 [{ layer := 0, tile := 0, isOpen := false }]).ladder? 0 0).map (·.plumbRate) = some 15 ∧
    (((plumbState 0 [{ layer := 0, tile := 0, isOpen := false }]).room 0).course.slot? 0 0).map (·.isOpen) = some false ∧
    plumbFault (tileOf 0x02 0 1 16 0) (tileOf 0x02 0 1 16 0) (tileOf 0x03 2 16 16 0) { plumbRate := 0, refFmt := 0x03 } 16 65536 =
      none ∧ plumbSampled 0 0 0 0 = true ∧ plumbSampled 0 0 5 12 = false ∧
    ((plumbState 0 []).readMany (dmaPort 0) 0 ((List.range 16).map fun n => (16 * n, 16)) false).1 =
      .ok (List.replicate 256 0) := by unfold Executes GoesOn; decide +kernel
theorem witness_StepUpTriggers : someStep.ladder[0]? = some { curRung := 1, maxRung := 3, plumbRate := 0, ctrl := 0xF0 } ∧
    ({ curRung := 3, maxRung := 3, ctrl := 0xC0 } : LadderEntry).fires { breaches := 1 } = true ∧
    ({ curRung := 2, maxRung := 3, ctrl := 0xA0 } : LadderEntry).fires { sat := 1 } = true ∧
    ({ ctrl := 0x70 } : LadderEntry).fires { sat := 1, poison := 1, breaches := 1 } = false := by decide

theorem witness_MicroArithmetic : isRoom 1279 = true ∧ ((roomZero {}).room 0).foreman.run = .running ∧
    ((roomZero {}).room 0).micro.next.isOk = true ∧ (holding 0 0 62).fits 1 = true ∧ (holding 1 0 63).fits 255 = true ∧
    (62 : BitVec 6).toNat + (1 : BitVec 8).toNat ≤ 63 ∧ (5 : BitVec 4).toNat ≤ 5 := by decide
theorem witness_MicroUnaryAndHod : ((roomZero {}).room 0).micro.next.isOk = true ∧ (funcOf 9).isSome = true ∧
    (icvtOf 2).isSome = true ∧ (63 : BitVec 6).toNat + (0 : BitVec 8).toNat ≤ 63 ∧
    ((inService {}).room 0).hodFaults 16 0 0x2FFC 0 0 = none := by decide
theorem witness_MicroSequence : ((roomZero {}).room 0).micro.pc < (1 : BitVec 8).toNat ∧
    ((roomZero {}).room 0).micro.loops.length < 2 ∧ (0 : BitVec 8).toNat ≤ ((roomZero {}).room 0).micro.pc ∧
    ((roomZero {}).room 0).foreman.guarded always = true ∧ GoesOn (roomZero {}) 0 ∧
    (Room.runMicro 0 microFuel { (roomZero {}).room 0 with microStore := [(255, 0x3C00000000000000#64)], micro := ⟨255, [], true⟩ }).isOk =
      true := by unfold GoesOn; decide
theorem witness_MicroFaults : 63 < (63 : BitVec 6).toNat + (1 : BitVec 8).toNat ∧ 9 < (10 : BitVec 4).toNat ∧
    2 < (3 : BitVec 4).toNat ∧ 5 < (6 : BitVec 4).toNat ∧ ((inService {}).room 0).hodFaults 16 0 0x3000 0 0 = some 0x04 ∧
    ((inService {}).room 0).hodFaults 16 0 2 0 0 = some 0x05 := by decide

/-- Room 0 in service with a one-node Gutter tree of 64-byte contributions. -/
def treed (rounds : List GutterRound) (gutter : List GutterOp) : State :=
  let s := withTiles [(0, tileOf 0x07 0 1 16 0)] []
  ((s.modRoom 0 fun x => { x with gutter }).modSuite 0 ({ · with rounds })).modStep 0 fun st =>
    { st with trees := [(0, { fmt := 0x07, op := 0, bytes := 64, nodes := [⟨0, 0, 0, true, true, 0, 0, true⟩] })] }
/-- A contribution that has arrived, and the send that brought it. -/
def arrived : GutterRound := { copy := 0, tree := 0, round := 0, order := some false, inputs := [(0, List.replicate 64 0)], arrived := [0] }
def sending : GutterOp := { isSend := true, tree := 0, round := 0, tile := tileOf 0x07 0 1 16 0, order := false, piecesLeft := 1 }
theorem witness_GutterSend : Executes (treed [] []) 0 always ∧ GoesOn (treed [] []) 0 ∧ (treed [] []).suiteOf 0 = some 0 ∧
    gutterFault (tileOf 0x07 0 1 16 0) ((treed [] []).tree 0 0) (((treed [] []).tree 0 0).localNode ((treed [] []).ordinalOf 0)).isSome
      false ((treed [] []).det 0) ((treed [] []).portion 0) = none ∧ (treed [] []).listener 0 = false ∧
    (((treed [] []).suite 0).round 0 0 0).order = none := by unfold Executes GoesOn; decide
theorem witness_GutterReceiveAndWait : Executes (treed [arrived] []) 0 always ∧ GoesOn (treed [arrived] []) 0 ∧
    gutterFault (tileOf 0x07 0 1 16 0) ((treed [arrived] []).tree 0 0) (((treed [arrived] []).tree 0 0).receives 0) false
      ((treed [arrived] []).det 0) ((treed [arrived] []).portion 0) = none ∧
    (((treed [arrived] []).suite 0).round 0 0 0).order = some false ∧ ((treed [arrived] []).room 0).gutter = [] ∧
    (((treed [arrived] []).suite 0).round 0 0 0).whole ((treed [arrived] []).tree 0 0) 0 = false ∧
    (((treed [arrived] []).deliver 0 0 0).room 0).foreman.run = .running ∧
    (∃ x ∈ ((treed [arrived] [sending]).room 0).gutter, bitOf ((1 : BitVec 16).toNat % 256) (x.tree % 8) = true) := by
  unfold Executes GoesOn; decide
theorem witness_GutterReduce : isSuite 0 = true ∧ isCopy 0 = true ∧ isTree 0 0 0 = true ∧
    ((treed [arrived] [sending]).tree 0 0).nodes[0]? = some ⟨0, 0, 0, true, true, 0, 0, true⟩ ∧
    nodeInputs (((treed [] []).suite 0).round 0 0 0) ((treed [] []).tree 0 0) 0 0 = none ∧
    nodeInputs arrived ((treed [arrived] [sending]).tree 0 0) 0 0 = some [List.replicate 64 0] ∧
    0 < ((treed [arrived] [sending]).tree 0 0).pieces ∧ arrived.out 0 0 = none ∧
    (treed [arrived] [sending]).sendAtHead 0 0 0 0 0 = true := by decide

theorem witness_CourseBoundary : Executes (inService {}) 0 always ∧ GoesOn (inService {}) 0 ∧ ((inService {}).room 0).quiet = true ∧
    (∀ x ∈ ((inService {}).room 0).course.slots, x.isOpen = false) ∧ (inService {}).confirmed 0 = none ∧
    ((moving true).room 0).quiet = false ∧
    (((plumbState 0 [{ layer := 0, tile := 0 }]).room 0).quiet = true ∧
      ∃ x ∈ ((plumbState 0 [{ layer := 0, tile := 0 }]).room 0).course.slots, x.isOpen = true) := by
  unfold Executes GoesOn; decide
/-- A Suite that compares its two copies, whose Course 0 is not confirmed. -/
theorem witness_CourseBoundary_confirmed : ∃ c, (((inService { course := { ordinal := 1 } }).modSuite 0 fun x => { x with
    mode := .duplex, rooms := [(some 0, some 640)], present := (true, true) }).confirmed 0) = some c ∧ c < 1 := by
  exact ⟨0, by decide, by decide⟩

/-- Two Rooms of one copy; Room 0 executes BARRIER 15, and Room 1 has executed it `k` times. -/
def pairOfRooms (k : Nat) : State :=
  ((inService {}).modSuite 0 ({ · with rooms := [(some 0, none), (some 1, none)] })).modRoom 1 fun x => { x with
    member := some ⟨0, 0, 1, false⟩, foreman := { run := .running, barriers := [(15, k)] } }
theorem witness_Barriers : Executes (pairOfRooms 0) 0 always ∧
    (∃ q ∈ (pairOfRooms 0).performers 0 0, q ≠ 0 ∧ Store.get 0 ((pairOfRooms 0).room q).foreman.barriers 15 < 1) ∧
    (∀ q ∈ (pairOfRooms 1).performers 0 0, q ≠ 0 → 1 ≤ Store.get 0 ((pairOfRooms 1).room q).foreman.barriers 15) ∧
    (∀ x ∈ ((pairOfRooms 1).suite 0).releases, ¬ (x.1 = 0 ∧ x.2.1 = 15)) ∧
    (((inService {}).modSuite 0 ({ · with releases := [(0, 15, 0)] })).suite 0).releases.find?
      (fun x => x.1 == 0 && x.2.1 == 15) = some (0, 15, 0) ∧
    (((inService {}).modForeman 0 ({ · with run := .barrier 15 })).room 0).foreman.run = .barrier 15 := by
  unfold Executes; decide
theorem witness_ProgramFaults : ((inService {}).room 0).member = some ⟨0, 0, 0, false⟩ ∧
    ((inService {}).suite 0).step = some someStep ∧ (inService {}).listener 0 = false ∧
    ((inService {}).suite 0).compares = false ∧
    ((inService {}).ctx? 0).map (fun x => (x.st, x.nextRoot, (x.queue 0).st, x.household)) = some (.opened, none, .opened, 1) ∧
    Store.wf none (inService {}).contexts = true ∧ ((inService {}).house 1).st = .active ∧
    (((inService {}).modSuite 0 fun x => { x with mode := .duplex, rooms := [(some 0, some 640)], present := (true, true) }).suite
      0).compares = true ∧
    ((inService {}).modSuite 0 ({ · with vote := some ⟨0, [(0, 1)], [], true⟩ })).listener 0 = true := by decide

/-- Household 1's channel. -/
def chan1 : Chan := .tunnel 0 0 1
/-- Unfold the conditions that these witnesses show. -/
theorem witness_DownloadOrder : ({ power := { st := .sleep } } : State).asleep = true ∧ (inService {}).asleep = false ∧
    (inService {}).chanDead chan1 = false ∧ (inService {}).gate chan1 0x3002 2 true = some 0x06010000 ∧
    (inService {}).gate chan1 0x4000 5 true = none ∧ ((object? 0x4000 5).map (·.len.accepts 2)).getD false = false ∧
    Served (inService {}) chan1 0x4000 5 1 ∧ 0x06090030 ≠ 0x06010000 := by unfold Served; decide +kernel

/-- Context 0 of the module in service, changed. -/
def withContext (f : Context → Context) : State := (inService {}).modCtx 0 f
def noStep (s : State) : State := s.modSuite 0 ({ · with step := none })
theorem witness_ContextCommands :
    (isHousehold 1 = true ∧ Served (inService {}) chan1 0x3001 0x40 8 ∧ (inService {}).suiteOwner 0 = some 1 ∧
      bitsOf (0x0100000000000007#64).toNat 63 56 = 1 ∧ bitsOf (0x0100000000000007#64).toNat 55 48 = 0 ∧ (inService {}).houseActive 1 = true ∧
      ((inService {}).suite 0).st ≠ .releasing ∧ ((inService {}).house 1).st ≠ .closing ∧ ((inService {}).suite 0).mode ≠ .paired ∧
      (inService {}).freeContextNumber = some 1) ∧
    (((withContext ({ · with st := .faulted, fault := 0x0020000000000000#64 })).ctx? 0).map (·.st) = some .faulted ∧
      Served (withContext ({ · with st := .faulted })) chan1 0x4000 5 1 ∧ bitsOf (0x0020000000000000#64).toNat 55 48 ≠ 0x40) ∧
    (((inService {}).ctx? 0).map (·.st) = some .opened ∧ Served (inService {}) chan1 0x4000 6 8 ∧
      bitsOf (0x780000000000000A#64).toNat 3 0 ≤ 10 ∧ bitsOf (0x780000000000000A#64).toNat 63 59 = 15 ∧
      ((inService {}).ctx? 0).map (fun x => ((x.queue 15).st, x.closedQueue)) = some (.closed, some 1) ∧
      bitsOf (0xF800000000000000#64).toNat 63 59 = 31) ∧
    (Served (inService {}) chan1 0x4000 7 1 ∧ ((inService {}).ctx? 0).map (fun x => (x.queue 0).st) = some .opened ∧
      (inService {}).inFlight 0 0 = true ∧ (noStep (inService {})).inFlight 0 0 = false) ∧
    (Served (inService {}) chan1 0x4000 8 1 ∧ Served (inService {}) chan1 0x3100 0x16 1 ∧
      ((noStep (inService {})).suite 0).step = none ∧ someStep.committing = false ∧ { someStep with phase := 1 }.committing = true) := by
  unfold Served; decide +kernel

/-- Queue 0 of context 0 with one descriptor waiting, in memory and, if `kept`, fetched: a step of one instruction, or a
MARKER. -/
def queued (kept marker : Bool) : State :=
  let bytes : List Byte := [1, if marker then 1 else 0, 0, 0, 1] ++ List.replicate 123 0
  { noStep (withContext fun x => { x with queues := [(0, { st := .opened, tail := 1, waitsHold := kept
                                                           fetched := if kept then [(0, bytes)] else [] })] }) with
    hbm := Store.setRange 0 [] 16384 bytes }
theorem witness_DescriptorEvents :
    (isContext 0 = true ∧ isQueue 0 = true ∧
      ((queued false false).ctx? 0).map (fun x => ((queued false false).served x, (x.queue 0).st, x.st, (x.queue 0).nextFetch)) =
        some (true, .opened, .opened, some 0) ∧
      ((queued false false).stewardRead 0 0 128).1 = .ok ([1, 0, 0, 0, 1] ++ List.replicate 123 0) ∧
      ((queued false false).checkStep 0 (parseStep ([1, 0, 0, 0, 1] ++ List.replicate 123 0))).1 = .ok ∧
      ((queued false false).checkStep 0 (parseStep (List.replicate 128 0))).1 = .bad faultBadStep) ∧
    (((queued true true).ctx? 0).map (fun x => (Queue.ready x (x.queue 0), ((x.queue 0).headDesc).map (·.type))) =
        some (true, some 1) ∧ ((queued true true).suite 0).held = 0 ∧
      ((queued true true).checkStep 0 (parseStep ([1, 1, 0, 0, 1] ++ List.replicate 123 0))).1 = .ok ∧
      ((queued true true).publish 0 0 0).1 = .ok ()) ∧
    ((queued true false).waitHolds 0 0 0).1 = .ok true ∧ ((inService {}).suite 0).slice = 0 ∧
    (let s := (queued true false).modSuite 0 ({ · with slice := 1, step := some { someStep with ctx := 1 } })
     let s := { s with time := 100000 }
     someStep.dispatched + (s.suite 0).slice * 100000 ≤ s.time ∧
      ∃ e ∈ s.queuesOf 0, e.1 ≠ 1 ∧ Queue.ready e.2.2.1 e.2.2.2 = true) := by decide +kernel
theorem witness_Landings : isSuite 0 = true ∧ ((queued true false).suite 0).draining = false ∧
    (inService {}).mayDispatch 0 = false ∧ (queued true false).mayDispatch 0 = true ∧
    ((queued true false).choose 0).map (fun e => (e.1, e.2.1, e.2.2.2.headDesc.isSome)) = some (0, 0, true) ∧
    ((queued true false).suite 0).mode ≠ .paired ∧
    (match (queued true false).choose 0 with
     | some (c, _, x, u) =>
       (match u.headDesc with
        | some d => (match ((queued true false).plan c x ((queued true false).suite 0) d).1 with | .ok _ => true | _ => false)
        | none => false)
     | none => false) = true ∧
    ((noStep (inService {})).suite 0).step = none ∧ (inService {}).mayCommit 0 someStep = false ∧ someStep.phase = 0 ∧
    ((inService {}).modForeman 0 ({ · with run := .committed })).mayCommit 0 someStep = true := by decide +kernel
theorem witness_MemoryReadBack : Memory.wf [(16384, 5)] = true ∧ Memory.wf (inService {}).hbm = true ∧
    (∀ u ∈ unitsOf 0x8FFFFFFFF 1, (inService {}).usableAt (u * 64) = true ∧ (inService {}).badUnits.contains u = false) := by
  decide +kernel

/-- Household 1 with one Window at index 4095, a fault queue on Hall 0's host, and an envelope. -/
def owned : State :=
  { inService {} with
    windows := [(4095, some ⟨1, 3, 1, 0, 0, 4096, 16384⟩)]
    pages := [(4, { holder := 1 })]
    blobs := [(entry 0x5C11 0, [1, 0, 7, 3, 7, 4, 0, 16, 0, 0, 64, 0, 0, 0, 0, 0, 0, 16, 0, 0, 255, 255, 255, 255])] }
theorem witness_AddressCommands :
    (isHousehold 1 = true ∧ owned.houseActive 1 = true ∧ owned.ownsCtx 1 0 = none ∧
      bitsOf (0x0100000000001000#64).toNat 55 44 = 0 ∧ bitsOf (0x0100000000001000#64).toNat 63 56 = 1 ∧
      Served owned chan1 0x3001 0x44 8 ∧ (List.range 16).any (owned.inFlight 0) = true ∧
      (List.range 16).any ((noStep owned).inFlight 0) = false ∧ Served owned chan1 0x3001 0x46 8 ∧
      bitsOf (0x01000C0000000000#64).toNat 43 42 = 3) ∧
    (Served owned chan1 0x3001 0x48 8 ∧ (11 : BitVec 64).toNat % 16 < 12 ∧ owned.stalls = []) ∧
    (Served owned chan1 0x3001 0x52 2 ∧ (Store.get none owned.windows 4095).map (·.owner) = some 1 ∧ owned.waiters = []) := by
  unfold Served; decide +kernel
/-- The Window of 64 bytes at the end of page 4 that household 1 adds. -/
def newWindow : List Byte := [1, 3, 1, 0, 0, 0, 0, 0] ++ leBytes 8 0xFFFFFFFFFC0 ++ leBytes 8 64 ++ leBytes 8 0x4FC0
theorem witness_WindowAdd : Served owned chan1 0x3001 0x50 newWindow.length ∧ fieldOf newWindow 0 1 = 1 ∧
    (let x := parseWindow 1 newWindow
     owned.holds 1 x.target x.len = true ∧ (∀ p ∈ pageStarts x.target x.len, (owned.page (p / 4096)).isProtected = false) ∧
      (∀ e ∈ owned.windows, (e.2.map x.clashes).getD false = false) ∧ x.base % 64 = 0 ∧ x.target % 64 = 0 ∧ x.len = 64 ∧
      x.base + x.len = 2 ^ 44) ∧ owned.windowsOf 1 < owned.envWindows 1 ∧
    (List.range 4096).find? (fun k => (Store.get none owned.windows k).isNone) = some 0 := by unfold Served; decide +kernel

/-- A page fault of Room 0's DMA port at virtual address 2^47, whose record has been written or not. -/
def stalledAt (seq : Option W32) : PortStall :=
  { port := 0, ctx := 0, va := 2 ^ 47, write := false, notPresent := true, level := 4, east := false, steward := false, time := 0, seq }
/-- Household 1 with a fault queue at a host page, with stalls, and with a root table of nothing. -/
def faulting (stalls : List PortStall) (tail : W32) (time : Nat) : State :=
  (({ owned with stalls, time }).modHouse 1 ({ · with faultqBase := 0x1000, faultqTail := tail })).modCtx 0 ({ · with root := 16384 })
/-- A remote read of the Window's first byte from node 0, and one that no Window admits. -/
def remoteRead (addr : Nat) : RemoteAccess := { port := 11, plane := 0, node := 0, household := 1, addr, len := 64, kind := .read }
def trained (s : State) : State := { s with mortar := [(11, { st := 2, lanes := 4 })] }
theorem witness_WalksAndArrivals :
    ((faulting [stalledAt none] 0 0).stalled 0 0 = true ∧ (faulting [] 0 0).stalled 0 0 = false ∧
      (match ((faulting [] 0 0).translate 0 0 (2 ^ 47) false).1 with | .fault true 4 => true | _ => false) = true ∧
      (faulting [] 0 0).faultsRefused 0 = false ∧ owned.faultsRefused 0 = true ∧
      (match (owned.translate 0 0 4095 true).1 with | .fault _ _ => false | _ => true) = true) ∧
    ((faulting [stalledAt (some 1)] 1 0).stalls.all (fun z => !(faulting [stalledAt (some 1)] 1 0).expired z) = true ∧
      (let s := faulting [stalledAt (some 1)] 1 1000000000
       s.stalls.filter (fun z => z.port == 0 && s.expired z) = [stalledAt (some 1)])) ∧
    ((faulting [] 0 0).nextFault 1 = none ∧ (faulting [stalledAt none] 16 0).nextFault 1 = some (stalledAt none) ∧
      faultqFull ((faulting [stalledAt none] 16 0).house 1) = true ∧ faultqFull ((faulting [stalledAt none] 15 0).house 1) = false ∧
      (faulting [stalledAt none] 15 0).hostLink 0 = true ∧ State.reset.hostLink 0 = false) ∧
    (isMortar 11 = true ∧ owned.portUp 11 = false ∧ (trained owned).portUp 11 = true ∧
      (trained owned).allow (remoteRead 0) = some 16384 ∧ (trained owned).allow (remoteRead 4096) = none) ∧
    (({ windowRefusals := [⟨remoteRead 0, 0⟩], time := 1999 } : State).time < 0 + 2000 ∧ 0 + 2000 ≤ 2000) := by decide +kernel
theorem witness_HostAccesses :
    ((inService {}).bellLive 1 0 = false ∧ (inService {}).bellLive 0 0 = true ∧
      ((inService {}).ctx? 0).map (fun x => ((x.queue 0).st, (x.queue 0).entries - (x.queue 0).waiting)) = some (.opened, 64) ∧
      (0 - 0 : W32).toNat = 0 ∧ (64 - 0 : W32).toNat ≤ 64 ∧ 64 < (65 - 0 : W32).toNat ∧ (65 - 0 : W32).toNat < 2 ^ 31 ∧
      2 ^ 31 ≤ (0x80000000 - 0 : W32).toNat) ∧
    (isVector 2047 = true ∧ (((inService {}).hall 0).vector 2047).isPending = false ∧
      ((((inService {}).modHall 0 (·.modVector 2047 ({ · with isPending := true }))).hall 0).vector 2047).isPending = true) ∧
    (let s := { inService {} with dict := [(entry 0x2910 0x20, some 30)] }
     s.hostLink 0 = true ∧ populatedRange ((s.hall 0).bar4Base + 16384) 64 = true ∧
      (∀ p ∈ pageStarts ((s.hall 0).bar4Base + 16384) 64, (s.page (p / 4096)).isProtected = false) ∧
      populatedRange (2 ^ 36 * 4) 64 = false) := by decide +kernel

theorem witness_HouseholdCommands :
    (let s := { owned with households := [] }
     Served s .own 0x3001 2 1 ∧ (s.house 1).st = .inactive ∧ s.hasEnvelope 1 = true ∧
      (s.security.openHouse && s.envFlag 1 0) = false) ∧
    (Served owned .own 0x3001 2 1 ∧ (owned.house 1).st ≠ .inactive ∧ (owned.house 1).st ≠ .closing) ∧
    (Served owned .own 0x3001 0x30 8 ∧ bitsOf (0x0141000004000005#64).toNat 63 56 = 1 ∧ bitsOf (0x0141000004000005#64).toNat 53 48 = 1 ∧
      bitsOf (0x0141000004000005#64).toNat 47 26 = 1 ∧ bitsOf (0x0141000004000005#64).toNat 25 0 = 5 ∧
      (0x0141000004000005#64 : W64) = 0x0101000004000005#64 &&& ~~~(0x00C0000000000000#64) ||| 0x0040000000000000#64 ∧
      populatedRange (5 * 4096) 4096 = true ∧
      (∀ p ∈ span 5 1, owned.usableAt (p * 4096) = true ∧ (owned.page p).holder = 0) ∧
      owned.pagesHeld 1 + 1 ≤ owned.envMaxPages 1 ∧ owned.pageShortfall 1 + 1 ≤ owned.freePages) ∧
    ((∀ p ∈ span 4 1, (owned.page p).holder = 1) ∧ (owned.house 1).blob = none ∧ owned.waiters = []) ∧
    (isFloor 3 = true ∧ owned.nextWash 3 = none ∧
      (let s := { owned with pages := [(9, { washing := true })] }
       s.nextWash 0 = some 9 ∧ s.isWashing 9 = true ∧ s.usableAt (9 * 4096) = true)) ∧
    (Served owned chan1 0x3001 0x20 4 ∧ bitsOf (0x01000007#32).toNat 31 24 = 1 ∧ bitsOf (0x01400007#32).toNat 23 22 = 1 ∧
      bitOf (owned.envModes 1) 1 = true ∧ (owned.suitesOf 1).length < owned.envSuites 1 ∧
      (List.range 256).find? (fun n => (owned.suite n).st == .free) = some 1) ∧
    (Served owned chan1 0x3001 0x22 1 ∧ owned.suiteOwner 0 = some 1 ∧ (owned.suite 0).st ≠ .releasing ∧
      ({ owned with contexts := [] } : State).contextsOf 0 = []) := by unfold Served; decide +kernel

/-- Household 1 in a state, without contexts. -/
def houseIn (st : HouseState) : State := ({ owned with contexts := [] }).modHouse 1 ({ · with st })
/-- Slot 63 holds household 1's migration key, and the security engine is in SEALED. -/
def keyed (s : State) : State :=
  { s with dict := [(entry 0x5D3F 0, some 0x8001)]
           security := { s.security with keys := [(63, some (List.replicate 32 0))], lifecycle := 2 } }
theorem witness_FreezeAndMigrate :
    (Served (houseIn .active) chan1 0x3001 0x60 1 ∧ ((houseIn .active).house 1).st = .active ∧
      Served (houseIn .frozen) chan1 0x3001 0x60 1 ∧ ((houseIn .frozen).house 1).st = .frozen) ∧
    ((keyed (houseIn .frozen)).security.alarm = false ∧ (keyed (houseIn .frozen)).keysPermitted = true ∧
      ((keyed (houseIn .frozen)).house 1).image = none ∧ Served (keyed (houseIn .frozen)) chan1 0x3001 0x61 8 ∧
      ((keyed (houseIn .frozen)).migrationKey 1).isSome = true ∧ Served (keyed (houseIn .active)) chan1 0x3001 0x62 8 ∧
      (keyed (houseIn .active)).contextsHeld 1 = []) ∧
    (isCause 6 = true ∧ (houseIn .active).failSilent = false ∧ ((houseIn .active).house 1).image = none ∧
      (((houseIn .frozen).modHouse 1 ({ · with image := some (0, true) })).house 1).image = some (0, true)) ∧
    (let s := (houseIn .active).modSuite 0 ({ · with held := 1 })
     Served s chan1 0x5100 4 1 ∧ s.houseActive (s.suite 0).owner = true ∧ (s.suite 0).held ≠ 0) := by
  unfold Served; decide +kernel

/-- Suite 0 with group 96 or port 11 bound to it. -/
def binding (groups ports : List Nat) : State := owned.modSuite 0 ({ · with groups, ports })
theorem witness_SuiteChanges :
    (isSuite 0 = true ∧ owned.suiteOpen 0 = none ∧ Served owned chan1 0x3100 0x10 8 ∧
      copyOf 0 (addEntries false [1, 1, 0, 0, 5, 0, 0xFF, 0xFF]) = [5] ∧ copyOf 1 (addEntries false [1, 1, 0, 0, 5, 0, 0xFF, 0xFF]) = [] ∧
      (owned.suite 0).mode ≠ .duplex ∧ owned.foreignRoom 0 5 = false ∧ owned.roomFree (owned.suite 0).projected.lanes 5 = true ∧
      owned.fill (owned.suite 0).projected [(some 5, none)] [5] = some [(some 5, none)] ∧
      (owned.acceptChange 0 (.add false [(some 5, none)] false) [5] []).isOk = true) ∧
    (Served owned chan1 0x3100 0x11 2 ∧ (1 : BitVec 16).toNat ≤ (owned.suite 0).projected.ordinals ∧
      (owned.acceptChange 0 (.remove 1) [] []).isOk = true ∧ (owned.suite 0).projected.ordinals < (2 : BitVec 16).toNat) ∧
    (Served owned chan1 0x3100 0x12 4 ∧ owned.foreignRoom 0 (bitsOf (5#32).toNat 10 0) = false ∧ bitsOf (5#32).toNat 31 31 = 0 ∧
      bitsOf (5#32).toNat 30 20 < (owned.suite 0).projected.rooms.length + (owned.suite 0).projected.spares.length ∧
      (owned.acceptChange 0 (.move 0 0 5) [5] []).isOk = true) := by unfold Served; decide +kernel
theorem witness_SuiteChanges_bindings :
    ((96 : BitVec 16).toNat ≤ 128 - owned.groupSize 3 ∧ owned.groupName 96 = 96 ∧ Served owned chan1 0x3100 0x13 2 ∧
      (∀ g ∈ (owned.suite 0).boundNames 96, owned.groupOk g = true) ∧ (owned.acceptChange 0 (.bindGroup 96) [] []).isOk = true ∧
      Served (binding [96] []) chan1 0x3100 0x14 2 ∧ 96 ∈ ((binding [96] []).suite 0).projected.groups ∧
      ((binding [96] []).acceptChange 0 (.unbindGroup 96) [] []).isOk = true) ∧
    (Served owned chan1 0x3100 0x15 1 ∧ (11 : BitVec 5).toNat < 12 ∧ owned.portHolder 0 19 = none ∧
      bitOf (owned.envPorts 1) 19 = true ∧ bitOf (owned.envPorts 1) 11 = true ∧
      (owned.acceptChange 0 (.bindPort 19) [] []).isOk = true ∧ 11 ∈ ((binding [] [11]).suite 0).projected.ports ∧
      ((binding [] [11]).acceptChange 0 (.unbindPort 11) [] []).isOk = true) := by
  unfold Served; decide +kernel
theorem witness_ConfigurationEvents :
    (((noStep owned).suite 0).draining = false ∧ ((noStep owned).suite 0).st ≠ .releasing ∧
      (((noStep owned).modSuite 0 ({ · with st := .releasing })).suite 0).st = .releasing ∧ (owned.suite 0).step ≠ none) ∧
    (let s := { owned.modSuite 0 ({ · with mode := .paired, waitSince := 1 }) with time := 100000001 }
     s.asleep = false ∧ s.failSilent = false ∧ (s.suite 0).waitSince + 100000000 ≤ s.time ∧ (s.suite 0).settingsRecorded = false ∧
      (owned.suite 0).mode ≠ .paired) ∧
    ((owned.room 0).joining = false ∧
      (let s := owned.modRoom 0 ({ · with joining := true })
       (s.room 0).joining = true ∧ s.suiteOf 0 = some 0)) := by decide +kernel

/-- The first channel of Hall 1's window, busy or not, and waiting for a tunnelled answer since time 0 or not. -/
def windowed (busy : Bool) (tunnelAt : Option Nat) : State :=
  (inService {}).modChannel 1 0 ({ · with busy, tunnelAt })
/-- A transfer of household 1's channel is open in Hall 0 since time 0. -/
def opened (time : Nat) : State :=
  { (inService {}).modHall 0 ({ · with sessions := [⟨chan1, true, 0x3001, 1, 4, [], 0⟩] }) with time }
theorem witness_ChannelCommands :
    ((match actFor chan1 0x4000 5 [1] (withContext ({ · with st := .faulted })) with | .ok (_, now) => now | _ => false) = true ∧
      (inService {}).hostServes 1 = true ∧ State.reset.hostServes 0 = false) ∧
    (((inService {}).readObject chan1 0x3001 1).1 = 0 ∧ (inService {}).unreadable chan1 0x3001 0x60 = some 0x06010001 ∧
      isSingle 0x3001 = false ∧ (inService {}).gate chan1 0x3001 0 false = none ∧
      (((inService {}).beforeRead chan1 0x3001).wholeIndex chan1 0x3001).length ≤ 8192) ∧
    ((Store.get {} ((windowed true none).hall 1).channels 0).busy = true ∧ (windowed true none).hostServes 1 = true ∧
      ctlRemote (Store.get {} ((windowed false none).hall 1).channels 0).control = false ∧
      (Store.get {} ((windowed false none).hall 1).channels 0).tunnelAt = none ∧
      (Store.get {} ((windowed true (some 0)).hall 1).channels 0).tunnelAt = some 0) ∧
    (isNode 127 = true ∧ (inService {}).canAlive 0 = true ∧ ((inService {}).hall 0).nmt ≠ .stopped ∧
      State.reset.canAlive 0 = false) ∧
    (({ inService {} with dict := [(entry 0x2901 3, some 3)] } : State).tunnelAdmits 1 32767 63 = true ∧
      ({ inService {} with dict := [(entry 0x2901 3, some 0)] } : State).tunnelAdmits 0 0 1 = false) ∧
    ((inService {}).session chan1 = none ∧ ((opened 999999999).session chan1).map (·.last) = some 0 ∧
      (opened 999999999).time < 0 + 1000000000 ∧ 0 + 1000000000 ≤ (opened 1000000000).time) ∧
    (({ withheld := [⟨chan1, 0x3001, 1, 0⟩], time := 50000 } : State).withheld[0]? = some ⟨chan1, 0x3001, 1, 0⟩) := by
  decide +kernel
theorem witness_ChannelCommands_tooLong :
    let s := (inService {}).modHouse 1 ({ · with spdmResponse := List.replicate 8190 0 })
    isSingle 0x5501 = false ∧ s.gate chan1 0x5501 0 false = none ∧
      8192 < ((s.beforeRead chan1 0x5501).wholeIndex chan1 0x5501).length := by decide +kernel
theorem witness_CanDevice : 2 ≤ ((inService {}).hall 1).up.stage ∧ (inService {}).canAlive 1 = true ∧
    ({ inService {} with dict := [(entry 0x1017 0, some 100)] } : State).dictGet 0x1017 0 ≠ 0 ∧
    ({ inService {} with dict := [(entry 0x1017 0, some 0)] } : State).dictGet 0x1017 0 = 0 := by decide

/-- A message of Room 0 about line 128 on its way to the home, or to Room 0. -/
def message (kind : CohKind) (bytes : Option (List Byte)) (poisoned : Bool) : CohMsg :=
  { kind, room := 0, line := 128, peer := some 1279, bytes, poisoned, take := .m, count := 0 }
/-- The home of line 128 with entries and a message, beside a cache that holds the line in `st` and may miss it. -/
def home (kind : CohKind) (e : Option DirEntry) (lines : List Moesi) (miss : Option Miss) (poisoned : Bool := false) : State :=
  { inService { cache := { lines := lines.map fun st => (0, some ⟨128, st, List.replicate 128 0⟩), miss } } with
    net := [message kind none poisoned], directory := [(128 * 16, e)] }
/-- Room 0 owns line 128, with a transaction open or not. -/
def owner0 (txn : Option Txn) : DirEntry := { line := 128, st := .excl, owner := 0, txn }
/-- The message of a kind reaches the home, no reservation keeps it out, and the line has an entry that is busy or not. -/
def took (k : CohKind) (s : State) (entry : Option Bool) : Bool :=
  match s.takeMsg k 0 128 with
  | some (_, t) => !t.keptOut 0 128 && (t.dirFind 128).map (·.2.txn.isSome) == entry
  | none => false
/-- A transaction of Room 0 or 1, whose FWD_ACK is due or not. -/
def txnOf (r : Nat) (due : Bool) : Option Txn := some { requester := some r, exclusive := true, fwdAckDue := due }
def entry0 (txn : Option Txn) : Option DirEntry := some (owner0 txn)
theorem witness_HomeMessages_requests :
    ((inService {}).takeMsg .gets 0 128).isNone = true ∧ took .gets (home .gets none [] none) none = true ∧
      (dirKeys 128).find? (fun k => (Store.get none (home .gets none [] none).directory k).isNone) = some 2048 ∧
      took .gets (home .gets (entry0 none) [] none) (some false) = true ∧
      took .gets (home .gets (entry0 (txnOf 1 false)) [] none) (some true) = true ∧
      took .getm (home .getm none [] none) none = true ∧
      took .getm (home .getm (entry0 none) [] none) (some false) = true ∧
      took .getm (home .getm (entry0 (txnOf 1 false)) [] none) (some true) = true := by decide +kernel
theorem witness_HomeMessages_ends :
    ((owner0 none).knows .putm 0 = true ∧ (owner0 none).knows .pute 0 = true ∧ (owner0 none).knows .puts 0 = true ∧
      (owner0 none).knows .putm 1 = false ∧ took .putm (home .putm (entry0 none) [] none) (some false) = true ∧
      took .pute (home .pute (entry0 none) [] none) (some false) = true ∧
      took .puts (home .puts (entry0 none) [] none) (some false) = true ∧
      took .putm (home .putm none [] none) none = true) ∧
    ((home .done (entry0 (txnOf 0 true)) [] none).ackDue 128 = true ∧
      (home .done (entry0 (txnOf 0 false)) [] none).ackDue 128 = false ∧
      took .done (home .done (entry0 (txnOf 0 false)) [] none) (some true) = true ∧
      took .fwdAck (home .fwdAck (entry0 (txnOf 1 true)) [] none) (some true) = true) := by decide +kernel
/-- The message of a kind reaches Room 0, whose cache holds the line in a state and misses a line. -/
def atCache (k : CohKind) (s : State) (st : Option Moesi) (miss : Option Nat) : Bool :=
  match s.takeMsg k 0 128 with
  | some (m, t) => m.peer == some 1279 && ((t.room 0).cache.line? 128).map (·.st) == st && ((t.room 0).cache.miss).map (·.line) == miss
  | none => false
theorem witness_CacheMessages_owners :
    (atCache .fwdGets (home .fwdGets none [.o] none) (some .o) none = true ∧
      atCache .fwdGets (home .fwdGets none [.m] none) (some .m) none = true ∧
      atCache .fwdGetm (home .fwdGetm none [.m] none) (some .m) none = true ∧
      atCache .recall (home .recall none [.m] none) (some .m) none = true ∧
      atCache .inv (home .inv none [] none) none none = true ∧
      atCache .inv (home .inv none [.s] none) (some .s) none = true) := by decide +kernel
theorem witness_CacheMessages_requester :
    (atCache .data (home .data none [] (some { line := 129, exclusive := true })) none (some 129) = true ∧
      atCache .data (home .data none [] (some { line := 128, exclusive := true })) none (some 128) = true ∧
      ((home .data none [] (some { line := 128, exclusive := true }) true).takeMsg .data 0 128).map (·.1.poisoned) = some true ∧
      atCache .invAck (home .invAck none [] none) none none = true ∧
      atCache .nack (home .nack none [] (some { line := 128, exclusive := true, nacks := 6 })) none (some 128) = true ∧
      6 + 1 ≠ 8 ∧ atCache .putAck (home .putAck none [] none) none none = true) ∧
    (((home .gets none [] (some { line := 128, exclusive := true, retryAt := 5 })).room 0).cache.miss =
        some { line := 128, exclusive := true, retryAt := 5 } ∧
      ((home .gets none [] (some { line := 128, exclusive := true, granted := some .m, acksDue := some 1, acks := 1 })).room
        0).cache.miss = some { line := 128, exclusive := true, granted := some .m, acksDue := some 1, acks := 1 } ∧
      setOf (cacheSets 65536) 128 = 0) := by decide +kernel

/-- A read of the first unit of HBM from DMA port 0, waiting or queued or in service. -/
def aRead : MemReq := { port := 0, lpa := 0, len := 64, write := false, cls := 2, arrival := 0 }
def urgentRead : MemReq := { aRead with cls := 0, deadline := some 2000 }
def regulated (tokens : Nat) : State := { inService {} with regulators := [(0, { tokens, waiting := [aRead] })] }
def channel (x : PseudoChannel) : State := { inService {} with pcs := [(0, x)] }
def remoteAsk (room : Nat) : RemoteReq := { suite := 0, room, fabric := 0, len := 64, kind := .read }
theorem witness_MemoryEvents :
    (isMaster 2586 = true ∧ (((inService {}).refill 0).reg 0).waiting = [] ∧
      (((regulated 255999).refill 0).reg 0).waiting = [aRead] ∧ (((regulated 255999).refill 0).reg 0).tokens < (64 + 63) / 64 * 256000 ∧
      (64 + 63) / 64 * 256000 ≤ (((regulated 256000).refill 0).reg 0).tokens ∧
      regClass (((regulated 256000).refill 0).portSetting 0) = 2 ∧
      ((((regulated 256000).refill 0).pc (((regulated 256000).refill 0).pcOf 0)).admits 2 (unitsOf 0 64).length = true)) ∧
    (isFloor 3 = true ∧ ((inService {}).pc ((inService {}).pcOf (3 * 2 ^ 36 + ((inService {}).floor 3).scrub * 64))).admits 3 1 = true ∧
      ((inService {}).floor 3).scrub + 1 < stackUnits ∧
      stackUnits ≤ (({ inService {} with floors := [(3, { scrub := stackUnits - 1 })] } : State).floor 3).scrub + 1) ∧
    (isPc 127 = true ∧ ((channel { inService := some aRead }).pc 0).inService = some aRead ∧
      ((channel { refreshDue := 1 }).pc 0).queue = [] ∧ (inService {}).groupOk ((inService {}).groupName 0) = true ∧
      earliest (((channel { queue := [urgentRead] }).pc 0).queue.filter (·.urgent 0)) = some urgentRead ∧
      earliest (((channel { queue := [aRead] }).pc 0).queue.filter (·.urgent 0)) = none ∧
      (channel { queue := [aRead], batch := 63 }).pickAccess ((channel { queue := [aRead], batch := 63 }).pc 0) = some aRead ∧
      (inService {}).badUnits.contains 0 = false ∧ ((channel { inService := some aRead, retries := 2 }).pc 0).retries < 3) ∧
    ((inService {}).waiters = [] ∧ (inService {}).isWashing 0 = false ∧ populatedRange 0 64 = true ∧
      ({ waiters := [{ window := some 0, addr := 0, acc := remoteRead 0 }] } : State).waiters =
        [{ window := some 0, addr := 0, acc := remoteRead 0 }] ∧ (remoteRead 0).len = 64) ∧
    (({ remotes := [remoteAsk 1280] } : State).remotes[0]? = some (remoteAsk 1280) ∧ (remoteAsk 1280).answer = none ∧
      1280 ≤ (remoteAsk 1280).room ∧ ((inService {}).suite (remoteAsk 0).suite).step ≠ none) := by decide +kernel

theorem witness_LaneGenerators : xorshift 1 = xorshift 1 ∧ (1 : W64) ≠ 0 := by decide
/-- Port 11 in training state 1, and a peer with lanes, a node and a plane. -/
def training : State := { inService {} with mortar := [(11, { st := 1 })], dict := [(entry 0x286B 1, some 6)] }
def peerOf (node plane lanes : Nat) : MortarPeer := { version := 1, node, plane, direction := 6, lanes, epoch := 0 }
theorem witness_LinkEvents :
    ((inService {}).linked = true ∧ State.asleep { power := { st := .sleep } } = true ∧ ((inService {}).port 11).st ≠ 1 ∧
      (training.port 11).st = 1 ∧
      (training.modPort 11 ({ · with peerNode := 0, peerPlane := 0, version := 1 })).heldDown 11 (peerOf 0 0 4) = true ∧
      (training.modPort 11 ({ · with peerNode := 1, peerPlane := 0, version := 1 })).heldDown 11 (peerOf 1 0 1) = false ∧
      (training.modPort 11 ({ · with peerNode := 1, peerPlane := 0, version := 1 })).heldDown 11 (peerOf 1 0 2) = false) ∧
    ((trained owned).portUp 11 = true ∧ owned.portUp 11 = false) ∧
    (isLink 40 = true ∧ isLink 19 = true ∧ Store.wf ({} : MortarPort) training.mortar = true ∧
      Store.wf ({} : IngestPort) training.ingest = true ∧ 19 ∈ ({ linksLost := [19] } : State).linksLost ∧ 19 ∉ training.linksLost) ∧
    ((let s : State := { inService {} with suites := [] }
      Served s .own 0x2851 4 2 ∧ (∀ e ∈ s.suites, e.2.st = .free)) ∧ (32767 : BitVec 16).toNat ≤ 32767 ∧
      32767 < (32768 : BitVec 16).toNat) := by unfold Served; decide +kernel

def frameOf (stream : W64) (n : Nat) : AvtpFrame := { stream, presentation := none, payload := List.replicate n 0 }
/-- Ingest port 3 is up, bound to Suite 0 and its context, with a ring of 16 entries. -/
def ingesting (head tail : W32) : State :=
  { (inService {}).modSuite 0 ({ · with ports := [19] }) with ingest := [(3, { up := true, ctx := 0, ringLog2 := 4, head, tail })] }
theorem witness_IngestAndTime :
    ((inService {}).asleep = false ∧ (inService {}).failSilent = false ∧ isIngest 3 = true ∧ ((inService {}).feed 3).up = false ∧
      ((ingesting 0 0).feed 3).up = true ∧ ((ingesting 0 0).hall 1).lost = false ∧
      (State.drainIngest 3 0 (ingesting 0 0)).ingestBound 3 (frameOf 5 64) = true ∧
      ((State.drainIngest 3 0 (ingesting 0 0)).feed 3).room 64 = true ∧ 2016 < (frameOf 5 2017).payload.length ∧
      (State.drainIngest 3 0 (trained owned)).ingestBound 3 (frameOf 5 64) = false) ∧
    (State.reset.time % 1000000000 = 0 ∧ ({ time := 1 } : State).time % 1000000000 ≠ 0) ∧
    (let s : State := { inService {} with dict := [(entry 0x2A01 1, some 2), (entry 0x2A01 2, some 1), (entry 0x2A01 3, some 3), (entry 0x2A01 4, some 4)] }
     isSource 1 = true ∧ s.sourcePath 1 = true ∧ s.sourcePath 2 = true ∧
      ({ s with clock := { s.clock with available := [true, true, true, false, false] } } : State).bestSource = 2 ∧
      ({ s with clock := { s.clock with available := listSet s.clock.available 2 true } } : State).bestSource = 2 ∧ s.ready = true ∧
      State.reset.ready = false ∧ s.clock.source = 0 ∧ ({ s.clock with source := 2 } : TimeBase).source ≠ 0) := by decide +kernel

/-- A sleeping module whose wakes 1 to 4 are enabled and whose alarm is due. -/
def sleeping : State := { power := { st := .sleep, thermalShutdown := true, inlet := 119 }, dict := [(entry 0x2401 3, some 15), (entry 0x2401 4, some 1)]
                          time := 1 }
theorem witness_SleepAndWake :
    (let s : State := { inService {} with households := [], suites := [] }
     Served s .own 0x2401 2 1 ∧ (∀ e ∈ s.households, e.2.st ≠ .active) ∧ (∀ e ∈ s.suites, e.2.st = .free)) ∧
    (Served (inService {}) .own 0x2401 2 1 ∧ ∃ e ∈ (inService {}).suites, e.2.st ≠ .free) ∧
    (sleeping.power.st = .sleep ∧ sleeping.wakeEnabled 1 = true ∧ sleeping.wakeEnabled 2 = true ∧ sleeping.wakeEnabled 3 = true ∧
      sleeping.alarmDue = true ∧ sleeping.power.thermalShutdown = true ∧ (∀ x ∈ sleeping.dieTemps, x < 170) ∧
      sleeping.power.inlet < 120 ∧ sleeping.asleep = true) ∧
    (State.reset.power.st ≠ .sleep ∧ ∃ x ∈ ({ inService {} with floors := [(0, { stackTemp := 230 })] } : State).dieTemps, 230 ≤ x) := by
  unfold Served; decide +kernel

/-- A module whose power over the last 10 and 1,000 ms is given, under a cap of 1,000 W. -/
def drawing (means10 means1000 : Nat) : State :=
  { inService {} with dict := [(entry 0x2401 1, some 1000)], power := { st := .active, means10, means1000 } }
theorem witness_PowerControl :
    (isHall 1 = true ∧ 1 ≠ (inService {}).senior ∧ 0 = (inService {}).senior ∧ (drawing 0 0).asleep = false) ∧
    (5 * (drawing 0 0).effectiveCap * 1000000 < 4 * (5 * (drawing 0 0).effectiveCap * 1000000) ∧
      5 * (drawing 9000000000 0).effectiveCap * 1000000 < 4 * (drawing 9000000000 0).power.means10 ∧
      4 * (drawing 0 9000000000).power.means10 ≤ 5 * (drawing 0 9000000000).effectiveCap * 1000000 ∧
      (drawing 0 9000000000).effectiveCap * 1000000 < (drawing 0 9000000000).power.means1000 ∧ 0 < (drawing 0 0).power.clockLimit) ∧
    (Store.wf ({} : Floor) (drawing 0 0).floors = true ∧
      ({ drawing 0 0 with power := { brakePin := true } } : State).power.brownOut = false ∧ (drawing 0 0).power.brakePin = false ∧
      (drawing 0 0).ready = true ∧ (drawing 0 0).power.brownOut = false ∧ State.reset.ready = false ∧ isFloor 3 = true) := by
  decide +kernel

/-- Room 0 of the module in service, changed. -/
def roomed (f : Room → Room) : State := (inService {}).modRoom 0 f
/-- Room 1, which no Suite has, has been free for some time. -/
def idleRoom (power : RoomPower) (time : Nat) : State :=
  { (inService {}).modRoom 1 ({ · with power }) with time, dict := [(entry 0x2401 7, some 10)] }
theorem witness_FloorAndRoomPower :
    (isFloor 3 = true ∧ ((inService {}).modFloor 3 ({ · with phaseLost := true }) |>.floor 3).phaseLost = true ∧
      ((inService {}).floor 3).phaseLost = false ∧ ((inService {}).floor 3).offset < 60 ∧ ((inService {}).floor 3).offsetRaised = none ∧
      { (inService {}).floor 3 with worstMargin := 1 } ≠ {}) ∧
    (((inService {}).room 0).stretched = false ∧ ((inService {}).room 0).power ≠ .doze ∧ ((inService {}).room 0).power ≠ .fenced ∧
      ((roomed ({ · with stretched := true })).room 0).stretched = true) ∧
    ((idleRoom .gated 10000).ready = true ∧ ((idleRoom .gated 10000).room 1).isFree = true ∧
      ((idleRoom .gated 10000).room 1).power = .gated ∧
      ((idleRoom .gated 10000).room 1).freeSince + 1000 * (idleRoom .gated 10000).dictGet 0x2401 7 ≤ (idleRoom .gated 10000).time ∧
      (idleRoom .gated 9999).time < ((idleRoom .gated 9999).room 1).freeSince + 1000 * (idleRoom .gated 9999).dictGet 0x2401 7 ∧
      ((inService {}).room 0).isFree = false ∧ ((idleRoom .clocked 0).room 1).power = .clocked ∧
      ((idleRoom .clocked 0).room 1).atRest = true ∧ ((inService {}).room 0).atRest = false) := by decide +kernel

/-- Hall 0 in a stage of bring-up, which began at time 0. -/
def booting (stage upStep : Nat) (time : Nat) : State :=
  { halls := [(0, { up := HallBringUp.at stage 0 }), (1, { up := HallBringUp.at stage 0 })], power := { upStep }, time }
theorem witness_BringUpEvents :
    ((booting 3 9 0).bringing 0 = true ∧ ((booting 3 9 0).hall 0).up.stage = stepStage 10 ∧ 10 = (booting 3 9 0).power.upStep + 1 ∧
      ((booting 0 0 0).hall 0).up.stage = stepStage 1 ∧ 10 ≤ (booting 3 10 0).power.upStep) ∧
    ((booting 5 10 0).bringing (3 / 2) = true ∧ ((booting 5 10 0).hall (3 / 2)).up.stage = 5 ∧
      ((booting 5 10 0).floor 3).switchGroups < 20 ∧ 20 ≤ (((booting 5 10 0).modFloor 3 ({ · with switchGroups := 20 })).floor 3).switchGroups) ∧
    ({ inService {} with power := { st := .sleep } }.bringing 0 = false ∧ reportable ((booting 0 0 0).hall 0).up.stage 2 = true ∧
      (booting 0 1 0).stageDue 0 0 = false ∧ (booting 0 2 0).stageDue 0 ((booting 0 2 0).hall 0).up.stage = true ∧
      (match (booting 0 2 0).stageWork 0 ((booting 0 2 0).hall 0).up.stage {} with | .inl _ => true | .inr _ => false) = true ∧
      (booting 0 2 19999999).stageTime 0 < stageLimit (booting 0 2 19999999) ((booting 0 2 19999999).hall 0).up.stage ∧
      stageLimit (booting 0 2 20000000) ((booting 0 2 20000000).hall 0).up.stage ≤ (booting 0 2 20000000).stageTime 0) ∧
    ((State.reset.hall 0).svcLow = false ∧ (State.reset.hall 0).hostUp = false ∧ ((inService {}).hall 1).hostUp = true ∧
      ({ power := { st := .off } } : State).power.st = .off ∧ State.reset.power.st ≠ .off) ∧
    ((∀ p, p < 12 → (State.reset.port p).st ≠ 2) ∧ (State.reset.hall 1).hostUp = false ∧
      (({ halls := [(0, { hostUp := true })] } : State).hall 0).hostUp = true ∧
      (({ halls := [(0, { hostUp := true })] } : State).hall 1).hostUp = false ∧
      ((({ halls := [(0, { hostUp := true })] } : State).linkDown 24).hall 1).hostUp = false) := by decide +kernel

/-- A report of class 9 that Hall 0's Ledger has not recorded. -/
def aReport : Report := { cls := 9, code := 1, severity := 2, kind := 0, index := 0 }
def ledgered (l : Ledger) (time : Nat) : State := { (inService {}).modHall 0 ({ · with ledger := l }) with time }
/-- Hall 0's Warden holds a rung on a unit since time 0, or does not run. -/
def wardened (running : Bool) (rungs : List (Nat × UnitRef × Nat)) (time : Nat) : State :=
  { (inService {}).modHall 0 ({ · with warden := { running, rungs } }) with time }
theorem witness_ErrorEvents :
    (((inService {}).hall 0).ledger.next = none ∧ ((ledgered { queue := [aReport] } 0).hall 0).ledger.next = some aReport ∧
      ((ledgered { queue := [aReport] } 0).hall 0).ledger.storm = false ∧ ((inService {}).hall 0).ledger.opened = [] ∧
      ((ledgered { storm := true, calmSince := some 0 } 1000000).hall 0).ledger.calmSince = some 0 ∧
      (inService {}).failSilent = false ∧ ((inService {}).hall 0).ledger.calmSince = none) ∧
    (((wardened false [] 0).hall 0).warden.running = false ∧ ((wardened true [] 0).hall 0).warden.running = true ∧
      (∃ x ∈ ((wardened true [(2, .room 0, 0)] 100000).hall (1 - 1)).warden.rungs,
        x.2.2 + 2 * rungTimeout x.1 ≤ (wardened true [(2, .room 0, 0)] 100000).time) ∧
      max ((wardened false [] 150000).hall 0).warden.lintelLease ((wardened false [] 150000).hall 0).warden.lineLease + 150000 ≤
        (wardened false [] 150000).time) ∧
    (isRung 1 = true ∧ isUnit (.brick 327679) = true ∧ (inService {}).heldRung 1 (.brick 327679) = none ∧
      (wardened true [(2, .room 0, 0)] 49999).heldRung 2 (.room 0) = some (0, 0) ∧
      (wardened true [(1, .brick 327679, 0)] 5000).heldRung 1 (.brick 327679) = some (0, 0)) ∧
    Served (inService {}) .own 0x5030 1 1 := by unfold Served; decide +kernel

/-- Suite 0 in DUPLEX over Rooms 0 and 640, both past Course 0, whose digests are given, with a vote or without. -/
def twoCopies (a b : W64) (vote : Option Vote) : State :=
  ((((inService { course := { ordinal := 1 }, digests := [(0, a)] }).modSuite 0 fun x => { x with
    mode := .duplex, rooms := [(some 0, some 640)], present := (true, true), vote }).modRoom 640 fun x => { x with
      member := some ⟨0, 1, 0, false⟩, power := .clocked, digests := [(0, b)], course := { ordinal := 1 }
      foreman := { run := .running } }))
/-- The module is half of a pair over port 11, whose partner is lost or not. -/
def paired (lost : Bool) (state time : Nat) : State :=
  { inService {} with
    dict := [(entry 0x286B 1, some 6), (entry 0x5200 4, some 7), (entry 0x5200 5, some state), (entry 0x5C00 5, some 1)]
    mortar := [(11, { st := 2, lanes := 4 })], pair := { lost }, time }
theorem witness_RedundancyEvents_rooms :
    ((noStep (inService {})).suite 0).step = none ∧ ((inService {}).suite 0).compares = false ∧
      ((twoCopies 5 5 none).suite 0).compares = true ∧ ((twoCopies 5 5 none).suite 0).vote = none ∧
      (twoCopies 5 5 none).hasResult 0 0 0 = true ∧ (twoCopies 5 5 none).agreeAt 0 0 0 = true ∧
      ((List.range ((twoCopies 5 6 none).suite 0).ordinals).filter fun o => !(twoCopies 5 6 none).agreeAt 0 o 0) = [0] ∧
      0 < ((twoCopies 5 6 none).suite 0).ordinals ∧ someStep.compared = 0 ∧
      (((twoCopies 5 6 none).modRoom 640 ({ · with digests := [] })).hasResult 0 0 0) = false ∧
      ((inService {}).room 1).member = none ∧ ((inService {}).room 0).course.overrun = false ∧
      ((inService {}).room 0).course.start + 250000 < 250001 ∧ (inService {}).suiteOf 0 = some 0 ∧
      (twoCopies 5 6 (some ⟨0, [], [0], false⟩)).loadSource 0 0 = some 640 := by decide +kernel
theorem witness_RedundancyEvents_halls :
    ((wardened false [] 0).leases 0 = false ∧ (wardened true [] 149999).leases 0 = true ∧
      (wardened true [] 149999).time < max ((wardened true [] 149999).hall 0).warden.lintelLease ((wardened true [] 149999).hall 0).warden.lineLease + 150000 ∧
      ((inService {}).hall 0).lost = false ∧ ((inService {}).hall 1).lost = false ∧
      (((inService {}).modHall 1 ({ · with lost := true })).hall 1).lost = true) ∧
    ((paired false 0 0).pairRole ≠ 0 ∧ (paired false 0 0).portDirection 11 = 6 ∧ (paired false 0 0).portUp 11 = true ∧
      6 < (paired false 0 0).pairEpoch ∧ (paired false 0 0).pairEpoch ≤ 7 ∧ Store.wf none (paired false 0 0).dict = true ∧
      (paired false 0 0).pair.lost = false ∧
      (paired false 0 0).pair.arbiterIn = false ∧ (∀ o ∈ (paired false 0 200000).pairPorts, ((paired false 0 200000).port o).lastLease + 200000 ≤ 200000) ∧
      (paired true 3 0).pair.lost = true ∧ (paired true 3 0).pairState = 3 ∧ (paired true 2 0).pairState = 2 ∧
      (paired true 2 100000).pair.claimAt + 100000 ≤ (paired true 2 100000).time) ∧
    (isUnit (.wing 1) = true ∧ isFloor 3 = true ∧ ((inService {}).floor 3).powerGood = false ∧ ((inService {}).floor 0).powerGood = true) := by
  decide +kernel

/-- A module in TEST or SEALED with a key slot 0 of household 1 that holds a blob key, and a challenge. -/
def secured (lifecycle : Nat) (openHouse alarm : Bool) : State :=
  { owned with
    dict := [(entry 0x5D00 0, some 0x4001), (entry 0x5C00 4, some 0x3F)]
    security := { lifecycle, openHouse, alarm, keys := [(0, some (List.replicate 32 0))], challenge := some ([7], 0) }
    pages := [(4, { holder := 1 }), (5, { holder := 1 })] }
/-- LC_ADVANCE of a module whose serial is zeros, to SEALED. -/
def lifeToken : List Byte := [1, 2] ++ List.replicate 174 0
/-- BLOB_DECRYPT of 64 bytes at 0x4000 to 0x5000 with slot 0. -/
def blobJob : List Byte := [1, 0, 0, 0, 64, 0, 0, 0] ++ leBytes 8 0x4000 ++ leBytes 8 0x5000 ++ List.replicate 8 0
theorem witness_SecurityCommands_engine :
    Served (secured 1 false false) .own 0x5401 2 lifeToken.length ∧ (lifeToken.drop 4).take 16 = (secured 1 false false).security.serial ∧
      (secured 1 false false).trustKey.isSome = true ∧ fieldOf lifeToken 1 1 = (secured 1 false false).security.lifecycle + 1 ∧
      (secured 1 false false).security.alarm = false ∧ (secured 1 false false).gate .own 0x5402 3 false = none ∧
      (secured 1 false false).chanDead .own = false ∧ (secured 1 false true).security.alarm = true ∧
      (secured 1 false false).security.resetAt = none ∧
      ({ (secured 1 false false).security with resetAt := some 5 } : Security).resetAt = some 5 ∧
      (secured 2 false false).challengeOld = false ∧ State.reset.challengeOld = true ∧ bitOf (secured 2 false false).policy 1 = true ∧
      Served (secured 2 false false) .own 0x5402 4 96 ∧ 0 < (secured 2 false false).tokensLeft ∧
      (∀ e ∈ (secured 2 false false).households, ¬ (e.2.st = .active ∧ (secured 2 false false).envFlag e.1 0 = true)) := by
  unfold Served; decide +kernel
theorem witness_SecurityCommands_slots :
    (Served (secured 2 false false) chan1 0x5501 0x20 33 ∧ (secured 2 false false).ownsSlot 1 0 = true ∧
      (secured 2 false false).houseActive 1 = true ∧ (secured 2 false false).keysPermitted = true ∧
      Served (secured 2 false false) chan1 0x5501 0x22 1740 ∧
      (secured 2 false false).latchStands 1 (List.replicate 1740 0) ⟨0, 0, 0, [], [], [], 2⟩ = true ∧
      (secured 2 false false).latchStands 1 (List.replicate 1740 0) ⟨1, 0, 0, [], [], [], 2⟩ = false ∧
      Served (secured 2 false false) chan1 0x5501 0x23 1) ∧
    (Served (secured 2 false false) chan1 0x5501 0x30 blobJob.length ∧ (secured 2 false false).holds 1 0x4000 (64 + 80) = true ∧
      (secured 2 false false).holds 1 0x5000 (max 1 64) = true ∧ (secured 2 false false).slotKind 0 = 1 ∧ fieldOf blobJob 0 1 = 1 ∧
      fieldOf blobJob 1 1 = 0 ∧ fieldOf blobJob 4 4 = 64 ∧ fieldOf blobJob 8 8 = 0x4000 ∧ fieldOf blobJob 16 8 = 0x5000 ∧
      ((secured 2 false false).slotKey 0).isSome = true ∧ ((secured 2 false false).house 1).blob = none) ∧
    (isTamper 5 = true ∧ bitOf (secured 2 false false).policy 5 = true ∧ (secured 2 false false).ready = true ∧
      (secured 2 false false).keyBusy = false ∧ (secured 2 false false).hostLink 1 = true ∧
      (secured 2 true false).spdmSlot 1 = true ∧ (secured 2 true false).spdmSlot 0 = false ∧
      ({ secured 2 false false with security := { lifecycle := 2, chainMatches := true } } : State).spdmSlot 0 = true) := by
  unfold Served; decide +kernel

/-! ### States and operands for the further clauses of those statements -/

/-- Room 0 with a closed guard slot of its tile, which a GRECV that is still to complete has closed. -/
def receiving : State := macState.modRoom 0 fun x => { x with
  course := { x.course with slots := [{ layer := 0, tile := 0, isOpen := false }] }
  gutter := [{ isSend := false, tree := 0, round := 0, tile := tileOf 0x07 0 1 16 0, order := false, piecesLeft := 0, slot := 0 }] }
/-- Room 0 with an open guard slot of its tile. -/
def slotOpen : State := macState.modRoom 0 fun x => { x with course := { x.course with slots := [{ layer := 0, tile := 0 }] } }
theorem witness_SpecialRegisters_clauses : Executes receiving 0 always ∧ GoesOn receiving 0 ∧
    (receiving.room 0).slotPending ((receiving.room 0).foreman.desc 0).layer ((receiving.room 0).foreman.desc 0).tile = true ∧
    (macState.room 0).slotPending ((macState.room 0).foreman.desc 0).layer ((macState.room 0).foreman.desc 0).tile = false ∧
    (inService {}).ladder? 0 ((((inService {}).room 0).foreman.reg 0 + (1 : BitVec 12).signExtend 64).toNat % 4096) = none := by
  unfold Executes GoesOn; decide
theorem witness_TileMoves_descriptors : RegistersOk ((roomZero { s := [(1, 0xFFFE0)] }).room 0).foreman ∧
    Executes (roomZero { s := [(1, 0xFFFE0)] }) 0 always ∧ GoesOn (roomZero { s := [(1, 0xFFFE0)] }) 0 ∧
    (((roomZero { s := [(1, 0xFFFE0)] }).room 0).foreman.reg 1).toNat = 0xFFFE0 ∧ (7 : BitVec 5).toNat < 8 := by
  unfold RegistersOk Executes GoesOn; decide
theorem witness_RoomDma_transfers : ((moving true).room 0).dma.map (fun x => (x.lost, x.isGet, x.sent)) = [(false, true, false)] ∧
    ((moving false).room 0).dma.map (fun x => (x.lost, x.isGet, x.sent)) = [(false, false, false)] ∧
    (((moving true).modRoom 0 fun x => { x with dma := x.dma.map ({ · with lost := true }) }).room 0).dma.map (·.lost) = [true] := by
  decide
theorem witness_MatrixLane_completes : Executes slotOpen 0 always ∧ GoesOn slotOpen 0 ∧ (macState.room 0).upsets = [] ∧
    ((macState.room 0).course.slots.filter (·.isOpen)).length < 16 ∧ (slotOpen.room 0).upsets = [] ∧
    mmaFault ((slotOpen.room 0).foreman.desc 0) ((slotOpen.room 0).foreman.desc 1) ((slotOpen.room 0).foreman.desc 2) false
      (slotOpen.portion 0) = none ∧ foldFault ((slotOpen.room 0).foreman.desc 0) (slotOpen.portion 0) = none ∧
    (∃ x ∈ (slotOpen.room 0).course.slots, x.layer = ((slotOpen.room 0).foreman.desc 0).layer ∧
      x.tile = ((slotOpen.room 0).foreman.desc 0).tile ∧ x.isOpen = true) ∧
    (slotOpen.room 0).laneMap = [] ∧
    Store.wf ({} : Brick) (slotOpen.room 0).bricks = true := by unfold Executes GoesOn; decide
/-- No two of the present lanes share a Brick, and every accumulator store is in order: the rest of what MMA and FOLD ask. -/
theorem witness_MatrixLane_bricks : (∀ k, Store.wf (0 : W32) ((slotOpen.room 0).brick k).acc = true) ∧
    ∀ j k, j < slotOpen.lanes 0 → k < slotOpen.lanes 0 → (slotOpen.room 0).brickOf j = (slotOpen.room 0).brickOf k → j = k :=
  ⟨fun _ => rfl, fun _ _ _ _ h => h⟩
theorem witness_FoldRule_launch : (slotOpen.room 0).laneMap = [] ∧
    (({} : Room).launch { code := [], micro := [] } 0 0 16 0).laneMap = lanesMapOf {} 16 := by decide
theorem witness_PlumbChecks_conversions :
    convaFault ((slotOpen.room 0).foreman.desc 3) ((slotOpen.room 0).foreman.desc 0) ((slotOpen.room 0).foreman.desc 4) 0x10
      (slotOpen.lanes 0) (slotOpen.portion 0) = none ∧ ((slotOpen.room 0).foreman.desc 3).space = 0 ∧
    (0x10 : BitVec 5).getLsbD 2 = false ∧
    ((plumbState 0 []).room 0).course.slots.length < 16 ∧
    convtFault (tileOf 0x02 0 1 16 0) (tileOf 0x02 0 1 16 0) 0 ((plumbState 0 []).portion 0) = none ∧
    (tileOf 0x02 0 1 16 0).rows = 1 ∧ fmtBlock (tileOf 0x02 0 1 16 0).fmt = 0 ∧
    (let p := (plumbState 0 []).readMany (dmaPort 0) 0 ((List.range 16).map fun n => (16 * n, 16)) false
     ((State.charged (dmaPort 0) 0 false ((List.range 16).map fun n => (16 * n, 16)) p).1 = .ok (List.replicate 256 0) ∧
      ((State.charged (dmaPort 0) 0 false ((List.range 16).map fun n => (16 * n, 16)) p).2.room 0).foreman =
        ((plumbState 0 []).room 0).foreman)) := by decide +kernel
theorem witness_MicroSequence_upld : Executes macState 0 always ∧ GoesOn macState 0 ∧
    (tileOf 0x02 0 1 1 0xEFFE0).check (macState.portion 0) = none ∧ (tileOf 0x02 0 1 1 0xEFFE0).space = 0 ∧
    ((macState.room 0).foreman.reg 1).toNat % 256 + 1 ≤ 256 ∧ Store.wf (0 : W64) (macState.room 0).microStore = true := by
  unfold Executes GoesOn; decide
theorem witness_GutterSend_clauses :
    (((treed [] []).suite 0).round 0 0 0).failed = false ∧ ((treed [] []).room 0).headOf 0 = none ∧
    2 * (((treed [] []).tree 0 0).localNode ((treed [] []).ordinalOf 0)).getD 0 ∉ (((treed [] []).suite 0).round 0 0 0).arrived ∧
    (((treed [arrived] [sending]).room 0).headOf 0).map (fun x => (x.isSend, x.tree, x.round)) = some (true, 0, 0) ∧
    2 * (((treed [arrived] [sending]).tree 0 0).localNode ((treed [arrived] [sending]).ordinalOf 0)).getD 0 ∈
      (((treed [arrived] [sending]).suite 0).round 0 0 0).arrived ∧
    (((treed [] [{ sending with isSend := false }]).room 0).headOf 0).map (·.isSend) = some false ∧
    (((treed [] []).modSuite 0 ({ · with vote := some ⟨0, [(0, 1)], [], true⟩ })).listener 0) = true := by decide
theorem witness_GutterReceiveAndWait_clauses :
    ((((treed [arrived] []).room 0).course.openSlot 0 0).map (·.slots)) = some [{ layer := 0, tile := 0 }] ∧
    (((treed [arrived] []).suite 0).round 0 0 0).failed = false ∧
    ((((treed [arrived] []).modRoom 0 fun x =>
      { x with course := { x.course with slots := (List.range 16).map fun k => { layer := 1, tile := k } } }).room 0).course.openSlot 0 0) = none ∧
    (∀ x ∈ ((treed [arrived] []).room 0).gutter, bitOf ((1 : BitVec 16).toNat % 256) (x.tree % 8) = false) := by decide
theorem witness_GutterReduce_ready : (treed [arrived] [sending]).nodeReady 0 0 0 0 0 0 = true ∧
    ((treed [arrived] [sending]).tree 0 0).op = 0 := by decide
/-- Room 0 with a tile that the array's checksum comparison flagged in this Course. -/
theorem witness_CourseBoundary_flag : ((inService {}).room 0).course.flagged = [] ∧ (inService {}).confirmed 0 = none ∧
    Executes (inService {}) 0 always ∧ GoesOn (inService {}) 0 := by unfold Executes GoesOn; decide
theorem witness_Barriers_last : Store.wf ({} : Room) (pairOfRooms 1).rooms = true ∧ isSuite 0 = true ∧ isCopy 0 = true ∧
    GoesOn ((inService {}).modForeman 0 ({ · with run := .barrier 15 })) 0 ∧
    ((inService {}).modForeman 0 ({ · with run := .barrier 15 }) |>.room 0).grout = none ∧
    (((inService {}).modRoom 0 ({ · with grout := some { since := 0, level := 16, taper := 0 } })).room 0).grout =
      some { since := 0, level := 16, taper := 0 } := by unfold GoesOn; decide
/-- Suite 0 in DUPLEX over Rooms 0 and 640, at the same ordinal; neither has faulted. -/
theorem witness_ProgramFaults_copies : someStep.committing = false ∧
    (let s := ((inService {}).modSuite 0 fun x => { x with mode := .duplex, rooms := [(some 0, some 640)], present := (true, true) }).modRoom
        640 fun x => { x with member := some ⟨0, 1, 0, false⟩ }
     s.twins 0 = [640] ∧ (s.suite 0).compares = true ∧
      ∀ q ∈ s.twins 0, q ≠ 0 → hasFaulted (s.room q) (s.room 0).course.ordinal = false) := by decide

theorem witness_ContextCommands_ends :
    ((inService {}).ctx? 0).map (fun x => (x.st, x.hostUsed, Store.wf ({} : Queue) x.queues)) = some (.opened, [], true) ∧
    Store.wf none (noStep (inService {})).contexts = true ∧ (noStep (inService {})).awaits 0 = false ∧
    (∀ j, (noStep (inService {})).inFlight 0 j = false) ∧ ((noStep (inService {})).suite 0).draining = false ∧
    (((noStep (inService {})).suite 0).step.map (·.ctx)) ≠ some 0 ∧ (inService {}).inFlight 0 0 = true ∧
    (0 : Byte).toNat < 16 ∧ (((inService {}).modStep 0 ({ · with phase := 1 })).suite 0).step.map (·.committing) = some true := by
  refine ⟨by decide, by decide, by decide, fun j => ?_, by decide, by decide, by decide, by decide, by decide⟩
  simp [State.inFlight, noStep]
  rfl
/-- Suite 0's step has run for its slice beside a rival context, whose queue is ready, or not. -/
def slicing (rival : Bool) : State :=
  let s := (queued true false).modSuite 0 ({ · with slice := 1, step := some { someStep with ctx := 1 } })
  let x : Context := { household := 1, suite := 0, pasid := 8, home := 0, serving := 0, queues := [(0, { st := .opened })] }
  let s := s.setCtx 1 (some x)
  { (if rival then s else s.setCtx 0 none) with time := 100000 }
theorem witness_DescriptorEvents_slice :
    ((slicing true).suite 0).step.map (fun st => (st.committing, st.ctx, st.queue)) = some (false, 1, 0) ∧
    ((slicing true).ctx? 1).map (fun x => ((x.queue 0).sliced, (slicing true).served x, (x.queue 0).st)) = some (false, true, .opened) ∧
    ((slicing true).suite 0).slice ≠ 0 ∧ someStep.dispatched + ((slicing true).suite 0).slice * 100000 ≤ (slicing true).time ∧
    (let s1 := (((slicing true).queuesOf 0).filter (·.1 != 1)).foldl (fun s e => s.recheck e.1 e.2.1) (slicing true)
     ∃ e ∈ s1.queuesOf 0, e.1 ≠ 1 ∧ Queue.ready e.2.2.1 e.2.2.2 = true) ∧
    (let s1 := (((slicing false).queuesOf 0).filter (·.1 != 1)).foldl (fun s e => s.recheck e.1 e.2.1) (slicing false)
     ∀ e ∈ s1.queuesOf 0, e.1 ≠ 1 → Queue.ready e.2.2.1 e.2.2.2 = false) := by decide +kernel
theorem witness_Landings_phases : someStep.failing = none ∧ { someStep with failing := some 0x24 }.failing = some 0x24 ∧
    { someStep with phase := 7 }.phase = 7 ∧
    (let s := (inService {}).modStep 0 ({ · with phase := 7 })
     (s.suite 0).step.map (fun st => (st.failing, st.phase, st.ctx, st.queue)) = some (none, 7, 0, 0) ∧
      (s.ctx? 0).map (fun x => (x.st, x.nextRoot, (x.queue 0).st, (x.queue 0).skipped, (s.house x.household).st)) =
        some (.opened, none, .opened, [], .active)) ∧
    ((0, { suite := 0, copy := 0, ordinal := 0, spare := false }) ∈ ((inService {}).suite 0).places 0 ∧
      ∀ e ∈ ((inService {}).suite 0).places 0, e.2.spare = false ∧ ((inService {}).suite 0).has e.2.copy = true) := by decide
theorem witness_AddressCommands_admitted :
    owned.admitted [4095] = false ∧
    ({ owned with waiters := [{ window := some 4095, addr := 16384, acc := remoteRead 0 }] } : State).admitted [4095] = true ∧
    (∀ y ∈ owned.stalls, owned.houseOf y.ctx ≠ 1) ∧ (4095 : BitVec 16).toNat < 4096 ∧
    bitsOf (0x0100000000000000#64).toNat 43 42 = 0 ∧ bitsOf (0x0100040000000000#64).toNat 43 42 = 1 ∧
    bitsOf (0x0100080000000000#64).toNat 43 42 = 2 := by decide +kernel
theorem witness_WalksAndArrivals_clauses :
    (Store.wf ({} : Room) (faulting [] 0 0).rooms = true ∧ (faulting [] 0 0).stepOf (1 % 1280) = none ∧
      (faulting [] 0 0).suiteOf (1 % 1280) = none ∧ 1 < 2560) ∧
    ((trained owned).failSilent = false ∧ ({ trained owned with failSilent := true } : State).failSilent = true ∧
      (∀ p ∈ pageStarts 16384 64, (trained owned).isWashing (p / 4096) = false) ∧
      (∀ l ∈ linesOf 16384 64, (trained owned).dirFind l = none ∧ (trained owned).lineElsewhere l = none) ∧
      (∀ u ∈ unitsOf 16384 64, (trained owned).unitBad u = false)) ∧
    (({} : State).windowRefusals[0]? = none ∧
      ({ windowRefusals := [⟨remoteRead 0, 0⟩] } : State).windowRefusals[0]? = some ⟨remoteRead 0, 0⟩) := by decide +kernel
/-- A module whose policy lets hosts into BAR4, at the size that host 0 has set, or before self-test has ended. -/
def bar4 (stage : Nat) : State :=
  { inService {} with
    dict := [(entry 0x5C00 4, some 1)]
    halls := [(0, { hostUp := true, bar4Size := some 28, up := { stage } }), (1, { up := { stage } })] }
theorem witness_HostAccesses_bar4 :
    ((bar4 10).bar4Log2 0 = 28 ∧ 16384 + 64 ≤ 2 ^ 28 ∧ (bar4 10).hostLink 0 = true ∧ (bar4 10).failSilent = false ∧
      9 ≤ ((bar4 10).hall 0).up.stage ∧ ((bar4 10).hall 0).bar4Base = 0 ∧ populatedRange 16384 64 = true ∧
      (∀ p ∈ pageStarts 16384 64, ((bar4 10).page (p / 4096)).isProtected = false) ∧
      (∀ l ∈ linesOf 16384 64, (bar4 10).dirFind l = none ∧ (bar4 10).lineElsewhere l = none) ∧
      (∀ u ∈ unitsOf 16384 64, (bar4 10).unitBad u = false)) ∧
    ((bar4 8).hall 0).up.stage < 9 ∧ (bar4 8).bar4Log2 0 = 28 ∧
    ({ inService {} with dict := [(entry 0x5C00 4, some 0)] } : State).bar4Log2 0 = 0 := by decide +kernel
theorem witness_HostAccesses_stalls :
    ((faulting [stalledAt (some 1)] 1 0).bellLive 0 0 = true ∧
      (faulting [stalledAt (some 1)] 1 0).stalls.filter (·.covered 0 1) = [stalledAt (some 1)] ∧ (stalledAt (some 1)).port < 2560 ∧
      Store.wf ({} : Room) (faulting [stalledAt (some 1)] 1 0).rooms = true ∧
      (let s := (faulting [{ stalledAt (some 1) with port := 1 }] 1 0)
       s.stalls.filter (·.covered 0 1) = [{ stalledAt (some 1) with port := 1 }] ∧ s.stepOf (1 % 1280) = none ∧ s.suiteOf (1 % 1280) = none)) ∧
    (4 ≠ 8 ∧ (2 : Byte) ≠ 1 ∧ ({ failSilent := true } : State).failSilent = true ∧ (inService {}).failSilent = false) := by
  decide +kernel
theorem witness_HouseholdCommands_clauses :
    (let s := { owned with contexts := [], suites := [] }
     s.contextsHeld 1 = [] ∧ s.suitesOf 1 = [] ∧ (s.house 1).blob = none ∧ Store.wf ({} : Household) s.households = true ∧
      Store.wf ({} : Page) s.pages = true ∧ s.houseActive 1 = true ∧ Served s .own 0x3001 2 1) ∧
    (owned.admitted (owned.windowsOn 4 1) = false ∧ owned.windowsOn 4 1 = [4095] ∧
      ({ owned with waiters := [{ window := some 4095, addr := 16384, acc := remoteRead 0 }] } : State).admitted (owned.windowsOn 4 1) = true) ∧
    (let s := { owned with pages := [(9, { washing := true })] }
     Memory.wf s.hbm = true ∧ (∀ x ∈ unitsOf (9 * 4096) 4096, s.usableAt (x * 64) = true ∧ s.badUnits.contains x = false)) ∧
    (let s := { paired false 0 0 with blobs := owned.blobs }
     bitsOf (0x01800007#32).toNat 31 24 = 1 ∧ bitsOf (0x01800007#32).toNat 23 22 = 2 ∧ s.pairRole ≠ 0 ∧
      Served s chan1 0x3001 0x20 4 ∧ bitOf (s.envModes 1) 2 = true ∧ s.houseActive 1 = true ∧ (s.house 1).st ≠ .closing ∧
      (s.suitesOf 1).length < s.envSuites 1 ∧ (List.range 256).find? (fun n => (s.suite n).st == .free) = some 1) := by unfold Served; decide +kernel

/-- A household of one key, without contexts or Suites, whose image is being written or read back. -/
def imaging (st : HouseState) (save : Bool) : State :=
  (({ keyed (houseIn st) with suites := [] }).modHouse 1 ({ · with image := some (0, save) }))
/-- The header of an image of no Suites and no contexts, of 80 bytes in all. -/
def imageHead : List Byte := [1, 1, 0, 0, 0, 0, 0, 0, 80] ++ List.replicate 55 0
theorem witness_FreezeAndMigrate_ends :
    ((houseIn .active).contextsHeld 1 = [] ∧ ({ houseIn .active with suites := [] } : State).suitesOf 1 = [] ∧
      ((houseIn .freezing).house 1).st = .freezing ∧ ((houseIn .inactive).house 1).st = .inactive ∧
      ((houseIn .closing).house 1).st = .closing) ∧
    ((imaging .frozen true).failSilent = false ∧ ((imaging .frozen true).house 1).image = some (0, true) ∧
      (imaging .frozen true).migrationKey 1 = some (List.replicate 32 0) ∧ ((imaging .frozen true).house 1).st = .frozen ∧
      (imaging .frozen true).hostLink (imageHall 0) = true) ∧
    (let s := { imaging .active false with hostReads := [{ hall := 0, addr := 0, len := 64, answer := some (.data imageHead) },
       { hall := 0, addr := 64, len := 16, answer := some (.data (List.replicate 16 0)) }] }
     (s.house 1).image = some (0, false) ∧ (s.hostFetch (imageHall 0) (imageAddr 0) 64).1 = .ok imageHead ∧
      fieldOf imageHead 0 1 = 1 ∧ fieldOf imageHead 1 1 = 1 ∧ fieldOf imageHead 2 2 = (s.imageSuites 1).length ∧
      80 ≤ fieldOf imageHead 8 8 ∧ (s.hostFetch (imageHall 0) (imageAddr 0 + 64) (fieldOf imageHead 8 8 - 64)).1 = .ok (List.replicate 16 0) ∧
      s.migrationKey 1 = some (List.replicate 32 0) ∧
      (match s.loadHousehold 1 (fieldOf imageHead 4 2) [] with | .ok _ => true | _ => false) = true) := by decide +kernel

/-- A change is accepted where its spares are found and the Rooms and the bandwidth fit. -/
def accepted (s : State) (n : Nat) (c : Change) (named chosen : List Nat) : Bool :=
  match s.withSpares n c (named ++ chosen) with
  | some y => s.roomsFit (s.suite n).owner (y.holds.filter fun r => !(s.suite n).holds.contains r).length && s.bandwidthFits n y
  | none => false
theorem accepts_of_accepted {s : State} {n : Nat} {c : Change} {named chosen : List Nat} (h : accepted s n c named chosen = true) :
    Accepts s n c named chosen := by
  unfold accepted at h
  split at h
  · rename_i y hy
    exact ⟨y, hy, (Bool.and_eq_true _ _ ▸ h).1, (Bool.and_eq_true _ _ ▸ h).2⟩
  · cases h
theorem witness_SuiteChanges_accepted : Accepts owned 0 (.add false [(some 5, none)] false) [5] [] ∧ Accepts owned 0 (.remove 1) [] [] ∧
    Accepts owned 0 (.move 0 0 5) [5] [] ∧ Accepts owned 0 (.bindGroup 96) [] [] ∧
    Accepts (binding [96] []) 0 (.unbindGroup 96) [] [] ∧ Accepts owned 0 (.bindPort 19) [] [] ∧
    Accepts (binding [] [11]) 0 (.unbindPort 11) [] [] :=
  ⟨accepts_of_accepted (by decide +kernel), accepts_of_accepted (by decide +kernel), accepts_of_accepted (by decide +kernel),
    accepts_of_accepted (by decide +kernel), accepts_of_accepted (by decide +kernel), accepts_of_accepted (by decide +kernel),
    accepts_of_accepted (by decide +kernel)⟩
/-- Suite 0 without a step, at a boundary with one change that sets no Rooms. -/
def atBoundary : State := (noStep owned).modSuite 0 fun x => { x with changes := [.bindGroup 96], acceptedGen := 1 }
theorem witness_ConfigurationEvents_settings :
    ((atBoundary.suite 0).draining = false ∧ (atBoundary.suite 0).step = none ∧ (atBoundary.suite 0).st = .active ∧
      (atBoundary.suite 0).applying = none ∧ (atBoundary.suite 0).mode = .simplex ∧ (atBoundary.suite 0).changes = [.bindGroup 96] ∧
      (∀ c ∈ (atBoundary.suite 0).changes, c.places = false) ∧ (atBoundary.suite 0).spares = [] ∧
      ((atBoundary.suite 0).changes.foldl Suite.applyChange (atBoundary.suite 0)).cache = (atBoundary.suite 0).cache ∧
      (atBoundary.suite 0).refill = false ∧ (atBoundary.suite 0).allRooms = [0] ∧
      (∀ q ∈ (atBoundary.suite 0).allRooms, (atBoundary.room q).usable = true ∧
        ((atBoundary.suite 0).changes.foldl Suite.applyChange (atBoundary.suite 0)).lanes ≤ (atBoundary.room q).bricksUp ∧
        (atBoundary.room q).cutOff = false ∧ (atBoundary.room q).joining = false) ∧ (atBoundary.house 1).st ≠ .closing) ∧
    (let s := (noStep owned).modSuite 0 ({ · with st := .releasing })
     (s.suite 0).draining = false ∧ (s.suite 0).step = none ∧ Store.wf ({} : Suite) s.suites = true ∧
      (s.house (s.suite 0).owner).st ≠ .closing) ∧
    (let s := (owned.modRoom 0 ({ · with joining := true })).modSuite 0 fun x => { x with applying := some 5, moves := [] }
     (s.room 0).joining = true ∧ (s.room 0).power ≠ .doze ∧ s.suiteOf 0 = some 0 ∧ (s.suite 0).applying = some 5 ∧
      (s.suite 0).moves = [] ∧ (∀ q ∈ (s.suite 0).allRooms, q ≠ 0 → (s.room q).joining = false) ∧
      ((s.modRoom 0 ({ · with power := .doze })).room 0).power = .doze) ∧
    (let s := { owned.modSuite 0 ({ · with mode := .paired, waitSince := 1 }) with time := 100000001 }
     (s.suite 0).mode = .paired ∧ (s.suite 0).waitSince ≠ 0) ∧ (owned.suite 0).applying = none := by decide +kernel
theorem witness_ChannelCommands_bar0 :
    ((inService {}).hostServes 1 = true ∧ [(1 : Byte)] ≠ [] ∧ [(1 : Byte)].length ≤ 8 ∧ (inService {}).asleep = false ∧
      (inService {}).hostLink 1 = true) ∧
    ((Store.get {} ((windowed false none).hall 1).channels 0).request = .empty ∧
      (Store.get {} ((windowed false none).hall 1).channels 0).busy = false) ∧
    (let s := (inService {}).modChannel 1 0 ({ · with control := 0x40004000 })
     s.hostServes 1 = true ∧ (Store.get {} (s.hall 1).channels 0).busy = false ∧
      ctlRemote (Store.get {} (s.hall 1).channels 0).control = true ∧ ctlNode (Store.get {} (s.hall 1).channels 0).control ≠ s.node) ∧
    (let s := (inService {}).modHall 0 ({ · with nmt := .stopped })
     s.canAlive 0 = true ∧ (s.hall 0).nmt = .stopped ∧ s.failSilent = false) := by decide +kernel
theorem witness_ChannelCommands_uploads : (inService {}).chanDead chan1 = false ∧ isChan chan1 = true ∧ (1 : Nat) ≠ 0xFF := by decide
theorem witness_CanDevice_alive : isHall 1 = true ∧ (inService {}).asleep = false ∧ (inService {}).failSilent = false := by decide

/-- A PUTM with its data reaches the home of a line that Room 0 owns. -/
def homePutm (usable : Bool) : State :=
  { home .putm (entry0 none) [] none with
    net := [message .putm (some (List.replicate 128 1)) false]
    pcs := if usable then [] else (List.range 32).map fun k => (k, { failed := true }) }
theorem witness_HomeMessages_clauses :
    ({ home .gets none [] none with reservations := [(128, 1)] } : State).keptOut 0 128 = true ∧
    (match (home .gets none [] none).takeMsg .gets 0 128 with | some (_, t) => t.keptOut 0 128 | none => true) = false ∧
    (((homePutm true).takeMsg .putm 0 128).map (·.1.bytes.isSome)) = some true ∧
    (match (homePutm true).takeMsg .putm 0 128 with
     | some (m, t) => (t.hbmWrite (128 * 128) (m.bytes.getD [])).2 | none => false) = true ∧
    (match (homePutm false).takeMsg .putm 0 128 with
     | some (m, t) => (t.hbmWrite (128 * 128) (m.bytes.getD [])).2 | none => true) = false ∧
    (home .putm (entry0 none) [] none).waiters = [] ∧ (owner0 none).lists 0 = true ∧
    ({ owner0 none with st := .shared, sharers := .exact [0, 1] } : DirEntry).lists 0 = true ∧
    ({ owner0 none with st := .shared } : DirEntry).st = .shared ∧ (owner0 none).st = .excl ∧
    (txnOf 1 true).map (fun x => (x.evicting, x.requester, x.fwdAckDue)) = some (false, some 1, true) := by decide +kernel
/-- A message that Room 0 takes, and the Room that it reaches, satisfy `f`. -/
def reached (k : CohKind) (s : State) (f : CohMsg → Room → Bool) : Bool :=
  match s.takeMsg k 0 128 with
  | some (m, t) => f m ((t.reachRoom 0).room 0)
  | none => false
def missed : Miss := { line := 128, exclusive := true }
theorem witness_CacheMessages_reached :
    (((home .fwdGets none [.m] none).room 0).isParked = false ∧
      (((home .fwdGets none [.m] none).modRoom 0 ({ · with power := .doze })).room 0).isParked = true) ∧
    (∀ k ∈ [CohKind.fwdGets, .fwdGetm, .recall], reached k (home k none [.m] none) (fun m x =>
      (x.cache.held 128).map (·.st) == some .m && m.peer == some 1279) = true) ∧
    reached .fwdGetm (home .fwdGetm none [] none) (fun _ x => (x.cache.held 128).isNone) = true ∧
    reached .inv (home .inv none [.o] none) (fun _ x => (x.cache.line? 128).map (·.st) == some .o) = true ∧
    reached .data { home .data none [] (some missed) with net := [message .data (some (List.replicate 128 1)) false] }
      (fun m x => m.bytes.isSome && m.take == .m && m.count == 0 && x.cache.miss == some missed) = true ∧
    Store.wf ({} : Room) (home .data none [] (some missed)).rooms = true ∧
    reached .nack (home .nack none [] (some missed)) (fun _ x => x.cache.miss == some missed) = true := by decide +kernel
theorem witness_CacheMessages_misses :
    (((home .gets none [] (some { missed with granted := some .m, data := some [1], acksDue := some 1, acks := 1 })).room
      0).cache.miss.map fun x => (x.granted, x.data, x.acksDue, x.acks)) = some (some .m, some [1], some 1, 1) ∧
    (home .gets none [] (some { missed with retryAt := 5 })).time < 5 ∧
    5 ≤ ({ home .gets none [] (some { missed with retryAt := 5 }) with time := 5 } : State).time := by decide +kernel
theorem witness_MemoryEvents_regulators :
    (((inService {}).refill 0).nextRequest 0 = none ∧ ((regulated 256000).refill 0).nextRequest 0 = some aRead ∧
      ((regulated 256000).refill 0).mayIssue 0 aRead = true ∧
      (let s := { regulated 256000 with pcs := [((regulated 256000).pcOf 0, { queue := List.replicate 64 aRead })] }
       (s.refill 0).nextRequest 0 = some aRead ∧ (s.refill 0).mayIssue 0 aRead = false) ∧
      isCopyPort 0 = false ∧ regClass (((regulated 256000).refill 0).portSetting 0) ≠ 0 ∧
        ((regulated 256000).refill 0).deadlineAt (((regulated 256000).refill 0).portSetting 0) aRead =
        (none, false)) ∧
    ((inService {}).heldAnswers = [] ∧ (inService {}).removals = [] ∧ Store.wf (0 : Nat) (inService {}).levels = true ∧
      0 < 32 / (inService {}).groupSize 3) := by decide +kernel
theorem witness_MemoryEvents_controller :
    (let full : PseudoChannel := { queue := List.replicate 64 aRead }
     let s := { inService {} with pcs := [((inService {}).pcOf (3 * 2 ^ 36), full)] }
     (s.pc (s.pcOf (3 * 2 ^ 36 + (s.floor 3).scrub * 64))).admits 3 1 = false) ∧
    (let t (x : PseudoChannel) : State := (channel x).modPc 0 (PseudoChannel.admitRewrites controllerPort 0)
     ((t { inService := some aRead }).pc 0).inService.isSome = true ∧
      ((t { refreshDue := 1 }).pc 0).inService = none ∧ 0 < ((t { refreshDue := 1 }).pc 0).refreshDue ∧
      ((t { refreshDue := 1 }).pc 0).queue.filter (·.urgent 0) = [] ∧
      (t { failed := true, queue := [aRead] }).groupOk ((t { failed := true, queue := [aRead] }).groupName 0) = false ∧
      ((t { failed := true, queue := [aRead] }).pc 0).queue = [aRead] ∧
      earliest (((t { queue := [urgentRead] }).pc 0).queue.filter (·.urgent 0)) = some urgentRead ∧
      earliest (((t { queue := [aRead] }).pc 0).queue.filter (·.urgent 0)) = none ∧ ((t { queue := [aRead] }).pc 0).batch < 64 ∧
      (t { queue := [aRead] }).pickAccess ((t { queue := [aRead] }).pc 0) = some aRead ∧
      Store.wf ({} : PseudoChannel) (channel { queue := [aRead] }).pcs = true ∧ aRead.cls ≠ 0 ∧ aRead.write = false ∧ 35 < 36) ∧
    ((∀ l ∈ linesOf 0 64, (inService {}).dirFind l = none) ∧ (inService {}).waiters = [] ∧ populatedRange 0 8 = true ∧
      AccKind.size .read 64 = (remoteRead 0).len) ∧
    (({ inService {} with remotes := [remoteAsk 0] } : State).remotes = [remoteAsk 0] ∧
      (({ inService {} with remotes := [remoteAsk 0] } : State).suite (remoteAsk 0).suite).step ≠ none) := by decide +kernel

/-- Port 11 is trained, and Suite 0 runs a step with a tree whose node 0 stands for the peer on that port. -/
def crossing : State :=
  { (trained (inService {})).modStep 0 (fun st => { st with
      trees := [(0, { fmt := 0x07, op := 0, bytes := 64, nodes := [⟨0, 0, 0, false, false, 0, 12, true⟩] })] }) with
    dict := [(entry 0x286B 1, some 6)] }
/-- Port 11 asks again for failed Gutter flits. -/
def replaying (failed : List FlitBody) : State := { trained (inService {}) with mortar := [(11, { st := 2, lanes := 4, failed })] }
def aPiece : FlitBody := .gutter 0 0 0 0 0 []
theorem witness_LinkEvents_flits :
    (crossing.linked = true ∧ crossing.portUp 11 = true ∧ ((crossing.tree 0 0).nodes[0]?).map (fun e => (e.port, e.children)) = some (11 + 1, 0) ∧
      (crossing.suite 0).step ≠ none ∧ 1 ≠ (crossing.tree 0 0).op) ∧
    (((replaying [aPiece]).port 11).failed = [aPiece] ∧ ((replaying [aPiece, aPiece]).port 11).failed = aPiece :: aPiece :: [] ∧
      (replaying []).portUp 11 = true ∧ (inService {}).portUp 11 = false) := by decide
theorem witness_LinkEvents_links :
    (training.failSilent = false ∧ training.asleep = false ∧ Store.wf ({} : Hall) training.halls = true ∧
      24 + 1 ∉ training.linksLost ∧ training.portDirection 10 ≠ 6 ∧ training.portDirection 11 = 6) ∧
    (let s : State := { inService {} with suites := [], halls := [(0, { up := { stage := 9 } }), (1, { up := { stage := 9 } })] }
     Served s .own 0x2851 4 2 ∧ (∀ e ∈ s.suites, e.2.st = .free) ∧ (s.hall s.senior).up.stage = 9 ∧
      Store.wf ({} : MortarPort) s.mortar = true) := by unfold Served; decide +kernel
theorem witness_IngestAndTime_written :
    (ingesting 0 0).asleep = false ∧ (ingesting 0 0).failSilent = false ∧ ((ingesting 0 0).feed 3).buffer = [] ∧
    (ingesting 0 0).ingestBound 3 (frameOf 5 64) = true ∧ (frameOf 5 64).payload.length ≤ 2016 ∧
    ((ingesting 0 0).feed 3).room 64 = true ∧
    (let u := (ingesting 0 0).modFeed 3 (fun y => { y with buffer := [(0, frameOf 5 64)] })
     let w := u.writeVa (ingestMaster 3) 0 (((ingesting 0 0).feed 3).ringBase + 2048 * (((ingesting 0 0).feed 3).tail.toNat % 2 ^ 4))
       (ingestSlot 0 (frameOf 5 64)) false
     (match w.1 with | .ok _ => true | _ => false) = true ∧ Store.wf ({} : IngestPort) w.2.ingest = true) := by decide +kernel

theorem witness_SleepAndWake_clauses :
    (let s : State := { inService {} with households := [], suites := [] }
     s.power.wakeSeen = 0 ∧ s.alarmDue = false) ∧
    (({ sleeping with dict := [] } : State).alarmDue = false ∧
      ({ sleeping with dict := [(entry 0x2401 3, some 0)] } : State).wakeEnabled 1 = false) ∧
    (State.reset.ready = false ∧ State.reset.power.st ≠ .sleep ∧ (inService {}).ready = true ∧ (inService {}).power.st ≠ .sleep) ∧
    ((inService {}).power.thermalShutdown = false ∧ (inService {}).power.hot = [] ∧ (160 : Int) ≤ 160 ∧
      ({ inService {} with power := { st := .active, inlet := 160 } } : State).tooHot = some (276, 160) ∧
      ({ inService {} with time := 10000, power := { st := .active, hot := [(272, some 0)] } } : State).tooHot = some (272, 0) ∧
      (inService {}).tooHot = none ∧
      (let s : State := { inService {} with power := { st := .active, inlet := 160 } }
       let t := s.lastWord s.senior { cls := 5, code := 3, severity := 4, kind := 0, index := 0, detail := Config.detail 276 160, time := 0 }
       t.power.st = .active ∧ t.alarmDue = false ∧ s.power.wakeSeen = 0)) := by decide +kernel
theorem witness_PowerControl_cap :
    4 ≤ (drawing 9000000000 0).power.clockLimit ∧ 0 < (drawing 0 9000000000).power.clockLimit ∧
    (drawing 0 0).power.means1000 ≤ (drawing 0 0).effectiveCap * 1000000 ∧ (drawing 0 0).power.ticksSinceUp < 9 ∧
    50 * (drawing 0 0).power.means1000 + max 250 (drawing 0 0).effectiveCap * 1000000 < 50 * (drawing 0 0).effectiveCap * 1000000 ∧
    (let s : State := { drawing 0 0 with power := { st := .active, ticksSinceUp := 9, clockLimit := 29 } }
     9 ≤ s.power.ticksSinceUp ∧ s.power.duty = 16 ∧ s.power.clockLimit < 30) := by decide +kernel
theorem witness_PowerControl_floors : (∃ e ∈ ({ junctions := [(0, 210)] } : Floor).junctions, 210 ≤ e.2) ∧
    ({} : Floor).phaseLost = false ∧ 0 < ({} : Floor).currentLimit ∧ ({} : Floor).currentMoved + 100000 ≤ 100000 ∧
    ({ currentLimit := 29 } : Floor).currentLimit < 30 ∧ (inService {}).power.hot = [] ∧ (63 : Nat) < 64 := by decide
theorem witness_FloorAndRoomPower_floors : Store.wf ({} : Floor) (inService {}).floors = true ∧ (inService {}).asleep = false := by decide

/-- The module wakes Floor 0's Rooms in service, no group of them switched before time `t`. -/
def switching (t : Nat) : State := (inService {}).modFloor 0 ({ · with switchFrom := t })
theorem witness_BringUpEvents_switches :
    ((switching 1).time < ((switching 1).floor 0).switchFrom ∧ ((switching 0).floor 0).switchFrom ≤ (switching 0).time ∧
      (switching 0).ready = true ∧ (booting 5 10 0).ready = false ∧ ((booting 5 10 0).floor 3).switchFrom ≤ (booting 5 10 0).time ∧
      (booting 5 10 0).bringing 1 = true ∧ ((booting 5 10 0).hall 1).up.stage = 5 ∧ ((booting 5 10 0).floor 3).switchGroups < 20 ∧
      Store.wf ({} : Room) (booting 5 10 0).rooms = true ∧ Store.wf ({} : Floor) (booting 5 10 0).floors = true) ∧
    (7 ≤ (booting 3 6 0).power.upStep + 1 ∧ ((booting 3 6 0).hall 0).up.stage = stepStage 7 ∧ (booting 3 6 0).bringing 0 = true ∧
      wingScope 3 = true ∧ ((booting 3 6 0).hall (1 - 0)).up.held = false) ∧
    ((booting 0 2 0).bringing 0 = true ∧ ((booting 0 2 0).hall 0).up.stage = 0 ∧ 2 ≤ (booting 0 2 0).power.upStep ∧
      (match (booting 3 10 0).stageWork 0 3 {} with | .inl _ => false | .inr _ => true) = true) := by decide +kernel
theorem witness_ErrorEvents_clauses :
    ((inService {}).copyBusy 0 = false ∧ ({ inService {} with pages := [(9, { washing := true })] } : State).copyBusy 0 = true ∧
      (trained (inService {})).linkSuspended 11 = false ∧
      ({ trained (inService {}) with retraining := [(11, 0)] } : State).linkSuspended 11 = true) ∧
    ((wardened true [(5, .wing 1, 0)] 256000000).heldRung 5 (.wing 1) = some (0, 0) ∧
      ((wardened true [(2, .room 0, 0)] 50000).heldRung 2 (.room 0) = some (0, 0)) ∧ 0 + 256000000 ≤ 256000000) ∧
    ((ledgered { storm := true, calmSince := some 0 } 1000000).hall 0).ledger.storm = true ∧
    (inService {}).failSilent = false := by decide +kernel
/-- Both copies of Suite 0's step have faulted in Course 0, or the second Room has not ended it. -/
def faultedCopies : State :=
  ((twoCopies 5 5 none).modRoom 0 fun x => { x with digests := [], course := {}, foreman := { x.foreman with run := .faulted 3 } }).modRoom 640 fun x =>
    { x with digests := [], course := {}, foreman := { x.foreman with run := .faulted 3 } }
theorem witness_RedundancyEvents_compare :
    ((∀ o < ((twoCopies 5 5 none).suite 0).ordinals, (twoCopies 5 5 none).agreeAt 0 o 0 = true) ∧
      ((twoCopies 5 5 none).suite 0).mode = .duplex) ∧
    ((twoCopies 5 6 none).comparable 0 0 = true ∧ (twoCopies 5 6 none).differ 0 0 = [0] ∧
      ∀ o < ((twoCopies 5 6 none).suite 0).ordinals, (twoCopies 5 6 none).bothFaulted 0 o 0 = false) ∧
    (List.range (faultedCopies.suite 0).ordinals).find? (fun o => faultedCopies.bothFaulted 0 o 0) = some 0 ∧
    (let s := (twoCopies 5 6 none).modRoom 640 fun x => { x with digests := [], course := {} }
     s.comparable 0 0 = false ∧ ∀ o < (s.suite 0).ordinals, s.bothFaulted 0 o 0 = false) := by decide +kernel
theorem witness_RedundancyEvents_votes :
    ((inService {}).stepOf 0 = some someStep ∧ ((inService {}).room 0).foreman.run = .running ∧
      ({ inService {} with time := 250001 } : State).time > ((inService {}).room 0).course.start + 250000) ∧
    (((twoCopies 5 6 none).suite 0).vote = none ∧ (twoCopies 5 6 none).suiteOf 0 = some 0 ∧
      (0 ∉ (⟨0, [], [], false⟩ : Vote).loading) ∧ (0 ∈ (⟨0, [], [0], false⟩ : Vote).loading) ∧
      ((twoCopies 5 6 (some ⟨0, [], [0, 1], false⟩)).suite 0).vote = some ⟨0, [], [0, 1], false⟩ ∧
      (⟨0, [], [0, 1], false⟩ : Vote).loading.filter (· != 0) ≠ []) := by decide +kernel
theorem witness_RedundancyEvents_losses :
    ((wardened true [] 149999).lintelDown = false ∧ ({ wardened true [] 149999 with lintelDown := true } : State).lintelDown = true ∧
      (wardened true [] 150000).leases 0 = true ∧ (wardened true [] 150000).asleep = false ∧ (wardened true [] 150000).ready = true ∧
      ((wardened true [] 150000).hall 1).lost = false ∧
      (({ wardened true [] 150000 with halls := [(0, { warden := { running := true } }), (1, { lost := true })] } : State).hall 1).lost = true) ∧
    ((paired true 2 0).failSilent = false ∧ (paired true 3 0).pairState = 3 ∧ (paired false 0 0).asleep = false ∧
      (∀ o ∈ (paired false 0 200000).pairPorts, ((paired false 0 200000).port o).lastLease + 200000 ≤ (paired false 0 200000).time)) ∧
    (((inService {}).room 0).life ≠ .fencedInService ∧
      (((inService {}).modRoom 1 ({ · with life := .fencedInService })).room 1).life = .fencedInService) ∧
    (let s : State := { inService {} with rooms := [], suites := [] }
     (s.floor 0).powerGood = true ∧ s.failSilent = false ∧ s.rooms = [] ∧ s.suites = [] ∧ Store.wf ({} : Floor) s.floors = true) := by
  decide +kernel
/-- Household 1 has a blob command under way; the first unit of its source is poisoned or not. -/
def blobbing (bad : List Nat) : State :=
  { (secured 2 false false).modHouse 1 ({ · with blob := some { slot := 0, length := 64, src := 0x4000, dst := 0x5000, requester := chan1 } }) with
    badUnits := bad }
theorem witness_SecurityCommands_blob :
    (((blobbing []).house 1).blob.isSome = true ∧ (blobbing []).failSilent = false ∧
      (((blobbing [256]).copyMove 0x4000 144 false).copyMove 0x5000 64 true).poisonedAt 0x4000 144 = true ∧
      (((blobbing []).copyMove 0x4000 144 false).copyMove 0x5000 64 true).poisonedAt 0x4000 144 = false ∧
      ((((blobbing []).copyMove 0x4000 144 false).copyMove 0x5000 64 true).hbmWrite 0x5000 (List.replicate 64 1)).2 = true ∧
      ((blobbing []).slotKey 0).isSome = true) ∧
    ((secured 2 false false).asleep = false ∧ (secured 2 false false).failSilent = false ∧
      bitsOf ({ secured 2 false false with dict := [(entry 0x5C00 4, some 0x33)] } : State).policy 3 2 = 0) := by decide +kernel

end Sys2Proof.Tests
end

section
/-! PROOF. The step from a queue with a command at its front. -/

namespace Sys2Proof.Machine

/-- A waiting command runs, and has left the queue by the time it does. -/
theorem step_of_pending_cons {s : State} {c : Instr} {rest : List Instr} (hq : s.pending = c :: rest) :
    step s = exec c { s with pending := rest } := by
  simp only [step, hq]

/-- Settles O1, by the step's equation for a queue with a command at its front. -/
theorem stepRunsFront : Obligations.StepRunsFront := by
  unfold Obligations.StepRunsFront
  intro s c rest hq
  exact step_of_pending_cons hq

end Sys2Proof.Machine
end

section
/-! PROOF. Which commands are refused: the arms of `exec` are three operations, and each of them refuses exactly the
units that do not exist. -/

namespace Sys2Proof.Machine

/-- A command of well-formedness `wf` on `s` is refused exactly when it names a unit that does not exist, and answers a
next state with the same waiting commands otherwise (log entry 1). -/
def RefusesUnits (wf : Bool) (s : State) (o : Host.Outcome State Fault Refusal) : Prop :=
  (wf = false → o = .refused .noSuchUnit) ∧ (wf = true → ∃ t, o = .next t ∧ t.pending = s.pending)

theorem onUnits_refusesUnits (wf : Bool) (s t : State) : RefusesUnits wf s (onUnits wf s t) := by
  cases wf with
  | false => exact ⟨fun _ => rfl, nofun⟩
  | true => exact ⟨nofun, fun _ => ⟨s.keepQueue t, onUnits_next s t, rfl⟩⟩

theorem foremanOp_refusesUnits (r : Nat) (g : Guard) (eff : State → Issue) (s : State) :
    RefusesUnits (isRoom r) s (foremanOp r g eff s) := by
  obtain ⟨hr, h⟩ | ⟨hr, t, h, -⟩ := foremanOp_cases r g eff s
  · rw [hr]; exact ⟨fun _ => h, nofun⟩
  · rw [hr]; exact ⟨nofun, fun _ => ⟨s.keepQueue t, h, rfl⟩⟩

theorem uopCommand_of_not_isRoom {r : Nat} (u : Uop) (s : State) (hr : isRoom r = false) :
    uopCommand r u s = .refused .noSuchUnit := by simp [uopCommand, hr]

theorem uopCommand_next {r : Nat} (u : Uop) (s : State) (hr : isRoom r = true) :
    ∃ t, uopCommand r u s = .next (s.keepQueue t) := by
  simp only [uopCommand, hr, Bool.not_true, Bool.false_eq_true, if_false]
  split
  · exact ⟨s, rfl⟩
  · split
    · exact ⟨_, rfl⟩
    · exact ⟨_, rfl⟩

theorem uopCommand_refusesUnits (r : Nat) (u : Uop) (s : State) : RefusesUnits (isRoom r) s (uopCommand r u s) := by
  refine ⟨uopCommand_of_not_isRoom u s, fun hr => ?_⟩
  obtain ⟨t, h⟩ := uopCommand_next u s hr
  exact ⟨s.keepQueue t, h, rfl⟩

/-- Every arm of `exec` is one of three operations: an instruction of a Foreman, a micro-operation, or a command on
units. -/
theorem exec_refusesUnits (i : Instr) (s : State) : RefusesUnits i.wellFormed s (exec i s) := by
  cases i with
  | add | sub | mul | and | or | xor | shl | shr | sra | addi | ori | shli | movi | cmp | cmpi | plog | br
  | loop | lds | sts | atomAdd | atomMax | atomMin | atomOr | atomAnd | atomSwap | atomCas | atomFadd
  | rdsr | rung | guard | tdld | tdset | tdadv | tload | tstore | dmaget | dmaput | dmawait | mma | fold
  | vec | upld | conva | convt | gsend | grecv | gwait | signal | wait | barrier | course | digest | commit
  | plumb =>
    apply foremanOp_refusesUnits
  | uopNop | uopFma | uopAdd | uopMul | uopMax | uopMin | uopFunc | uopIadd | uopImul | uopIcvt | uopLd
  | uopSt | uopSel | uopLane | uopLoop =>
    apply uopCommand_refusesUnits
  | uopEnd r => exact uopCommand_refusesUnits r .done s
  | _ => apply onUnits_refusesUnits

/-- Settles O2, by the three operations that the arms of `exec` are. -/
theorem unitsRefused : Obligations.UnitsRefused := by
  unfold Obligations.UnitsRefused
  exact exec_refusesUnits

end Sys2Proof.Machine
end

section
/-! PROOF. The changes of a Suite: what an acceptance leaves, the answer to a served change, and the checks that let each
command's change through. -/

namespace Sys2Proof.Machine

open Sys2Proof.Safety

/-! ### Acceptance -/

@[simp] theorem firstFault_nil : firstFault [] = none := rfl
@[simp] theorem firstFault_none_cons (cs : List (Option Nat)) : firstFault (none :: cs) = firstFault cs := rfl
@[simp] theorem firstFault_some_cons (c : Nat) (cs : List (Option Nat)) : firstFault (some c :: cs) = some c := rfl
theorem must_of {ok : Bool} {code : Nat} (h : ok = true) : must ok code = none := by simp [must, h]
@[simp] theorem must_false (code : Nat) : must false code = some code := rfl

theorem firstFault_must_cons_eq_none {ok : Bool} {code : Nat} {cs : List (Option Nat)} :
    firstFault (must ok code :: cs) = none ↔ ok = true ∧ firstFault cs = none := by cases ok <;> simp [must]

theorem judged_eq_ok_iff {checks : List (Option Nat)} {s t : State} {now : Bool} :
    judged checks s = .ok (t, now) ↔ firstFault checks = none ∧ s = t ∧ true = now := by
  unfold judged
  split <;> simp [*]

theorem State.suite_modSuite_of_ne (s : State) (n : Nat) (f : Suite → Suite) (h : f (s.suite n) ≠ {}) :
    (s.modSuite n f).suite n = f (s.suite n) := Store.get_set_self_of_ne _ _ _ _ h

theorem Suite.ne_default_of_changes {y : Suite} (h : y.changes ≠ []) : y ≠ {} := fun e => h (e ▸ rfl)

/-- An accepted Suite is the one that was accepted, with ACCEPTED_GEN risen. -/
theorem State.accepted_suite (s : State) (n : Nat) (y : Suite) (named chosen : List Nat) (h : y.changes ≠ []) :
    (s.accepted n y named chosen).suite n = { y with acceptedGen := (y.acceptedGen + 1) % 2 ^ 32 } :=
  State.suite_modSuite_of_ne _ _ _ (Suite.ne_default_of_changes h)

/-- A Suite that takes a change differs by that change and by the one that adds the spares chosen for it (R259). -/
theorem State.withSpares_eq_some {s : State} {n : Nat} {c : Change} {taken : List Nat} {y : Suite}
    (h : s.withSpares n c taken = some y) :
    ∃ l, (l = [] ∨ ∃ rooms, l = [.add true rooms true]) ∧ y = { s.suite n with changes := (s.suite n).changes ++ c :: l } := by
  simp only [State.withSpares] at h
  split at h
  · cases h
  · cases h; exact ⟨[], .inl rfl, rfl⟩
  · rename_i rooms _ _
    cases h
    exact ⟨[.add true rooms true], .inr ⟨rooms, rfl⟩, by rw [List.append_assoc]; rfl⟩

/-- What an acceptance requires and what it leaves: the Suite with its spares, in force as accepted. -/
theorem State.acceptChange_eq_ok_iff {s t : State} {n : Nat} {c : Change} {named chosen : List Nat} {now : Bool} :
    s.acceptChange n c named chosen = .ok (t, now) ↔
      ∃ y, s.withSpares n c (named ++ chosen) = some y ∧
        s.roomsFit (s.suite n).owner (y.holds.filter fun r => !(s.suite n).holds.contains r).length = true ∧
        s.bandwidthFits n y = true ∧ now = true ∧
        t = s.accepted n y named ((y.holds.filter fun r => !(s.suite n).holds.contains r).filter fun r => !named.contains r) := by
  unfold State.acceptChange
  cases hy : s.withSpares n c (named ++ chosen) with
  | none => simp
  | some y =>
    simp only [judged_eq_ok_iff, firstFault_must_cons_eq_none, firstFault_nil, and_true, Option.some.injEq, exists_eq_left',
      and_assoc, eq_comm (b := t), eq_comm (b := now), and_comm (a := t = _)]

theorem accepts_iff_acceptChange (s : State) (n : Nat) (c : Change) (named chosen : List Nat) :
    Accepts s n c named chosen ↔ ∃ t, s.acceptChange n c named chosen = .ok (t, true) := by
  simp only [Accepts, State.acceptChange_eq_ok_iff]
  constructor
  · rintro ⟨y, hy, hrooms, hband⟩; exact ⟨_, y, hy, hrooms, hband, trivial, rfl⟩
  · rintro ⟨t, y, hy, hrooms, hband, -, -⟩; exact ⟨y, hy, hrooms, hband⟩

/-- An accepted change waits behind the Suite's earlier ones, within the bandwidth of its groups (R13, R14, R165, R255). -/
theorem queued_of_acceptChange {s t : State} {n : Nat} {c : Change} {named chosen : List Nat} {now : Bool}
    (h : s.acceptChange n c named chosen = .ok (t, now)) :
    now = true ∧ Queued s t n c ∧ s.bandwidthFits n { t.suite n with acceptedGen := (s.suite n).acceptedGen } = true := by
  obtain ⟨y, hy, -, hband, hnow, rfl⟩ := State.acceptChange_eq_ok_iff.1 h
  obtain ⟨l, hl, rfl⟩ := State.withSpares_eq_some hy
  rw [Queued, State.accepted_suite _ _ _ _ _ (by simp)]
  exact ⟨hnow, ⟨⟨l, rfl, hl⟩, rfl, rfl, rfl, rfl, rfl⟩, hband⟩

/-! ### The answer to a change -/

theorem State.reply_suites (s : State) (q : Chan) (i sub code : Nat) (data : List Byte) :
    (s.reply q i sub code data).suites = s.suites := by cases q <;> rfl

theorem noted_suites (s t : State) (q : Chan) (i sub : Nat) : (noted s t q i sub).suites = t.suites := by
  unfold noted; split <;> rfl

theorem answered_suites (s t : State) (q : Chan) (i sub : Nat) : (answered s t q i sub).suites = t.suites := by
  rw [answered, State.reply_suites, noted_suites]

theorem queued_answered {s t : State} {n : Nat} {c : Change} (h : Queued s t n c) (q : Chan) (i sub : Nat) :
    Queued s (s.keepQueue (answered s t q i sub)) n c := by
  have hsuite : (s.keepQueue (answered s t q i sub)).suite n = t.suite n := by
    rw [State.suite, State.keepQueue_suites, answered_suites]; rfl
  rw [Queued, hsuite]; exact h

/-- The outcome of a download of object (i, sub) that asks Suite n for the change c: an accepted change is answered, and
waits for the boundary. -/
def ChangeAnswered (s t : State) (q : Chan) (i sub n : Nat) (c : Change) (named chosen : List Nat)
    (o : Host.Outcome State Fault Refusal) : Prop :=
  (s.acceptChange n c named chosen = .ok (t, true) → o = .next (s.keepQueue (answered s t q i sub))) ∧
    (Accepts s n c named chosen → ∃ u, o = .next u ∧ Queued s u n c)

theorem served_isChan {s : State} {q : Chan} {i sub n : Nat} (h : Served s q i sub n) : isChan q = true := h.1

/-- A command of a Suite whose own checks pass answers the change that they let through. -/
theorem changeAnswered_of_act {s : State} {q : Chan} {i sub n : Nat} {data : List Byte} {c : Change} {named chosen : List Nat}
    {act : Act} (hn : isSuite n = true) (hs : Served s q i sub data.length) (ha : act s = s.acceptChange n c named chosen)
    (t : State) :
    ChangeAnswered s t q i sub n c named chosen (onUnits (isChan q && isSuite n) s (State.download q i sub data act s)) := by
  have hok (t : State) (h : s.acceptChange n c named chosen = .ok (t, true)) :
      onUnits (isChan q && isSuite n) s (State.download q i sub data act s) = .next (s.keepQueue (answered s t q i sub)) := by
    rw [onUnits_of _ _ _ (by simp [served_isChan hs, hn]), served_done s t q i sub data act hs (ha.trans h)]
  refine ⟨hok t, fun h => ?_⟩
  obtain ⟨t, ht⟩ := (accepts_iff_acceptChange s n c named chosen).1 h
  obtain ⟨-, hqueued, -⟩ := queued_of_acceptChange ht
  exact ⟨_, hok t ht, queued_answered hqueued q i sub⟩

/-! ### The checks of each command (R257, R258, R260, R261) -/

section Checks

variable {s : State} {n : Nat} (ho : s.suiteOpen n = none)
include ho

theorem actRoomAdd_eq {data : List Byte} {dup : Bool} {l rooms : List (Option Nat × Option Nat)} {named : List Nat}
    (hd : dup = decide ((s.suite n).mode = .duplex)) (hl : l = addEntries dup data) (hnamed : named = copyOf 0 l ++ copyOf 1 l)
    (hver : fieldOf data 0 1 = 1) (hcount : fieldOf data 1 1 ≠ 0) (hmax : fieldOf data 1 1 ≤ 64)
    (hlen : data.length = 4 + 4 * fieldOf data 1 1)
    (hsp : bitOf (fieldOf data 2 1) 0 = true → (s.suite n).protected = true)
    (hwest : dup = true → ∀ r ∈ copyOf 0 l, hallOfRoom r = 0) (heast : ∀ r ∈ copyOf 1 l, hallOfRoom r = 1)
    (hfree : ∀ r ∈ named, s.foreignRoom n r = false ∧ r < 1280 ∧ s.roomFree (s.suite n).projected.lanes r = true)
    (hnodup : named.Nodup) (hfill : s.fill (s.suite n).projected l named = some rooms) :
    actRoomAdd n data s = s.acceptChange n (.add (bitOf (fieldOf data 2 1) 0) rooms false) named
      ((copyOf 0 rooms ++ copyOf 1 rooms).filter fun r => !named.contains r) := by
  have hforeign : named.any (s.foreignRoom n) = false := by simpa using fun r hr => (hfree r hr).1
  have hrange : (named.all fun r => decide (r < 1280)) = true := by simpa using fun r hr => (hfree r hr).2.1
  have hroom : named.all (s.roomFree (s.suite n).projected.lanes) = true := by simpa using fun r hr => (hfree r hr).2.2
  have hprot : (!(bitOf (fieldOf data 2 1) 0 && !(s.suite n).protected)) = true := by
    cases hb : bitOf (fieldOf data 2 1) 0 with
    | false => rfl
    | true => simp [hsp hb]
  have hwings : ((copyOf 0 l).all (fun r => !dup || hallOfRoom r == 0) && (copyOf 1 l).all fun r => hallOfRoom r == 1) = true := by
    cases dup with
    | false => simpa using heast
    | true => simpa using ⟨hwest rfl, heast⟩
  have hdup : ((s.suite n).mode == .duplex) = dup := hd.symm
  simp only [actRoomAdd, hdup, ← hl, ← hnamed, hforeign, hver, hlen, hprot, hrange, hwings, hroom, hnodup, ho, hfill]
  simp [must_of, hcount, hmax]

theorem actRoomRemove_eq {v : Nat} (hv : v ≤ (s.suite n).projected.ordinals) :
    actRoomRemove n v s = s.acceptChange n (.remove v) [] [] := by simp [actRoomRemove, must_of, hv, ho]

omit ho in
theorem actRoomRemove_high {v : Nat} (hv : (s.suite n).projected.ordinals < v) : actRoomRemove n v s = .error abHigh := by
  simp [actRoomRemove, Nat.not_le.2 hv]

theorem actRoomMove_eq {w : W32} {dup : Bool} (hd : dup = decide ((s.suite n).mode = .duplex))
    (hforeign : s.foreignRoom n (bitsOf w.toNat 10 0) = false) (hcopy : bitsOf w.toNat 31 31 = 0 ∨ dup = true)
    (hwing : dup = true → hallOfRoom (bitsOf w.toNat 10 0) = bitsOf w.toNat 31 31)
    (hord : bitsOf w.toNat 30 20 < (s.suite n).projected.rooms.length + (s.suite n).projected.spares.length)
    (hr : bitsOf w.toNat 10 0 < 1280) (hfree : s.roomFree (s.suite n).projected.lanes (bitsOf w.toNat 10 0) = true) :
    actRoomMove n w s = s.acceptChange n (.move (bitsOf w.toNat 31 31) (bitsOf w.toNat 30 20) (bitsOf w.toNat 10 0))
      [bitsOf w.toNat 10 0] [] := by
  have hdup : ((s.suite n).mode == .duplex) = dup := hd.symm
  have hdup' : ((s.suite n).mode != .duplex) = !dup := congrArg _ hdup
  have hwing' : (!dup || hallOfRoom (bitsOf w.toNat 10 0) == bitsOf w.toNat 31 31) = true := by
    cases dup with
    | false => rfl
    | true => simpa using hwing rfl
  simp only [actRoomMove, hdup, hdup', hforeign, hwing', hfree, ho]
  simp [must_of, hcopy, hord, hr]

theorem actGroupBind_eq {v : Nat} {dup : Bool} (hd : dup = decide ((s.suite n).mode = .duplex))
    (hmax : v ≤ 128 - s.groupSize 3) (hname : s.groupName v = v) (hwest : dup = true → v < 64)
    (hgood : ∀ g ∈ (s.suite n).boundNames v, s.groupOk g = true) :
    actGroupBind n v s = s.acceptChange n (.bindGroup v) [] [] := by
  have hdup : ((s.suite n).mode != .duplex) = !dup := by subst hd; rfl
  have hgood' : ((s.suite n).boundNames v).all s.groupOk = true := by simpa using hgood
  have hwest' : (!dup || decide (v < 64)) = true := by
    cases dup with
    | false => rfl
    | true => simpa using hwest rfl
  simp only [actGroupBind, hdup, hwest', hgood', ho]
  simp [must_of, hmax, hname]

theorem actGroupUnbind_eq {v : Nat} (hmax : v ≤ 128 - s.groupSize 3) (hname : s.groupName v = v)
    (hbound : v ∈ (s.suite n).projected.groups) : actGroupUnbind n v s = s.acceptChange n (.unbindGroup v) [] [] := by
  simp [actGroupUnbind, must_of, hmax, hname, hbound, ho]

theorem actPortBind_eq (port : BitVec 5) (hport : port.toNat < 12 ∨ 16 ≤ port.toNat ∧ port.toNat < 20)
    (hholder : 16 ≤ port.toNat → s.portHolder n port.toNat = none)
    (henv : bitOf (s.envPorts (s.suite n).owner) port.toNat = true) :
    actPortBind n port.toNat s = s.acceptChange n (.bindPort port.toNat) [] [] := by
  have hmod : port.toNat % 32 = port.toNat := Nat.mod_eq_of_lt port.isLt
  have hbit : bitOf port.toNat 7 = false := by
    have := port.isLt
    simp only [bitOf, Nat.shiftRight_eq_div_pow, beq_eq_false_iff_ne]; omega
  have hnone : (if decide (16 ≤ port.toNat) && !false then s.portHolder n port.toNat else none) = none := by
    split <;> simp_all
  simp only [actPortBind, hmod, hbit, hnone, ho, henv]
  simp [must_of, hport]

theorem actPortUnbind_eq (port : BitVec 5) (hport : port.toNat < 12 ∨ 16 ≤ port.toNat ∧ port.toNat < 20)
    (hbound : port.toNat ∈ (s.suite n).projected.ports) :
    actPortBind n (128 + port.toNat) s = s.acceptChange n (.unbindPort port.toNat) [] [] := by
  have hlt := port.isLt
  have hmod : (128 + port.toNat) % 32 = port.toNat := by omega
  have hbit : bitOf (128 + port.toNat) 7 = true := by
    simp only [bitOf, Nat.shiftRight_eq_div_pow, beq_iff_eq]; omega
  simp only [actPortBind, hmod, hbit, ho]
  simp [must_of, hport, hbound]

end Checks

/-- Settles O45: each command's checks let its change through, and an accepted change is answered and waits. -/
theorem suiteChanges : Obligations.SuiteChanges := by
  unfold Obligations.SuiteChanges
  refine ⟨?_, fun s n c named chosen => ⟨fun t now h => queued_of_acceptChange h, accepts_iff_acceptChange s n c named chosen⟩⟩
  rintro s t q n v w port data y dup sp l rooms named chosen hn ho rfl hd rfl
  refine ⟨?add, ?remove, ?removeHigh, ?move, fun hmax hname => ⟨?bindGroup, ?unbindGroup⟩, fun hs hport => ⟨?bindPort, ?unbindPort⟩⟩
  case add =>
    rintro hs hl hnamed hver hcount hmax hlen hsp hwest heast hfree hnodup hfill rfl
    exact changeAnswered_of_act hn hs
      (actRoomAdd_eq ho hd hl hnamed hver hcount hmax hlen hsp hwest heast hfree hnodup hfill) t
  case remove =>
    intro hs hv
    exact changeAnswered_of_act hn (by rwa [leBytes_length]) (actRoomRemove_eq ho hv) t
  case removeHigh =>
    intro hs hv
    exact (onUnits_of _ _ _ (by simp [served_isChan hs, hn])).trans
      (by rw [served_refused _ _ _ _ _ _ _ (by rwa [leBytes_length]) (actRoomRemove_high hv)]; rfl)
  case move =>
    intro hs hforeign hcopy hwing hord hr hfree
    exact changeAnswered_of_act hn (by rwa [leBytes_length]) (actRoomMove_eq ho hd hforeign hcopy hwing hord hr hfree) t
  case bindGroup =>
    intro hs hwest hgood
    exact changeAnswered_of_act hn (by rwa [leBytes_length]) (actGroupBind_eq ho hd hmax hname hwest hgood) t
  case unbindGroup =>
    intro hs hbound
    exact changeAnswered_of_act hn (by rwa [leBytes_length]) (actGroupUnbind_eq ho hmax hname hbound) t
  case bindPort =>
    intro hholder henv
    exact changeAnswered_of_act hn (by rwa [leBytes_length]) (actPortBind_eq ho port hport hholder henv) t
  case unbindPort =>
    intro hbound
    exact changeAnswered_of_act hn (by rwa [leBytes_length]) (actPortUnbind_eq ho port hport hbound) t

end Sys2Proof.Machine
end

section
/-! PROOF. The counterexamples to the statements on the Commit Landing and on the last Whitewash: tables that are not in
canonical form, where an entry that is removed uncovers another one of the same key. -/

namespace Sys2Proof.Machine

open Sys2Proof.Safety

/-! ### A context listed twice -/

/-- The context whose step commits: open, with an open queue 0. -/
def committingCtx : Context :=
  { household := 1, suite := 0, pasid := 0, home := 0, serving := 0, queues := [(0, { st := .opened })] }

/-- A second entry of the same context number, which is closing. -/
def shadowedCtx : Context := { household := 1, suite := 0, pasid := 0, home := 0, serving := 0, st := .closing }

def plainDesc : StepDesc :=
  { version := 1, type := 0, irq := false, freezePoint := false, codeWords := 1, microWords := 0, program := 0, seed := 0
    args := [], wait0 := 0, wait0Value := 0, wait1 := 0, wait1Value := 0, event := 0, eventValue := 0, commitList := 0
    commitEntries := 0, completion := 0 }

/-- The step of context 0, queue 0, whose commit has one phase left. -/
def lastPhaseStep : Step :=
  { ctx := 0, queue := 0, count := 0, desc := plainDesc, dispatched := 0, det := false, lanes := 240, nrooms := 0
    cacheBytes := 0, phase := 7 }

/-- Suite 0 is in the last phase of a commit, and the context table lists context 0 twice, open and closing. -/
def shadowedContext : State :=
  { contexts := [(0, some committingCtx), (0, some shadowedCtx)], households := [(1, { st := .active })]
    suites := [(0, { st := .active, owner := 1, step := some lastPhaseStep })] }

/-- The Commit Landing frees the number of the closing entry, which takes the open one away: the closing one is what is
left, with nothing counted. -/
theorem commitLanding_shadowedContext :
    ∃ t, exec (.commitLanding 0) shadowedContext = .next t ∧ t.ctx? 0 = some shadowedCtx := ⟨_, rfl, rfl⟩

/-- Refutes O38: its clause on the last phase does not ask for `Store.wf none s.contexts`, and where the context table lists
the committing context a second time as closing, the boundary frees that number, and the context that is read afterwards
has not counted the step. -/
theorem not_landings : ¬ Obligations.Landings := by
  unfold Obligations.Landings
  rintro ⟨hlandings, -⟩
  obtain ⟨-, -, -, -, -, -, -, -, hlast, -⟩ := hlandings shadowedContext shadowedContext shadowedContext 0 0 0 0 committingCtx {}
    plainDesc { ladderBase := 0, ladder := [], trees := [], commit := [], image := ⟨[], []⟩ } lastPhaseStep lastPhaseStep rfl
  obtain ⟨t, y, hexec, -, -, hctx, hcount, -⟩ := hlast rfl rfl rfl rfl rfl rfl rfl rfl
  obtain ⟨t', hexec', hctx'⟩ := commitLanding_shadowedContext
  obtain rfl : t' = t := by simpa using hexec'.symm.trans hexec
  obtain rfl : shadowedCtx = y := by simpa using hctx'.symm.trans hctx
  exact absurd hcount (by decide)

/-! ### A Suite listed twice -/

/-- Room 0 of Suite 0 is the last one in its Whitewash, and the Suite table lists Suite 0 twice. -/
def shadowedSuite : State :=
  { suites := [(0, { applying := some 0 }), (0, { applying := some 5 })]
    rooms := [(0, { member := some { suite := 0, copy := 0, ordinal := 0 }, joining := true, power := .clocked })] }

/-- The Suite that completes its Landing reads as a free one, which takes its entry away: the other entry is what is left,
with its own Landing under way. -/
theorem roomWhitewashComplete_shadowedSuite :
    ∃ t, exec (.roomWhitewashComplete 0 true) shadowedSuite = .next t ∧ (t.suite 0).applying = some 5 := ⟨_, rfl, rfl⟩

/-- Refutes O46: its clause on the last Whitewash does not ask for `Store.wf {} s.suites`, and where the Suite table lists a
Suite twice, completing the Landing of one whose other values are all at their defaults removes its first entry, and the
Suite that is read afterwards has a Landing under way. -/
theorem not_configurationEvents : ¬ Obligations.ConfigurationEvents := by
  unfold Obligations.ConfigurationEvents
  intro hevents
  obtain ⟨-, -, hroom, -⟩ := hevents shadowedSuite 0 0 0 {} {}
  obtain ⟨-, hjoined⟩ := hroom rfl
  obtain ⟨-, -, -, hlast⟩ := hjoined rfl (by decide) rfl
  obtain ⟨t, hexec, -, happlying, -⟩ := hlast rfl rfl (by decide)
  obtain ⟨t', hexec', happlying'⟩ := roomWhitewashComplete_shadowedSuite
  obtain rfl : t' = t := by simpa using hexec'.symm.trans hexec
  exact absurd (happlying'.symm.trans happlying) (by decide)

end Sys2Proof.Machine
end

section
/-! PROOF. The lane generator: each of the three shifts of a step is undone by no other state, so a step never meets
zero, and what is drawn is the upper 16 bits of the state that the step leaves. -/

namespace Sys2Proof.Machine

/-! ### One shift of the generator (R49) -/

/-- The lowest bit that is set stays set under an exclusive-or with the bits shifted up. -/
theorem eq_zero_of_xor_shiftLeft_eq_zero {w k : Nat} {x : BitVec w} (hk : 0 < k) (h : x ^^^ (x <<< k) = 0#w) : x = 0#w := by
  have hx : x = x <<< k := BitVec.xor_eq_zero_iff.mp h
  have hbit : ∀ i, x.getLsbD i = false := by
    intro i
    induction i using Nat.strong_induction_on with
    | _ i ih =>
      rw [hx, BitVec.getLsbD_shiftLeft]
      by_cases hi : i < k
      · simp [hi]
      · simp [ih (i - k) (by omega)]
  exact BitVec.eq_of_getLsbD_eq fun i _ => by simp [hbit]

/-- A number that is its own quotient by a power of two is zero. -/
theorem eq_zero_of_xor_ushiftRight_eq_zero {w k : Nat} {x : BitVec w} (hk : 0 < k) (h : x ^^^ (x >>> k) = 0#w) : x = 0#w := by
  have hdiv : x.toNat = x.toNat / 2 ^ k := by
    conv_lhs => rw [BitVec.xor_eq_zero_iff.mp h, BitVec.toNat_ushiftRight, Nat.shiftRight_eq_div_pow]
  have hzero : x.toNat = 0 := by
    by_contra h0
    have := Nat.div_lt_self (Nat.pos_of_ne_zero h0) (Nat.one_lt_two_pow hk.ne')
    omega
  exact BitVec.eq_of_toNat_eq (by simpa using hzero)

theorem eq_of_xor_shiftLeft_eq {w k : Nat} {x y : BitVec w} (hk : 0 < k) (h : x ^^^ (x <<< k) = y ^^^ (y <<< k)) : x = y := by
  refine BitVec.xor_eq_zero_iff.mp (eq_zero_of_xor_shiftLeft_eq_zero hk ?_)
  rw [BitVec.shiftLeft_xor_distrib]
  calc x ^^^ y ^^^ (x <<< k ^^^ y <<< k) = (x ^^^ x <<< k) ^^^ (y ^^^ y <<< k) := by ac_rfl
    _ = 0#w := BitVec.xor_eq_zero_iff.mpr h

theorem eq_of_xor_ushiftRight_eq {w k : Nat} {x y : BitVec w} (hk : 0 < k) (h : x ^^^ (x >>> k) = y ^^^ (y >>> k)) : x = y := by
  refine BitVec.xor_eq_zero_iff.mp (eq_zero_of_xor_ushiftRight_eq_zero hk ?_)
  rw [BitVec.ushiftRight_xor_distrib]
  calc x ^^^ y ^^^ (x >>> k ^^^ y >>> k) = (x ^^^ x >>> k) ^^^ (y ^^^ y >>> k) := by ac_rfl
    _ = 0#w := BitVec.xor_eq_zero_iff.mpr h

/-! ### Steps of the generator (R49, R50) -/

/-- No two states step into the same state. -/
theorem xorshift_injective : Function.Injective xorshift := fun _ _ h =>
  eq_of_xor_shiftLeft_eq (k := 13) (by decide) <| eq_of_xor_ushiftRight_eq (k := 7) (by decide) <|
    eq_of_xor_shiftLeft_eq (k := 17) (by decide) h

theorem xorshift_ne_zero {g : W64} (hg : g ≠ 0) : xorshift g ≠ 0 :=
  fun h => hg (xorshift_injective (h.trans (by decide : 0 = xorshift 0)))

theorem xorshifts_ne_zero (n : Nat) {g : W64} (hg : g ≠ 0) : xorshifts n g ≠ 0 := by
  induction n generalizing g with
  | zero => exact hg
  | succ n ih => exact ih (xorshift_ne_zero hg)

/-- A generator starts its Course on a state other than zero, since a mixed seed of zero is replaced by 1 (R50). -/
theorem laneSeed_ne_zero (seed : W64) (course ordinal lane : Nat) : laneSeed seed course ordinal lane ≠ 0 := by
  unfold laneSeed
  refine xorshifts_ne_zero 8 ?_
  split
  · decide
  · assumption

/-- What a state returns is its bits 63 to 48. -/
theorem drawOf_eq_extractLsb' (g : W64) : drawOf g = (g.extractLsb' 48 16).toNat := by
  have hlt : g.toNat / 2 ^ 48 < 2 ^ 16 := by have := g.isLt; omega
  rw [drawOf, BitVec.extractLsb'_toNat, Nat.shiftRight_eq_div_pow, Nat.mod_eq_of_lt hlt]

/-- Settles O22, by the injectivity of the three shifts. -/
theorem laneGenerators : Obligations.LaneGenerators := by
  unfold Obligations.LaneGenerators
  intro g h seed course ordinal lane layer tile rate
  refine ⟨?shifts, fun e => xorshift_injective e, xorshift_ne_zero, ?draw, rfl,
    laneSeed_ne_zero seed course ordinal lane, ?sampled⟩
  case shifts =>
    rintro x y rfl rfl
    rfl
  case draw => simp [takeRounding, drawOf_eq_extractLsb']
  case sampled => exact decide_eq_true_iff

end Sys2Proof.Machine
end

section
/-! PROOF. The Step-up trigger of a layer at the commit: which bytes of the Ladder table the commit writes, and the bits of
the step guard summary that report a rung taken or blocked. -/

namespace Sys2Proof.Machine

/-- An entry of the numbered Ladder is the layer's entry under its number. -/
theorem mem_numbered_iff {α : Type} {l : List α} {k : Nat} {x : α} :
    (k, x) ∈ (List.range l.length).zip l ↔ l[k]? = some x := by
  rw [List.mem_iff_getElem?]
  simp only [List.getElem?_zip_eq_some, List.getElem?_eq_some_iff (l := List.range _), List.getElem_range,
    List.length_range]
  constructor
  · rintro ⟨i, ⟨_, rfl⟩, hx⟩
    exact hx
  · intro hx
    exact ⟨k, ⟨(List.getElem?_eq_some_iff.mp hx).1, rfl⟩, hx⟩

/-! ### When a trigger fires (R64) -/

theorem LadderEntry.fires_iff (e : LadderEntry) (x : LayerTotals) :
    e.fires x = true ↔ bitOf e.ctrl 7 = true ∧ ((bitOf e.ctrl 6 = true ∧ 0 < x.breaches) ∨
      (bitOf e.ctrl 5 = true ∧ e.satLimit < min x.sat (2 ^ 32 - 1)) ∨
      (bitOf e.ctrl 4 = true ∧ e.poisonLimit < min x.poison (2 ^ 32 - 1))) := by
  simp only [LadderEntry.fires, Bool.and_eq_true, Bool.or_eq_true, decide_eq_true_eq, or_assoc]
  simp only [satAdd, Nat.add_zero]

theorem LadderEntry.nextRung_of_rises {e : LadderEntry} {x : LayerTotals} (hf : e.fires x = true) (hr : e.curRung < e.maxRung) :
    e.nextRung x = e.curRung + 1 := by simp [LadderEntry.nextRung, hf, hr]

/-- A rung stays where its trigger is silent or the rung is the highest one. -/
theorem LadderEntry.nextRung_of_stays {e : LadderEntry} {x : LayerTotals} (h : e.fires x = false ∨ e.curRung = e.maxRung) :
    e.nextRung x = e.curRung := by
  obtain hf | hr := h
  · simp [LadderEntry.nextRung, hf]
  · simp [LadderEntry.nextRung, hr]

/-! ### What the commit writes (R61, R64) -/

/-- The one-byte writes into the Ladder table are the rungs that change: the statistics of an entry are 36 bytes. -/
theorem mem_ladderWrites_byte_iff {st : Step} {t : Store LayerTotals} {now a : Nat} {b : List Byte} :
    ((a, 1), b) ∈ ladderWrites st t now ↔ ∃ k e, st.ladder[k]? = some e ∧
      e.nextRung (Store.get {} t k) ≠ e.curRung ∧ a = st.ladderBase + 128 * k + 2 ∧
      b = [BitVec.ofNat 8 (e.nextRung (Store.get {} t k))] := by
  simp only [ladderWrites, List.mem_flatMap, Prod.exists, mem_numbered_iff]
  refine exists_congr fun k => exists_congr fun e => and_congr_right fun _ => ?_
  by_cases hk : e.nextRung (Store.get {} t k) = e.curRung <;> simp

/-! ### The step guard summary (R55) -/

/-- The flags of the summary stand in bits of their own, above the layer's number in bits 23 to 12. -/
theorem bitOf_summary (breach taken blocked nan ovf sticky : Bool) (layer : Nat) :
    let bit (b : Bool) (k : Nat) := if b then 2 ^ k else 0
    let word := bit breach 31 + bit taken 30 + bit blocked 29 + bit nan 28 + bit ovf 27 + bit sticky 26 + layer % 4096 * 2 ^ 12
    bitOf word 30 = taken ∧ bitOf word 29 = blocked := by
  have flag (b : Bool) (k : Nat) : (if b then 2 ^ k else 0) = b.toNat * 2 ^ k := by cases b <;> simp
  have := breach.toNat_le
  have := nan.toNat_le
  have := ovf.toNat_le
  have := sticky.toNat_le
  simp only [flag, bitOf, Nat.shiftRight_eq_div_pow]
  cases taken <;> cases blocked <;> simp <;> omega

theorem bitOf_guardSummary_taken_iff {st : Step} {t : Store LayerTotals} :
    bitOf (guardSummary st t) 30 = true ↔
      ∃ (k : Nat) (e : LadderEntry), st.ladder[k]? = some e ∧ e.fires (Store.get {} t k) = true ∧
        e.curRung < e.maxRung := by
  rw [guardSummary, (bitOf_summary ..).1]
  simp [mem_numbered_iff]

theorem bitOf_guardSummary_blocked_iff {st : Step} {t : Store LayerTotals} :
    bitOf (guardSummary st t) 29 = true ↔
      ∃ (k : Nat) (e : LadderEntry), st.ladder[k]? = some e ∧ e.fires (Store.get {} t k) = true ∧
        e.curRung = e.maxRung := by
  rw [guardSummary, (bitOf_summary ..).2]
  simp [mem_numbered_iff]

/-- Settles O23, by the one-byte writes of the commit and the two flags of the summary. -/
theorem stepUpTriggers : Obligations.StepUpTriggers := by
  unfold Obligations.StepUpTriggers
  rintro st t now k e x hk rfl -
  refine ⟨e.fires_iff _, fun hf hr => ⟨?written, ?taken⟩, fun hf hr => ?blocked, fun hs b hb => ?stays,
    fun hsilent => ?silent⟩
  case written =>
    have hnext := LadderEntry.nextRung_of_rises hf hr
    exact mem_ladderWrites_byte_iff.mpr ⟨k, e, hk, by omega, rfl, by rw [hnext]⟩
  case taken => exact bitOf_guardSummary_taken_iff.mpr ⟨k, e, hk, hf, hr⟩
  case blocked => exact bitOf_guardSummary_blocked_iff.mpr ⟨k, e, hk, hf, hr⟩
  case stays =>
    obtain ⟨j, f, hj, hne, ha, -⟩ := mem_ladderWrites_byte_iff.mp hb
    obtain rfl : k = j := by omega
    obtain rfl : e = f := Option.some.inj (hk.symm.trans hj)
    exact hne (LadderEntry.nextRung_of_stays hs)
  case silent =>
    constructor <;> rw [Bool.eq_false_iff]
    · rw [ne_eq, bitOf_guardSummary_taken_iff]
      rintro ⟨j, f, hj, hf, -⟩
      exact Bool.false_ne_true ((hsilent j f hj).symm.trans hf)
    · rw [ne_eq, bitOf_guardSummary_blocked_iff]
      rintro ⟨j, f, hj, hf, -⟩
      exact Bool.false_ne_true ((hsilent j f hj).symm.trans hf)

end Sys2Proof.Machine
end

section
/-! PROOF. What an instruction answers that changes only its own Room, and the rules of repetition that the loops over
lanes, rows and accumulators rest on. -/

namespace Sys2Proof.Machine

open Sys2Proof.Safety

/-! ### Repetition -/

theorem foldl_range_eq_iterate {σ : Type} (f : Nat → σ → σ) (n : Nat) (s : σ) :
    (List.range n).foldl (fun s i => f i s) s = iterate f n s := by
  induction n with
  | zero => rfl
  | succ n ih => rw [List.range_succ, List.foldl_append, ih]; rfl

/-- What every round does to a part of the state, the whole repetition does to it. -/
theorem iterate_hom {σ τ : Type} {p : σ → τ} {f : Nat → σ → σ} {g : Nat → τ → τ}
    (h : ∀ i s, p (f i s) = g i (p s)) (n : Nat) (s : σ) : p (iterate f n s) = iterate g n (p s) := by
  induction n with
  | zero => rfl
  | succ n ih => rw [iterate, h, ih]; rfl

/-- Changing consecutive keys one after another changes each of them as it stood, and no other key. -/
theorem Store.iterate_modify {α : Type} [DecidableEq α] {d : α} {m : Store α} (a : Nat) (f : Nat → α → α) (n : Nat)
    (hm : Store.wf d m = true) :
    let m' := iterate (fun i m => Store.modify d m (a + i) (f i)) n m
    Store.wf d m' = true ∧ (∀ i < n, Store.get d m' (a + i) = f i (Store.get d m (a + i))) ∧
      ∀ k, (k < a ∨ a + n ≤ k) → Store.get d m' k = Store.get d m k := by
  induction n with
  | zero => exact ⟨hm, nofun, fun _ _ => rfl⟩
  | succ n ih =>
    obtain ⟨hwf, hin, hout⟩ := ih
    refine ⟨Store.wf_modify d _ _ _ hwf, fun i hi => ?_, fun k hk => ?_⟩
    · rw [iterate, Store.modify]
      by_cases hin' : i = n
      · subst hin'
        rw [Store.get_set_self d _ _ _ hwf, hout _ (by omega)]
      · rw [Store.get_set_ne d _ _ _ _ (by omega), hin i (by omega)]
    · rw [iterate, Store.modify, Store.get_set_ne d _ _ _ _ (by omega), hout k (by omega)]

/-! ### An instruction that changes its Room alone -/

theorem State.room_modRoom_of_run {s : State} {r : Nat} {e : Room → Room} (h : (e (s.room r)).foreman.run ≠ .idle) :
    (s.modRoom r e).room r = e (s.room r) := State.room_setRoom s r _ (Room.ne_default_of_run _ h)

theorem State.modRoom_modRoom_of_run {s : State} {r : Nat} {e : Room → Room} (f : Room → Room)
    (h : (e (s.room r)).foreman.run ≠ .idle) : (s.modRoom r e).modRoom r f = s.modRoom r fun x => f (e x) := by
  have hroom := State.room_modRoom_of_run h
  simp only [State.modRoom] at hroom ⊢
  rw [hroom, State.setRoom_setRoom _ _ _ _ (Room.ne_default_of_run _ h)]

/-- A change of a running Room that leaves its Foreman alone, and the passage to the next instruction. -/
theorem State.advance_modRoom {s : State} {r : Nat} {e : Room → Room} (hg : GoesOn s r)
    (hrun : (s.room r).foreman.run = .running) (hf : ∀ x, (e x).foreman = x.foreman) :
    (s.modRoom r e).advance r = didRoom s r e := by
  have hidle : (e (s.room r)).foreman.run ≠ .idle := by rw [hf]; exact hrun.trans_ne (by decide)
  have hg' : GoesOn (s.modRoom r e) r := by
    unfold GoesOn
    rw [State.room_modRoom_of_run hidle, hf]
    exact hg
  rw [State.advance_of _ _ hg', State.modForeman, State.modRoom_modRoom_of_run _ hidle]
  rfl

theorem foremanOp_modRoom {s : State} {r : Nat} {g : Guard} {eff : State → Issue} {e : Room → Room} (hx : Executes s r g)
    (hg : GoesOn s r) (heff : eff s = .done (s.modRoom r e)) (hf : ∀ x, (e x).foreman = x.foreman) :
    foremanOp r g eff s = .next (didRoom s r e) := by
  rw [foremanOp_of r g eff s hx, heff, Issue.result, State.advance_modRoom hg hx.2.1 hf, State.keepQueue_of]
  rfl

theorem foremanOp_done {s : State} {r : Nat} {g : Guard} {eff : State → Issue} (hx : Executes s r g) (hg : GoesOn s r)
    (heff : eff s = .done s) : foremanOp r g eff s = .next (did s r fun f => f) := by
  rw [foremanOp_of r g eff s hx, heff, Issue.result, State.advance_of s r hg]
  rfl

theorem foremanOp_fault {s : State} {r code : Nat} {g : Guard} {eff : State → Issue} (hx : Executes s r g)
    (heff : eff s = Issue.fault r code s) : foremanOp r g eff s = .next (s.keepQueue (s.programFault r code)) := by
  rw [foremanOp_of r g eff s hx, heff]
  rfl

/-- The Room after such an instruction. -/
theorem State.room_didRoom {s : State} {r : Nat} {e : Room → Room} (hrun : (s.room r).foreman.run = .running)
    (hf : ∀ x, (e x).foreman = x.foreman) :
    (didRoom s r e).room r = { e (s.room r) with foreman := passed (s.room r).foreman } := by
  rw [didRoom, State.room_modRoom_of_run]
  · rw [Room.mapForeman, hf]
  · rw [Room.mapForeman, hf]
    exact (hrun.trans_ne (by decide) : (s.room r).foreman.run ≠ .idle)

section

variable {s : State} {r : Nat} {e : Room → Room} (hrun : (s.room r).foreman.run = .running)
  (hf : ∀ x, (e x).foreman = x.foreman)
include hrun hf

theorem State.foreman_didRoom : ((didRoom s r e).room r).foreman = passed (s.room r).foreman := by
  rw [State.room_didRoom hrun hf]

theorem State.bricks_didRoom : ((didRoom s r e).room r).bricks = (e (s.room r)).bricks := by
  rw [State.room_didRoom hrun hf]

theorem State.pantry_didRoom : ((didRoom s r e).room r).pantry = (e (s.room r)).pantry := by
  rw [State.room_didRoom hrun hf]

theorem State.course_didRoom : ((didRoom s r e).room r).course = (e (s.room r)).course := by
  rw [State.room_didRoom hrun hf]

theorem State.brick_didRoom (k : Nat) : ((didRoom s r e).room r).brick k = (e (s.room r)).brick k := by
  rw [State.room_didRoom hrun hf]
  rfl

end

theorem onlyRoom_didRoom (s : State) (r : Nat) (e : Room → Room) : OnlyRoom s (didRoom s r e) r :=
  ⟨fun q hq => State.room_setRoom_ne s r q _ hq, rfl⟩

end Sys2Proof.Machine
end

section
/-! PROOF. The guard slots of a Course (R96): counting into a slot and recording bytes keep which tiles have a slot and which
slots are open; opening finds or makes an open slot, and closing closes one. -/

namespace Sys2Proof.Machine

theorem exists_mem_modifyFirst {α : Type} {p : α → Bool} (f : α → α) {l : List α} (h : ∃ x ∈ l, p x = true) :
    ∃ x, p x = true ∧ f x ∈ modifyFirst p f l := by
  induction l with
  | nil => simp at h
  | cons y l ih =>
    by_cases hy : p y = true
    · exact ⟨y, hy, by simp [modifyFirst, hy]⟩
    · obtain ⟨x, hx, hmem⟩ := ih (by simpa [hy] using h)
      exact ⟨x, hx, by simp [modifyFirst, hy, hmem]⟩

theorem map_modifyFirst {α β : Type} (p : α → Bool) {f : α → α} {g : α → β} (h : ∀ x, g (f x) = g x)
    (l : List α) : (modifyFirst p f l).map g = l.map g := by
  induction l with
  | nil => rfl
  | cons y l ih =>
    by_cases hy : p y = true
    · simp [modifyFirst, hy, h]
    · simp [modifyFirst, hy, ih]

/-- The tiles of the slots, and whether each is open. -/
def CourseState.slotKeys (c : CourseState) : List (Nat × Nat × Bool) := c.slots.map fun x => (x.layer, x.tile, x.isOpen)

@[simp] theorem CourseState.slotKeys_countSlot (c : CourseState) (layer tile : Nat) (k : GuardCounts) :
    (c.countSlot layer tile k).slotKeys = c.slotKeys := map_modifyFirst _ (by intro; rfl) _

@[simp] theorem CourseState.slotKeys_countPoison (c : CourseState) (layer tile : Nat) (l : List Nat) :
    (c.countPoison layer tile l).slotKeys = c.slotKeys := map_modifyFirst _ (by intro; rfl) _

@[simp] theorem CourseState.slotKeys_overwritten (c : CourseState) (tag a n : Nat) :
    (c.overwritten tag a n).slotKeys = c.slotKeys := by
  simp only [slotKeys, overwritten, List.map_map]
  refine List.map_congr_left fun x _ => ?_
  simp only [Function.comp]
  split <;> rfl

@[simp] theorem CourseState.slotKeys_note (c : CourseState) (space addr : Nat) (bytes : List Byte) :
    (c.note space addr bytes).slotKeys = c.slotKeys := by
  unfold note
  simp only
  split
  · rw [slotKeys_overwritten]; rfl
  · rfl

theorem CourseState.hasOpen_iff {c : CourseState} {layer tile : Nat} :
    c.hasOpen layer tile = true ↔ (layer, tile, true) ∈ c.slotKeys := by
  simp [hasOpen, slotKeys, GuardSlot.hasKey, and_assoc]

/-- A slot of the key is open already, or there is room for one more (R96). -/
theorem CourseState.exists_openSlot {c : CourseState} {layer tile : Nat}
    (h : (∃ x ∈ c.slots, x.layer = layer ∧ x.tile = tile ∧ x.isOpen = true) ∨
      (c.slots.filter (·.isOpen)).length < 16) :
    ∃ c', c.openSlot layer tile = some c' ∧ c'.hasOpen layer tile = true := by
  by_cases hopen : c.hasOpen layer tile = true
  · exact ⟨c, by simp [openSlot, hopen], hopen⟩
  · have hroom : ¬ 16 ≤ c.openSlots := by
      obtain hslot | hlt := h
      · exact absurd (by simpa [hasOpen, GuardSlot.hasKey, and_assoc] using hslot) hopen
      · simpa [openSlots, countIf] using hlt
    exact ⟨{ c with slots := { layer, tile } :: c.slots }, by simp [openSlot, hopen, hroom],
      by simp [hasOpen, GuardSlot.hasKey]⟩

theorem CourseState.exists_closed_closeSlot {c : CourseState} {layer tile : Nat} (h : c.hasOpen layer tile = true) :
    ∃ x ∈ (c.closeSlot layer tile).slots, x.layer = layer ∧ x.tile = tile ∧ x.isOpen = false := by
  obtain ⟨x, hx, hmem⟩ := exists_mem_modifyFirst (fun x => { x with isOpen := false, seen := [] }) (List.any_eq_true.mp h)
  simp only [GuardSlot.hasKey, Bool.and_eq_true, beq_iff_eq] at hx
  exact ⟨_, hmem, hx.1.1, hx.1.2, rfl⟩

end Sys2Proof.Machine
end

section
/-! PROOF. The Bricks of a Room (R74): what changing the Brick of one lane does to the Brick of every lane. -/

namespace Sys2Proof.Machine

theorem Room.wf_bricks_modBrick {x : Room} (l : Nat) (f : Brick → Brick) (h : Store.wf ({} : Brick) x.bricks = true) :
    Store.wf ({} : Brick) (x.modBrick l f).bricks = true := Store.wf_set _ _ _ _ h

/-- The lanes whose Brick it is see the change, and no other lane does. -/
theorem Room.brick_modBrick {x : Room} (l : Nat) (f : Brick → Brick) (j : Nat) (h : Store.wf ({} : Brick) x.bricks = true) :
    (x.modBrick l f).brick j = if x.brickOf j = x.brickOf l then f (x.brick j) else x.brick j := by
  show Store.get {} (Store.set {} x.bricks (x.brickOf l) (f (x.brick l))) (x.brickOf j) = _
  split
  · rename_i hj
    rw [hj, Store.get_set_self _ _ _ _ h]
    simp only [Room.brick, hj]
  · rename_i hj
    rw [Store.get_set_ne _ _ _ _ _ hj]
    rfl

/-- A change of a Brick that keeps a part of it keeps that part of every lane's Brick. -/
theorem Room.brick_modBrick_congr {β : Type} {x : Room} (p : Brick → β) (l : Nat) {f : Brick → Brick}
    (hf : p (f (x.brick l)) = p (x.brick l)) (j : Nat) (h : Store.wf ({} : Brick) x.bricks = true) :
    p ((x.modBrick l f).brick j) = p (x.brick j) := by
  rw [Room.brick_modBrick l f j h]
  split
  · rename_i hj
    have : x.brick j = x.brick l := by simp only [Room.brick, hj]
    rw [this, hf]
  · rfl

/-! ### Operations of the MAC array (R91, R92) -/

/-- What an operation of the MAC array leaves alone, when it turns the Room `x` into `y`: it writes accumulators and the
Course, and no Hod. -/
structure Room.AccsOnly (x y : Room) : Prop where
  foreman : y.foreman = x.foreman
  pantry : y.pantry = x.pantry
  laneMap : y.laneMap = x.laneMap
  upsets : y.upsets = x.upsets
  hod : Store.wf ({} : Brick) x.bricks = true →
    Store.wf ({} : Brick) y.bricks = true ∧ ∀ k, (y.brick k).hod = (x.brick k).hod

theorem Room.AccsOnly.trans {x y z : Room} (hxy : x.AccsOnly y) (hyz : y.AccsOnly z) : x.AccsOnly z where
  foreman := hyz.foreman.trans hxy.foreman
  pantry := hyz.pantry.trans hxy.pantry
  laneMap := hyz.laneMap.trans hxy.laneMap
  upsets := hyz.upsets.trans hxy.upsets
  hod h := ⟨(hyz.hod (hxy.hod h).1).1, fun k => ((hyz.hod (hxy.hod h).1).2 k).trans ((hxy.hod h).2 k)⟩

theorem Room.AccsOnly.foldl {α : Type} {f : Room → α → Room} (h : ∀ (x : Room) i, x.AccsOnly (f x i)) (l : List α)
    (x : Room) : x.AccsOnly (l.foldl f x) := by
  induction l generalizing x with
  | nil => exact ⟨rfl, rfl, rfl, rfl, fun h => ⟨h, fun _ => rfl⟩⟩
  | cons i l ih => exact (h x i).trans (ih (f x i))

theorem Room.accsOnly_modBrick (x : Room) (l : Nat) {f : Brick → Brick} (hf : ∀ b, (f b).hod = b.hod) :
    x.AccsOnly (x.modBrick l f) where
  foreman := rfl
  pantry := rfl
  laneMap := rfl
  upsets := rfl
  hod h := ⟨Room.wf_bricks_modBrick l f h, fun k => Room.brick_modBrick_congr Brick.hod l (hf _) k h⟩

theorem Room.accsOnly_withCourse (x : Room) (c : CourseState) : x.AccsOnly { x with course := c } :=
  ⟨rfl, rfl, rfl, rfl, fun h => ⟨h, fun _ => rfl⟩⟩

/-- The lanes of a Room in order: its Bricks and their accumulators in canonical form, and a Brick of its own for each
present lane, as the map of a Dispatch Landing gives it (R74). -/
structure Room.LanesOk (x : Room) (lanes : Nat) : Prop where
  bricks : Store.wf ({} : Brick) x.bricks = true
  accs : ∀ k, Store.wf (0 : W32) (x.brick k).acc = true
  inj : ∀ j k, j < lanes → k < lanes → x.brickOf j = x.brickOf k → j = k

/-- In such a Room, changing the Brick of one lane changes that lane alone. -/
theorem Room.LanesOk.brick_modBrick {x : Room} {lanes l j : Nat} (h : x.LanesOk lanes) (hl : l < lanes) (hj : j < lanes)
    (f : Brick → Brick) : (x.modBrick l f).brick j = if j = l then f (x.brick j) else x.brick j := by
  have hiff : x.brickOf j = x.brickOf l ↔ j = l := ⟨h.inj j l hj hl, fun e => e ▸ rfl⟩
  simp only [Room.brick_modBrick l f j h.bricks, hiff]

theorem Room.LanesOk.modBrick {x : Room} {lanes : Nat} (h : x.LanesOk lanes) (l : Nat) {f : Brick → Brick}
    (hf : Store.wf (0 : W32) (f (x.brick l)).acc = true) : (x.modBrick l f).LanesOk lanes where
  bricks := Room.wf_bricks_modBrick l f h.bricks
  accs k := by
    rw [Room.brick_modBrick l f k h.bricks]
    split
    · rename_i hk
      have : x.brick k = x.brick l := by simp only [Room.brick, hk]
      rw [this]
      exact hf
    · exact h.accs k
  inj := h.inj

/-- The course plays no part in the lanes. -/
theorem Room.LanesOk.withCourse {x : Room} {lanes : Nat} (h : x.LanesOk lanes) (c : CourseState) :
    ({ x with course := c } : Room).LanesOk lanes := ⟨h.bricks, h.accs, h.inj⟩

end Sys2Proof.Machine
end

section
/-! PROOF. MMA (R88 to R91): the accumulators that it leaves in one lane, in every present lane, and what the instruction
leaves of the rest of its Room. -/

namespace Sys2Proof.Machine

open Sys2Proof.Safety

/-! ### One lane -/

/-- NB of an MMA's operands (R88). -/
def mmaNb (ta tb : Desc) : Nat := nbOf (((macPair tb.fmt ta.fmt).map (·.1)).getD 0)

/-- The word that the chunks of accumulator i of an MMA's block make in a lane of the word that they start on (R89 to R91). -/
def macWord (td ta tb : Desc) (asrc : Bool) (lane : Nat) (b : Brick) (pantry : Memory) (i : Nat) (w : W32) : W32 :=
  (macCell (((macPair tb.fmt ta.fmt).map (·.1)).getD 0) (td.fmt = 0x08) (ta.cols / 16)
    (fun k => (streamAt ta (if asrc then b.hod else pantry) (if asrc then lane + 1 else 0) (if asrc then 0 else lane % 16)
      (i / mmaNb ta tb) k).1)
    (fun k => (weightAt tb b.hod (mmaNb ta tb) lane (i % mmaNb ta tb) k).1) { word := w }).word

/-- The accumulators of a lane that an MMA's chunks are added to: with CLEAR, its block starts at zero. -/
def macStart (td ta tb : Desc) (clear : Bool) (b : Brick) : Store W32 :=
  if clear then Store.setRange 0 b.acc td.base (List.replicate (td.rows * mmaNb ta tb) 0) else b.acc

theorem macStart_spec (td ta tb : Desc) (clear : Bool) {b : Brick} (h : Store.wf (0 : W32) b.acc = true) :
    Store.wf (0 : W32) (macStart td ta tb clear b) = true ∧
    (∀ i < td.rows * mmaNb ta tb, Store.get 0 (macStart td ta tb clear b) (td.base + i) =
      if clear then 0 else Store.get 0 b.acc (td.base + i)) ∧
    ∀ k, (k < td.base ∨ td.base + td.rows * mmaNb ta tb ≤ k) →
      Store.get 0 (macStart td ta tb clear b) k = Store.get 0 b.acc k := by
  cases clear with
  | false => exact ⟨h, fun _ _ => rfl, fun _ _ => rfl⟩
  | true =>
    refine ⟨Store.wf_setRange _ _ _ _ h, fun i hi => ?_, fun k hk => ?_⟩
    · exact (Store.get_setRange 0 _ b.acc td.base i (by simpa using hi) h).trans (by simp)
    · exact Store.get_setRange_ne _ _ _ _ _ (by simpa using hk)

/-- Without an upset, the accumulators of the block are changed one after another, each from its own word alone. -/
theorem macLane_acc (td ta tb : Desc) (clear asrc : Bool) (lane : Nat) (b : Brick) (pantry : Memory) :
    (macLane td ta tb clear asrc lane b pantry).acc =
      iterate (fun i m => Store.modify 0 m (td.base + i) (macWord td ta tb asrc lane b pantry i)) (td.rows * mmaNb ta tb)
        (macStart td ta tb clear b) :=
  iterate_hom (p := MacLane.acc) (by intros; rfl) _ _

theorem macLane_spec (td ta tb : Desc) (clear asrc : Bool) (lane : Nat) {b : Brick} (pantry : Memory)
    (h : Store.wf (0 : W32) b.acc = true) :
    Store.wf (0 : W32) (macLane td ta tb clear asrc lane b pantry).acc = true ∧
    (∀ i < td.rows * mmaNb ta tb, Store.get 0 (macLane td ta tb clear asrc lane b pantry).acc (td.base + i) =
      macWord td ta tb asrc lane b pantry i (if clear then 0 else Store.get 0 b.acc (td.base + i))) ∧
    ∀ k, (k < td.base ∨ td.base + td.rows * mmaNb ta tb ≤ k) →
      Store.get 0 (macLane td ta tb clear asrc lane b pantry).acc k = Store.get 0 b.acc k := by
  obtain ⟨hwf, hstart, hrest⟩ := macStart_spec td ta tb clear h
  obtain ⟨hwf', hin, hout⟩ := Store.iterate_modify td.base (macWord td ta tb asrc lane b pantry) (td.rows * mmaNb ta tb) hwf
  rw [macLane_acc]
  exact ⟨hwf', fun i hi => by rw [hin i hi, hstart i hi], fun k hk => by rw [hout k hk, hrest k hk]⟩

/-! ### Every present lane -/

/-- MMA in lane l of a Room (R53, R91, R96). -/
def Room.mmaLane (x : Room) (td ta tb : Desc) (clear asrc : Bool) (l : Nat) : Room :=
  let z := macLane td ta tb clear asrc l (x.brick l) x.pantry (x.upsets.filter (·.lane == l))
  let x := x.modBrick l fun b => { b with acc := z.acc }
  let course := (x.course.countSlot td.layer td.tile { nan := z.nan, accOvf := z.ovf }).countPoison td.layer td.tile z.poison
  { x with course := { course with flagged := course.flagged ++ List.replicate z.flags l } }

theorem Room.mma_succ (x : Room) (td ta tb : Desc) (clear asrc : Bool) (n : Nat) :
    x.mma td ta tb clear asrc (n + 1) = (x.mma td ta tb clear asrc n).mmaLane td ta tb clear asrc n := by
  simp only [Room.mma, List.range_succ, List.foldl_append]
  rfl

theorem Room.mma_accsOnly (x : Room) (td ta tb : Desc) (clear asrc : Bool) (n : Nat) :
    x.AccsOnly (x.mma td ta tb clear asrc n) :=
  Room.AccsOnly.foldl (fun x l => (x.accsOnly_modBrick l (by exact fun _ => rfl)).trans (Room.accsOnly_withCourse _ _)) _ x

/-- What MMA makes of the Brick of a lane where no upset stands. -/
def macBrick (td ta tb : Desc) (clear asrc : Bool) (l : Nat) (pantry : Memory) (b : Brick) : Brick :=
  { b with acc := (macLane td ta tb clear asrc l b pantry).acc }

/-- One lane of an MMA changes the accumulators of its Brick. -/
theorem Room.mmaLane_brick (x : Room) (td ta tb : Desc) (clear asrc : Bool) (l j : Nat) :
    (x.mmaLane td ta tb clear asrc l).brick j = (x.modBrick l fun b => { b with acc :=
      (macLane td ta tb clear asrc l (x.brick l) x.pantry (x.upsets.filter (·.lane == l))).acc }).brick j := rfl

theorem Room.LanesOk.mmaLane {x : Room} {lanes : Nat} (h : x.LanesOk lanes) (hup : x.upsets = []) (td ta tb : Desc)
    (clear asrc : Bool) (l : Nat) : (x.mmaLane td ta tb clear asrc l).LanesOk lanes := by
  refine (h.modBrick l ?_).withCourse _
  rw [hup]
  exact (macLane_spec td ta tb clear asrc l x.pantry (h.accs l)).1

/-- After n lanes, each of them holds what MMA leaves in it, computed from the Room as it stood; the other lanes stand. -/
theorem Room.LanesOk.mma {x : Room} {lanes : Nat} (h : x.LanesOk lanes) (hup : x.upsets = []) (td ta tb : Desc)
    (clear asrc : Bool) (n : Nat) (hn : n ≤ lanes) :
    (x.mma td ta tb clear asrc n).LanesOk lanes ∧ ∀ l < lanes, (x.mma td ta tb clear asrc n).brick l =
      if l < n then macBrick td ta tb clear asrc l x.pantry (x.brick l) else x.brick l := by
  induction n with
  | zero => exact ⟨h, fun l _ => rfl⟩
  | succ n ih =>
    obtain ⟨hok, hbrick⟩ := ih (by omega)
    have hnth : (x.mma td ta tb clear asrc n).brick n = x.brick n := by simpa using hbrick n (by omega)
    have hup' : (x.mma td ta tb clear asrc n).upsets = [] := (x.mma_accsOnly ..).upsets.trans hup
    rw [Room.mma_succ]
    refine ⟨hok.mmaLane hup' .., fun l hl => ?_⟩
    rw [Room.mmaLane_brick, hok.brick_modBrick (by omega) hl, hbrick l hl, hnth, hup',
      (x.mma_accsOnly ..).pantry]
    obtain hlt | rfl | hgt := lt_trichotomy l n
    · simp [hlt, hlt.ne, Nat.lt_succ_of_lt hlt]
    · simp [macBrick]
    · simp [hgt.ne', Nat.not_lt_of_gt hgt, show ¬ l < n + 1 by omega]

/-! ### The instruction -/

theorem State.noteFlags_of_no_upsets {s : State} {r : Nat} (before : Nat) (h : (s.room r).upsets = []) :
    s.noteFlags r before = s := by
  unfold State.noteFlags
  simp only [h, List.isEmpty_nil, if_true]

/-- An MMA whose checks hold and whose slot is open or can be opened completes; with no upset standing there is nothing for
the checksum lanes to note (R96, log entry 69). -/
theorem exec_mma_of {s : State} {r : Nat} {g : Guard} {td ta tb : BitVec 4} {mode : BitVec 5} {d a b : Desc} {c : CourseState}
    (hx : Executes s r g) (hg : GoesOn s r) (hd : d = (s.room r).foreman.desc td) (ha : a = (s.room r).foreman.desc ta)
    (hb : b = (s.room r).foreman.desc tb) (hchecks : mmaFault d a b (mode.getLsbD 3) (s.portion r) = none)
    (hup : (s.room r).upsets = []) (hslot : (s.room r).course.openSlot d.layer d.tile = some c) :
    exec (.mma r g td ta tb mode) s = .next (didRoom s r fun x =>
      { x with course := c }.mma d a b (mode.getLsbD 4) (mode.getLsbD 3) (s.lanes r)) := by
  rw [exec_mma]
  refine foremanOp_modRoom hx hg ?_ fun x => (Room.mma_accsOnly ..).foreman
  subst hd ha hb
  simp only [hchecks, hslot]
  rw [State.noteFlags_of_no_upsets]
  rw [State.room_modRoom_of_run, (Room.mma_accsOnly ..).upsets]
  · exact hup
  · rw [(Room.mma_accsOnly ..).foreman]
    exact hx.2.1.trans_ne (by decide)

/-- Settles O18, by the lanes of an MMA one after another, and the accumulators of a lane one after another. -/
theorem matrixLane : Obligations.MatrixLane := by
  unfold Obligations.MatrixLane
  constructor
  · rintro s r g td ta tb mode d a b rate nb hx hg hd ha hb hchecks hup hopen hbricks haccs hinj rfl rfl
    obtain ⟨c, hslot, -⟩ := CourseState.exists_openSlot hopen
    have hok : ({ s.room r with course := c } : Room).LanesOk (s.lanes r) := ⟨hbricks, haccs, hinj⟩
    refine ⟨_, exec_mma_of hx hg hd ha hb hchecks hup hslot, ?_⟩
    have honly (x : Room) := Room.mma_accsOnly { x with course := c } d a b (mode.getLsbD 4) (mode.getLsbD 3) (s.lanes r)
    have hf (x : Room) := (honly x).foreman
    simp only [State.brick_didRoom hx.2.1 hf]
    refine ⟨fun lane hlane => ?_, ((honly _).hod hbricks).2, (State.pantry_didRoom hx.2.1 hf).trans (honly _).pantry,
      State.foreman_didRoom hx.2.1 hf, onlyRoom_didRoom s r _⟩
    obtain ⟨-, hblock, hrest⟩ := macLane_spec d a b (mode.getLsbD 4) (mode.getLsbD 3) lane (s.room r).pantry (haccs lane)
    have hbrick := (hok.mma hup d a b (mode.getLsbD 4) (mode.getLsbD 3) _ le_rfl).2 lane hlane
    have hacc := congrArg Brick.acc (hbrick.trans (if_pos hlane))
    exact ⟨fun i hi => (congrArg (Store.get 0 · (d.base + i)) hacc).trans (hblock i hi),
      fun k hk => (congrArg (Store.get 0 · k) hacc).trans (hrest k hk)⟩
  · rintro td ta tb clear asrc lane rate nb b pantry hwf rfl rfl
    exact (macLane_spec td ta tb clear asrc lane pantry hwf).2

end Sys2Proof.Machine
end

section
/-! PROOF. FOLD (R92): the order of its additions, the words that it leaves in column 15, and what it leaves alone. -/

namespace Sys2Proof.Machine

open Sys2Proof.Safety

/-- Accumulator a of lane b. -/
def Room.accWord (x : Room) (b a : Nat) : W32 := Store.get 0 (x.brick b).acc a

/-! ### The running sum of a row -/

theorem Room.foldCell_word_fp32 {d : Desc} (x : Room) (row a : Nat) (h : d.fmt = 0x07) : (x.foldCell d row a).word =
    ((List.range 15).map fun k => x.accWord (16 * row + k + 1) a).foldl fp32Add (x.accWord (16 * row) a) := by
  rw [List.foldl_map, Room.foldCell]
  refine (List.foldl_hom MacCell.word fun c k => ?_).symm
  simp [h, fmtInt32, Room.accWord]

theorem Room.foldCell_word_int32 {d : Desc} (x : Room) (row a : Nat) (h : d.fmt = 0x08) : (x.foldCell d row a).word =
    ((List.range 15).map fun k => x.accWord (16 * row + k + 1) a).foldl
      (fun p q => BitVec.ofInt 32 (clamp32 (p.toInt + q.toInt))) (x.accWord (16 * row) a) := by
  rw [List.foldl_map, Room.foldCell]
  refine (List.foldl_hom MacCell.word fun c k => ?_).symm
  simp [h, fmtInt32, Room.accWord, MacCell.addInt]

/-- The sum of a row at one accumulator depends on that accumulator of the row's 16 lanes alone. -/
theorem Room.foldCell_congr {x y : Room} (d : Desc) {row a : Nat}
    (h : ∀ k < 16, y.accWord (16 * row + k) a = x.accWord (16 * row + k) a) : y.foldCell d row a = x.foldCell d row a := by
  have hfirst : Store.get 0 (y.brick (16 * row)).acc a = Store.get 0 (x.brick (16 * row)).acc a := h 0 (by omega)
  have hrest : ∀ k ∈ List.range 15, Store.get 0 (y.brick (16 * row + k + 1)).acc a =
      Store.get 0 (x.brick (16 * row + k + 1)).acc a := fun k hk => h (k + 1) (by have := List.mem_range.mp hk; omega)
  rw [Room.foldCell, Room.foldCell, hfirst]
  exact List.foldl_ext _ _ _ fun c k hk => by simp only [hrest k hk]

/-! ### One accumulator, one row, and all rows -/

/-- The sum of row `row` at accumulator i of the tile goes to column 15. -/
def Room.foldAt (d : Desc) (row : Nat) (x : Room) (i : Nat) : Room :=
  let a := d.base + i
  let c := x.foldCell d row a
  { x.modBrick (16 * row + 15) (fun b => { b with acc := Store.set 0 b.acc a c.word }) with
    course := x.course.countSlot d.layer d.tile { accOvf := c.ovf } }

/-- The sums of row `row` at the first n accumulators of the tile. -/
def Room.foldRow (d : Desc) (n : Nat) (x : Room) (row : Nat) : Room := (List.range n).foldl (Room.foldAt d row) x

theorem Room.fold_eq (x : Room) (d : Desc) (lanes : Nat) :
    x.fold d lanes = (List.range (lanes / 16)).foldl (Room.foldRow d (d.rows * d.cols)) x := rfl

theorem Room.fold_accsOnly (x : Room) (d : Desc) (lanes : Nat) : x.AccsOnly (x.fold d lanes) :=
  Room.AccsOnly.foldl (fun x row => Room.AccsOnly.foldl (fun x _ => (x.accsOnly_modBrick (16 * row + 15)
    (by exact fun _ => rfl)).trans (Room.accsOnly_withCourse _ _)) _ x) _ x

/-- Column 15 of the row takes the sum at its accumulator; no other accumulator of a present lane changes. -/
theorem Room.LanesOk.foldAt {x : Room} {lanes row : Nat} (h : x.LanesOk lanes) (hrow : row < lanes / 16) (d : Desc) (i : Nat) :
    (x.foldAt d row i).LanesOk lanes ∧ ∀ b < lanes, ∀ a, (x.foldAt d row i).accWord b a =
      if b = 16 * row + 15 ∧ a = d.base + i then (x.foldCell d row a).word else x.accWord b a := by
  refine ⟨(h.modBrick _ (Store.wf_set _ _ _ _ (h.accs _))).withCourse _, fun b hb a => ?_⟩
  have hbrick := h.brick_modBrick (show 16 * row + 15 < lanes by omega) hb
    fun b => { b with acc := Store.set 0 b.acc (d.base + i) (x.foldCell d row (d.base + i)).word }
  refine (congrArg (Store.get 0 · a) (congrArg Brick.acc hbrick)).trans ?_
  by_cases hlane : b = 16 * row + 15
  · by_cases ha : a = d.base + i
    · simpa [hlane, ha] using Store.get_set_self _ _ _ _ (h.accs _)
    · simp [hlane, ha, Store.get_set_ne _ _ _ _ _ ha, Room.accWord]
  · simp [hlane, Room.accWord]

theorem Room.LanesOk.foldRow {x : Room} {lanes row : Nat} (h : x.LanesOk lanes) (hrow : row < lanes / 16) (d : Desc) (n : Nat) :
    (x.foldRow d n row).LanesOk lanes ∧ ∀ b < lanes, ∀ a, (x.foldRow d n row).accWord b a =
      if b = 16 * row + 15 ∧ d.base ≤ a ∧ a < d.base + n then (x.foldCell d row a).word else x.accWord b a := by
  induction n with
  | zero => exact ⟨h, fun b _ a => (if_neg (by omega)).symm⟩
  | succ n ih =>
    obtain ⟨hok, hword⟩ := ih
    have hsucc : x.foldRow d (n + 1) row = (x.foldRow d n row).foldAt d row n := by
      simp [Room.foldRow, List.range_succ]
    have hcell : (x.foldRow d n row).foldCell d row (d.base + n) = x.foldCell d row (d.base + n) :=
      Room.foldCell_congr d fun k hk => (hword _ (by omega) _).trans (if_neg (by omega))
    obtain ⟨hok', hword'⟩ := hok.foldAt hrow d n
    rw [hsucc]
    refine ⟨hok', fun b hb a => ?_⟩
    rw [hword' b hb a, hword b hb a]
    by_cases hnew : b = 16 * row + 15 ∧ a = d.base + n
    · obtain ⟨rfl, rfl⟩ := hnew
      simp [hcell]
    · rw [if_neg hnew]
      exact if_congr (by omega) rfl rfl

/-- After n rows, column 15 of each holds the sums of the Room as it stood, and every other accumulator stands. -/
theorem Room.LanesOk.foldRows {x : Room} {lanes : Nat} (h : x.LanesOk lanes) (d : Desc) (n : Nat) (hn : n ≤ lanes / 16) :
    ((List.range n).foldl (Room.foldRow d (d.rows * d.cols)) x).LanesOk lanes ∧ ∀ b < lanes, ∀ a,
      ((List.range n).foldl (Room.foldRow d (d.rows * d.cols)) x).accWord b a =
        if b % 16 = 15 ∧ b / 16 < n ∧ d.base ≤ a ∧ a < d.base + d.rows * d.cols then (x.foldCell d (b / 16) a).word
        else x.accWord b a := by
  induction n with
  | zero => exact ⟨h, fun b _ a => (if_neg (by omega)).symm⟩
  | succ n ih =>
    obtain ⟨hok, hword⟩ := ih (by omega)
    rw [List.range_succ, List.foldl_append]
    obtain ⟨hok', hword'⟩ := hok.foldRow (show n < lanes / 16 by omega) d (d.rows * d.cols)
    refine ⟨hok', fun b hb a => ?_⟩
    have hcell : (Room.foldCell ((List.range n).foldl (Room.foldRow d (d.rows * d.cols)) x) d n a) = x.foldCell d n a :=
      Room.foldCell_congr d fun k hk => (hword _ (by omega) _).trans (if_neg (by omega))
    refine (hword' b hb a).trans ?_
    rw [hcell, hword b hb a]
    by_cases hnew : b = 16 * n + 15 ∧ d.base ≤ a ∧ a < d.base + d.rows * d.cols
    · rw [if_pos hnew, if_pos (by omega), show b / 16 = n by omega]
    · rw [if_neg hnew]
      exact if_congr (by omega) rfl rfl

/-- What FOLD leaves in the accumulators of the present lanes (R92). -/
theorem Room.LanesOk.accWord_fold {x : Room} {lanes b : Nat} (h : x.LanesOk lanes) (d : Desc) (hb : b < lanes) (a : Nat) :
    (x.fold d lanes).accWord b a =
      if b % 16 = 15 ∧ b / 16 < lanes / 16 ∧ d.base ≤ a ∧ a < d.base + d.rows * d.cols then (x.foldCell d (b / 16) a).word
      else x.accWord b a := (h.foldRows d (lanes / 16) le_rfl).2 b hb a

theorem Room.LanesOk.accWord_fold_column15 {x : Room} {lanes row a : Nat} (h : x.LanesOk lanes) (d : Desc)
    (hrow : row < lanes / 16) (ha : d.base ≤ a) (ha' : a < d.base + d.rows * d.cols) :
    (x.fold d lanes).accWord (16 * row + 15) a = (x.foldCell d row a).word := by
  rw [h.accWord_fold d (by omega), if_pos (by omega), show (16 * row + 15) / 16 = row by omega]

/-! ### The map of the lanes (R74) -/

theorem lanesMapOf_nodup (x : Room) (lanes : Nat) : (lanesMapOf x lanes).Nodup :=
  (List.nodup_range.filter _).sublist (List.take_sublist _ _)

/-- The map of a Dispatch Landing gives each lane a Brick of its own. -/
theorem Room.brickOf_inj {x y : Room} {lanes j k : Nat} (h : x.laneMap = lanesMapOf y lanes) (hj : j < x.laneMap.length)
    (hk : k < x.laneMap.length) (e : x.brickOf j = x.brickOf k) : j = k := by
  have hnodup : x.laneMap.Nodup := h ▸ lanesMapOf_nodup y lanes
  simp only [Room.brickOf, List.getElem?_eq_getElem hj, List.getElem?_eq_getElem hk, Option.getD_some] at e
  exact (hnodup.getElem_inj_iff).mp e

/-! ### The instruction -/

theorem foldFault_of_form {d : Desc} {portion : Nat} (hd : d.check portion = none)
    (h : d.space ≠ 3 ∨ d.fmt ≠ 0x07 ∧ d.fmt ≠ 0x08) : foldFault d portion = some 0x03 := by
  have : (d.space = 3 && (d.fmt = fmtFp32 || d.fmt = fmtInt32)) = false := by
    change (d.space = 3 && (d.fmt = 0x07 || d.fmt = 0x08)) = false
    simpa [imp_iff_not_or] using h
  simp [foldFault, hd, this, faultIllegalFormat]

theorem foldFault_of_bounds {d : Desc} {portion : Nat} (hd : d.check portion = none) (hspace : d.space = 3)
    (hfmt : d.fmt = 0x07 ∨ d.fmt = 0x08) (h : 64 < d.base + d.rows * d.cols) : foldFault d portion = some 0x04 := by
  have hform : (d.space = 3 && (d.fmt = fmtFp32 || d.fmt = fmtInt32)) = true := by
    change (d.space = 3 && (d.fmt = 0x07 || d.fmt = 0x08)) = true
    simpa [hspace] using hfmt
  have hbounds : decide (d.base + d.rows * d.cols ≤ 64) = false := by simpa using h
  simp [foldFault, hd, hform, hbounds, must_of, faultBounds]

theorem exec_fold_of_fault {s : State} {r code : Nat} {g : Guard} {td : BitVec 4} (hx : Executes s r g)
    (h : foldFault ((s.room r).foreman.desc td) (s.portion r) = some code) :
    exec (.fold r g td) s = .next (s.keepQueue (s.programFault r code)) := by
  rw [exec_fold]
  refine foremanOp_fault hx ?_
  simp only [h]

/-- A FOLD whose checks hold and whose slot is open or can be opened completes (R96). -/
theorem exec_fold_of {s : State} {r : Nat} {g : Guard} {td : BitVec 4} {d : Desc} {c : CourseState} (hx : Executes s r g)
    (hg : GoesOn s r) (hd : d = (s.room r).foreman.desc td) (hchecks : foldFault d (s.portion r) = none)
    (hslot : (s.room r).course.openSlot d.layer d.tile = some c) :
    exec (.fold r g td) s = .next (didRoom s r fun x => { x with course := c }.fold d (s.lanes r)) := by
  rw [exec_fold]
  refine foremanOp_modRoom hx hg ?_ fun x => (Room.fold_accsOnly ..).foreman
  subst hd
  simp only [hchecks, hslot]

/-- Settles O19, by the sums of a row one after another, and the rows one after another: a sum reads no accumulator that an
earlier one wrote. -/
theorem foldRule : Obligations.FoldRule := by
  unfold Obligations.FoldRule
  refine ⟨?completes, fun x d row a => x.foldCell_word_fp32 row a, fun x d row a => x.foldCell_word_int32 row a,
    fun x i seed ordinal lanes now j k => ⟨rfl, Room.brickOf_inj⟩, ?faults, ?lanes⟩
  case completes =>
    intro s r g td d hx hg hd hchecks hopen hbricks haccs hinj
    obtain ⟨c, hslot, -⟩ := CourseState.exists_openSlot hopen
    have hok : ({ s.room r with course := c } : Room).LanesOk (s.lanes r) := ⟨hbricks, haccs, hinj⟩
    have honly (x : Room) := Room.fold_accsOnly { x with course := c } d (s.lanes r)
    have hf (x : Room) := (honly x).foreman
    refine ⟨_, exec_fold_of hx hg hd hchecks hslot, ?_⟩
    simp only [State.brick_didRoom hx.2.1 hf]
    refine ⟨fun row hrow i hi => hok.accWord_fold_column15 d hrow (by omega) (by omega),
      fun b hb a ha => (hok.accWord_fold d hb a).trans (if_neg (by omega)), ((honly _).hod hbricks).2,
      (State.pantry_didRoom hx.2.1 hf).trans (honly _).pantry, State.foreman_didRoom hx.2.1 hf, onlyRoom_didRoom s r _⟩
  case faults =>
    rintro s r g td d hx rfl hd
    exact ⟨fun h => exec_fold_of_fault hx (foldFault_of_form hd h),
      fun hspace hfmt h => exec_fold_of_fault hx (foldFault_of_bounds hd hspace hfmt h)⟩
  case lanes =>
    intro x d lanes row a b hbricks haccs hinj
    have hok : x.LanesOk lanes := ⟨hbricks, haccs, hinj⟩
    have honly := x.fold_accsOnly d lanes
    exact ⟨hok.accWord_fold_column15 d, fun hb h => (hok.accWord_fold d hb a).trans (if_neg (by omega)),
      (honly.hod hbricks).2, honly.pantry, honly.foreman, honly.laneMap⟩

end Sys2Proof.Machine
end

section
/-! PROOF. CONVA and CONVT (R93 to R96): what storing the bytes of a tile leaves alone, the rows that reach the Pantry, and
the slot that is closed. -/

namespace Sys2Proof.Machine

open Sys2Proof.Safety

/-! ### Storing the bytes of tiles -/

/-- What storing bytes in the Pantry and the Hods leaves alone, when it turns the Room `x` into `y`: the Foreman, the lanes,
the accumulators, and which guard slots there are and are open. -/
structure Room.TileBytes (x y : Room) : Prop where
  foreman : y.foreman = x.foreman
  laneMap : y.laneMap = x.laneMap
  slotKeys : y.course.slotKeys = x.course.slotKeys
  acc : Store.wf ({} : Brick) x.bricks = true →
    Store.wf ({} : Brick) y.bricks = true ∧ ∀ k, (y.brick k).acc = (x.brick k).acc

theorem Room.TileBytes.refl (x : Room) : x.TileBytes x := ⟨rfl, rfl, rfl, fun h => ⟨h, fun _ => rfl⟩⟩

theorem Room.TileBytes.trans {x y z : Room} (hxy : x.TileBytes y) (hyz : y.TileBytes z) : x.TileBytes z where
  foreman := hyz.foreman.trans hxy.foreman
  laneMap := hyz.laneMap.trans hxy.laneMap
  slotKeys := hyz.slotKeys.trans hxy.slotKeys
  acc h := ⟨(hyz.acc (hxy.acc h).1).1, fun k => ((hyz.acc (hxy.acc h).1).2 k).trans ((hxy.acc h).2 k)⟩

theorem Room.TileBytes.foldl {α : Type} {f : Room → α → Room} (h : ∀ (x : Room) i, x.TileBytes (f x i)) (l : List α)
    (x : Room) : x.TileBytes (l.foldl f x) := by
  induction l generalizing x with
  | nil => exact .refl x
  | cons i l ih => exact (h x i).trans (ih (f x i))

theorem Room.TileBytes.iterate {f : Nat → Room → Room} (h : ∀ i (x : Room), x.TileBytes (f i x)) (n : Nat) (x : Room) :
    x.TileBytes (iterate f n x) := by
  induction n with
  | zero => exact .refl x
  | succ n ih => exact ih.trans (h n _)

/-- A change of the Course that keeps the slots of the tiles. -/
theorem Room.tileBytes_withCourse (x : Room) {c : CourseState} (h : c.slotKeys = x.course.slotKeys) :
    x.TileBytes { x with course := c } := ⟨rfl, rfl, h, fun h => ⟨h, fun _ => rfl⟩⟩

theorem Room.tileBytes_withRng (x : Room) (rng : Store W64) : x.TileBytes { x with rng } :=
  ⟨rfl, rfl, rfl, fun h => ⟨h, fun _ => rfl⟩⟩

theorem Room.note_tileBytes (x : Room) (space a : Nat) (bytes : List Byte) : x.TileBytes (x.note space a bytes) :=
  x.tileBytes_withCourse (CourseState.slotKeys_note ..)

theorem Room.modBrick_tileBytes (x : Room) (l : Nat) {f : Brick → Brick} (hf : ∀ b, (f b).acc = b.acc) :
    x.TileBytes (x.modBrick l f) where
  foreman := rfl
  laneMap := rfl
  slotKeys := rfl
  acc h := ⟨Room.wf_bricks_modBrick l f h, fun k => Room.brick_modBrick_congr Brick.acc l (hf _) k h⟩

theorem Room.writeHod_tileBytes (x : Room) (l a : Nat) (bytes : List Byte) : x.TileBytes (x.writeHod l a bytes) :=
  (x.modBrick_tileBytes l (by exact fun _ => rfl)).trans (Room.note_tileBytes ..)

theorem Room.writePantry_tileBytes (x : Room) (a : Nat) (bytes : List Byte) : x.TileBytes (x.writePantry a bytes) :=
  Room.TileBytes.trans (y := { x with pantry := Store.setRange 0 x.pantry a bytes })
    ⟨rfl, rfl, rfl, fun h => ⟨h, fun _ => rfl⟩⟩ (Room.note_tileBytes ..)

theorem Room.putHodRow_tileBytes (x : Room) (l : Nat) (d : Desc) (m : Nat) (v : RowData) : x.TileBytes (x.putHodRow l d m v) :=
  (x.writeHod_tileBytes ..).trans (Room.writeHod_tileBytes ..)

theorem Room.putPantryRow_tileBytes (x : Room) (d : Desc) (m : Nat) (v : RowData) : x.TileBytes (x.putPantryRow d m v) :=
  (x.writePantry_tileBytes ..).trans (Room.writePantry_tileBytes ..)

theorem Room.putBlocks_tileBytes (x : Room) (d ta : Desc) (folded : Bool) (lanes : List Nat) (codes : Nat → List Nat) :
    x.TileBytes (x.putBlocks d ta folded lanes codes) := by
  unfold Room.putBlocks
  simp only
  split
  · exact .foldl (fun x l => .iterate (fun m x => x.putHodRow_tileBytes ..) _ x) _ x
  · exact .iterate (fun i x => x.putPantryRow_tileBytes ..) _ x

/-- A row without scales reaches the Pantry as its packed elements, and no Hod changes. -/
theorem Room.putPantryRow_unscaled (x : Room) (d : Desc) (m : Nat) (elems : List Byte) :
    (x.putPantryRow d m { elems, scales := [] }).pantry = Store.setRange 0 x.pantry (d.rowAddr m) elems ∧
      (x.putPantryRow d m { elems, scales := [] }).bricks = x.bricks := ⟨rfl, rfl⟩

/-- The blocks of the lanes as one Pantry tile: its rows one after another, and every Hod as it stood. -/
theorem Room.putBlocks_pantry (x : Room) {d : Desc} (ta : Desc) (folded : Bool) (lanes : List Nat) (codes : Nat → List Nat)
    (h : d.space = 0) :
    (x.putBlocks d ta folded lanes codes).pantry = (List.range d.rows).foldl (fun m i => Store.setRange 0 m (d.rowAddr i)
      (packRow (fmtWidth d.fmt) (gatherRow ta d.cols folded codes i))) x.pantry ∧
    (x.putBlocks d ta folded lanes codes).bricks = x.bricks := by
  have hpantry : ¬ d.space = 1 := by omega
  simp only [Room.putBlocks, hpantry, if_false]
  constructor
  · rw [foldl_range_eq_iterate fun i m => Store.setRange 0 m (d.rowAddr i)
      (packRow (fmtWidth d.fmt) (gatherRow ta d.cols folded codes i))]
    exact iterate_hom (p := Room.pantry) (fun i x => (x.putPantryRow_unscaled ..).1) _ _
  · induction d.rows with
    | zero => rfl
    | succ n ih => exact ih

/-! ### Closing the tile's slot (R95, R96) -/

/-- The tile's slot is closed, and with KEEP its source is remembered. -/
def Room.closeTile (x : Room) (td source : Desc) (keep : Bool) : Room :=
  let c := x.course.closeSlot td.layer td.tile
  { x with course := if keep then c.keep td source else c }

@[simp] theorem Room.closeTile_pantry (x : Room) (td source : Desc) (keep : Bool) :
    (x.closeTile td source keep).pantry = x.pantry := rfl
@[simp] theorem Room.closeTile_bricks (x : Room) (td source : Desc) (keep : Bool) :
    (x.closeTile td source keep).bricks = x.bricks := rfl

theorem Room.exists_closed_closeTile {x : Room} {td : Desc} (source : Desc) (keep : Bool)
    (h : x.course.hasOpen td.layer td.tile = true) :
    ∃ y ∈ (x.closeTile td source keep).course.slots, y.layer = td.layer ∧ y.tile = td.tile ∧ y.isOpen = false := by
  cases keep <;> exact CourseState.exists_closed_closeSlot h

/-- Storing bytes keeps an open slot open. -/
theorem Room.TileBytes.hasOpen {x y : Room} {layer tile : Nat} (h : x.TileBytes y) (ho : x.course.hasOpen layer tile = true) :
    y.course.hasOpen layer tile = true := by
  rw [CourseState.hasOpen_iff] at ho ⊢
  rw [h.slotKeys]
  exact ho

/-! ### CONVA (R93) -/

/-- What the lanes that a CONVA reads convert to. -/
def Room.convaLanes (x : Room) (td ta : Desc) (mode : BitVec 5) (lanes : Nat) : Store (List Nat × Counts × W64) :=
  (convLanes lanes (mode.getLsbD 1)).map fun l => (l, convLane td ta (modeHigh mode) (x.brick l) (Store.get 0 x.rng l))

/-- The converted codes of a lane. -/
def Room.convaCodes (x : Room) (td ta : Desc) (mode : BitVec 5) (lanes l : Nat) : List Nat :=
  (((x.convaLanes td ta mode lanes).find? (·.1 == l)).map (·.2.1)).getD []

/-- The generators after a CONVA. -/
def Room.convaRng (x : Room) (td ta : Desc) (mode : BitVec 5) (lanes : Nat) : Store W64 :=
  (x.convaLanes td ta mode lanes).foldl (fun m z => Store.set 0 m z.1 z.2.2.2) x.rng

/-- What the lanes of a CONVA count together. -/
def Room.convaCounts (x : Room) (td ta : Desc) (mode : BitVec 5) (lanes : Nat) : Counts :=
  (x.convaLanes td ta mode lanes).foldl (fun k z => k.add z.2.2.1) {}

/-- The Room with a conversion's counts in the slot of its tile. -/
def Room.countTile (x : Room) (td : Desc) (k : Counts) : Room :=
  { x with course := x.course.countSlot td.layer td.tile { sat := k.sat, ufl := k.ufl, nan := k.nan } }

@[simp] theorem Room.countTile_pantry (x : Room) (td : Desc) (k : Counts) : (x.countTile td k).pantry = x.pantry := rfl
@[simp] theorem Room.countTile_bricks (x : Room) (td : Desc) (k : Counts) : (x.countTile td k).bricks = x.bricks := rfl

theorem Room.countTile_tileBytes (x : Room) (td : Desc) (k : Counts) : x.TileBytes (x.countTile td k) :=
  x.tileBytes_withCourse (CourseState.slotKeys_countSlot ..)

/-- The Room with the tiles of a CONVA stored, before its counts. -/
def Room.convaTiles (x : Room) (td ta tb : Desc) (mode : BitVec 5) (lanes : Nat) : Room :=
  let read := convLanes lanes (mode.getLsbD 1)
  let y := Room.putBlocks { x with rng := x.convaRng td ta mode lanes } td ta (mode.getLsbD 1) read
    (x.convaCodes td ta mode lanes)
  if modeKeep mode then y.putBlocks tb ta (mode.getLsbD 1) read fun l => keepLane ta (x.brick l) else y

/-- A CONVA stores its tiles, counts, and closes the slot. -/
theorem Room.conva_eq (x : Room) (td ta tb : Desc) (mode : BitVec 5) (lanes : Nat) :
    x.conva td ta tb mode lanes = ((x.convaTiles td ta tb mode lanes).countTile td (x.convaCounts td ta mode lanes)).closeTile
      td tb (modeKeep mode) := rfl

theorem Room.convaTiles_tileBytes (x : Room) (td ta tb : Desc) (mode : BitVec 5) (lanes : Nat) :
    x.TileBytes (x.convaTiles td ta tb mode lanes) := by
  have hfirst := (x.tileBytes_withRng (x.convaRng td ta mode lanes)).trans (Room.putBlocks_tileBytes _ td ta
    (mode.getLsbD 1) (convLanes lanes (mode.getLsbD 1)) (x.convaCodes td ta mode lanes))
  unfold Room.convaTiles
  simp only
  split
  · exact hfirst.trans (Room.putBlocks_tileBytes ..)
  · exact hfirst

theorem find?_map_key {α : Type} (f : Nat → α) (l : List Nat) (k : Nat) :
    (l.map fun i => (i, f i)).find? (·.1 == k) = if k ∈ l then some (k, f k) else none := by
  induction l with
  | nil => rfl
  | cons i l ih =>
    by_cases hi : i = k
    · simp [hi]
    · simp [hi, ih, Ne.symm hi]

theorem Room.convaCodes_eq (x : Room) (td ta : Desc) (mode : BitVec 5) (lanes : Nat) :
    x.convaCodes td ta mode lanes = fun l => if l ∈ convLanes lanes (mode.getLsbD 1) then
      (convLane td ta (modeHigh mode) (x.brick l) (Store.get 0 x.rng l)).1 else [] := by
  funext l
  rw [Room.convaCodes, Room.convaLanes, find?_map_key]
  split <;> rfl

/-- A CONVA without KEEP into the Pantry stores the rows of its one tile, and no Hod. -/
theorem Room.conva_pantry (x : Room) {td : Desc} (ta tb : Desc) {mode : BitVec 5} (lanes : Nat) (hspace : td.space = 0)
    (hkeep : modeKeep mode = false) :
    (x.conva td ta tb mode lanes).pantry = (List.range td.rows).foldl (fun m i => Store.setRange 0 m (td.rowAddr i)
      (packRow (fmtWidth td.fmt) (gatherRow ta td.cols (mode.getLsbD 1) (x.convaCodes td ta mode lanes) i))) x.pantry ∧
    (x.conva td ta tb mode lanes).bricks = x.bricks := by
  have htiles : x.convaTiles td ta tb mode lanes = Room.putBlocks { x with rng := x.convaRng td ta mode lanes } td ta
      (mode.getLsbD 1) (convLanes lanes (mode.getLsbD 1)) (x.convaCodes td ta mode lanes) := by
    simp only [Room.convaTiles, hkeep, Bool.false_eq_true, if_false]
  rw [Room.conva_eq, Room.closeTile_pantry, Room.closeTile_bricks, Room.countTile_pantry, Room.countTile_bricks, htiles]
  exact Room.putBlocks_pantry _ ta _ _ _ hspace

/-- What every CONVA leaves: the Foreman and the accumulators as they stood, and the tile's slot closed. -/
theorem Room.conva_spec (x : Room) (td ta tb : Desc) (mode : BitVec 5) (lanes : Nat) :
    (x.conva td ta tb mode lanes).foreman = x.foreman ∧
    (Store.wf ({} : Brick) x.bricks = true → ∀ k, ((x.conva td ta tb mode lanes).brick k).acc = (x.brick k).acc) ∧
    (x.course.hasOpen td.layer td.tile = true →
      ∃ y ∈ (x.conva td ta tb mode lanes).course.slots, y.layer = td.layer ∧ y.tile = td.tile ∧ y.isOpen = false) := by
  have htiles := x.convaTiles_tileBytes td ta tb mode lanes
  refine ⟨htiles.foreman, fun h => (htiles.acc h).2, fun h => ?_⟩
  rw [Room.conva_eq]
  exact Room.exists_closed_closeTile _ _
    ((htiles.trans (Room.countTile_tileBytes ..)).hasOpen h)

theorem exec_conva_of {s : State} {r : Nat} {g : Guard} {td ta tb : BitVec 4} {mode : BitVec 5} {d a b : Desc} {c : CourseState}
    (hx : Executes s r g) (hg : GoesOn s r) (hd : d = (s.room r).foreman.desc td) (ha : a = (s.room r).foreman.desc ta)
    (hb : b = (s.room r).foreman.desc tb) (hchecks : convaFault d a b mode (s.lanes r) (s.portion r) = none)
    (hslot : (s.room r).course.openSlot d.layer d.tile = some c) :
    exec (.conva r g td ta tb mode) s = .next (didRoom s r fun x => { x with course := c }.conva d a b mode (s.lanes r)) := by
  rw [exec_conva]
  refine foremanOp_modRoom hx hg ?_ fun x => (Room.conva_spec ..).1
  subst hd ha hb
  simp only [hchecks, hslot]

/-! ### CONVT (R94) -/

theorem Room.convtRow_tileBytes (td : Desc) (mode lanes : Nat) (x : Room) (m : Nat) (v : List FVal × List Nat) :
    x.TileBytes (Room.convtRow td mode lanes x m v) := by
  unfold Room.convtRow
  simp only
  exact ((x.tileBytes_withRng _).trans (Room.putPantryRow_tileBytes _ td m _)).trans (Room.tileBytes_withCourse _ (by simp))

theorem Room.convtRow_bricks (td : Desc) (mode lanes : Nat) (x : Room) (m : Nat) (v : List FVal × List Nat) :
    (Room.convtRow td mode lanes x m v).bricks = x.bricks := rfl

/-- A converted row of an unscaled tile. -/
theorem Room.convtRow_pantry {td : Desc} (mode lanes : Nat) (x : Room) (m : Nat) (v : List FVal × List Nat)
    (h : fmtBlock td.fmt = 0) :
    (Room.convtRow td mode lanes x m v).pantry = Store.setRange 0 x.pantry (td.rowAddr m)
      (packRow (fmtWidth td.fmt) (convertRow td.fmt mode td.top (blocksOf (max td.cols 1) (v.1.length + 1) v.1)
        (Store.get 0 x.rng (m % max lanes 1))).2.1) := by
  simp only [Room.convtRow, h, if_true]
  rfl

/-- The Room with the rows of a CONVT stored and counted. -/
def Room.convtTiles (x : Room) (td ta : Desc) (mode : BitVec 5) (lanes : Nat) : Room :=
  ((List.range ta.rows).map fun m => (m, x.sourceRow ta m)).foldl
    (fun x v => Room.convtRow td (modeHigh mode) lanes x v.1 v.2) x

theorem Room.convt_eq (x : Room) (td ta : Desc) (mode : BitVec 5) (lanes : Nat) :
    x.convt td ta mode lanes = (x.convtTiles td ta mode lanes).closeTile td ta (modeKeep mode) := rfl

theorem Room.convtTiles_tileBytes (x : Room) (td ta : Desc) (mode : BitVec 5) (lanes : Nat) :
    x.TileBytes (x.convtTiles td ta mode lanes) := by
  unfold Room.convtTiles
  refine Room.TileBytes.foldl (fun y v => ?_) _ x
  exact Room.convtRow_tileBytes td (modeHigh mode) lanes y v.1 v.2

/-- What every CONVT leaves: the Foreman and the Bricks as they stood, and the tile's slot closed. -/
theorem Room.convt_spec (x : Room) (td ta : Desc) (mode : BitVec 5) (lanes : Nat) :
    (x.convt td ta mode lanes).foreman = x.foreman ∧ (x.convt td ta mode lanes).bricks = x.bricks ∧
    (x.course.hasOpen td.layer td.tile = true →
      ∃ y ∈ (x.convt td ta mode lanes).course.slots, y.layer = td.layer ∧ y.tile = td.tile ∧ y.isOpen = false) := by
  have htiles := x.convtTiles_tileBytes td ta mode lanes
  refine ⟨htiles.foreman, ?_, fun h => Room.exists_closed_closeTile _ _ (htiles.hasOpen h)⟩
  rw [Room.convt_eq, Room.closeTile_bricks, Room.convtTiles]
  exact List.foldlRecOn (motive := fun y : Room => y.bricks = x.bricks) _ _ rfl fun y hy v _ => (Room.convtRow_bricks ..).trans hy

/-- A CONVT of one unscaled row stores that row, converted on lane 0. -/
theorem Room.convt_pantry_of_one_row (x : Room) {td ta : Desc} (mode : BitVec 5) (lanes : Nat) (hrows : ta.rows = 1)
    (hcols : td.cols = ta.cols) (hpos : td.cols ≠ 0) (hblock : fmtBlock td.fmt = 0) :
    (x.convt td ta mode lanes).pantry = Store.setRange 0 x.pantry (td.rowAddr 0)
      (packRow (fmtWidth td.fmt) (convertRow td.fmt (modeHigh mode) td.top
        (blocksOf td.cols (td.cols + 1) ((ta.decodeRow (ta.readRow x.pantry 0)).map (·.1))) (Store.get 0 x.rng 0)).2.1) := by
  have hone : x.convtTiles td ta mode lanes = Room.convtRow td (modeHigh mode) lanes x 0 (x.sourceRow ta 0) := by
    simp [Room.convtTiles, hrows, List.range_succ]
  have hlength : (x.sourceRow ta 0).1.length = td.cols := by simp [Room.sourceRow, Desc.decodeRow, hcols]
  rw [Room.convt_eq, Room.closeTile_pantry, hone, Room.convtRow_pantry _ _ _ _ _ hblock, hlength,
    max_eq_left (by omega), Nat.zero_mod]
  rfl

theorem firstFault_cons_eq_none {o : Option Nat} {l : List (Option Nat)} :
    firstFault (o :: l) = none ↔ o = none ∧ firstFault l = none := by cases o <;> simp

theorem Desc.cols_ne_zero_of_check {d : Desc} {portion : Nat} (h : d.check portion = none) : d.cols ≠ 0 := by
  intro h0
  unfold Desc.check Desc.checkWith at h
  split_ifs at h
  simp_all

/-- The shapes that the checks of a CONVT ensure. -/
theorem shapes_of_convtFault {d a : Desc} {mode : BitVec 5} {portion : Nat} (h : convtFault d a mode portion = none) :
    d.rows = a.rows ∧ d.cols = a.cols ∧ d.cols ≠ 0 := by
  simp only [convtFault, firstFault_must_cons_eq_none, firstFault_cons_eq_none (o := Desc.check _ _), Bool.and_eq_true,
    decide_eq_true_eq] at h
  obtain ⟨-, hcheck, -, -, ⟨hrows, hcols⟩, -⟩ := h
  exact ⟨hrows, hcols, Desc.cols_ne_zero_of_check hcheck⟩

theorem exec_convt_of {s : State} {r : Nat} {g : Guard} {td ta : BitVec 4} {mode : BitVec 5} {d a : Desc} {c : CourseState}
    (hx : Executes s r g) (hg : GoesOn s r) (hd : d = (s.room r).foreman.desc td) (ha : a = (s.room r).foreman.desc ta)
    (hchecks : convtFault d a mode (s.portion r) = none) (hslot : (s.room r).course.openSlot d.layer d.tile = some c) :
    exec (.convt r g td ta mode) s = .next (didRoom s r fun x => { x with course := c }.convt d a mode (s.lanes r)) := by
  rw [exec_convt]
  refine foremanOp_modRoom hx hg ?_ fun x => (Room.convt_spec ..).1
  subst hd ha
  simp only [hchecks, hslot]

end Sys2Proof.Machine
end

section
/-! PROOF. What an access by virtual address leaves alone (R174, R186, R224, R242): reading changes no Suite, and of a Room whose
Foreman is not idle its cache at most. -/

namespace Sys2Proof.Machine

/-- What reading leaves alone for Room r, when it turns the state `s` into `t`: the Suites, and a Room whose Foreman is not
idle but for its cache. -/
structure State.CachesOnly (s t : State) (r : Nat) : Prop where
  suites : t.suites = s.suites
  room : (s.room r).foreman.run ≠ .idle → ∃ cache, t.room r = { s.room r with cache := cache }

namespace State.CachesOnly

variable {s t u : State} {r : Nat}

theorem of_eq (hs : t.suites = s.suites) (hr : t.rooms = s.rooms) : s.CachesOnly t r :=
  ⟨hs, fun _ => ⟨(s.room r).cache, by rw [State.room, hr]; rfl⟩⟩

theorem refl (s : State) (r : Nat) : s.CachesOnly s r := of_eq rfl rfl

theorem trans (hst : s.CachesOnly t r) (htu : t.CachesOnly u r) : s.CachesOnly u r where
  suites := htu.suites.trans hst.suites
  room h := by
    obtain ⟨c, hc⟩ := hst.room h
    obtain ⟨c', hc'⟩ := htu.room (by rw [hc]; exact h)
    exact ⟨c', by rw [hc', hc]⟩

theorem foldl {α : Type} {f : State → α → State} (h : ∀ (s : State) i, s.CachesOnly (f s i) r) (l : List α) (s : State) :
    s.CachesOnly (l.foldl f s) r := by
  induction l generalizing s with
  | nil => exact refl s r
  | cons i l ih => exact (h s i).trans (ih (f s i))

/-- The lanes of the Room's step do not depend on its cache. -/
theorem lanes (h : s.CachesOnly t r) (hrun : (s.room r).foreman.run ≠ .idle) : t.lanes r = s.lanes r := by
  obtain ⟨c, hc⟩ := h.room hrun
  simp only [State.lanes, State.stepOf, State.suite, hc, h.suites]

end State.CachesOnly

/-! ### Reading a line at its home -/

theorem State.modCache_cachesOnly (s : State) (k : Nat) (f : Cache → Cache) (r : Nat) : s.CachesOnly (s.modCache k f) r where
  suites := rfl
  room h := by
    by_cases hk : r = k
    · subst hk
      exact ⟨f (s.room r).cache, State.room_modRoom_of_run h⟩
    · exact ⟨(s.room r).cache, State.room_setRoom_ne s k r _ hk⟩

theorem State.setDir_cachesOnly (s : State) (k : Nat) (e : Option DirEntry) (r : Nat) : s.CachesOnly (s.setDir k e) r :=
  .of_eq rfl rfl

theorem State.countUncached_cachesOnly (s : State) (a r : Nat) : s.CachesOnly (s.countUncached a) r := .of_eq rfl rfl

theorem State.readLine_cachesOnly (s : State) (l r : Nat) : s.CachesOnly (s.readLine l) r := by
  unfold State.readLine
  split
  · exact .refl s r
  · split
    · exact .refl s r
    · split
      · exact (s.modCache_cachesOnly ..).trans (State.setDir_cachesOnly ..)
      · exact .refl s r

/-- Reading the lines of an uncached access, and its count at the home. -/
theorem State.readLines_cachesOnly (s : State) (l : List Nat) (a r : Nat) :
    s.CachesOnly ((l.foldl State.readLine s).countUncached a) r :=
  .trans (.foldl (fun s l => s.readLine_cachesOnly l r) l s) (State.countUncached_cachesOnly ..)

/-! ### Translation -/

theorem State.awaitPage_cachesOnly (s : State) (p r : Nat) : s.CachesOnly (s.awaitPage p).2 r := .of_eq rfl rfl

theorem State.reached_cachesOnly (s : State) (f : Nat) (ev : Bool) (r : Nat) : s.CachesOnly (s.reached f ev).2 r := by
  unfold State.reached
  simp only
  split
  · exact s.awaitPage_cachesOnly ..
  · exact .refl s r

theorem State.walkFill_cachesOnly (s : State) (porter ctx va : Nat) (tables : List (Nat × Nat)) (r : Nat) :
    s.CachesOnly (s.walkFill porter ctx va tables) r := .of_eq rfl rfl

theorem State.tlbFill_cachesOnly (s : State) (e : TlbEntry) (r : Nat) : s.CachesOnly (s.tlbFill e) r := .of_eq rfl rfl

theorem State.translate_cachesOnly (s : State) (port ctx va : Nat) (write : Bool) (r : Nat) :
    s.CachesOnly (s.translate port ctx va write).2 r := by
  unfold State.translate
  split
  · exact .refl s r
  · split
    · exact .refl s r
    · rename_i c _
      simp only
      split
      · split
        · exact .refl s r
        · exact s.reached_cachesOnly ..
      · have hwalk : s.CachesOnly (State.walkFill
            ((s.walk ctx c (porterOf port) va write).2.1.foldl (fun s l => (s.readLine l).countUncached (l * 128)) s)
            (porterOf port) ctx va (s.walk ctx c (porterOf port) va write).2.2) r :=
          .trans (.foldl (fun s l => (s.readLine_cachesOnly l r).trans (State.countUncached_cachesOnly ..)) _ s)
            (State.walkFill_cachesOnly ..)
        split
        · exact (hwalk.trans (State.tlbFill_cachesOnly ..)).trans (State.reached_cachesOnly ..)
        · exact hwalk
        · exact hwalk
        · exact hwalk
        · exact hwalk.trans (State.awaitPage_cachesOnly ..)

theorem State.stall_cachesOnly (s : State) (port ctx va : Nat) (write notPresent : Bool) (level r : Nat) :
    s.CachesOnly (s.stall port ctx va write notPresent level) r := .of_eq rfl rfl

theorem State.translateAll_cachesOnly (port ctx : Nat) (write : Bool) (l : List (Nat × Nat)) (s : State) (r : Nat) :
    s.CachesOnly (State.translateAll port ctx write l s).2 r := by
  induction l generalizing s with
  | nil => exact .refl s r
  | cons x l ih =>
    obtain ⟨va, n⟩ := x
    have hfirst := s.translate_cachesOnly port ctx va write r
    unfold State.translateAll
    generalize s.translate port ctx va write = z at hfirst
    obtain ⟨result, t⟩ := z
    cases result with
    | ok f ev =>
      have hrest := hfirst.trans (ih t)
      simp only
      split
      · rename_i heq
        rw [heq] at hrest
        exact hrest
      · exact hrest
    | fault np level =>
      simp only
      split
      · exact hfirst
      · exact hfirst.trans (State.stall_cachesOnly ..)
    | access => exact hfirst
    | poisoned => exact hfirst
    | wait => exact hfirst

/-! ### Reading several ranges -/

theorem State.countRefused_cachesOnly (s : State) (acc : RemoteAccess) (r : Nat) : s.CachesOnly (s.countRefused acc) r := by
  unfold State.countRefused
  refine .foldl (fun u hh => ?_) _ s
  exact .of_eq rfl rfl

theorem State.request_cachesOnly (port ctx : Nat) (s : State) (x : Nat × Nat × Bool) (r : Nat) :
    s.CachesOnly (State.request port ctx s x) r := by
  obtain ⟨f, n, ev⟩ := x
  unfold State.request
  simp only
  split
  · exact .refl s r
  · split
    · exact .refl s r
    · split
      · exact .refl s r
      · exact .of_eq rfl rfl
  · split
    · exact .refl s r
    · split
      · exact .refl s r
      · split
        · exact .refl s r
        · exact .of_eq rfl rfl

theorem State.consume_cachesOnly (port ctx : Nat) (coherent : Bool) (s : State) (x : Nat × Nat × Bool) (r : Nat) :
    s.CachesOnly (State.consume port ctx coherent s x) r := by
  obtain ⟨f, n, ev⟩ := x
  unfold State.consume
  simp only
  split
  · split
    · exact s.readLines_cachesOnly ..
    · exact .refl s r
  · exact .of_eq rfl rfl
  · split
    · split
      · exact s.readLines_cachesOnly ..
      · exact s.countRefused_cachesOnly ..
    · exact .of_eq rfl rfl

theorem State.readMany_cachesOnly (s : State) (port ctx : Nat) (ranges : List (Nat × Nat)) (coherent sent : Bool) (r : Nat) :
    s.CachesOnly (s.readMany port ctx ranges coherent sent).2 r := by
  have hpieces := State.translateAll_cachesOnly port ctx false (ranges.flatMap fun x => piecesOf x.1 x.2) s r
  unfold State.readMany
  split
  · exact .refl s r
  · generalize State.translateAll port ctx false (ranges.flatMap fun x => piecesOf x.1 x.2) s = z at hpieces
    obtain ⟨result, t⟩ := z
    cases result with
    | ok ps =>
      have hconsume := hpieces.trans (.foldl (fun u x => State.consume_cachesOnly port ctx coherent u x r) ps t)
      simp only
      split
      · exact hpieces
      · split
        · exact hconsume
        · exact hpieces.trans (.foldl (fun u x => State.request_cachesOnly port ctx u x r) ps t)
        · exact hconsume
    | wait => exact hpieces
    | access => exact hpieces
    | poisoned => exact hpieces

theorem State.enqueueVa_cachesOnly (s : State) (port ctx : Nat) (write : Bool) (range : Nat × Nat) (cargo : Cargo) (told : Bool)
    (r : Nat) : s.CachesOnly (s.enqueueVa port ctx write range cargo told) r := by
  unfold State.enqueueVa
  refine .foldl (fun u x => ?_) _ s
  split
  · split
    · rename_i a _
      obtain ⟨packets, regulators, h⟩ := u.enqueue_frame port a x.2 write none cargo
        (some (u.suite (u.suiteOfCtx ctx)).share) told
      rw [h]
      exact .of_eq rfl rfl
    · exact .refl u r
  · exact .refl u r

theorem State.charged_cachesOnly {α : Type} {s : State} {r : Nat} (port ctx : Nat) (write : Bool) (ranges : List (Nat × Nat))
    {x : Got α × State} (h : s.CachesOnly x.2 r) : s.CachesOnly (State.charged port ctx write ranges x).2 r := by
  obtain ⟨result, t⟩ := x
  cases result with
  | ok a => exact h.trans (.foldl (fun u e => u.enqueueVa_cachesOnly ..) _ t)
  | poisoned => exact h.trans (.foldl (fun u e => u.enqueueVa_cachesOnly ..) _ t)
  | wait => exact h
  | access => exact h

end Sys2Proof.Machine
end

section
/-! PROOF. The Plumb-line check (R56 to R59, R105), and the statement on it and on the conversions that store its tile. -/

namespace Sys2Proof.Machine

open Sys2Proof.Safety

section Plumb

variable {s : State} {r : Nat} {g : Guard} {td ta tb : BitVec 4} {d a b : Desc} {slot : GuardSlot} {e : LadderEntry}
  (hx : Executes s r g) (hd : d = (s.room r).foreman.desc td) (hcheck : d.check (s.portion r) = none)
include hx hd hcheck

/-- Without a closed slot of the tile's key, PLUMB faults with OPEN_GUARD (R105). -/
theorem exec_plumb_of_open (h : ((s.room r).course.slot? d.layer d.tile).all (·.isOpen) = true) :
    exec (.plumb r g td ta tb) s = .next (s.keepQueue (s.programFault r 0x0C)) := by
  rw [exec_plumb]
  refine foremanOp_fault hx ?_
  subst hd
  cases hslot : (s.room r).course.slot? ((s.room r).foreman.desc td).layer ((s.room r).foreman.desc td).tile with
  | none =>
    simp only [hcheck, hslot]
    rfl
  | some slot =>
    rw [hslot] at h
    have hopen : slot.isOpen = true := h
    simp only [hcheck, hslot, hopen, if_true]
    rfl

variable (hg : GoesOn s r) (hslot : (s.room r).course.slot? d.layer d.tile = some slot) (hclosed : slot.isOpen = false)
include hg hslot hclosed

/-- PLUMB does nothing for a layer without a Ladder entry, or whose PLUMB_RATE is 15. -/
theorem exec_plumb_of_no_rate (h : s.ladder? r d.layer = none ∨ s.ladder? r d.layer = some e ∧ e.plumbRate = 15) :
    exec (.plumb r g td ta tb) s = .next (did s r fun f => f) := by
  rw [exec_plumb]
  refine foremanOp_done hx hg ?_
  subst hd
  obtain hnone | ⟨hsome, hrate⟩ := h
  · simp [hcheck, hslot, hclosed, hnone]
  · simp [hcheck, hslot, hclosed, hsome, hrate]

variable (ha : a = (s.room r).foreman.desc ta) (hb : b = (s.room r).foreman.desc tb) (he : s.ladder? r d.layer = some e)
  (hrate : e.plumbRate ≠ 15) (hchecks : plumbFault d a b e (s.lanes r) (s.portion r) = none)
include ha hb he hrate hchecks

/-- PLUMB does nothing for a tile that is not sampled (R56). -/
theorem exec_plumb_of_not_sampled
    (h : plumbSampled (((s.stepOf r).map (·.desc.seed)).getD 0) d.layer d.tile e.plumbRate = false) :
    exec (.plumb r g td ta tb) s = .next (did s r fun f => f) := by
  rw [exec_plumb]
  refine foremanOp_done hx hg ?_
  subst hd ha hb
  simp only [hcheck, hslot, hclosed, he, hrate, hchecks, h, Bool.false_eq_true, if_false, Bool.not_false, if_true]

/-- PLUMB judges a sampled tile from the reference weights that it has read (R57 to R59); the read leaves the lanes of the
step as they are. -/
theorem exec_plumb_of_sampled {u : State} {w : List Byte}
    (h : plumbSampled (((s.stepOf r).map (·.desc.seed)).getD 0) d.layer d.tile e.plumbRate = true)
    (hread : State.charged (dmaPort r) (s.ctxOf r) false
        ((List.range b.rows).map fun n => ((e.refAddr + b.rowAddr n) % 2 ^ 64, b.rowBytes))
        (s.readMany (dmaPort r) (s.ctxOf r)
          ((List.range b.rows).map fun n => ((e.refAddr + b.rowAddr n) % 2 ^ 64, b.rowBytes)) false) = (.ok w, u))
    (hu : (u.room r).foreman = (s.room r).foreman) :
    exec (.plumb r g td ta tb) s = .next (s.keepQueue (didRoom u r fun x => x.judge d a b e (s.lanes r) w)) := by
  have hrun : (u.room r).foreman.run = .running := by rw [hu]; exact hx.2.1
  have hgu : GoesOn u r := by unfold GoesOn; rw [hu]; exact hg
  have honly : s.CachesOnly u r := by
    have := State.charged_cachesOnly (dmaPort r) (s.ctxOf r) false
      ((List.range b.rows).map fun n => ((e.refAddr + b.rowAddr n) % 2 ^ 64, b.rowBytes))
      (s.readMany_cachesOnly (dmaPort r) (s.ctxOf r)
        ((List.range b.rows).map fun n => ((e.refAddr + b.rowAddr n) % 2 ^ 64, b.rowBytes)) false false r)
    rwa [hread] at this
  have hlanes := honly.lanes (hx.2.1.trans_ne (by decide))
  rw [exec_plumb, execPlumb, foremanOp_of _ _ _ _ hx,
    ← State.advance_modRoom (e := fun x => x.judge d a b e (s.lanes r) w) hgu hrun fun x => rfl]
  subst hd ha hb
  simp only [hcheck, hslot, hclosed, he, hrate, hchecks, h, hread, hlanes, Bool.false_eq_true, if_false, Bool.not_true]
  rfl

end Plumb

/-- Settles O21, by what storing the bytes of a tile leaves alone and, for PLUMB, by the cases of its effect. -/
theorem plumbChecks : Obligations.PlumbChecks := by
  unfold Obligations.PlumbChecks
  constructor
  · intro s r g td ta tb mode d a b hx hg hd ha hb hopen hbricks
    obtain ⟨c, hslot, hhas⟩ := CourseState.exists_openSlot hopen
    constructor
    · intro hchecks
      have hspec (x : Room) := Room.conva_spec { x with course := c } d a b mode (s.lanes r)
      have hf (x : Room) := (hspec x).1
      obtain ⟨-, hacc, hclosed⟩ := hspec (s.room r)
      refine ⟨_, exec_conva_of hx hg hd ha hb hchecks hslot, ?_⟩
      simp only [State.brick_didRoom hx.2.1 hf, State.bricks_didRoom hx.2.1 hf, State.pantry_didRoom hx.2.1 hf,
        State.course_didRoom hx.2.1 hf]
      refine ⟨hclosed hhas, hacc hbricks, State.foreman_didRoom hx.2.1 hf, fun hspace hkeep => ?_, onlyRoom_didRoom s r _⟩
      obtain ⟨hpantry, hsame⟩ := Room.conva_pantry { s.room r with course := c } a b (s.lanes r) hspace hkeep
      exact ⟨hsame, by rw [hpantry, Room.convaCodes_eq]; rfl⟩
    · intro hchecks
      have hspec (x : Room) := Room.convt_spec { x with course := c } d a mode (s.lanes r)
      have hf (x : Room) := (hspec x).1
      obtain ⟨-, hsame, hclosed⟩ := hspec (s.room r)
      obtain ⟨hrows, hcols, hpos⟩ := shapes_of_convtFault hchecks
      refine ⟨_, exec_convt_of hx hg hd ha hchecks hslot, ?_⟩
      simp only [State.bricks_didRoom hx.2.1 hf, State.pantry_didRoom hx.2.1 hf, State.course_didRoom hx.2.1 hf]
      exact ⟨hclosed hhas, hsame, State.foreman_didRoom hx.2.1 hf, fun hone hblock =>
        Room.convt_pantry_of_one_row _ mode (s.lanes r) (hrows.symm.trans hone) hcols hpos hblock, onlyRoom_didRoom s r _⟩
  · intro s u r g td ta tb d a b slot e w hx hg hd ha hb hcheck
    refine ⟨exec_plumb_of_open hx hd hcheck, fun hslot hclosed => ⟨exec_plumb_of_no_rate hx hd hcheck hg hslot hclosed,
      fun he hrate hchecks => ⟨?notSampled, ?sampled⟩⟩⟩
    case notSampled => exact exec_plumb_of_not_sampled hx hd hcheck hg hslot hclosed ha hb he hrate hchecks
    case sampled => exact exec_plumb_of_sampled hx hd hcheck hg hslot hclosed ha hb he hrate hchecks

end Sys2Proof.Machine
end

section
/-! PROOF. The words of the Foreman's program store (R78 to R81): the fields that the decoder reads are those that the
encoder wrote, format by format. -/

namespace Sys2Proof

open Machine Safety

/-! ### Bits [31:22], which every format shares (R79) -/

section

variable (opc : BitVec 6) (g : Guard) (y : BitVec 22)

theorem opcode_append : (encodeTop opc g ++ y : W32).extractLsb' 26 6 = opc := by
  rw [BitVec.extractLsb'_append_eq_of_le (by decide), encodeTop, BitVec.extractLsb'_append_eq_left]

theorem guardOf_append : guardOf (encodeTop opc g ++ y : W32) = g := by
  have hpg : (encodeTop opc g ++ y : W32).extractLsb' 22 3 = g.pg := by
    rw [BitVec.extractLsb'_append_eq_of_le (by decide), encodeTop, BitVec.extractLsb'_append_eq_of_add_le (by decide),
      BitVec.extractLsb'_append_eq_right]
  have hpn : (encodeTop opc g ++ y : W32).getLsbD 25 = g.pn := by
    rw [BitVec.getLsbD_append, encodeTop, BitVec.getLsbD_append, BitVec.getLsbD_append]
    simp
  rw [guardOf, hpg, hpn]

/-- The bits below bit 22 are those of the lower part. -/
theorem fields_append {start len : Nat} (h : start + len ≤ 22) :
    (encodeTop opc g ++ y : W32).extractLsb' start len = y.extractLsb' start len :=
  BitVec.extractLsb'_append_eq_of_add_le h

end

/-! ### The fields of each format (R80) -/

section

variable (opc : BitVec 6) (g : Guard)

@[simp] theorem opcode_encodeReg (rd ra rb : BitVec 5) (fn : BitVec 7) :
    (encodeReg opc g rd ra rb fn).extractLsb' 26 6 = opc := opcode_append ..

@[simp] theorem guardOf_encodeReg (rd ra rb : BitVec 5) (fn : BitVec 7) : guardOf (encodeReg opc g rd ra rb fn) = g :=
  guardOf_append ..

@[simp] theorem rd_encodeReg (rd ra rb : BitVec 5) (fn : BitVec 7) :
    (encodeReg opc g rd ra rb fn).extractLsb' 17 5 = rd := by
  rw [encodeReg, fields_append _ _ _ (by decide), BitVec.extractLsb'_append_eq_left]

@[simp] theorem ra_encodeReg (rd ra rb : BitVec 5) (fn : BitVec 7) :
    (encodeReg opc g rd ra rb fn).extractLsb' 12 5 = ra := by
  rw [encodeReg, fields_append _ _ _ (by decide), BitVec.extractLsb'_append_eq_of_add_le (by decide),
    BitVec.extractLsb'_append_eq_left]

@[simp] theorem rb_encodeReg (rd ra rb : BitVec 5) (fn : BitVec 7) :
    (encodeReg opc g rd ra rb fn).extractLsb' 7 5 = rb := by
  rw [encodeReg, fields_append _ _ _ (by decide), BitVec.extractLsb'_append_eq_of_add_le (by decide),
    BitVec.extractLsb'_append_eq_of_add_le (by decide), BitVec.extractLsb'_append_eq_left]

@[simp] theorem fn_encodeReg (rd ra rb : BitVec 5) (fn : BitVec 7) :
    (encodeReg opc g rd ra rb fn).extractLsb' 0 7 = fn := by
  rw [encodeReg, fields_append _ _ _ (by decide), BitVec.extractLsb'_append_eq_of_add_le (by decide),
    BitVec.extractLsb'_append_eq_of_add_le (by decide), BitVec.extractLsb'_append_eq_right]

@[simp] theorem opcode_encodeImm (rd ra : BitVec 5) (imm : BitVec 12) :
    (encodeImm opc g rd ra imm).extractLsb' 26 6 = opc := opcode_append ..

@[simp] theorem guardOf_encodeImm (rd ra : BitVec 5) (imm : BitVec 12) : guardOf (encodeImm opc g rd ra imm) = g :=
  guardOf_append ..

@[simp] theorem rd_encodeImm (rd ra : BitVec 5) (imm : BitVec 12) :
    (encodeImm opc g rd ra imm).extractLsb' 17 5 = rd := by
  rw [encodeImm, fields_append _ _ _ (by decide), BitVec.extractLsb'_append_eq_left]

@[simp] theorem ra_encodeImm (rd ra : BitVec 5) (imm : BitVec 12) :
    (encodeImm opc g rd ra imm).extractLsb' 12 5 = ra := by
  rw [encodeImm, fields_append _ _ _ (by decide), BitVec.extractLsb'_append_eq_of_add_le (by decide),
    BitVec.extractLsb'_append_eq_left]

@[simp] theorem imm_encodeImm (rd ra : BitVec 5) (imm : BitVec 12) :
    (encodeImm opc g rd ra imm).extractLsb' 0 12 = imm := by
  rw [encodeImm, fields_append _ _ _ (by decide), BitVec.extractLsb'_append_eq_of_add_le (by decide),
    BitVec.extractLsb'_append_eq_right]

@[simp] theorem opcode_encodeWide (rd : BitVec 5) (imm : BitVec 16) :
    (encodeWide opc g rd imm).extractLsb' 26 6 = opc := opcode_append ..

@[simp] theorem guardOf_encodeWide (rd : BitVec 5) (imm : BitVec 16) : guardOf (encodeWide opc g rd imm) = g :=
  guardOf_append ..

@[simp] theorem rd_encodeWide (rd : BitVec 5) (imm : BitVec 16) : (encodeWide opc g rd imm).extractLsb' 17 5 = rd := by
  rw [encodeWide, fields_append _ _ _ (by decide), BitVec.extractLsb'_append_eq_left]

@[simp] theorem imm_encodeWide (rd : BitVec 5) (imm : BitVec 16) : (encodeWide opc g rd imm).extractLsb' 0 16 = imm := by
  rw [encodeWide, fields_append _ _ _ (by decide), BitVec.extractLsb'_append_eq_of_add_le (by decide),
    BitVec.extractLsb'_append_eq_right]

@[simp] theorem opcode_encodeJump (off : BitVec 22) : (encodeJump opc g off).extractLsb' 26 6 = opc := opcode_append ..

@[simp] theorem guardOf_encodeJump (off : BitVec 22) : guardOf (encodeJump opc g off) = g := guardOf_append ..

@[simp] theorem off_encodeJump (off : BitVec 22) : (encodeJump opc g off).extractLsb' 0 22 = off :=
  BitVec.extractLsb'_append_eq_right

@[simp] theorem opcode_encodeLoop (ra : BitVec 5) (len : BitVec 12) :
    (encodeLoop opc g ra len).extractLsb' 26 6 = opc := opcode_append ..

@[simp] theorem guardOf_encodeLoop (ra : BitVec 5) (len : BitVec 12) : guardOf (encodeLoop opc g ra len) = g :=
  guardOf_append ..

@[simp] theorem ra_encodeLoop (ra : BitVec 5) (len : BitVec 12) : (encodeLoop opc g ra len).extractLsb' 17 5 = ra := by
  rw [encodeLoop, fields_append _ _ _ (by decide), BitVec.extractLsb'_append_eq_left]

@[simp] theorem len_encodeLoop (ra : BitVec 5) (len : BitVec 12) : (encodeLoop opc g ra len).extractLsb' 0 12 = len := by
  rw [encodeLoop, fields_append _ _ _ (by decide), BitVec.extractLsb'_append_eq_of_add_le (by decide),
    BitVec.extractLsb'_append_eq_right]

@[simp] theorem opcode_encodeTile (td ta tb : BitVec 4) (rs mode : BitVec 5) :
    (encodeTile opc g td ta tb rs mode).extractLsb' 26 6 = opc := opcode_append ..

@[simp] theorem guardOf_encodeTile (td ta tb : BitVec 4) (rs mode : BitVec 5) :
    guardOf (encodeTile opc g td ta tb rs mode) = g := guardOf_append ..

@[simp] theorem td_encodeTile (td ta tb : BitVec 4) (rs mode : BitVec 5) :
    (encodeTile opc g td ta tb rs mode).extractLsb' 18 4 = td := by
  rw [encodeTile, fields_append _ _ _ (by decide), BitVec.extractLsb'_append_eq_left]

@[simp] theorem ta_encodeTile (td ta tb : BitVec 4) (rs mode : BitVec 5) :
    (encodeTile opc g td ta tb rs mode).extractLsb' 14 4 = ta := by
  rw [encodeTile, fields_append _ _ _ (by decide), BitVec.extractLsb'_append_eq_of_add_le (by decide),
    BitVec.extractLsb'_append_eq_left]

@[simp] theorem tb_encodeTile (td ta tb : BitVec 4) (rs mode : BitVec 5) :
    (encodeTile opc g td ta tb rs mode).extractLsb' 10 4 = tb := by
  rw [encodeTile, fields_append _ _ _ (by decide), BitVec.extractLsb'_append_eq_of_add_le (by decide),
    BitVec.extractLsb'_append_eq_of_add_le (by decide), BitVec.extractLsb'_append_eq_left]

@[simp] theorem rs_encodeTile (td ta tb : BitVec 4) (rs mode : BitVec 5) :
    (encodeTile opc g td ta tb rs mode).extractLsb' 5 5 = rs := by
  rw [encodeTile, fields_append _ _ _ (by decide), BitVec.extractLsb'_append_eq_of_add_le (by decide),
    BitVec.extractLsb'_append_eq_of_add_le (by decide), BitVec.extractLsb'_append_eq_of_add_le (by decide),
    BitVec.extractLsb'_append_eq_left]

@[simp] theorem mode_encodeTile (td ta tb : BitVec 4) (rs mode : BitVec 5) :
    (encodeTile opc g td ta tb rs mode).extractLsb' 0 5 = mode := by
  rw [encodeTile, fields_append _ _ _ (by decide), BitVec.extractLsb'_append_eq_of_add_le (by decide),
    BitVec.extractLsb'_append_eq_of_add_le (by decide), BitVec.extractLsb'_append_eq_of_add_le (by decide),
    BitVec.extractLsb'_append_eq_right]

end

/-- Settles O6, format by format: the opcode selects the arm of the decoder, and the fields are those of the format. -/
theorem foremanWordsRoundTrip : Obligations.ForemanWordsRoundTrip := by
  unfold Obligations.ForemanWordsRoundTrip
  intro i w h
  cases i with
  | add | sub | mul | and | or | xor | shl | shr | sra | cmp | plog | lds | sts | signal | wait | digest
  | atomAdd | atomMax | atomMin | atomOr | atomAnd | atomSwap | atomCas | atomFadd =>
    cases h
    exact ⟨_, _, rfl, by simp [decodeForeman, decodeAtom], guardOf_encodeReg ..⟩
  | addi | ori | shli | cmpi | rdsr | rung | barrier =>
    cases h
    exact ⟨_, _, rfl, by simp [decodeForeman], guardOf_encodeImm ..⟩
  | movi | dmawait | gwait | course | commit =>
    cases h
    exact ⟨_, _, rfl, by simp [decodeForeman], guardOf_encodeWide ..⟩
  | br =>
    cases h
    exact ⟨_, _, rfl, by simp [decodeForeman], guardOf_encodeJump ..⟩
  | loop =>
    cases h
    exact ⟨_, _, rfl, by simp [decodeForeman], guardOf_encodeLoop ..⟩
  | guard | tdld | tdset | tdadv | tload | tstore | dmaget | dmaput | mma | fold | vec | upld | conva | convt | gsend | grecv
  | plumb =>
    cases h
    exact ⟨_, _, rfl, by simp [decodeForeman], guardOf_encodeTile ..⟩
  | _ => nomatch h

end Sys2Proof
end

section
/-! PROOF. The queue of waiting commands: what a tick does leaves it alone until the Foremen issue, and an issued command
names the Room that it came from. -/

namespace Sys2Proof.Machine

open Sys2Proof.Safety

/-! ### Repeated operations keep the queue -/

theorem State.pending_foldl {α : Type} {f : State → α → State} (h : ∀ s a, (f s a).pending = s.pending) (l : List α)
    (s : State) : (l.foldl f s).pending = s.pending :=
  List.foldlRecOn (motive := fun t : State => t.pending = s.pending) l f rfl fun t ht a _ => (h t a).trans ht

theorem State.pending_iterate {f : Nat → State → State} (h : ∀ i s, (f i s).pending = s.pending) (n : Nat) (s : State) :
    (iterate f n s).pending = s.pending := by
  induction n with
  | zero => rfl
  | succ n ih => exact (h n _).trans ih

/-! ### Operations that touch no queue -/

@[simp] theorem State.bump_pending (s : State) (i k bits n : Nat) : (s.bump i k bits n).pending = s.pending := rfl
@[simp] theorem State.modCache_pending (s : State) (r : Nat) (f : Cache → Cache) : (s.modCache r f).pending = s.pending := rfl
@[simp] theorem State.setDir_pending (s : State) (k : Nat) (e : Option DirEntry) : (s.setDir k e).pending = s.pending := rfl
@[simp] theorem State.tlbDrop_pending (s : State) (p : TlbEntry → Bool) : (s.tlbDrop p).pending = s.pending := rfl
@[simp] theorem State.modQueue_pending (s : State) (c q : Nat) (f : Queue → Queue) : (s.modQueue c q f).pending = s.pending := rfl
@[simp] theorem State.dropAnswers_pending (s : State) (n : Nat) : (s.dropAnswers n).pending = s.pending := rfl
@[simp] theorem State.countParked_pending (s : State) (r n : Nat) : (s.countParked r n).pending = s.pending := rfl
@[simp] theorem State.modWarden_pending (s : State) (h : Nat) (f : Warden → Warden) : (s.modWarden h f).pending = s.pending := rfl

@[simp] theorem State.report_pending (s : State) (cls code severity kind index household detail : Nat) :
    (s.report cls code severity kind index household detail).pending = s.pending := by
  obtain ⟨_, _, _, h⟩ := State.report_frame s cls code severity kind index household detail
  rw [h]

@[simp] theorem State.sendVector_pending (s : State) (h v : Nat) : (s.sendVector h v).pending = s.pending := by
  obtain ⟨_, _, h⟩ := State.sendVector_frame s h v
  rw [h]

@[simp] theorem State.endGrout_pending (s : State) (r : Nat) : (s.endGrout r).pending = s.pending := by
  obtain ⟨_, _, h⟩ := State.endGrout_frame s r
  rw [h]

@[simp] theorem State.stopRoom_pending (s : State) (r : Nat) : (s.stopRoom r).pending = s.pending := by
  obtain ⟨_, _, _, _, h⟩ := State.stopRoom_frame s r
  rw [h]

@[simp] theorem State.writeBackAll_pending (s : State) (r : Nat) : (s.writeBackAll r).pending = s.pending := by
  obtain ⟨_, _, _, _, _, _, _, h⟩ := State.writeBackAll_frame s r
  rw [h]

@[simp] theorem State.control_pending (s : State) (cls : Nat) (a b : Site) : (s.control cls a b).pending = s.pending := by
  obtain ⟨_, h⟩ := State.inject_frame s 0 cls 1 a b .none
  rw [State.control, h]

@[simp] theorem State.controlAll_pending (s : State) (cls : Nat) (a : Site) (rooms : List Nat) :
    (s.controlAll cls a rooms).pending = s.pending := State.pending_foldl (fun s r => s.control_pending cls a (.room r)) ..

@[simp] theorem State.reply_pending (s : State) (q : Chan) (i sub code : Nat) (data : List Byte) :
    (s.reply q i sub code data).pending = s.pending := by
  cases q <;> rfl

@[simp] theorem State.accrue_pending (s : State) (n : Nat) : (s.accrue n).pending = s.pending := by
  unfold State.accrue
  simp only
  split <;> rfl

/-! ### The network (R122, R126, R127) -/

theorem State.serveLink_pending (k now fuel : Nat) (l : List Waiting) (s : State) :
    (State.serveLink k now fuel l s).pending = s.pending := by
  induction fuel generalizing l s with
  | zero => rfl
  | succ fuel ih =>
    unfold State.serveLink
    split
    · rfl
    · split
      · rfl
      · refine (ih _ _).trans ?_
        split
        · split <;> rfl
        · rfl

@[simp] theorem State.serveNetwork_pending (s : State) (d : Nat) : (s.serveNetwork d).pending = s.pending := by
  unfold State.serveNetwork
  split
  · rfl
  · exact State.pending_foldl (fun s k => State.serveLink_pending ..) ..

/-! ### The end of a killed step (R207, R226, R273, R278, R281) -/

@[simp] theorem State.takeRoot_pending (s : State) (c : Nat) : (s.takeRoot c).pending = s.pending := by
  unfold State.takeRoot
  split
  · split <;> rfl
  · rfl

@[simp] theorem State.closeQueue_pending (s : State) (c q : Nat) : (s.closeQueue c q).pending = s.pending := by
  unfold State.closeQueue
  split
  · rfl
  · simp only
    split
    · rfl
    · split
      · simp
      · rfl

@[simp] theorem State.endRun_pending (s : State) (n : Nat) (d : Drain) : (s.endRun n d).pending = s.pending := by
  simp [State.endRun]

@[simp] theorem State.settleFreeze_pending (s : State) (hh : Nat) : (s.settleFreeze hh).pending = s.pending := by
  unfold State.settleFreeze
  simp only
  split <;> rfl

@[simp] theorem State.freeCtx_pending (s : State) (c : Nat) : (s.freeCtx c).pending = s.pending :=
  (State.settleFreeze_pending ..).trans rfl

@[simp] theorem State.flushHost_pending (s : State) (c : Nat) (x : Context) : (s.flushHost c x).pending = s.pending :=
  State.pending_foldl (by intros; rfl) ..

@[simp] theorem State.finishClose_pending (s : State) (c : Nat) : (s.finishClose c).pending = s.pending := by
  unfold State.finishClose
  split
  · rfl
  · split
    · rfl
    · split
      · simp
      · simp

@[simp] theorem State.freeClosed_pending (s : State) (n : Nat) : (s.freeClosed n).pending = s.pending := by
  unfold State.freeClosed
  split
  · rfl
  · exact State.pending_foldl State.finishClose_pending ..

@[simp] theorem State.freezeBound_pending (s : State) (n : Nat) : (s.freezeBound n).pending = s.pending := by
  unfold State.freezeBound
  split
  · rfl
  · exact State.pending_foldl (fun s (e : Nat × Nat) => (State.settleFreeze_pending _ e.2).trans (State.modCtx_pending ..)) ..

@[simp] theorem State.settle_pending (s : State) (n : Nat) : (s.settle n).pending = s.pending := by
  unfold State.settle
  split
  · split
    · rfl
    · simp
  · rfl

@[simp] theorem State.settlePower_pending (s : State) : s.settlePower.pending = s.pending := by
  unfold State.settlePower
  split <;> rfl

@[simp] theorem State.killStep_pending (s : State) (n : Nat) : (s.killStep n).pending = s.pending := by
  unfold State.killStep
  simp only
  split
  · rfl
  · simp [State.pending_foldl State.stopRoom_pending, State.pending_foldl State.writeBackAll_pending]

/-! ### Hardware faults (R72, R192, R369) -/

@[simp] theorem State.killUnlessCommitting_pending (s : State) (n : Nat) : (s.killUnlessCommitting n).pending = s.pending := by
  unfold State.killUnlessCommitting
  split
  · split <;> simp
  · rfl

@[simp] theorem State.forgetRoom_pending (s : State) (r : Nat) : (s.forgetRoom r).pending = s.pending := by
  unfold State.forgetRoom
  simp only
  exact (State.pending_foldl (by intros; rfl) ..).trans (State.pending_foldl (by intros; rfl) ..)

@[simp] theorem State.startRung_pending (s : State) (rung : Nat) (u : UnitRef) : (s.startRung rung u).pending = s.pending := by
  unfold State.startRung
  simp only
  split
  · rfl
  · simp

@[simp] theorem State.startRoomRung_pending (s : State) (r : Nat) : (s.startRoomRung r).pending = s.pending := by
  unfold State.startRoomRung
  simp only
  split <;> simp

@[simp] theorem State.killForRoom_pending (s : State) (r : Nat) : (s.killForRoom r).pending = s.pending := by
  unfold State.killForRoom
  simp only
  split <;> simp

@[simp] theorem State.hardwareFault_pending (s : State) (r : Nat) : (s.hardwareFault r).pending = s.pending := by
  unfold State.hardwareFault
  split
  · simp
  · split
    · simp
    · split
      · rfl
      · rfl

@[simp] theorem State.strike_pending (s : State) (u : Upset) : (s.strike u).pending = s.pending := by
  unfold State.strike
  simp only
  split <;> split <;> simp

/-! ### The Foremen issue (log entry 61) -/

/-- Every instruction that a word of a Room's program store spells is one of that Room. -/
theorem foremanOf_of_decodeForeman {r : Nat} {w : W32} {c : Instr} (h : decodeForeman r w = some c) :
    foremanOf c = some (r, guardOf w) := by
  unfold decodeForeman at h
  simp only at h
  split at h
  case h_21 =>
    unfold decodeAtom at h
    split at h <;> cases h <;> rfl
  all_goals cases h <;> rfl

theorem wellFormed_of_foremanOf {c : Instr} {r : Nat} {g : Guard} (h : foremanOf c = some (r, g)) :
    c.wellFormed = isRoom r := by
  cases c <;> cases h <;> rfl

theorem wellFormed_of_decodeForeman {r : Nat} {w : W32} {c : Instr} (hr : isRoom r = true)
    (h : decodeForeman r w = some c) : c.wellFormed = true :=
  (wellFormed_of_foremanOf (foremanOf_of_decodeForeman h)).trans hr

/-- A Foreman's instruction joins the queue well formed; a word of no instruction leaves the queue. -/
theorem queueOk_issueNext {s : State} {r : Nat} (hr : isRoom r = true) (hs : QueueOk s) : QueueOk (s.issueNext r) := by
  unfold State.issueNext
  simp only
  split
  · exact hs
  · split
    · rename_i c hc
      intro i hi
      obtain hold | rfl := by simpa using hi
      · exact hs i hold
      · exact wellFormed_of_decodeForeman hr hc
    · exact hs

theorem queueOk_issueAll {l : List Nat} (hl : ∀ r ∈ l, isRoom r = true) {s : State} (hs : QueueOk s) :
    QueueOk (l.foldl State.issueNext s) :=
  List.foldlRecOn (motive := QueueOk) l _ hs fun _ ht r hr => queueOk_issueNext (hl r hr) ht

theorem State.passTime_pending (s : State) : s.passTime.pending = s.pending := rfl

/-- A tick keeps a well-formed queue well formed: until the Foremen issue it leaves the queue alone. -/
theorem queueOk_tick {s : State} (hs : QueueOk s) : QueueOk s.tick := by
  unfold State.tick
  simp only
  split
  · exact hs
  · refine queueOk_issueAll (by simp) fun c hc => hs c ?_
    revert hc
    split <;> simp [State.passTime_pending]

/-- Settles O3: a command leaves the rest of the queue, and a tick adds the instructions of Rooms. -/
theorem stepKeepsQueueOk : Obligations.StepKeepsQueueOk := by
  unfold Obligations.StepKeepsQueueOk
  intro s hs
  cases hq : s.pending with
  | nil => exact ⟨s.tick, by simp only [step, hq], queueOk_tick hs⟩
  | cons c rest =>
    have hc : c.wellFormed = true := hs c (by simp [hq])
    obtain ⟨t, ht, hpending⟩ := (exec_refusesUnits c { s with pending := rest }).2 hc
    refine ⟨t, (step_of_pending_cons hq).trans ht, fun i hi => hs i ?_⟩
    rw [hpending] at hi
    simpa [hq] using Or.inr hi

end Sys2Proof.Machine
end

section
/-! PROOF. The counterexample to the statement on program faults and killed steps: a context table that is not in canonical
form. -/

namespace Sys2Proof.Machine

/-- Killing the step of the context that is listed twice frees its number, since the other entry is closing: that entry is
what is left, with nothing counted. -/
theorem killStep_shadowedContext : (shadowedContext.killStep 0).ctx? 0 = some shadowedCtx := rfl

/-- Refutes O34: its clause on killed steps does not ask for `Store.wf none s.contexts`, and where the context table lists the
context of the step a second time as closing, the boundary of the killed step frees that number, and the context that is
read afterwards has not counted the step. -/
theorem not_programFaults : ¬ Obligations.ProgramFaults := by
  unfold Obligations.ProgramFaults
  rintro ⟨-, hkilled⟩
  obtain ⟨-, -, y, hctx, -, -, -, hcount⟩ :=
    hkilled shadowedContext 0 lastPhaseStep committingCtx rfl rfl rfl (by decide) rfl
  obtain rfl : shadowedCtx = y := by simpa using killStep_shadowedContext.symm.trans hctx
  exact absurd hcount (by decide)

end Sys2Proof.Machine
end

section
/-! PROOF. What the Foreman's instructions have in common (R76, R79, R81): the guard, the register files, and the results of
the instructions that write one register. -/

namespace Sys2Proof.Machine

open Sys2Proof.Safety

/-! ### The guard (R79) -/

/-- What an instruction with guard `g` on `s` answers that does not execute: it passes itself when the guard is false, and
waits while the Foreman does not run (R79, log entry 61). -/
def Unexecuted (r : Nat) (g : Guard) (s : State) (o : Host.Outcome State Fault Refusal) : Prop :=
  ((s.room r).foreman.run = .running → (s.room r).foreman.guarded g = false → o = .next (s.keepQueue (s.advance r))) ∧
    ((s.room r).foreman.run ≠ .running → o = .next s)

theorem foremanOp_unexecuted {r : Nat} (g : Guard) (eff : State → Issue) (s : State) (hr : isRoom r = true) :
    Unexecuted r g s (foremanOp r g eff s) := ⟨foremanOp_guard r g eff s hr, foremanOp_idle r g eff s hr⟩

theorem exec_unexecuted {i : Instr} {r : Nat} {g : Guard} (hi : foremanOf i = some (r, g)) (s : State)
    (hr : isRoom r = true) : Unexecuted r g s (exec i s) := by
  cases i with
  | add | sub | mul | and | or | xor | shl | shr | sra | addi | ori | shli | movi | cmp | cmpi | plog | br
  | loop | lds | sts | atomAdd | atomMax | atomMin | atomOr | atomAnd | atomSwap | atomCas | atomFadd
  | rdsr | rung | guard | tdld | tdset | tdadv | tload | tstore | dmaget | dmaput | dmawait | mma | fold
  | vec | upld | conva | convt | gsend | grecv | gwait | signal | wait | barrier | course | digest | commit
  | plumb =>
    cases hi
    apply foremanOp_unexecuted
    exact hr
  | _ => nomatch hi

/-- Settles O5, by the shared form of the Foreman's instructions. -/
theorem falseGuardIsNoOperation : Obligations.FalseGuardIsNoOperation := by
  unfold Obligations.FalseGuardIsNoOperation
  intro i r g s hi hr
  obtain ⟨hpass, hidle⟩ := exec_unexecuted hi s hr
  refine ⟨fun hrun hguard hg => ?_, hidle⟩
  rw [hpass hrun hguard, State.advance_of s r hg]
  rfl

/-! ### The register files (R76) -/

theorem Foreman.reg_zero (f : Foreman) : f.reg 0 = 0 := rfl

theorem Foreman.setReg_zero (f : Foreman) (v : W64) : f.setReg 0 v = f := rfl

theorem Foreman.reg_setReg_self {f : Foreman} {k : BitVec 5} (v : W64) (hf : RegistersOk f) (hk : k ≠ 0) :
    (f.setReg k v).reg k = v := by
  rw [Foreman.setReg, if_neg hk, Foreman.reg, if_neg hk]
  exact Store.get_set_self 0 f.s k.toNat v hf.1

theorem Foreman.reg_setReg_ne {f : Foreman} {j k : BitVec 5} (v : W64) (h : j ≠ k) : (f.setReg k v).reg j = f.reg j := by
  have hne : j.toNat ≠ k.toNat := fun e => h (BitVec.eq_of_toNat_eq e)
  unfold Foreman.setReg
  split
  · rfl
  · simp only [Foreman.reg, Store.get_set_ne _ _ _ _ _ hne]

theorem registersOk_setReg {f : Foreman} (k : BitVec 5) (v : W64) (hf : RegistersOk f) : RegistersOk (f.setReg k v) := by
  unfold Foreman.setReg
  split
  · exact hf
  · exact ⟨Store.wf_set _ _ _ _ hf.1, hf.2⟩

theorem Foreman.pred_setPred_self {f : Foreman} {k : Nat} (v : Bool) (hf : RegistersOk f) (hk : k ≠ 0) :
    (f.setPred k v).pred k = v := by
  rw [Foreman.setPred, if_neg hk, Foreman.pred, if_neg hk]
  exact Store.get_set_self false f.p k v hf.2.2

theorem Foreman.pred_setPred_ne {f : Foreman} {j k : Nat} (v : Bool) (h : j ≠ k) : (f.setPred k v).pred j = f.pred j := by
  unfold Foreman.setPred
  split
  · rfl
  · simp only [Foreman.pred, Store.get_set_ne _ _ _ _ _ h]

theorem registersOk_setPred {f : Foreman} (k : Nat) (v : Bool) (hf : RegistersOk f) : RegistersOk (f.setPred k v) := by
  unfold Foreman.setPred
  split
  · exact hf
  · exact ⟨hf.1, hf.2.1, Store.wf_set _ _ _ _ hf.2.2⟩

/-- Settles O7, by the laws of the stores that hold the registers. -/
theorem registerFiles : Obligations.RegisterFiles := by
  unfold Obligations.RegisterFiles
  exact ⟨fun f k j v hf => ⟨f.reg_zero, f.setReg_zero v, Foreman.reg_setReg_self v hf, Foreman.reg_setReg_ne v,
      registersOk_setReg k v hf⟩,
    fun f k j v hf => ⟨rfl, rfl, Foreman.pred_setPred_self v hf, Foreman.pred_setPred_ne v, registersOk_setPred k v hf⟩⟩

/-! ### Results in a scalar register (R81) -/

section

variable {s : State} {r : Nat} {g : Guard} (hx : Executes s r g) (hg : GoesOn s r)
include hx hg

/-- An instruction that writes one scalar register. -/
theorem foremanOp_setReg {eff : State → Issue} (rd : BitVec 5) (v : Foreman → W64)
    (heff : eff s = Issue.regs r s fun f => f.setReg rd (v f)) :
    foremanOp r g eff s = .next (did s r fun f => f.setReg rd (v f)) :=
  foremanOp_regs s r g _ eff hx hg heff (by simp) (by simp) (by simp)

theorem alu_of (rd ra rb : BitVec 5) (f : W64 → W64 → W64) :
    alu r g rd ra rb f s = .next (did s r fun x => x.setReg rd (f (x.reg ra) (x.reg rb))) :=
  foremanOp_setReg hx hg rd _ rfl

theorem aluImm_of (rd ra : BitVec 5) (f : W64 → W64) :
    aluImm r g rd ra f s = .next (did s r fun x => x.setReg rd (f (x.reg ra))) :=
  foremanOp_setReg hx hg rd _ rfl

/-- An instruction that writes one predicate register. -/
theorem foremanOp_setPred {eff : State → Issue} (k : Nat) (v : Foreman → Bool)
    (heff : eff s = Issue.regs r s fun f => f.setPred k (v f)) :
    foremanOp r g eff s = .next (did s r fun f => f.setPred k (v f)) :=
  foremanOp_regs s r g _ eff hx hg heff (by simp) (by simp) (by simp)

end

/-- Settles O8: each of these instructions writes one scalar register. -/
theorem arithmeticResults : Obligations.ArithmeticResults := by
  unfold Obligations.ArithmeticResults
  constructor
  · intro s r g rd ra rb hx hg
    rw [exec_add, exec_sub, exec_mul, exec_and, exec_or, exec_xor, exec_shl, exec_shr, exec_sra]
    exact ⟨alu_of hx hg .., alu_of hx hg .., alu_of hx hg .., alu_of hx hg .., alu_of hx hg .., alu_of hx hg ..,
      alu_of hx hg .., alu_of hx hg .., alu_of hx hg ..⟩
  · intro s r g rd ra imm wide hx hg
    rw [exec_addi, exec_ori, exec_shli, exec_movi]
    exact ⟨aluImm_of hx hg .., aluImm_of hx hg .., aluImm_of hx hg .., foremanOp_setReg hx hg rd _ rfl⟩

end Sys2Proof.Machine
end

section
/-! PROOF. The instructions that write a predicate (R80, R81): the comparison or the logic that their code selects. -/

namespace Sys2Proof.Machine

open Sys2Proof.Safety

/-- The register update of an instruction is its effect on the Foreman as it stands. -/
theorem Issue.regs_congr {s : State} {r : Nat} {e f : Foreman → Foreman} (h : e (s.room r).foreman = f (s.room r).foreman) :
    Issue.regs r s e = Issue.regs r s f := by
  simp only [Issue.regs, State.modForeman, State.modRoom, Room.mapForeman, h]

section

variable {s : State} {r : Nat} {g : Guard} (hx : Executes s r g) (hg : GoesOn s r)
include hx hg

theorem execCmp_of (rd ra rb : BitVec 5) (fn : BitVec 7) {v : W64 → W64 → Bool}
    (hv : ∀ a b, compare6 (fn.toNat / 16) a b = some (v a b)) :
    execCmp r g rd ra rb fn s = .next (did s r fun f => f.setPred (rd.toNat % 8) (v (f.reg ra) (f.reg rb))) := by
  refine foremanOp_setPred hx hg _ _ ?_
  simp only [hv]
  exact Issue.regs_congr rfl

theorem execCmpi_of (rd ra : BitVec 5) (imm : BitVec 12) {v : W64 → Bool}
    (hv : ∀ a, compare4 (rd.toNat / 8) a (imm.signExtend 64) = v a) :
    execCmpi r g rd ra imm s = .next (did s r fun f => f.setPred (rd.toNat % 8) (v (f.reg ra))) := by
  refine foremanOp_setPred hx hg _ _ ?_
  simp only [hv]

theorem execPlog_of (rd ra rb : BitVec 5) (fn : BitVec 7) {v : Bool → Bool → Bool}
    (hv : ∀ a b, logic4 (fn.toNat / 32) a b = v a b) :
    execPlog r g rd ra rb fn s =
      .next (did s r fun f => f.setPred (rd.toNat % 8) (v (f.pred (ra.toNat % 8)) (f.pred (rb.toNat % 8)))) := by
  refine foremanOp_setPred hx hg _ _ ?_
  simp only [hv]

end

theorem compare6_ne (a b : W64) : compare6 1 a b = some (decide (a ≠ b)) := by
  simp only [compare6, bne, beq_eq_decide, ← decide_not]

theorem compare6_uge (a b : W64) : compare6 3 a b = some (decide (b.toNat ≤ a.toNat)) := by
  simp only [compare6, BitVec.ult, ← decide_not, Nat.not_lt]

theorem compare6_sge (a b : W64) : compare6 5 a b = some (decide (b.toInt ≤ a.toInt)) := by
  simp only [compare6, BitVec.slt, ← decide_not, Int.not_lt]

theorem compare4_ne (b a : W64) : compare4 1 a b = decide (a ≠ b) := by
  simp only [compare4, bne, beq_eq_decide, ← decide_not]

theorem toInt_signExtend_imm (imm : BitVec 12) : (imm.signExtend 64).toInt = imm.toInt :=
  BitVec.toInt_signExtend_of_le (by decide)

theorem compare4_slt {imm : BitVec 12} (a : W64) : compare4 2 a (imm.signExtend 64) = decide (a.toInt < imm.toInt) := by
  simp only [compare4, BitVec.slt, toInt_signExtend_imm]

theorem compare4_sge {imm : BitVec 12} (a : W64) : compare4 3 a (imm.signExtend 64) = decide (imm.toInt ≤ a.toInt) := by
  simp only [compare4, BitVec.slt, toInt_signExtend_imm, ← decide_not, Int.not_lt]

theorem logic4_xor (a b : Bool) : logic4 2 a b = (a ^^ b) := by cases a <;> cases b <;> rfl

/-- Settles O9, code by code. -/
theorem predicateResults : Obligations.PredicateResults := by
  unfold Obligations.PredicateResults
  intro s r g rd ra rb fn imm hx hg
  rw [exec_cmp, exec_cmpi, exec_plog]
  refine ⟨fun hcode => ?cmp, ?cmpi, ?plog⟩
  case cmp =>
    have hv := @execCmp_of s r g hx hg rd ra rb fn
    generalize fn.toNat / 16 = code at hcode hv
    interval_cases code
    · exact hv fun a b => rfl
    · exact hv compare6_ne
    · exact hv fun a b => rfl
    · exact hv compare6_uge
    · exact hv fun a b => rfl
    · exact hv compare6_sge
  case cmpi =>
    have hcode : rd.toNat / 8 < 4 := by omega
    have hv := @execCmpi_of s r g hx hg rd ra imm
    generalize rd.toNat / 8 = code at hcode hv
    interval_cases code
    · exact hv fun a => rfl
    · exact hv (compare4_ne _)
    · exact hv compare4_slt
    · exact hv compare4_sge
  case plog =>
    have hcode : fn.toNat / 32 < 4 := by omega
    have hv := @execPlog_of s r g hx hg rd ra rb fn
    generalize fn.toNat / 32 = code at hcode hv
    interval_cases code
    · exact hv fun a b => rfl
    · exact hv fun a b => rfl
    · exact hv logic4_xor
    · exact hv fun a b => rfl

end Sys2Proof.Machine
end

section
/-! PROOF. The program counter and the hardware loops (R81, R82): branches, loops, and the end of the program store. -/

namespace Sys2Proof.Machine

open Sys2Proof.Safety

section

variable {s : State} {r : Nat} {g : Guard} (hx : Executes s r g)
include hx

/-- An instruction that moves the program counter itself. -/
theorem foremanOp_jump {eff : State → Issue} {e : Foreman → Foreman}
    (heff : eff s = .stay (s.modForeman r e)) : foremanOp r g eff s = .next (s.modForeman r e) := by
  rw [foremanOp_of r g eff s hx, heff]
  exact congrArg _ (State.keepQueue_of _ _ rfl)

theorem exec_br_of_inside {off : BitVec 22}
    (h : 0 ≤ ((s.room r).foreman.pc : Int) + off.toInt ∧ ((s.room r).foreman.pc : Int) + off.toInt ≤ 4095) :
    exec (.br r g off) s = .next (s.modForeman r fun f =>
      { f with pc := ((f.pc : Int) + off.toInt).toNat, loops := keepLoops ((f.pc : Int) + off.toInt).toNat f.loops }) := by
  rw [exec_br]
  refine foremanOp_jump hx ?_
  simp only [Foreman.branch, h, and_self, if_true]
  rfl

theorem exec_br_of_outside {off : BitVec 22}
    (h : ¬ (0 ≤ ((s.room r).foreman.pc : Int) + off.toInt ∧ ((s.room r).foreman.pc : Int) + off.toInt ≤ 4095)) :
    exec (.br r g off) s = .next (s.keepQueue (s.programFault r 0x04)) := by
  rw [exec_br]
  refine foremanOp_fault hx ?_
  simp only [Foreman.branch, h, if_false]
  rfl

variable {ra : BitVec 5} {len : BitVec 12}

theorem exec_loop_of_depth (h : 4 ≤ (s.room r).foreman.loops.length) :
    exec (.loop r g ra len) s = .next (s.keepQueue (s.programFault r 0x0A)) := by
  rw [exec_loop]
  refine foremanOp_fault hx ?_
  simp only [h, if_true]
  rfl

variable (hdepth : (s.room r).foreman.loops.length < 4)
include hdepth

theorem exec_loop_of_count (hcount : (s.room r).foreman.reg ra ≠ 0) (hlen : len ≠ 0) (hpc : (s.room r).foreman.pc < 4095) :
    exec (.loop r g ra len) s = .next (s.modForeman r fun f =>
      { f with pc := f.pc + 1, loops := ⟨f.pc + 1, f.pc + len.toNat, (f.reg ra).toNat⟩ :: f.loops }) := by
  rw [exec_loop]
  refine foremanOp_jump hx ?_
  simp only [Nat.not_le_of_lt hdepth, hcount, hlen, Nat.succ_le_of_lt hpc, decide_false, Bool.or_self, Bool.false_eq_true,
    if_false, if_true]
  rfl

/-- A LOOP whose count is 0 steps over its body. -/
theorem exec_loop_of_zero (hcount : (s.room r).foreman.reg ra = 0)
    (hpc : (leaveLoops ((s.room r).foreman.pc + len.toNat) (s.room r).foreman.loops).2 ≤ 4095) :
    exec (.loop r g ra len) s = .next (s.modForeman r fun f =>
      { f with pc := (leaveLoops (f.pc + len.toNat) f.loops).2, loops := (leaveLoops (f.pc + len.toNat) f.loops).1 }) := by
  rw [exec_loop]
  refine foremanOp_jump hx ?_
  simp only [Nat.not_le_of_lt hdepth, hcount, Foreman.after, hpc, decide_true, Bool.true_or, if_false, if_true]
  rfl

end

/-- A branch keeps the loops from the innermost one that holds its target. -/
theorem keepLoops_eq_dropWhile (t : Nat) (l : List LoopFrame) :
    keepLoops t l = l.dropWhile fun f => !(decide (f.first ≤ t) && decide (t ≤ f.last)) := by
  induction l with
  | nil => rfl
  | cons f l ih =>
    by_cases h : f.first ≤ t ∧ t ≤ f.last
    · simp [keepLoops, h]
    · have h' : (decide (f.first ≤ t) && decide (t ≤ f.last)) = false := by rw [← Bool.decide_and, decide_eq_false h]
      simp only [keepLoops, List.dropWhile_cons, h', ih, Bool.not_false, Bool.false_eq_true, if_true, if_false]

/-- The instruction at the last index of the program store faults when it passes that index (R82). -/
theorem State.advance_of_end {s : State} {r : Nat} (h : ¬ GoesOn s r) : s.advance r = s.programFault r 0x04 := by
  simp only [GoesOn] at h
  simp only [State.advance, Foreman.after, h, if_false]
  rfl

theorem exec_add_of_end {s : State} {r : Nat} {g : Guard} (hx : Executes s r g) (h : ¬ GoesOn s r) (rd ra rb : BitVec 5) :
    exec (.add r g rd ra rb) s = .next (s.keepQueue
      ((s.modForeman r fun f => f.setReg rd (f.reg ra + f.reg rb)).programFault r 0x04)) := by
  have hend : ¬ GoesOn (s.modForeman r fun f => f.setReg rd (f.reg ra + f.reg rb)) r := by
    unfold GoesOn
    rw [State.room_modForeman _ _ _ (by rw [Foreman.setReg_run, hx.2.1]; decide)]
    rwa [Room.mapForeman, Foreman.setReg_pc, Foreman.setReg_loops]
  rw [exec_add, ← State.advance_of_end hend, execAdd, alu, foremanOp_of r g _ s hx]
  rfl

/-- Settles O10, by the cases of BR and LOOP and by the passage of the last index. -/
theorem loopRules : Obligations.LoopRules := by
  unfold Obligations.LoopRules
  refine ⟨fun s r g off ra len hx => ⟨fun h h' => exec_br_of_inside hx ⟨h, h'⟩, exec_br_of_outside hx, exec_loop_of_depth hx,
    exec_loop_of_count hx, exec_loop_of_zero hx⟩, keepLoops_eq_dropWhile, fun s i r g rd ra rb hr hrun hend =>
    ⟨fun hi hguard => ?_, fun hguard => exec_add_of_end ⟨hr, hrun, hguard⟩ hend rd ra rb⟩⟩
  rw [(exec_unexecuted hi s hr).1 hrun hguard, State.advance_of_end hend]

end Sys2Proof.Machine
end

section
/-! PROOF. RDSR with the special registers (R77), RUNG (R63) and GUARD (R96, R113). -/

namespace Sys2Proof.Machine

open Sys2Proof.Safety

section

variable {s : State} {r : Nat} {g : Guard} (hx : Executes s r g)
include hx

theorem exec_rdsr_of_none {rd : BitVec 5} {sel : BitVec 12} (h : s.special r sel.toNat = none) :
    exec (.rdsr r g rd sel) s = .next (s.keepQueue (s.programFault r 0x01)) := by
  have hsel : sel ≠ 10 := by
    rintro rfl
    exact nomatch h
  rw [exec_rdsr]
  refine foremanOp_fault hx ?_
  simp only [hsel, h, decide_false, Bool.false_and, Bool.false_eq_true, if_false]
  rfl

/-- Deterministic mode refuses the device time. -/
theorem exec_rdsr_of_det {rd : BitVec 5} (h : s.det r = true) :
    exec (.rdsr r g rd 10) s = .next (s.keepQueue (s.programFault r 0x08)) := by
  rw [exec_rdsr]
  refine foremanOp_fault hx ?_
  simp only [h, decide_true, Bool.and_self, if_true]
  rfl

/-- GUARD waits for a GRECV that counts into its slot (R113). -/
theorem exec_guard_of_pending {td : BitVec 4} {rs : BitVec 5}
    (h : (s.room r).slotPending ((s.room r).foreman.desc td).layer ((s.room r).foreman.desc td).tile = true) :
    exec (.guard r g td rs) s = .next s := by
  rw [exec_guard, execGuard, foremanOp_of r g _ s hx]
  simp only [h, if_true]
  rfl

variable (hg : GoesOn s r)
include hg

theorem exec_rdsr_of_some {rd : BitVec 5} {sel : BitVec 12} {v : W64} (h : s.special r sel.toNat = some v)
    (hdet : sel ≠ 10 ∨ s.det r = false) : exec (.rdsr r g rd sel) s = .next (did s r fun f => f.setReg rd v) := by
  have hread : (decide (sel = 10) && s.det r) = false := by
    obtain hsel | hdet := hdet
    · simp only [hsel, decide_false, Bool.false_and]
    · rw [hdet, Bool.and_false]
  rw [exec_rdsr]
  refine foremanOp_setReg hx hg rd _ ?_
  simp only [hread, h, Bool.false_eq_true, if_false]

theorem exec_rung_of_some {rd ra : BitVec 5} {imm : BitVec 12} {e : LadderEntry}
    (h : s.ladder? r (((s.room r).foreman.reg ra + imm.signExtend 64).toNat % 4096) = some e) :
    exec (.rung r g rd ra imm) s = .next (did s r fun f => f.setReg rd (BitVec.ofNat 64 e.curRung)) := by
  rw [exec_rung]
  refine foremanOp_setReg hx hg rd _ ?_
  simp only [h]

theorem exec_rung_of_none {rd ra : BitVec 5} {imm : BitVec 12}
    (h : s.ladder? r (((s.room r).foreman.reg ra + imm.signExtend 64).toNat % 4096) = none) :
    exec (.rung r g rd ra imm) s = .next (did s r fun f => f.setReg rd
      (Config.openRung (((s.room r).foreman.reg ra + imm.signExtend 64).toNat % 4096))) := by
  rw [exec_rung]
  refine foremanOp_setReg hx hg rd _ ?_
  simp only [h]

theorem exec_guard_of {td : BitVec 4} {rs : BitVec 5}
    (h : (s.room r).slotPending ((s.room r).foreman.desc td).layer ((s.room r).foreman.desc td).tile = false) :
    exec (.guard r g td rs) s = .next (did s r fun f => f.setReg rs
      ((((s.room r).course.slot? (f.desc td).layer (f.desc td).tile).map (·.word.encode)).getD 0)) := by
  rw [exec_guard]
  refine foremanOp_setReg hx hg rs _ ?_
  simp only [h, Bool.false_eq_true, if_false]
  exact Issue.regs_congr rfl

end

/-- What the selectors of RDSR read (R77). -/
theorem State.special_of_step {s : State} {r : Nat} {st : Step} (h : s.stepOf r = some st) :
    s.special r 1 = some (BitVec.ofNat 64 st.nrooms) ∧ s.special r 2 = some (BitVec.ofNat 64 st.lanes) ∧
      s.special r 4 = some st.desc.seed ∧ s.special r 5 = some (if st.det then 1 else 0) ∧
      ∀ k < 4, s.special r (6 + k) = some ((st.desc.args[k]?).getD 0) := by
  refine ⟨by simp [special, h], by simp [special, lanes, h], by simp [special, h], by simp [special, det, h], fun k hk => ?_⟩
  interval_cases k <;> simp [special, h]

theorem State.special_of_reserved (s : State) (r : Nat) {k : Nat} (h : 10 < k) : s.special r k = none := by
  obtain ⟨j, rfl⟩ : ∃ j, k = j + 11 := ⟨k - 11, by omega⟩
  rfl

/-- Settles O11: no special register depends on the Room but through its step, its ordinal and its Course. -/
theorem specialRegisters : Obligations.SpecialRegisters := by
  unfold Obligations.SpecialRegisters
  refine ⟨?executes, ?selectors, ?alike⟩
  case executes =>
    intro s r g rd ra rs sel imm td v st e hx hg
    refine ⟨exec_rdsr_of_some hx hg, exec_rdsr_of_none hx, exec_rdsr_of_det hx, fun hst he => exec_rung_of_some hx hg ?_,
      exec_rung_of_none hx hg, fun hslot => ?_, exec_guard_of_pending hx⟩
    · rw [State.ladder?, hst]
      exact he
    · rw [exec_guard_of hx hg hslot]
      refine congrArg (fun v => Host.Outcome.next (did s r fun f => f.setReg rs (v f))) (funext fun f => ?_)
      unfold CourseState.slot? GuardSlot.hasKey
      split <;> rename_i heq <;> rw [heq] <;> rfl
  case selectors =>
    intro s r k st hst
    obtain ⟨h1, h2, h4, h5, hargs⟩ := State.special_of_step hst
    exact ⟨rfl, h1, h2, rfl, h4, h5, hargs k, rfl, s.special_of_reserved r⟩
  case alike =>
    intro s r q k hstep hordinal hcourse
    simp only [State.special, State.lanes, State.det, hstep, hordinal, hcourse]
    rfl

end Sys2Proof.Machine
end

section
/-! PROOF. LDS and STS on the scratch portion of the Pantry (R81, R102, R110, R116). -/

namespace Sys2Proof.Machine

open Sys2Proof.Safety

theorem getElem_leBytes {n k : Nat} (w : Nat) (h : k < (leBytes n w).length) :
    (leBytes n w)[k] = BitVec.ofNat 8 (w / 256 ^ k) := by
  induction n generalizing w k with
  | zero => simp at h
  | succ n ih =>
    cases k with
    | zero => simp [leBytes]
    | succ k => simp only [leBytes, List.getElem_cons_succ, ih, Nat.div_div_eq_div_mul, Nat.pow_succ']

/-- What an access of size n at address a does: it is aligned, and lies in the scratch portion. -/
structure ScratchAccess (s : State) (r : Nat) (ra : BitVec 5) (fn : BitVec 7) (a n : Nat) : Prop where
  addr : a = ((s.room r).foreman.reg ra).toNat
  size : n = accessBytes fn
  pantry : accessDevice fn = false
  aligned : (a % n != 0) = false
  inside : ¬ scratchBytes (s.portion r) < a + n

section

variable {s : State} {r : Nat} {g : Guard} {ra rb rd : BitVec 5} {fn : BitVec 7} {a n : Nat} (hx : Executes s r g)
include hx

section

variable (ha : a = ((s.room r).foreman.reg ra).toNat) (hn : n = accessBytes fn)
include ha hn

theorem exec_lds_of_misaligned (h : a % n ≠ 0) : exec (.lds r g rd ra fn) s = .next (s.keepQueue (s.programFault r 0x05)) := by
  subst ha hn
  rw [exec_lds]
  refine foremanOp_fault hx ?_
  simp only [bne_iff_ne.mpr h, if_true]
  rfl

theorem exec_sts_of_misaligned (h : a % n ≠ 0) : exec (.sts r g ra rb fn) s = .next (s.keepQueue (s.programFault r 0x05)) := by
  subst ha hn
  rw [exec_sts]
  refine foremanOp_fault hx ?_
  simp only [bne_iff_ne.mpr h, if_true]
  rfl

variable (haligned : (a % n != 0) = false) (hpantry : accessDevice fn = false) (hout : scratchBytes (s.portion r) < a + n)
include haligned hpantry hout

theorem exec_lds_of_outside : exec (.lds r g rd ra fn) s = .next (s.keepQueue (s.programFault r 0x04)) := by
  subst ha hn
  rw [exec_lds]
  refine foremanOp_fault hx ?_
  simp only [haligned, hpantry, hout, Bool.false_eq_true, if_false, if_true]
  rfl

theorem exec_sts_of_outside : exec (.sts r g ra rb fn) s = .next (s.keepQueue (s.programFault r 0x04)) := by
  subst ha hn
  rw [exec_sts]
  refine foremanOp_fault hx ?_
  simp only [haligned, hpantry, hout, Bool.false_eq_true, if_false, if_true]
  rfl

end

variable (hg : GoesOn s r) (h : ScratchAccess s r ra fn a n)
include hg h

theorem exec_lds_of : exec (.lds r g rd ra fn) s =
    .next (did s r fun f => f.setReg rd (BitVec.ofNat 64 (leNat (Store.range 0 (s.room r).pantry a n)))) := by
  obtain ⟨rfl, rfl, hpantry, haligned, hinside⟩ := h
  rw [exec_lds]
  refine foremanOp_setReg hx hg rd _ ?_
  simp only [haligned, hpantry, hinside, Bool.false_eq_true, if_false]
  rfl

theorem exec_sts_of : exec (.sts r g ra rb fn) s =
    .next (didRoom s r fun x => x.writePantry a (leBytes n ((s.room r).foreman.reg rb).toNat)) := by
  obtain ⟨rfl, rfl, hpantry, haligned, hinside⟩ := h
  rw [exec_sts]
  refine foremanOp_modRoom hx hg ?_ fun _ => rfl
  simp only [haligned, hpantry, hinside, Bool.false_eq_true, if_false]
  rfl

end

/-- Settles O12, by the cases of the two instructions and the laws of the Pantry's store. -/
theorem loadStore : Obligations.LoadStore := by
  unfold Obligations.LoadStore
  constructor
  · intro s r g rd ra rb fn a n hx hg ha hn hpantry haligned hinside
    have h : ScratchAccess s r ra fn a n := ⟨ha, hn, hpantry, bne_eq_false_iff_eq.mpr haligned, Nat.not_lt.mpr hinside⟩
    refine ⟨exec_lds_of hx hg h, _, exec_sts_of hx hg h, ?_⟩
    rw [State.room_didRoom (e := fun x => x.writePantry a (leBytes n ((s.room r).foreman.reg rb).toNat)) hx.2.1 fun _ => rfl]
    refine ⟨rfl, fun b hb => Store.get_setRange_ne _ _ _ _ _ (by simpa using hb), fun hwf k hk => ?_, onlyRoom_didRoom s r _⟩
    exact (Store.get_setRange 0 _ (s.room r).pantry a k (by simpa using hk) hwf).trans (getElem_leBytes ..)
  · intro s r g rd ra rb fn a n hx ha hn
    exact ⟨fun h => ⟨exec_lds_of_misaligned hx ha hn h, exec_sts_of_misaligned hx ha hn h⟩, fun haligned hpantry hout =>
      ⟨exec_lds_of_outside hx ha hn (bne_eq_false_iff_eq.mpr haligned) hpantry hout,
        exec_sts_of_outside hx ha hn (bne_eq_false_iff_eq.mpr haligned) hpantry hout⟩⟩

end Sys2Proof.Machine
end

section
/-! PROOF. ATOM, SIGNAL and WAIT (R97, R98): what each leaves in its word, what deterministic mode refuses, and what an
instruction answers whose word the cache port performs. -/

namespace Sys2Proof.Machine

open Sys2Proof.Safety

/-! ### What an operation leaves in its word (R97, R98) -/

theorem leNat_leBytes (n w : Nat) : leNat (leBytes n w) = w % 256 ^ n := by
  induction n generalizing w with
  | zero => simp [leBytes, leNat, Nat.mod_one]
  | succ n ih =>
    rw [leBytes, leNat, ih, Nat.pow_succ, Nat.mul_comm (256 ^ n)]
    exact (Nat.mod_mul (a := 256)).symm

theorem ofNat_leNat_leBytes (o : W64) : BitVec.ofNat 64 (leNat (leBytes 8 o.toNat)) = o := by
  rw [leNat_leBytes, Nat.mod_eq_of_lt (by simpa using o.isLt), BitVec.ofNat_toNat, BitVec.setWidth_eq]

theorem toNat_ite_ult_max (a b : W64) : (if a.ult b then b else a).toNat = max a.toNat b.toNat := by
  simp only [BitVec.ult, decide_eq_true_eq]
  split <;> omega

theorem toNat_ite_ult_min (a b : W64) : (if a.ult b then a else b).toNat = min a.toNat b.toNat := by
  simp only [BitVec.ult, decide_eq_true_eq]
  split <;> omega

/-- ATOM leaves what its operation makes of the old word; CAS leaves it alone when the comparison fails. -/
theorem newBytes_atomic (op : BitVec 4) (o b d : W64) (h : op.toNat ≠ 6 ∨ o = d) :
    newBytes (.atomic op b d) (leBytes 8 o.toNat) = some (leBytes 8 (atomic op.toNat o b d fp32Add).toNat) := by
  have : (decide (op.toNat = 6) && o != d) = false := by
    obtain hop | rfl := h
    · simp [hop]
    · simp
  simp only [newBytes, ofNat_leNat_leBytes, this, Bool.false_eq_true, if_false]

theorem newBytes_cas_of_ne (o b d : W64) (h : o ≠ d) : newBytes (.atomic 6 b d) (leBytes 8 o.toNat) = none := by
  simp [newBytes, ofNat_leNat_leBytes, h]

theorem newBytes_signal (o b : W64) : newBytes (.signal b) (leBytes 8 o.toNat) = some (leBytes 8 (max o.toNat b.toNat)) := by
  simp only [newBytes, ofNat_leNat_leBytes]

theorem toNat_atomic_fadd (o b d : W64) (f : BitVec 32 → BitVec 32 → BitVec 32) :
    (atomic 7 o b d f).toNat = o.toNat / 2 ^ 32 * 2 ^ 32 + (f (o.setWidth 32) (b.setWidth 32)).toNat := by
  have hlow := (f (o.setWidth 32) (b.setWidth 32)).isLt
  have hword := o.isLt
  change (BitVec.ofNat 64 _).toNat = _
  rw [BitVec.toNat_ofNat, Nat.mod_eq_of_lt]
  omega

/-! ### The words of ATOM (R98) -/

theorem decodeForeman_atom {w : W32} (r : Nat) (h : w.extractLsb' 26 6 = 0x15) :
    decodeForeman r w = decodeAtom r (guardOf w) (w.extractLsb' 17 5) (w.extractLsb' 12 5) (w.extractLsb' 7 5)
      (w.extractLsb' 3 4).toNat := by
  have hcode : (w.extractLsb' 0 7).toNat / 8 = (w.extractLsb' 3 4).toNat := by
    simp only [BitVec.extractLsb'_toNat, Nat.shiftRight_eq_div_pow]
    omega
  unfold decodeForeman
  simp only [h, hcode]
  rfl

theorem decodeAtom_of_reserved (r : Nat) (g : Guard) (rd ra rb : BitVec 5) {k : Nat} (h : 8 ≤ k) :
    decodeAtom r g rd ra rb k = none := by
  obtain ⟨j, rfl⟩ : ∃ j, k = j + 8 := ⟨k - 8, by omega⟩
  rfl

theorem exists_decodeAtom (r : Nat) (g : Guard) (rd ra rb : BitVec 5) {k : Nat} (h : k < 8) :
    ∃ i, decodeAtom r g rd ra rb k = some i := by
  interval_cases k <;> exact ⟨_, rfl⟩

/-! ### The instructions -/

/-- Noting a write for the digest leaves the Foreman of a Room that runs as it stood. -/
theorem State.foreman_noteWrite {t : State} {r : Nat} (a : Nat) (kind : AccKind) (old : List Byte)
    (hrun : (t.room r).foreman.run = .running) : ((t.noteWrite r a kind old).room r).foreman = (t.room r).foreman := by
  unfold State.noteWrite
  split
  · rw [State.room_modRoom_of_run (hrun.trans_ne (by decide) : (t.room r).foreman.run ≠ .idle)]
    rfl
  · rfl

section

variable {s t : State} {r : Nat} {g : Guard} {ra rb : BitVec 5} {old : List Byte} {kind : AccKind} {a : Nat}
  (hx : Executes s r g)
include hx

theorem atomOp_of_refused {op : BitVec 4} {rd : BitVec 5} (hdet : s.det r = true) (h : atomRefused op rd = true) :
    atomOp r g op rd ra rb s = .next (s.keepQueue (s.programFault r 0x08)) := by
  refine foremanOp_fault hx ?_
  simp only [hdet, h, Bool.and_self, if_true]
  rfl

variable (hg : GoesOn s r) (hf : (t.room r).foreman = (s.room r).foreman)
include hg hf

/-- An instruction that has completed on a state where its Foreman stands as it did. -/
theorem foremanOp_done_at {eff : State → Issue} (heff : eff s = .done t) :
    foremanOp r g eff s = .next (s.keepQueue (did t r fun f => f)) := by
  have hgt : GoesOn t r := by unfold GoesOn; rw [hf]; exact hg
  rw [foremanOp_of r g eff s hx, heff, Issue.result, State.advance_of t r hgt]
  rfl

theorem foremanOp_setReg_at {eff : State → Issue} (rd : BitVec 5) (v : W64) (heff : eff s = Issue.regs r t (·.setReg rd v)) :
    foremanOp r g eff s = .next (s.keepQueue (did t r fun f => f.setReg rd v)) := by
  have hgt : GoesOn t r := by unfold GoesOn; rw [hf]; exact hg
  rw [foremanOp_of r g eff s hx, heff, regs_result t r _ hgt (hf ▸ hx.2.1) (by simp) (by simp) (by simp)]

variable (ha : a = ((s.room r).foreman.reg ra).toNat) (haligned : a % 8 = 0)
  (hport : s.portAccess r a 8 kind = (.ok old, t))
include ha haligned hport

theorem atomOp_of {op : BitVec 4} {rd : BitVec 5}
    (hkind : kind = .atomic op ((s.room r).foreman.reg rb) ((s.room r).foreman.reg rd))
    (hdet : s.det r = false ∨ op.toNat < 5 ∧ rd = 0) :
    atomOp r g op rd ra rb s = .next (s.keepQueue
      (did (t.noteWrite r a kind old) r fun f => f.setReg rd (BitVec.ofNat 64 (leNat old)))) := by
  have hallowed : (s.det r && atomRefused op rd) = false := by
    obtain hdet | ⟨hop, rfl⟩ := hdet
    · rw [hdet, Bool.false_and]
    · simp [atomRefused, hop]
  have hnote := State.foreman_noteWrite a kind old (hf ▸ hx.2.1 : (t.room r).foreman.run = .running)
  refine foremanOp_setReg_at hx hg (hnote.trans hf) rd _ ?_
  subst ha hkind
  simp only [hallowed, haligned, bne_self_eq_false, Bool.false_eq_true, if_false, hport, State.finish]

theorem exec_signal_of (hkind : kind = .signal ((s.room r).foreman.reg rb)) :
    exec (.signal r g ra rb) s = .next (s.keepQueue (did (t.noteWrite r a kind old) r fun f => f)) := by
  have hnote := State.foreman_noteWrite a kind old (hf ▸ hx.2.1 : (t.room r).foreman.run = .running)
  rw [exec_signal]
  refine foremanOp_done_at hx hg (hnote.trans hf) ?_
  subst ha hkind
  simp only [haligned, bne_self_eq_false, Bool.false_eq_true, if_false, hport, State.finish]

theorem exec_wait_of (hkind : kind = .await ((s.room r).foreman.reg rb)) :
    exec (.wait r g ra rb) s = .next (s.keepQueue (did t r fun f => f)) := by
  rw [exec_wait]
  refine foremanOp_done_at hx hg hf ?_
  subst ha hkind
  simp only [haligned, bne_self_eq_false, Bool.false_eq_true, if_false, hport, State.finish]

end

/-- Settles O13, operation by operation. -/
theorem atomicOperations : Obligations.AtomicOperations := by
  unfold Obligations.AtomicOperations
  refine ⟨?performed, ?refused, ?words, ?codes⟩
  case performed =>
    intro s t r g rd ra rb op old kind a hx hg ha haligned hport hf
    refine ⟨fun hkind hdet => ?_, exec_signal_of hx hg hf ha haligned hport, exec_wait_of hx hg hf ha haligned hport⟩
    have hatom := atomOp_of hx hg hf ha haligned hport hkind hdet
    have hop (k : BitVec 4) (h : k.toNat = op.toNat) : op = k := (BitVec.eq_of_toNat_eq h).symm
    simp only [List.forall_mem_cons, List.not_mem_nil, false_implies, implies_true, and_true]
    refine ⟨fun h => ?_, fun h => ?_, fun h => ?_, fun h => ?_, fun h => ?_, fun h => ?_, fun h => ?_, fun h => ?_⟩
    · obtain rfl := hop 0 h
      exact hatom
    · obtain rfl := hop 1 h
      exact hatom
    · obtain rfl := hop 2 h
      exact hatom
    · obtain rfl := hop 3 h
      exact hatom
    · obtain rfl := hop 4 h
      exact hatom
    · obtain rfl := hop 5 h
      exact hatom
    · obtain rfl := hop 6 h
      exact hatom
    · obtain rfl := hop 7 h
      exact hatom
  case refused =>
    intro s r g rd ra rb hx hdet
    simp only [List.forall_mem_cons, List.not_mem_nil, false_implies, implies_true, and_true]
    refine ⟨⟨atomOp_of_refused hx hdet rfl, atomOp_of_refused hx hdet rfl, atomOp_of_refused hx hdet rfl⟩, fun hrd => ?_⟩
    have href (op : BitVec 4) : atomRefused op rd = true := by
      rw [atomRefused, bne_iff_ne.mpr hrd, Bool.or_true]
    exact ⟨atomOp_of_refused hx hdet (href 0), atomOp_of_refused hx hdet (href 1), atomOp_of_refused hx hdet (href 2),
      atomOp_of_refused hx hdet (href 3), atomOp_of_refused hx hdet (href 4)⟩
  case words =>
    intro o b d
    have hplain (op : BitVec 4) (hop : op.toNat ≠ 6) := newBytes_atomic op o b d (.inl hop)
    refine ⟨hplain 0 (by decide), ?_, ?_, hplain 3 (by decide), hplain 4 (by decide), hplain 5 (by decide), ?_, ?_,
      newBytes_signal o b⟩
    · rw [← toNat_ite_ult_max]
      exact hplain 1 (by decide)
    · rw [← toNat_ite_ult_min]
      exact hplain 2 (by decide)
    · split
      · rename_i h
        rw [newBytes_atomic 6 o b d (.inr h)]
        exact congrArg (fun w : W64 => some (leBytes 8 w.toNat)) (if_pos h)
      · rename_i h
        exact newBytes_cas_of_ne o b d h
    · rw [← toNat_atomic_fadd o b d]
      exact hplain 7 (by decide)
  case codes =>
    intro r w hw
    rw [decodeForeman_atom r hw]
    exact ⟨decodeAtom_of_reserved _ _ _ _ _, exists_decodeAtom _ _ _ _ _⟩

end Sys2Proof.Machine
end

section
/-! PROOF. Tile descriptors (R83, R84): what replacing a field of a descriptor does to every field, and the instructions
TDLD, TDSET and TDADV. -/

namespace Sys2Proof.Machine

open Sys2Proof.Safety

/-! ### Bits of a number -/

theorem testBit_bitsOf (n hi lo j : Nat) : (bitsOf n hi lo).testBit j = (decide (j < hi + 1 - lo) && n.testBit (lo + j)) := by
  rw [bitsOf, Nat.testBit_mod_two_pow, Nat.testBit_shiftRight]

/-- A number with its bits [hi:lo] replaced. -/
def replaceBits (n hi lo v : Nat) : Nat := n - bitsOf n hi lo * 2 ^ lo + v % 2 ^ (hi + 1 - lo) * 2 ^ lo

theorem replaceBits_eq {n hi lo : Nat} (v : Nat) (h : lo ≤ hi) :
    replaceBits n hi lo v = 2 ^ lo * (2 ^ (hi + 1 - lo) * (n / 2 ^ (hi + 1)) + v % 2 ^ (hi + 1 - lo)) + n % 2 ^ lo := by
  have hpow : 2 ^ (hi + 1) = 2 ^ lo * 2 ^ (hi + 1 - lo) := by rw [← Nat.pow_add]; congr 1; omega
  have hlow := Nat.div_add_mod n (2 ^ lo)
  have hmid := Nat.div_add_mod (n / 2 ^ lo) (2 ^ (hi + 1 - lo))
  rw [Nat.div_div_eq_div_mul, ← hpow] at hmid
  have hsplit : n = 2 ^ lo * (2 ^ (hi + 1 - lo) * (n / 2 ^ (hi + 1))) + bitsOf n hi lo * 2 ^ lo + n % 2 ^ lo := by
    rw [bitsOf, Nat.shiftRight_eq_div_pow, Nat.mul_comm _ (2 ^ lo), ← Nat.mul_add, hmid, hlow]
  rw [replaceBits, Nat.mul_add, Nat.mul_comm (2 ^ lo) (v % _)]
  omega

theorem testBit_replaceBits {n hi lo : Nat} (v j : Nat) (h : lo ≤ hi) :
    (replaceBits n hi lo v).testBit j = if lo ≤ j ∧ j ≤ hi then v.testBit (j - lo) else n.testBit j := by
  rw [replaceBits_eq v h, Nat.testBit_two_pow_mul_add _ (Nat.mod_lt _ (Nat.two_pow_pos lo)),
    Nat.testBit_two_pow_mul_add _ (Nat.mod_lt _ (Nat.two_pow_pos _)), Nat.testBit_mod_two_pow, Nat.testBit_mod_two_pow,
    ← Nat.shiftRight_eq_div_pow, Nat.testBit_shiftRight]
  by_cases hlo : j < lo
  · simp [hlo, Nat.not_le_of_lt hlo]
  · by_cases hhi : j ≤ hi
    · simp [hlo, hhi, Nat.le_of_not_lt hlo, show j - lo < hi + 1 - lo by omega]
    · simp [hlo, hhi, show ¬ j - lo < hi + 1 - lo by omega, show hi + 1 + (j - lo - (hi + 1 - lo)) = j by omega]

theorem bitsOf_replaceBits_self (n hi lo v : Nat) (h : lo ≤ hi) :
    bitsOf (replaceBits n hi lo v) hi lo = v % 2 ^ (hi + 1 - lo) := by
  refine Nat.eq_of_testBit_eq fun j => ?_
  rw [testBit_bitsOf, testBit_replaceBits _ _ h, Nat.testBit_mod_two_pow]
  by_cases hj : j < hi + 1 - lo
  · simp [hj, show lo + j ≤ hi by omega]
  · simp [hj]

theorem bitsOf_replaceBits_disjoint {n hi lo : Nat} (v : Nat) {hi' lo' : Nat} (h : lo ≤ hi) (hd : hi' < lo ∨ hi < lo') :
    bitsOf (replaceBits n hi lo v) hi' lo' = bitsOf n hi' lo' := by
  refine Nat.eq_of_testBit_eq fun j => ?_
  rw [testBit_bitsOf, testBit_bitsOf, testBit_replaceBits _ _ h]
  by_cases hj : j < hi' + 1 - lo'
  · rw [if_neg (by omega)]
  · simp [hj]

theorem replaceBits_lt {n hi lo w : Nat} (v : Nat) (h : lo ≤ hi) (hw : hi < w) (hn : n < 2 ^ w) : replaceBits n hi lo v < 2 ^ w := by
  refine Nat.lt_pow_two_of_testBit _ fun j hj => ?_
  rw [testBit_replaceBits v j h, if_neg (by omega)]
  exact Nat.testBit_lt_two_pow (Nat.lt_of_lt_of_le hn (Nat.pow_le_pow_right (by decide) hj))

/-! ### Fields of a descriptor (R83) -/

theorem toNat_setDescBits (d : Desc) {hi lo : Nat} (v : Nat) (h : lo ≤ hi) (hw : hi < 256) :
    (setDescBits d hi lo v).bits.toNat = replaceBits d.bits.toNat hi lo v :=
  (BitVec.toNat_ofNat ..).trans (Nat.mod_eq_of_lt (replaceBits_lt v h hw d.bits.isLt))

/-- The field that is replaced. -/
theorem bitsOf_setDescBits_self (d : Desc) (hi lo v : Nat) (h : lo ≤ hi) (hw : hi < 256) :
    bitsOf (setDescBits d hi lo v).bits.toNat hi lo = v % 2 ^ (hi + 1 - lo) := by
  rw [toNat_setDescBits d v h hw, bitsOf_replaceBits_self _ _ _ _ h]

/-- Every other field stands. -/
theorem bitsOf_setDescBits_disjoint (d : Desc) (hi lo v hi' lo' : Nat) (h : lo ≤ hi) (hw : hi < 256)
    (hd : hi' < lo ∨ hi < lo') : bitsOf (setDescBits d hi lo v).bits.toNat hi' lo' = bitsOf d.bits.toNat hi' lo' := by
  rw [toNat_setDescBits d v h hw, bitsOf_replaceBits_disjoint _ h hd]

theorem descWord_eq (d : Desc) (k : Nat) : descWord d k = BitVec.ofNat 64 (bitsOf d.bits.toNat (64 * k + 63) (64 * k)) := by
  refine BitVec.eq_of_toNat_eq ?_
  rw [descWord, bitsOf, show 64 * k + 63 + 1 - 64 * k = 64 by omega, BitVec.toNat_ofNat, BitVec.toNat_ofNat, Nat.mod_mod]

theorem descWord_setDescBits_self (d : Desc) {k : Nat} (v : W64) (h : k < 4) :
    descWord (setDescBits d (64 * k + 63) (64 * k) v.toNat) k = v := by
  rw [descWord_eq, bitsOf_setDescBits_self _ _ _ _ (by omega) (by omega), show 64 * k + 63 + 1 - 64 * k = 64 by omega,
    Nat.mod_eq_of_lt v.isLt, BitVec.ofNat_toNat, BitVec.setWidth_eq]

theorem descWord_setDescBits_disjoint (d : Desc) {hi lo : Nat} (v k : Nat) (h : lo ≤ hi) (hw : hi < 256)
    (hd : 64 * k + 63 < lo ∨ hi < 64 * k) : descWord (setDescBits d hi lo v) k = descWord d k := by
  rw [descWord_eq, descWord_eq, bitsOf_setDescBits_disjoint _ _ _ _ _ _ h hw hd]

/-! ### TDSET (R84) -/

theorem tdset_word (d : Desc) (v : W64) {k : Nat} (h : k < 4) :
    ∃ e, tdset d k v = some e ∧ descWord e k = v ∧ ∀ j < 4, j ≠ k → descWord e j = descWord d j :=
  ⟨_, if_pos h, descWord_setDescBits_self d v h, fun j hj hne =>
    descWord_setDescBits_disjoint d _ j (by omega) (by omega) (by omega)⟩

theorem exists_tdset (d : Desc) (v : W64) {mode : Nat} (h : mode < 8) : ∃ e, tdset d mode v = some e := by
  unfold tdset
  split
  · exact ⟨_, rfl⟩
  · obtain rfl | rfl | rfl | rfl : mode = 4 ∨ mode = 5 ∨ mode = 6 ∨ mode = 7 := by omega
    all_goals exact ⟨_, rfl⟩

theorem tdset_of_reserved (d : Desc) (v : W64) {mode : Nat} (h : 8 ≤ mode) : tdset d mode v = none := by
  simp [tdset, show ¬ mode < 4 by omega, show mode ≠ 4 by omega, show mode ≠ 5 by omega, show mode ≠ 6 by omega,
    show mode ≠ 7 by omega]

/-! ### TDADV (R84) -/

theorem toNat_extractLsb'_eq_bitsOf {w : Nat} (v : BitVec w) (lo n : Nat) :
    (v.extractLsb' lo (n + 1)).toNat = bitsOf v.toNat (lo + n) lo := by
  rw [BitVec.extractLsb'_toNat, bitsOf, show lo + n + 1 - lo = n + 1 by omega]

theorem twos_toNat (x : BitVec 32) : twos 32 x.toNat = x.toInt := by
  rw [twos, BitVec.toInt_eq_toNat_cond]
  have := x.isLt
  split <;> split <;> omega

/-- The amount by which the element base moves. -/
theorem twos_low (v : W64) : twos 32 (bitsOf v.toNat 31 0) = (v.setWidth 32).toInt := by
  rw [← twos_toNat, BitVec.toNat_setWidth]
  rfl

/-- The amount by which the scale base moves. -/
theorem twos_high (v : W64) : twos 32 (bitsOf v.toNat 63 32) = (v.extractLsb' 32 32).toInt := by
  rw [← twos_toNat, toNat_extractLsb'_eq_bitsOf]

/-- A number modulo 2^32 reads as one congruent to it. -/
theorem twos_toNat_emod (x : Int) : (twos 32 ((x % 2 ^ 32).toNat % 2 ^ 32) - x) % 2 ^ 32 = 0 := by
  unfold twos
  split <;> omega

/-- The descriptor with the two bases moved, before MODE[0]. -/
def movedBases (d : Desc) (de ds : Int) : Desc :=
  setDescBits (setDescBits d 127 64 (((d.base : Int) + de) % 2 ^ 64).toNat) 191 160 ((d.scaleOff + ds - de) % 2 ^ 32).toNat

theorem bitsOf_movedBases (d : Desc) (de ds : Int) (hi lo : Nat) (h : (hi < 64 ∨ 127 < lo) ∧ (hi < 160 ∨ 191 < lo)) :
    bitsOf (movedBases d de ds).bits.toNat hi lo = bitsOf d.bits.toNat hi lo := by
  rw [movedBases, bitsOf_setDescBits_disjoint _ _ _ _ _ _ (by decide) (by decide) (by omega),
    bitsOf_setDescBits_disjoint _ _ _ _ _ _ (by decide) (by decide) (by omega)]

theorem tdadv_eq (d : Desc) (n : Bool) (v : W64) :
    tdadv d n v = if n then setDescBits (movedBases d (v.setWidth 32).toInt (v.extractLsb' 32 32).toInt) 23 0 (d.tile + 1)
      else movedBases d (v.setWidth 32).toInt (v.extractLsb' 32 32).toInt := by
  have hscale (x : Nat) : (setDescBits d 127 64 x).scaleOff = d.scaleOff := by
    rw [Desc.scaleOff, bitsOf_setDescBits_disjoint _ _ _ _ _ _ (by decide) (by decide) (by decide), Desc.scaleOff]
  have htile (de ds : Int) : (movedBases d de ds).tile = d.tile := bitsOf_movedBases d de ds 23 0 (by decide)
  rw [← twos_low, ← twos_high]
  unfold tdadv
  simp only [hscale]
  rw [← htile (twos 32 (bitsOf v.toNat 31 0)) (twos 32 (bitsOf v.toNat 63 32))]
  rfl

/-- What TDADV leaves of every field but TILE. -/
theorem bitsOf_tdadv (d : Desc) (n : Bool) (v : W64) (hi lo : Nat) (h : 23 < lo) :
    bitsOf (tdadv d n v).bits.toNat hi lo =
      bitsOf (movedBases d (v.setWidth 32).toInt (v.extractLsb' 32 32).toInt).bits.toNat hi lo := by
  rw [tdadv_eq]
  split
  · rw [bitsOf_setDescBits_disjoint _ _ _ _ _ _ (by decide) (by decide) (.inr h)]
  · rfl

theorem base_tdadv (d : Desc) (n : Bool) (v : W64) :
    ((tdadv d n v).base : Int) = ((d.base : Int) + (v.setWidth 32).toInt) % 2 ^ 64 := by
  rw [Desc.base, bitsOf_tdadv _ _ _ _ _ (by decide), movedBases,
    bitsOf_setDescBits_disjoint _ _ _ _ _ _ (by decide) (by decide) (by decide),
    bitsOf_setDescBits_self _ _ _ _ (by decide) (by decide)]
  omega

theorem scaleOff_tdadv (d : Desc) (n : Bool) (v : W64) :
    ((tdadv d n v).scaleOff - (d.scaleOff + (v.extractLsb' 32 32).toInt - (v.setWidth 32).toInt)) % 2 ^ 32 = 0 := by
  rw [Desc.scaleOff, bitsOf_tdadv _ _ _ _ _ (by decide), movedBases,
    bitsOf_setDescBits_self _ _ _ _ (by decide) (by decide)]
  exact twos_toNat_emod _

theorem tile_tdadv (d : Desc) (n : Bool) (v : W64) :
    (tdadv d n v).tile = if n then (d.tile + 1) % 2 ^ 24 else d.tile := by
  rw [tdadv_eq]
  split
  · exact bitsOf_setDescBits_self _ 23 0 _ (by decide) (by decide)
  · exact bitsOf_movedBases d _ _ 23 0 (by decide)

/-- Every field that TDADV does not name stands. -/
theorem bitsOf_tdadv_of_disjoint (d : Desc) (n : Bool) (v : W64) (hi lo : Nat) (htile : 23 < lo)
    (h : (hi < 64 ∨ 127 < lo) ∧ (hi < 160 ∨ 191 < lo)) : bitsOf (tdadv d n v).bits.toNat hi lo = bitsOf d.bits.toNat hi lo :=
  (bitsOf_tdadv d n v hi lo htile).trans (bitsOf_movedBases d _ _ hi lo h)

/-! ### The instructions (R84) -/

section

variable {s : State} {r : Nat} {g : Guard} (hx : Executes s r g)
include hx

theorem exec_tdset_of_reserved (td : BitVec 4) (rs : BitVec 5) {mode : BitVec 5} (h : 8 ≤ mode.toNat) :
    exec (.tdset r g td rs mode) s = .next (s.keepQueue (s.programFault r 0x01)) := by
  rw [exec_tdset]
  refine foremanOp_fault hx ?_
  simp only [tdset_of_reserved _ _ h]
  rfl

variable (hg : GoesOn s r)
include hg

/-- An instruction that writes one descriptor register. -/
theorem foremanOp_setDesc {eff : State → Issue} (td : BitVec 4) (v : Foreman → Desc)
    (heff : eff s = Issue.regs r s fun f => f.setDesc td (v f)) :
    foremanOp r g eff s = .next (did s r fun f => f.setDesc td (v f)) :=
  foremanOp_regs s r g _ eff hx hg heff (by simp) (by simp) (by simp)

theorem exec_tdld_of {td : BitVec 4} {rs : BitVec 5} {a : Nat} (ha : a = ((s.room r).foreman.reg rs).toNat)
    (haligned : a % 32 = 0) (hinside : a + 32 ≤ 0x100000 - s.portion r) :
    exec (.tdld r g td rs) s = .next (did s r fun f =>
      f.setDesc td ⟨BitVec.ofNat 256 (leNat (Store.range 0 (s.room r).pantry a 32))⟩) := by
  subst ha
  have hin : ¬ scratchBytes (s.portion r) < ((s.room r).foreman.reg rs).toNat + 32 := Nat.not_lt.mpr hinside
  rw [exec_tdld]
  refine foremanOp_setDesc hx hg td _ ?_
  simp only [haligned, bne_self_eq_false, Bool.false_eq_true, hin, if_false]
  rfl

theorem exec_tdset_of {td : BitVec 4} {rs mode : BitVec 5} {d : Desc}
    (hd : tdset ((s.room r).foreman.desc td) mode.toNat ((s.room r).foreman.reg rs) = some d) :
    exec (.tdset r g td rs mode) s = .next (did s r fun f => f.setDesc td d) := by
  rw [exec_tdset]
  refine foremanOp_setDesc hx hg td _ ?_
  simp only [hd]

theorem exec_tdadv_of (td : BitVec 4) (rs mode : BitVec 5) :
    exec (.tdadv r g td rs mode) s =
      .next (did s r fun f => f.setDesc td (tdadv (f.desc td) (mode.getLsbD 0) (f.reg rs))) := by
  rw [exec_tdadv]
  exact foremanOp_setDesc hx hg td _ rfl

end

/-- Settles O14, by the fields that each replacement of bits leaves alone. -/
theorem descriptorRegisters : Obligations.DescriptorRegisters := by
  unfold Obligations.DescriptorRegisters
  refine ⟨fun s r g td rs mode a hx hg ha => ⟨exec_tdld_of hx hg ha, fun d => exec_tdset_of hx hg,
    exec_tdset_of_reserved hx td rs, exec_tdadv_of hx hg td rs mode⟩, fun d v => ?tdset, ?tdadv⟩
  case tdset =>
    have hself (hi lo : Nat) (h : lo ≤ hi) (hw : hi < 256) := bitsOf_setDescBits_self d hi lo v.toNat h hw
    have hrest (hi lo hi' lo' : Nat) (h : lo ≤ hi) (hw : hi < 256) (hd : hi' < lo ∨ hi < lo') :=
      bitsOf_setDescBits_disjoint d hi lo v.toNat hi' lo' h hw hd
    refine ⟨fun k => tdset_word d v, ⟨_, rfl, hself 23 0 ?_ ?_, hrest 23 0 39 28 ?_ ?_ ?_, hrest 23 0 47 40 ?_ ?_ ?_,
        hrest 23 0 55 51 ?_ ?_ ?_, hrest 23 0 50 48 ?_ ?_ ?_, hrest 23 0 63 56 ?_ ?_ ?_, hrest 23 0 127 64 ?_ ?_ ?_⟩,
      ⟨_, rfl, hself 39 28 ?_ ?_, hrest 39 28 23 0 ?_ ?_ ?_, hrest 39 28 47 40 ?_ ?_ ?_, hrest 39 28 55 51 ?_ ?_ ?_,
        hrest 39 28 127 64 ?_ ?_ ?_⟩,
      ⟨_, rfl, hself 47 40 ?_ ?_, hrest 47 40 23 0 ?_ ?_ ?_, hrest 47 40 39 28 ?_ ?_ ?_, hrest 47 40 55 51 ?_ ?_ ?_,
        hrest 47 40 127 64 ?_ ?_ ?_⟩,
      ⟨_, rfl, hself 55 51 ?_ ?_, hrest 55 51 23 0 ?_ ?_ ?_, hrest 55 51 39 28 ?_ ?_ ?_, hrest 55 51 47 40 ?_ ?_ ?_,
        hrest 55 51 127 64 ?_ ?_ ?_⟩⟩
    all_goals decide
  case tdadv =>
    rintro d n v de ds rfl rfl
    have hrest (hi lo : Nat) := bitsOf_tdadv_of_disjoint d n v hi lo
    refine ⟨base_tdadv d n v, scaleOff_tdadv d n v, tile_tdadv d n v, hrest 39 28 ?_ ?_, hrest 47 40 ?_ ?_, hrest 55 51 ?_ ?_,
      hrest 50 48 ?_ ?_, hrest 63 56 ?_ ?_, ?_⟩
    case refine_11 =>
      rw [descWord_eq, descWord_eq]
      exact congrArg _ (hrest 255 192 (by decide) (by decide))
    all_goals decide

end Sys2Proof.Machine
end

section
/-! PROOF. TLOAD and TSTORE (R86): which part of the Room the rows reach, and what stands. -/

namespace Sys2Proof.Machine

open Sys2Proof.Safety

/-! ### An instruction that changes its Foreman alone -/

theorem State.foreman_did {s : State} {r : Nat} {e : Foreman → Foreman} (h : (e (s.room r).foreman).run ≠ .idle) :
    ((did s r e).room r).foreman = passed (e (s.room r).foreman) :=
  congrArg Room.foreman (State.room_modForeman s r (fun f => passed (e f)) h)

theorem onlyRoom_did (s : State) (r : Nat) (e : Foreman → Foreman) : OnlyRoom s (did s r e) r :=
  ⟨fun q hq => State.room_setRoom_ne s r q _ hq, rfl⟩

theorem Foreman.desc_setDesc_self {f : Foreman} (k : BitVec 4) (v : Desc) (hf : RegistersOk f) :
    (f.setDesc k v).desc k = v := Store.get_set_self _ _ _ _ hf.2.1

theorem Foreman.desc_setDesc_ne (f : Foreman) {j k : BitVec 4} (v : Desc) (h : j ≠ k) :
    (f.setDesc k v).desc j = f.desc j := Store.get_set_ne _ _ _ _ _ fun e => h (BitVec.eq_of_toNat_eq e)

/-- What an instruction leaves that writes one descriptor register. -/
theorem did_setDesc_spec {s : State} {r : Nat} (td : BitVec 4) (v : Foreman → Desc) (hrun : (s.room r).foreman.run = .running)
    (hf : RegistersOk (s.room r).foreman) (t : State) (ht : t = did s r fun f => f.setDesc td (v f)) :
    (t.room r).foreman.desc td = v (s.room r).foreman ∧
      (∀ j, j ≠ td → (t.room r).foreman.desc j = (s.room r).foreman.desc j) ∧
      (t.room r).foreman.s = (s.room r).foreman.s ∧ (t.room r).foreman.p = (s.room r).foreman.p ∧
      (t.room r).foreman.pc = (passed (s.room r).foreman).pc ∧ OnlyRoom s t r := by
  subst ht
  rw [State.foreman_did (by rw [Foreman.setDesc_run, hrun]; decide)]
  exact ⟨Foreman.desc_setDesc_self td _ hf, fun j hj => Foreman.desc_setDesc_ne _ _ hj, rfl, rfl, rfl, onlyRoom_did s r _⟩

/-! ### Rows of lanes -/

/-- What moving every row keeps, moving all rows of all lanes keeps. -/
theorem Room.foldl_iterate_keeps {β : Type} (p : Room → β) {f : Nat → Nat → Room → Room} (h : ∀ l j x, p (f l j x) = p x)
    (lanes : List Nat) (n : Nat) (x : Room) : p (lanes.foldl (fun x l => iterate (f l) n x) x) = p x :=
  List.foldlRecOn (motive := fun y : Room => p y = p x) lanes _ rfl fun y hy l _ =>
    (iterate_hom (p := p) (g := fun _ b => b) (h l) n y).trans
      ((Nat.rec rfl (fun _ ih => ih) n : iterate (fun _ b => b) n (p y) = p y).trans hy)

theorem Room.putHodRow_frame (x : Room) (l : Nat) (d : Desc) (m : Nat) (v : RowData) :
    (x.putHodRow l d m v).foreman = x.foreman ∧ (x.putHodRow l d m v).pantry = x.pantry ∧
      (x.putHodRow l d m v).microStore = x.microStore := by
  simp only [Room.putHodRow, Room.writeHod, Room.note, Room.modBrick, and_self]

theorem Room.putPantryRow_frame (x : Room) (d : Desc) (m : Nat) (v : RowData) :
    (x.putPantryRow d m v).foreman = x.foreman ∧ (x.putPantryRow d m v).bricks = x.bricks ∧
      (x.putPantryRow d m v).microStore = x.microStore := by
  simp only [Room.putPantryRow, Room.writePantry, Room.note, and_self]

/-- The rows of a TLOAD in a Room. -/
def Room.loadRows (p h : Desc) (m : Nat) (lanes : List Nat) (x : Room) : Room :=
  lanes.foldl (fun x l => iterate (fun j x => x.rowToHod p h l (if m = 1 then l * h.rows + j else j) j) h.rows x) x

/-- The rows of a TSTORE in a Room. -/
def Room.storeRows (p h : Desc) (m : Nat) (lanes : List Nat) (x : Room) : Room :=
  lanes.foldl (fun x l => iterate (fun j x => x.rowFromHod h p l j (if m = 1 then l * h.rows + j else j)) h.rows x) x

/-- What the rows of a TLOAD leave alone. -/
theorem Room.loadRows_frame (p h : Desc) (m : Nat) (lanes : List Nat) (x : Room) :
    (x.loadRows p h m lanes).foreman = x.foreman ∧ (x.loadRows p h m lanes).pantry = x.pantry ∧
      (x.loadRows p h m lanes).microStore = x.microStore :=
  ⟨Room.foldl_iterate_keeps Room.foreman (fun l _ x => (x.putHodRow_frame l h _ _).1) ..,
    Room.foldl_iterate_keeps Room.pantry (fun l _ x => (x.putHodRow_frame l h _ _).2.1) ..,
    Room.foldl_iterate_keeps Room.microStore (fun l _ x => (x.putHodRow_frame l h _ _).2.2) ..⟩

/-- What the rows of a TSTORE leave alone. -/
theorem Room.storeRows_frame (p h : Desc) (m : Nat) (lanes : List Nat) (x : Room) :
    (x.storeRows p h m lanes).foreman = x.foreman ∧ (x.storeRows p h m lanes).bricks = x.bricks ∧
      (x.storeRows p h m lanes).microStore = x.microStore :=
  ⟨Room.foldl_iterate_keeps Room.foreman (fun _ _ x => (x.putPantryRow_frame p _ _).1) ..,
    Room.foldl_iterate_keeps Room.bricks (fun _ _ x => (x.putPantryRow_frame p _ _).2.1) ..,
    Room.foldl_iterate_keeps Room.microStore (fun _ _ x => (x.putPantryRow_frame p _ _).2.2) ..⟩

section

variable {s : State} {r : Nat} {g : Guard} {td ta : BitVec 4} {rs mode : BitVec 5} {p h : Desc} {v : W64}
  (hx : Executes s r g) (hg : GoesOn s r) (hv : v = (s.room r).foreman.reg rs)
  (hchecks : moveFault p h (mode.toNat / 8) (s.lanes r) (s.portion r) v = none)
include hx hg hv hchecks

theorem exec_tload_of (hp : p = (s.room r).foreman.desc ta) (hh : h = (s.room r).foreman.desc td) :
    exec (.tload r g td ta rs mode) s =
      .next (didRoom s r (Room.loadRows p h (mode.toNat / 8) (lanesNamed (mode.toNat / 8) (s.lanes r) v))) := by
  subst hp hh hv
  rw [exec_tload]
  refine foremanOp_modRoom hx hg ?_ fun x => (x.loadRows_frame ..).1
  simp only [modeHigh, hchecks]
  rfl

theorem exec_tstore_of (hp : p = (s.room r).foreman.desc td) (hh : h = (s.room r).foreman.desc ta)
    (hmode : mode.toNat / 8 < 2) :
    exec (.tstore r g td ta rs mode) s =
      .next (didRoom s r (Room.storeRows p h (mode.toNat / 8) (lanesNamed (mode.toNat / 8) (s.lanes r) v))) := by
  subst hp hh hv
  rw [exec_tstore]
  refine foremanOp_modRoom hx hg ?_ fun x => (x.storeRows_frame ..).1
  simp only [modeHigh, Nat.not_le_of_lt hmode, hchecks, if_false]
  rfl

end

/-- Settles O15, by what a row that is moved leaves alone. -/
theorem tileMoves : Obligations.TileMoves := by
  unfold Obligations.TileMoves
  constructor
  · intro s r g td rs mode a hx hg hf ha
    refine ⟨fun haligned hinside => ⟨_, exec_tdld_of hx hg ha haligned hinside, did_setDesc_spec td _ hx.2.1 hf _ rfl⟩,
      fun hmode => ?_, _, exec_tdadv_of hx hg td rs mode, ?_⟩
    · obtain ⟨d, hd⟩ := exists_tdset ((s.room r).foreman.desc td) ((s.room r).foreman.reg rs) hmode
      obtain ⟨hdesc, hrest⟩ := did_setDesc_spec td (fun _ => d) hx.2.1 hf _ rfl
      exact ⟨_, exec_tdset_of hx hg hd, (congrArg some hdesc).trans hd.symm, hrest⟩
    · obtain ⟨hdesc, hrest⟩ := did_setDesc_spec td _ hx.2.1 hf _ rfl
      exact ⟨by rw [hdesc, base_tdadv], by rw [hdesc, tile_tdadv], hrest⟩
  · intro s r g td ta rs mode p h v hx hg hv hchecks
    refine ⟨fun hp hh => ⟨_, exec_tload_of hx hg hv hchecks hp hh, ?_⟩,
      fun hp hh hmode => ⟨_, exec_tstore_of hx hg hv hchecks hp hh hmode, ?_⟩⟩
    · obtain ⟨-, hpantry, hmicro⟩ := (s.room r).loadRows_frame p h (mode.toNat / 8) (lanesNamed (mode.toNat / 8) (s.lanes r) v)
      rw [State.room_didRoom hx.2.1 fun x => (x.loadRows_frame p h (mode.toNat / 8) _).1]
      exact ⟨rfl, hpantry, rfl, hmicro, onlyRoom_didRoom s r _⟩
    · obtain ⟨-, hbricks, hmicro⟩ := (s.room r).storeRows_frame p h (mode.toNat / 8) (lanesNamed (mode.toNat / 8) (s.lanes r) v)
      rw [State.room_didRoom hx.2.1 fun x => (x.storeRows_frame p h (mode.toNat / 8) _).1]
      exact ⟨rfl, hbricks, rfl, hmicro, onlyRoom_didRoom s r _⟩

end Sys2Proof.Machine
end

section
/-! PROOF. The Room DMA engine (R87): its issue, its waits and its ends. -/

namespace Sys2Proof.Machine

open Sys2Proof.Safety

theorem State.room_keepQueue (s t : State) (q : Nat) : (s.keepQueue t).room q = t.room q := by
  simp only [State.room, State.keepQueue_rooms]

/-! ### The requests of a transfer -/

/-- Requests that wait at a port change the traffic of the module and nothing else (R87, R160). -/
def State.TrafficOnly (s t : State) : Prop := ∃ packets regulators, t = { s with packets, regulators }

theorem State.TrafficOnly.refl (s : State) : State.TrafficOnly s s := ⟨s.packets, s.regulators, rfl⟩

theorem State.TrafficOnly.trans {s t u : State} (h : State.TrafficOnly s t) (h' : State.TrafficOnly t u) : State.TrafficOnly s u := by
  obtain ⟨p, q, rfl⟩ := h
  obtain ⟨p', q', rfl⟩ := h'
  exact ⟨p', q', rfl⟩

theorem State.TrafficOnly.frame {s t : State} (h : State.TrafficOnly s t) :
    t.room = s.room ∧ t.hbm = s.hbm ∧ t.suites = s.suites ∧ t.pending = s.pending := by
  obtain ⟨p, q, rfl⟩ := h
  exact ⟨rfl, rfl, rfl, rfl⟩

theorem State.TrafficOnly.foldl {β : Type} {f : State → β → State} (h : ∀ s b, State.TrafficOnly s (f s b)) (l : List β)
    (s : State) : State.TrafficOnly s (l.foldl f s) :=
  List.foldlRecOn (motive := State.TrafficOnly s) l f (.refl s) fun t ht b _ => ht.trans (h t b)

theorem State.enqueue_trafficOnly (s : State) (port lpa len : Nat) (write : Bool) (deadline : Option Nat) (cargo : Cargo)
    (cls : Option Nat) (told : Bool) : State.TrafficOnly s (s.enqueue port lpa len write deadline cargo cls told) :=
  s.enqueue_frame ..

theorem State.enqueueVa_trafficOnly (s : State) (port ctx : Nat) (write : Bool) (range : Nat × Nat) (cargo : Cargo)
    (told : Bool) : State.TrafficOnly s (s.enqueueVa port ctx write range cargo told) := by
  refine State.TrafficOnly.foldl (fun s x => ?_) _ s
  cases (s.translate port ctx x.1 write).1 with
  | ok f ev =>
    cases htarget : s.target ctx f with
    | hbm a => simpa only [htarget] using s.enqueue_trafficOnly ..
    | _ => simpa only [htarget] using .refl s
  | _ => exact .refl s

/-! ### Issue -/

/-- A transfer that the engine takes over. -/
def Room.takeDma (t : DmaTransfer) (x : Room) : Room := { x with dma := x.dma ++ [t] }

theorem startDma_of {r : Nat} {isGet : Bool} {p d : Desc} {mode : BitVec 5} {s : State} (h : dmaFault p d (s.portion r) = none) :
    ∃ u, startDma r isGet p d mode s = .done u ∧ State.TrafficOnly
      (s.modRoom r (Room.takeDma { isGet, tag := mode.toNat % 16, pantry := p, device := d, ctx := s.ctxOf r })) u := by
  simp only [startDma, h]
  split
  · exact ⟨_, rfl, .refl _⟩
  · exact ⟨_, rfl, .foldl (fun s x => s.enqueueVa_trafficOnly ..) _ _⟩

section

variable {s : State} {r : Nat} {g : Guard} (hx : Executes s r g) (hg : GoesOn s r)
include hx hg

/-- An instruction that hands its engine a transfer goes on, and moves no byte. -/
theorem foremanOp_startDma {mode : BitVec 5} {p d : Desc} {isGet : Bool} {eff : State → Issue}
    (heff : eff s = startDma r isGet p d mode s) (h : dmaFault p d (s.portion r) = none) :
    ∃ t, foremanOp r g eff s = .next t ∧
      (t.room r).dma = (s.room r).dma ++ [{ isGet, tag := mode.toNat % 16, pantry := p, device := d, ctx := s.ctxOf r }] ∧
      (t.room r).foreman = passed (s.room r).foreman ∧ (t.room r).pantry = (s.room r).pantry ∧
      (t.room r).bricks = (s.room r).bricks ∧ (∀ q, q ≠ r → t.room q = s.room q) ∧ t.hbm = s.hbm ∧
      t.suites = s.suites ∧ t.pending = s.pending := by
  obtain ⟨u, hu, htraffic⟩ := startDma_of (isGet := isGet) (mode := mode) h
  obtain ⟨hrooms, hhbm, hsuites, -⟩ := htraffic.frame
  have hidle : (s.room r).foreman.run ≠ .idle := hx.2.1.trans_ne (by decide)
  have hroom : u.room r = Room.takeDma _ (s.room r) := (congrFun hrooms r).trans (State.room_modRoom_of_run hidle)
  have hforeman : (u.room r).foreman = (s.room r).foreman := by rw [hroom]; rfl
  refine ⟨_, foremanOp_done_at hx hg hforeman (heff.trans hu), ?_⟩
  rw [State.room_keepQueue, did, State.room_modForeman u r passed (hforeman ▸ hidle), hroom]
  refine ⟨rfl, rfl, rfl, rfl, fun q hq => ?_, by simp [hhbm], by simp [hsuites], by simp⟩
  rw [State.room_keepQueue, State.modForeman, State.modRoom, State.room_setRoom_ne u r q _ hq, hrooms]
  exact State.room_setRoom_ne s r q _ hq

theorem exec_dmawait_idle {imm : BitVec 16} (h : ∀ x ∈ (s.room r).dma, imm.getLsbD x.tag = false) :
    exec (.dmawait r g imm) s = .next (did s r fun f => f) := by
  have hfree : (s.room r).dmaBusy imm = false := List.any_eq_false.2 fun x hx => by simp [h x hx]
  rw [exec_dmawait, execDmawait]
  exact foremanOp_done hx hg (by simp [hfree])

end

theorem exec_dmawait_busy {s : State} {r : Nat} {g : Guard} (hx : Executes s r g) {imm : BitVec 16}
    (h : ∃ x ∈ (s.room r).dma, imm.getLsbD x.tag = true) :
    exec (.dmawait r g imm) s = .next (s.modForeman r ({ · with run := .waitDma imm })) := by
  have hbusy : (s.room r).dmaBusy imm = true := List.any_eq_true.2 h
  rw [exec_dmawait, execDmawait, foremanOp_of r g _ s hx]
  simp only [hbusy, if_true]
  rfl

/-! ### The end of a transfer -/

section

variable {s u : State} {r k : Nat} (hr : isRoom r = true)
include hr

theorem exec_dmaTransferComplete_missing (h : (s.room r).dma[k]? = none) : exec (.dmaTransferComplete r k) s = .next s := by
  rw [exec_dmaTransferComplete, execDmaTransferComplete, onUnits_of _ _ _ hr]
  simp only [h]
  rfl

variable {x : DmaTransfer} (h : (s.room r).dma[k]? = some x)
include h

/-- A transfer that lost a packet never ends (R124). -/
theorem exec_dmaTransferComplete_lost (hlost : x.lost = true) : exec (.dmaTransferComplete r k) s = .next s := by
  rw [exec_dmaTransferComplete, execDmaTransferComplete, onUnits_of _ _ _ hr]
  simp only [h, hlost, if_true]
  rfl

variable (hkept : x.lost = false)
include hkept

theorem exec_dmaTransferComplete_get {b : List Byte} (hget : x.isGet = true)
    (hread : s.readMany (dmaPort r) x.ctx x.device.ranges false x.sent = (.ok b, u)) :
    exec (.dmaTransferComplete r k) s = .next (s.keepQueue ((u.modRoom r fun y =>
      scatterBytes (fun a b y => y.writePantry a b) x.pantry.ranges b y).endDma r k)) := by
  rw [exec_dmaTransferComplete, execDmaTransferComplete, onUnits_of _ _ _ hr]
  simp only [h, hkept, hget, hread, if_true, Bool.false_eq_true, if_false]

theorem exec_dmaTransferComplete_put (hput : x.isGet = false) (hlistener : s.listener r = false)
    (hevent : s.hitsEvent (dmaPort r) x.ctx x.device.ranges = false)
    (hwrite : s.writeMany (dmaPort r) x.ctx x.device.ranges (x.pantry.gatherBytes (s.room r).pantry) false x.sent =
      (.ok (), u)) :
    exec (.dmaTransferComplete r k) s = .next (s.keepQueue ((u.modRoom r fun y =>
      scatterBytes (fun a b y => y.note 2 a b) x.device.ranges (x.pantry.gatherBytes (s.room r).pantry) y).endDma r k)) := by
  rw [exec_dmaTransferComplete, execDmaTransferComplete, onUnits_of _ _ _ hr]
  simp only [h, hkept, hput, hlistener, hevent, hwrite, Bool.false_eq_true, if_false]
  rfl

end

/-- A transfer of a Room whose Foreman waits for none, and which serves no Suite, only leaves the engine. -/
theorem State.endDma_of_running {s : State} {r : Nat} (k : Nat) (hrun : (s.room r).foreman.run = .running)
    (hsuite : s.suiteOf r = none) : s.endDma r k = s.modRoom r fun y => { y with dma := removeAt k y.dma } := by
  have hroom := State.room_modRoom_of_run (s := s) (r := r) (e := fun y => { y with dma := removeAt k y.dma })
    (hrun.trans_ne (by decide))
  have hwake : (s.modRoom r fun y => { y with dma := removeAt k y.dma }).wakeDma r =
      s.modRoom r fun y => { y with dma := removeAt k y.dma } := by
    rw [State.wakeDma, hroom, hrun]
  have hsuite' : (s.modRoom r fun y => { y with dma := removeAt k y.dma }).suiteOf r = none := by
    rw [State.suiteOf, hroom]
    exact hsuite
  rw [State.endDma]
  simp only [hwake, hsuite']

/-- Settles O16: the requests of a transfer change the traffic alone; its end follows the case of the transfer. -/
theorem roomDma : Obligations.RoomDma := by
  unfold Obligations.RoomDma
  refine ⟨fun s r g td ta mode imm p d hx hg => ⟨fun i isGet hi hcheck => ?_, exec_dmawait_idle hx hg, exec_dmawait_busy hx⟩,
    fun s u r k x b hr => ⟨exec_dmaTransferComplete_missing hr, exec_dmaTransferComplete_lost hr,
      fun h hkept hget hread => exec_dmaTransferComplete_get hr h hkept hget hread,
      exec_dmaTransferComplete_put hr, State.endDma_of_running k⟩⟩
  rcases hi with ⟨rfl, rfl, rfl, rfl⟩ | ⟨rfl, rfl, rfl, rfl⟩
  · rw [exec_dmaget, execDmaget]
    exact foremanOp_startDma hx hg rfl hcheck
  · rw [exec_dmaput, execDmaput]
    exact foremanOp_startDma hx hg rfl hcheck

end Sys2Proof.Machine
end

section
/-! PROOF. MMA and FOLD as instructions of the Foreman (R88 to R92, R96): their slot, and the checksum flags that are noted. -/

namespace Sys2Proof.Machine

open Sys2Proof.Safety

/-! ### Changes of a Room that leave its Foreman -/

/-- A change of a Room that leaves its Foreman, which does something, is read back with that Foreman. -/
theorem State.foreman_modRoom {s : State} {r : Nat} {e : Room → Room} (hrun : (s.room r).foreman.run ≠ .idle)
    (he : ∀ x, (e x).foreman = x.foreman) : ((s.modRoom r e).room r).foreman = (s.room r).foreman := by
  rw [State.room_modRoom_of_run (by rw [he]; exact hrun), he]

theorem State.room_bump (s : State) (i k bits n q : Nat) : (s.bump i k bits n).room q = s.room q := rfl

/-- Noting checksum flags leaves the Foreman (R336, log entry 69). -/
theorem State.foreman_noteFlags {s : State} {r : Nat} (before : Nat) (hrun : (s.room r).foreman.run ≠ .idle) :
    ((s.noteFlags r before).room r).foreman = (s.room r).foreman := by
  have hspent : ((s.modRoom r ({ · with upsets := [] })).room r).foreman = (s.room r).foreman :=
    State.foreman_modRoom hrun fun _ => rfl
  have hrun' : ((s.modRoom r ({ · with upsets := [] })).room r).foreman.run ≠ .idle := hspent ▸ hrun
  simp only [State.noteFlags]
  split
  · rfl
  split
  · exact (State.foreman_modRoom hrun' (by intros; rfl)).trans hspent
  split
  · exact hspent
  split
  · exact (State.foreman_modRoom (by rw [State.room_bump]; exact hrun') (by intros; rfl)).trans
      ((congrArg Room.foreman (State.room_bump ..)).trans hspent)
  · rw [State.room_bump]
    exact hspent

/-! ### The guard slot -/

/-- Sixteen open slots, none of them with the key, leave no slot for it (R96). -/
theorem CourseState.openSlot_eq_none {c : CourseState} {layer tile : Nat}
    (hkey : ∀ x ∈ c.slots, ¬ (x.layer = layer ∧ x.tile = tile ∧ x.isOpen = true))
    (hfull : 16 ≤ (c.slots.filter (·.isOpen)).length) : c.openSlot layer tile = none := by
  have hclosed : c.hasOpen layer tile = false := by simpa [hasOpen, GuardSlot.hasKey] using hkey
  have hopen : 16 ≤ c.openSlots := by simpa [openSlots, countIf] using hfull
  simp [openSlot, hclosed, hopen]

section

variable {s : State} {r : Nat} {g : Guard} {td ta tb : BitVec 4} {mode : BitVec 5} {d a b : Desc} (hx : Executes s r g)
  (hd : d = (s.room r).foreman.desc td)
include hx hd

/-- An MMA whose checks hold and whose slot is open or can be opened completes, and notes the flags of its comparison. -/
theorem exec_mma_noting {c : CourseState} (hg : GoesOn s r) (ha : a = (s.room r).foreman.desc ta)
    (hb : b = (s.room r).foreman.desc tb) (hslot : (s.room r).course.openSlot d.layer d.tile = some c)
    (hchecks : mmaFault d a b (mode.getLsbD 3) (s.portion r) = none) :
    exec (.mma r g td ta tb mode) s = .next (s.keepQueue (did ((s.modRoom r fun x =>
      { x with course := c }.mma d a b (mode.getLsbD 4) (mode.getLsbD 3) (s.lanes r)).noteFlags r c.flagged.length)
        r fun f => f)) := by
  have hrun : (s.room r).foreman.run ≠ .idle := hx.2.1.trans_ne (by decide)
  have hmma := State.foreman_modRoom (s := s) (r := r)
    (e := fun x => { x with course := c }.mma d a b (mode.getLsbD 4) (mode.getLsbD 3) (s.lanes r)) hrun
    fun _ => (Room.mma_accsOnly ..).foreman
  rw [exec_mma, execMma]
  refine foremanOp_done_at hx hg ((State.foreman_noteFlags _ (hmma ▸ hrun)).trans hmma) ?_
  subst hd ha hb
  simp only [hchecks, hslot]

variable (hnone : (s.room r).course.openSlot d.layer d.tile = none)
include hnone

theorem exec_mma_of_no_slot (ha : a = (s.room r).foreman.desc ta) (hb : b = (s.room r).foreman.desc tb)
    (hchecks : mmaFault d a b (mode.getLsbD 3) (s.portion r) = none) :
    exec (.mma r g td ta tb mode) s = .next (s.keepQueue (s.programFault r 0x0B)) := by
  rw [exec_mma, execMma]
  refine foremanOp_fault hx ?_
  subst hd ha hb
  simp only [hchecks, hnone]
  rfl

theorem exec_fold_of_no_slot (hchecks : foldFault d (s.portion r) = none) :
    exec (.fold r g td) s = .next (s.keepQueue (s.programFault r 0x0B)) := by
  rw [exec_fold, execFold]
  refine foremanOp_fault hx ?_
  subst hd
  simp only [hchecks, hnone]
  rfl

theorem exec_convt_of_no_slot (ha : a = (s.room r).foreman.desc ta) (hchecks : convtFault d a mode (s.portion r) = none) :
    exec (.convt r g td ta mode) s = .next (s.keepQueue (s.programFault r 0x0B)) := by
  rw [exec_convt, execConvt]
  refine foremanOp_fault hx ?_
  subst hd ha
  simp only [hchecks, hnone]
  rfl

end

/-- Settles O17, by the slot: open or to be opened, the instruction completes; none left, it faults. -/
theorem matrixCompletes : Obligations.MatrixCompletes := by
  unfold Obligations.MatrixCompletes
  refine ⟨fun s r g td ta tb mode d a b c hx hg hd ha hb hslot =>
      ⟨fun hchecks => ⟨exec_mma_noting hx hd hg ha hb hslot hchecks,
        fun hup => exec_mma_of hx hg hd ha hb hchecks hup hslot⟩, fun hchecks => exec_fold_of hx hg hd hchecks hslot⟩,
    fun x d a b clear asrc lanes k hwf => ?_, fun s r g td ta tb mode d a b hx hd ha hb hkey hfull => ?_⟩
  · have hmma := x.mma_accsOnly d a b clear asrc lanes
    have hfold := x.fold_accsOnly d lanes
    exact ⟨(hmma.hod hwf).2 k, hmma.pantry, hmma.foreman, hmma.laneMap, (hfold.hod hwf).2 k, hfold.pantry, hfold.foreman,
      hfold.laneMap⟩
  · have hnone := CourseState.openSlot_eq_none hkey hfull
    exact ⟨exec_mma_of_no_slot hx hd hnone ha hb, exec_fold_of_no_slot hx hd hnone, exec_convt_of_no_slot hx hd hnone ha⟩

end Sys2Proof.Machine
end

section
/-! PROOF. UPLD (R109, log entry 22), and the conversions as instructions of the Foreman (R93 to R96). -/

namespace Sys2Proof.Machine

open Sys2Proof.Safety

theorem Store.get_iterate_set_ne {α : Type} [DecidableEq α] (d : α) (m : Store α) (a : Nat) (v : Nat → α) {n k : Nat}
    (hk : k < a ∨ a + n ≤ k) : Store.get d (iterate (fun i m => Store.set d m (a + i) (v i)) n m) k = Store.get d m k := by
  induction n with
  | zero => rfl
  | succ n ih =>
    exact (Store.get_set_ne d _ _ _ _ (by omega)).trans (ih (by omega))

/-- What UPLD makes of a Room: `cols` words of the Pantry from `base` stand in the store from entry e on. -/
def Room.upload (e base cols : Nat) (x : Room) : Room :=
  { x with microStore := iterate (fun i m =>
      Store.set 0 m (e + i) (BitVec.ofNat 64 (Memory.readNat x.pantry (base + 8 * i) 8))) cols x.microStore }

theorem Room.get_microStore_upload {x : Room} {e base cols : Nat} (hwf : Store.wf (0 : W64) x.microStore = true) :
    ∀ k < cols, Store.get 0 (x.upload e base cols).microStore (e + k) =
      BitVec.ofNat 64 (leNat (Store.range 0 x.pantry (base + 8 * k) 8)) :=
  (Store.iterate_modify e (fun i _ => BitVec.ofNat 64 (Memory.readNat x.pantry (base + 8 * i) 8)) cols hwf).2.1

/-- An UPLD of a tile of the scratch portion completes: what the store then holds, and what stands. -/
theorem exec_upld_of {s : State} {r : Nat} {g : Guard} {ta : BitVec 4} {rs : BitVec 5} {a : Desc} {e : Nat}
    (hx : Executes s r g) (hg : GoesOn s r) (ha : a = (s.room r).foreman.desc ta)
    (he : e = ((s.room r).foreman.reg rs).toNat % 256) (hcheck : a.check (s.portion r) = none) (hspace : a.space = 0)
    (hentry : e + a.cols ≤ 256) (hscratch : a.base + 8 * a.cols ≤ 0x100000 - s.portion r) :
    ∃ t, exec (.upld r g ta rs) s = .next t ∧
      (Store.wf (0 : W64) (s.room r).microStore = true → ∀ k < a.cols, Store.get 0 (t.room r).microStore (e + k) =
        BitVec.ofNat 64 (leNat (Store.range 0 (s.room r).pantry (a.base + 8 * k) 8))) ∧
      (∀ k, k < e ∨ e + a.cols ≤ k → Store.get 0 (t.room r).microStore k = Store.get 0 (s.room r).microStore k) ∧
      t.room r = { s.room r with microStore := (t.room r).microStore, foreman := passed (s.room r).foreman } ∧
      OnlyRoom s t r := by
  have hexec : exec (.upld r g ta rs) s = .next (didRoom s r (Room.upload e a.base a.cols)) := by
    have hchecks : firstFault [a.check (s.portion r), must (a.space = 0) faultBadDescriptor,
        must (e + a.cols ≤ 256) faultBounds, must (a.base + 8 * a.cols ≤ scratchBytes (s.portion r)) faultBounds] = none := by
      rw [scratchBytes, hcheck, must_of (decide_eq_true hspace), must_of (decide_eq_true hentry), must_of (decide_eq_true hscratch)]
      rfl
    rw [exec_upld, execUpld]
    refine foremanOp_modRoom hx hg ?_ fun _ => rfl
    subst ha he
    simp only [hchecks]
    rfl
  have hroom := State.room_didRoom (e := Room.upload e a.base a.cols) hx.2.1 fun _ => rfl
  refine ⟨_, hexec, ?_, ?_, ?_, onlyRoom_didRoom ..⟩ <;> rw [hroom]
  · exact Room.get_microStore_upload
  · exact fun k hk => Store.get_iterate_set_ne 0 _ e _ hk
  · rfl

/-- Settles O20: each conversion, and the upload, by the lemma about it. -/
theorem conversionsComplete : Obligations.ConversionsComplete := by
  unfold Obligations.ConversionsComplete
  exact fun s r g td ta tb rs mode d a b c e hx hg hd ha hb he =>
    ⟨fun hchecks hslot => exec_conva_of hx hg hd ha hb hchecks hslot,
      fun hchecks hslot => exec_convt_of hx hg hd ha hchecks hslot,
      fun hcheck hspace hentry hscratch => exec_upld_of hx hg ha he hcheck hspace hentry hscratch⟩

end Sys2Proof.Machine
end

section
/-! PROOF. Micro-operations (R106 to R109): what each does to the lanes, what it does to the sequence, and its faults. -/

namespace Sys2Proof.Machine

open Sys2Proof.Safety

/-! ### What leaves the sequence of a Room, and its Foreman -/

/-- A change of the lanes alone leaves the sequence and the Foreman. -/
def Room.LanesOnly (x y : Room) : Prop := y.micro = x.micro ∧ y.foreman = x.foreman

theorem Room.LanesOnly.foldl {β : Type} {f : Room → β → Room} (h : ∀ x b, Room.LanesOnly x (f x b)) (l : List β) (x : Room) :
    Room.LanesOnly x (l.foldl f x) :=
  List.foldlRecOn (motive := Room.LanesOnly x) l f ⟨rfl, rfl⟩ fun y hy b _ =>
    ⟨(h y b).1.trans hy.1, (h y b).2.trans hy.2⟩

theorem Room.lanesOnly_modBrick (x : Room) (l : Nat) (f : Brick → Brick) : Room.LanesOnly x (x.modBrick l f) := ⟨rfl, rfl⟩

theorem Room.lanesOnly_writeHod (x : Room) (l a : Nat) (bytes : List Byte) : Room.LanesOnly x (x.writeHod l a bytes) := by
  simp only [LanesOnly, Room.writeHod, Room.note, Room.modBrick, and_self]

theorem Room.lanesOnly_mapAcc (x : Room) (lanes : Nat) (f : Nat → Store W32 → Store W32) :
    Room.LanesOnly x (x.mapAcc lanes f) := .foldl (fun x l => x.lanesOnly_modBrick l _) _ x

/-! ### Operands -/

@[simp] theorem holding_zero (k : Nat) (a : BitVec 6) : holding 0 k a = advancing a := by simp [holding, advancing]

@[simp] theorem advancing_at (a : BitVec 6) (i : Nat) : (advancing a).at i = a.toNat + i := rfl

theorem advancing_fits_iff (a : BitVec 6) (count : BitVec 8) :
    (advancing a).fits count = true ↔ a.toNat + count.toNat ≤ 63 := decide_eq_true_iff

theorem advancing_fits {a : BitVec 6} {count : BitVec 8} (h : a.toNat + count.toNat ≤ 63) : (advancing a).fits count = true :=
  (advancing_fits_iff a count).2 h

theorem advancing_not_fits {a : BitVec 6} {count : BitVec 8} (h : 63 < a.toNat + count.toNat) :
    (advancing a).fits count = false := decide_eq_false (Nat.not_le.2 h)

section

variable {x : Room} {lanes : Nat} {ops : List Walked} {d : Walked} {count : BitVec 8} {f : (Nat → W32) → Nat → W32}

theorem Room.elementwise_of (hd : d.fits count = true) (hops : ∀ p ∈ ops, p.fits count = true) :
    x.elementwise lanes ops d count f = .ok (x.mapAcc lanes fun _ => elements d count f) :=
  if_pos (by rw [List.all_cons, hd, List.all_eq_true.2 hops]; rfl)

theorem Room.elementwise_of_not_fits (hd : d.fits count = false) : x.elementwise lanes ops d count f = .error faultMicroprogram :=
  if_neg (by simp [hd])

theorem Room.unary_of {d a : BitVec 6} {f : W32 → W32} (hd : d.toNat + count.toNat ≤ 63) (ha : a.toNat + count.toNat ≤ 63) :
    x.unary lanes d a count (some f) =
      .ok (x.mapAcc lanes fun _ => elements ⟨d, false⟩ count fun v i => f (v (a.toNat + i))) :=
  Room.elementwise_of (advancing_fits hd) (by simpa using advancing_fits ha)

theorem Room.unary_of_not_fits {d a : BitVec 6} {f : Option (W32 → W32)} (hd : 63 < d.toNat + count.toNat) :
    x.unary lanes d a count f = .error faultMicroprogram := by
  cases f with
  | none => rfl
  | some f => exact Room.elementwise_of_not_fits (advancing_not_fits hd)

theorem Room.binary_of {d a b : BitVec 6} {mod : BitVec 4} {f : W32 → W32 → W32} (hd : (holding mod 0 d).fits count = true)
    (ha : (holding mod 1 a).fits count = true) (hb : (holding mod 2 b).fits count = true) :
    x.binary lanes d a b mod count f = .ok (x.mapAcc lanes fun _ => elements (holding mod 0 d) count fun v i =>
      f (v ((holding mod 1 a).at i)) (v ((holding mod 2 b).at i))) :=
  Room.elementwise_of hd (by simp [ha, hb])

theorem Room.binary_zero_of {d a b : BitVec 6} {f : W32 → W32 → W32} (hd : d.toNat + count.toNat ≤ 63)
    (ha : a.toNat + count.toNat ≤ 63) (hb : b.toNat + count.toNat ≤ 63) :
    x.binary lanes d a b 0 count f = .ok (x.mapAcc lanes fun _ => elements ⟨d, false⟩ count fun v i =>
      f (v (a.toNat + i)) (v (b.toNat + i))) := by
  rw [Room.binary_of] <;> simp only [holding_zero, advancing_fits hd, advancing_fits ha, advancing_fits hb]
  rfl

theorem Room.binary_zero_of_not_fits {d a b : BitVec 6} {f : W32 → W32 → W32} (hd : 63 < d.toNat + count.toNat) :
    x.binary lanes d a b 0 count f = .error faultMicroprogram :=
  Room.elementwise_of_not_fits (by rw [holding_zero]; exact advancing_not_fits hd)

theorem funcOf_reserved {mod : Nat} (h : 9 < mod) : funcOf mod = none := by
  rw [funcOf, if_neg (by omega), if_neg (by omega), if_neg (by omega), if_neg (by omega), if_neg (by omega), if_neg (by omega)]

theorem icvtOf_reserved {mod : Nat} (h : 2 < mod) : icvtOf mod = none := by
  rw [icvtOf, if_neg (by omega), if_neg (by omega), if_neg (by omega)]

theorem selHolds_getD (mod : Nat) (w : W32) : ((selHolds mod w).getD false = true) = (selHolds mod w = some true) := by
  cases selHolds mod w <;> simp

end

/-! ### A micro-operation of a running Foreman -/

section

variable {s : State} {r : Nat} (hr : isRoom r = true) (hrun : (s.room r).foreman.run = .running) {u : Uop}
include hr hrun

theorem uopCommand_ok {y : Room} {q : MicroSeq} (hu : (s.room r).uop (s.lanes r) u = .ok y) (hq : y.micro.uop u = .ok q) :
    uopCommand r u s = .next (s.modRoom r fun _ => { y with micro := q }) := by
  simp [uopCommand, Room.microStep, hr, hrun, hu, hq]
  rfl

theorem uopCommand_fault {c : Nat} (hu : (s.room r).uop (s.lanes r) u = .error c) :
    uopCommand r u s = .next (s.keepQueue (s.programFault r c)) := by
  simp [uopCommand, Room.microStep, hr, hrun, hu]

theorem uopCommand_seq_fault {y : Room} {c : Nat} (hu : (s.room r).uop (s.lanes r) u = .ok y) (hq : y.micro.uop u = .error c) :
    uopCommand r u s = .next (s.keepQueue (s.programFault r c)) := by
  simp [uopCommand, Room.microStep, hr, hrun, hu, hq]

/-- A micro-operation that changes the lanes alone, and lets the sequence go on. -/
theorem uopCommand_lanes {q : MicroSeq} (hq : (s.room r).micro.next = .ok q) (e : Room → Room)
    (hu : (s.room r).uop (s.lanes r) u = .ok (e (s.room r))) (hseq : ∀ p : MicroSeq, p.uop u = p.next)
    (he : ∀ x, Room.LanesOnly x (e x)) : uopCommand r u s = .next (s.modRoom r fun x => { e x with micro := q }) := by
  rw [uopCommand_ok hr hrun hu ((hseq _).trans (by rw [(he _).1, hq]))]
  rfl

theorem uopCommand_mapAcc {q : MicroSeq} (hq : (s.room r).micro.next = .ok q) {f : Nat → Store W32 → Store W32}
    (hu : (s.room r).uop (s.lanes r) u = .ok ((s.room r).mapAcc (s.lanes r) f)) (hseq : ∀ p : MicroSeq, p.uop u = p.next) :
    uopCommand r u s = .next (s.modRoom r fun x => { x.mapAcc (s.lanes r) f with micro := q }) :=
  uopCommand_lanes hr hrun hq (Room.mapAcc · (s.lanes r) f) hu hseq fun x => x.lanesOnly_mapAcc _ _

end

/-! ### The obligations -/

/-- Settles O24: the operands fit, so every element is computed, on every lane. -/
theorem microArithmetic : Obligations.MicroArithmetic := by
  unfold Obligations.MicroArithmetic
  intro s r d a b c mod count q hr hrun hq
  refine ⟨fun e he hd ha hb => ?_, fun hd ha hb hc => ?_, fun hd ha hb => ⟨?_, ?_, fun hmod hc => ?_⟩⟩
  · simp only [List.mem_cons, List.not_mem_nil, or_false] at he
    rcases he with rfl | rfl | rfl | rfl <;>
      exact uopCommand_mapAcc hr hrun hq (Room.binary_of hd ha hb) fun _ => rfl
  · exact uopCommand_mapAcc hr hrun hq (Room.elementwise_of hd (by simp [ha, hb, hc])) fun _ => rfl
  · exact uopCommand_mapAcc hr hrun hq (Room.binary_zero_of hd ha hb) fun _ => rfl
  · exact uopCommand_mapAcc hr hrun hq (Room.binary_zero_of hd ha hb) fun _ => rfl
  · refine uopCommand_mapAcc hr hrun hq ?_ fun _ => rfl
    simp only [Room.uop, if_neg (Nat.not_lt.2 hmod), ← selHolds_getD]
    exact Room.elementwise_of (advancing_fits hd) (by simp [advancing_fits, ha, hb, hc])

/-- Settles O25: each micro-operation changes the lanes as its effect says, and the sequence goes on. -/
theorem microUnaryAndHod : Obligations.MicroUnaryAndHod := by
  unfold Obligations.MicroUnaryAndHod
  intro s r d a mod haddr count q f hr hrun hq
  refine ⟨?_, ?_, fun hd ha => ⟨fun hf => ?_, fun hf => ?_⟩, fun hd hfault => ⟨?_, ?_⟩⟩
  · exact uopCommand_lanes hr hrun hq id rfl (fun _ => rfl) fun x => ⟨rfl, rfl⟩
  · exact uopCommand_mapAcc hr hrun hq rfl fun _ => rfl
  · exact uopCommand_mapAcc hr hrun hq (by rw [Room.uop, hf]; exact Room.unary_of hd ha) fun _ => rfl
  · exact uopCommand_mapAcc hr hrun hq (by rw [Room.uop, hf]; exact Room.unary_of hd ha) fun _ => rfl
  · refine uopCommand_lanes hr hrun hq _ ?_ (fun _ => rfl) fun x => .foldl (fun x l => x.lanesOnly_modBrick l _) _ x
    simp only [Room.uop, advancing_fits hd, hfault, Bool.not_true, Bool.false_eq_true, if_false]
  · refine uopCommand_lanes hr hrun hq _ ?_ (fun _ => rfl) fun x => .foldl (fun x l => x.lanesOnly_writeHod l _ _) _ x
    simp only [Room.uop, advancing_fits hd, hfault, Bool.not_true, Bool.false_eq_true, if_false]

/-- Settles O27: the check that fails comes before the effect. -/
theorem microFaults : Obligations.MicroFaults := by
  unfold Obligations.MicroFaults
  intro s r d a b c mod haddr count k hr hrun
  refine ⟨fun hd i hi => ?_, fun hmod => ?_, fun hmod => ?_, fun hmod => ?_, fun hd hfault => ⟨?_, ?_⟩⟩
  · have hfits := advancing_not_fits hd
    simp only [List.mem_cons, List.not_mem_nil, or_false] at hi
    rcases hi with rfl | rfl | rfl | rfl | rfl | rfl | rfl
    · exact uopCommand_fault hr hrun (Room.binary_zero_of_not_fits hd)
    · exact uopCommand_fault hr hrun (Room.binary_zero_of_not_fits hd)
    · exact uopCommand_fault hr hrun (by simp only [Room.uop, hfits, Bool.not_false, if_true]; rfl)
    · exact uopCommand_fault hr hrun (by simp only [Room.uop, hfits, Bool.not_false, if_true]; rfl)
    · refine uopCommand_fault hr hrun ?_
      simp only [Room.uop, Room.elementwise_of_not_fits hfits, ite_self]
      rfl
    · exact uopCommand_fault hr hrun (Room.unary_of_not_fits hd)
    · exact uopCommand_fault hr hrun (Room.unary_of_not_fits hd)
  · exact uopCommand_fault hr hrun (by rw [Room.uop, funcOf_reserved hmod]; rfl)
  · exact uopCommand_fault hr hrun (by rw [Room.uop, icvtOf_reserved hmod]; rfl)
  · exact uopCommand_fault hr hrun (by rw [Room.uop, if_pos hmod]; rfl)
  · refine uopCommand_fault hr hrun ?_
    simp only [Room.uop, advancing_fits hd, hfault, Bool.not_true, Bool.false_eq_true, if_false]
  · refine uopCommand_fault hr hrun ?_
    simp only [Room.uop, advancing_fits hd, hfault, Bool.not_true, Bool.false_eq_true, if_false]

/-! ### A whole micro-program (R107, R109) -/

theorem Room.foreman_elementwise {x y : Room} {lanes : Nat} {ops : List Walked} {d : Walked} {count : BitVec 8}
    {f : (Nat → W32) → Nat → W32} (h : x.elementwise lanes ops d count f = .ok y) : y.foreman = x.foreman := by
  unfold Room.elementwise at h
  split at h
  · cases h
    exact (x.lanesOnly_mapAcc _ _).2
  · cases h

theorem Room.foreman_unary {x y : Room} {lanes : Nat} {d a : BitVec 6} {count : BitVec 8} {f : Option (W32 → W32)}
    (h : x.unary lanes d a count f = .ok y) : y.foreman = x.foreman := by
  cases f with
  | none => cases h
  | some f => exact Room.foreman_elementwise h

/-- Whatever a micro-operation does to the lanes, it leaves the Foreman. -/
theorem Room.foreman_uop {x y : Room} {lanes : Nat} {u : Uop} (h : x.uop lanes u = .ok y) : y.foreman = x.foreman := by
  cases u with
  | nop | loop | done => cases h; rfl
  | fma | add | mul | max | min | iadd | imul => exact Room.foreman_elementwise h
  | func | icvt => exact Room.foreman_unary h
  | ld d a mod haddr count =>
    simp only [Room.uop] at h
    split at h
    · cases h
    split at h
    · cases h
    · cases h
      exact (Room.LanesOnly.foldl (fun x l => x.lanesOnly_modBrick l _) _ x).2
  | st d a mod haddr count =>
    simp only [Room.uop] at h
    split at h
    · cases h
    split at h
    · cases h
    · cases h
      exact (Room.LanesOnly.foldl (fun x l => x.lanesOnly_writeHod l _ _) _ x).2
  | sel d a b c mod count =>
    simp only [Room.uop] at h
    split at h
    · cases h
    · exact Room.foreman_elementwise h
  | lane d mod =>
    cases h
    exact (x.lanesOnly_mapAcc _ _).2

theorem Room.foreman_microStep {x y : Room} {lanes : Nat} {u : Uop} (h : x.microStep lanes u = .ok y) :
    y.foreman = x.foreman := by
  unfold Room.microStep at h
  split at h
  · cases h
  · next z hz =>
    split at h
    · cases h
    · cases h
      exact (Room.foreman_uop hz : z.foreman = x.foreman)

theorem Room.foreman_runMicro {lanes : Nat} (fuel : Nat) {x y : Room} (h : Room.runMicro lanes fuel x = .ok y) :
    y.foreman = x.foreman := by
  induction fuel generalizing x with
  | zero => cases h
  | succ fuel ih =>
    unfold Room.runMicro at h
    split at h
    · cases h
      rfl
    split at h
    · cases h
    split at h
    · cases h
    · next z hz => exact (ih h).trans (Room.foreman_microStep hz)

/-- A VEC whose micro-program runs to its end completes on the Room that it leaves. -/
theorem exec_vec_of {s : State} {r : Nat} {g : Guard} {rs : BitVec 5} {y : Room} (hx : Executes s r g) (hg : GoesOn s r)
    (hy : Room.runMicro (s.lanes r) microFuel
      { s.room r with micro := ⟨((s.room r).foreman.reg rs).toNat % 256, [], true⟩ } = .ok y) :
    exec (.vec r g rs) s = .next (s.modRoom r fun _ => y.mapForeman passed) := by
  have hkept := Room.foreman_runMicro microFuel hy
  have hforeman : y.foreman = (s.room r).foreman := hkept
  have hidle : y.foreman.run ≠ .idle := by rw [hforeman, hx.2.1]; decide
  have hroom : (s.setRoom r y).room r = y := State.room_setRoom s r y (Room.ne_default_of_run y hidle)
  rw [exec_vec, execVec, foremanOp_done_at (t := s.setRoom r y) hx hg (by rw [hroom, hforeman]) (by simp only [hy])]
  rw [did, State.modForeman, State.modRoom, hroom, State.setRoom_setRoom _ _ _ _ (Room.ne_default_of_run y hidle)]
  rfl

/-- Settles O26: LOOP and END act on the sequence alone, and a VEC runs it to its end. -/
theorem microSequence : Obligations.MicroSequence := by
  unfold Obligations.MicroSequence
  refine ⟨fun s r g ta rs a e hx hg ha he hcheck hspace hentry hscratch hwf => ?_,
    fun s r g rs count target y hr hrun => ⟨?_, fun hpc hloops => ?_, fun h => ?_,
      fun hguard hg hy => exec_vec_of ⟨hr, hrun, hguard⟩ hg hy⟩⟩
  · obtain ⟨t, hexec, hwords, hrest⟩ := exec_upld_of hx hg ha he hcheck hspace hentry hscratch
    exact ⟨t, hexec, hwords hwf, hrest⟩
  · exact uopCommand_ok hr hrun (u := .done) rfl rfl
  · refine uopCommand_ok hr hrun (u := .loop count target) rfl ?_
    simp only [MicroSeq.uop]
    rw [if_neg (by simp [hpc, hloops])]
  · refine uopCommand_seq_fault hr hrun (u := .loop count target) rfl ?_
    simp only [MicroSeq.uop]
    rw [if_pos (by simpa using h)]
    rfl

end Sys2Proof.Machine
end

section
/-! PROOF. GRECV and GWAIT (R136, R137, R139): the receive that joins its round, and what it waits for. -/

namespace Sys2Proof.Machine

open Sys2Proof.Safety

theorem State.suite_modRoom (s : State) (r n : Nat) (e : Room → Room) : (s.modRoom r e).suite n = s.suite n := by
  simp only [State.suite, State.modRoom_suites]

theorem State.tree_modRoom (s : State) (r n t : Nat) (e : Room → Room) : (s.modRoom r e).tree n t = s.tree n t := by
  simp only [State.tree, State.suite_modRoom]

theorem State.joinRound_of_same {s : State} {n copy tree round : Nat} {o : Bool}
    (hfailed : ((s.suite n).round copy tree round).failed = false) (horder : ((s.suite n).round copy tree round).order = some o) :
    s.joinRound n copy tree round o = (s, true) := by
  simp [joinRound, horder, hfailed]

/-! ### A receive that completes nothing -/

/-- The head of a channel of a Room whose one operation is a receive of a round that is not whole completes nothing. -/
theorem State.deliverHead_of_waiting {s : State} {n copy r : Nat} {o : GutterOp} (hgutter : (s.room r).gutter = [o])
    (hwhole : ((s.suite n).round copy o.tree o.round).whole (s.tree n o.tree) (s.tree n o.tree).root = false) (channel : Nat) :
    s.deliverHead n copy r channel = s := by
  unfold State.deliverHead
  split
  · rfl
  · next p hp =>
    obtain rfl : p = o := by simpa [hgutter] using List.mem_of_find?_eq_some hp
    split
    · rfl
    · simp [hwhole]

theorem State.deliver_of_waiting {s : State} {n copy r : Nat} {o : GutterOp} (hgutter : (s.room r).gutter = [o])
    (hwhole : ((s.suite n).round copy o.tree o.round).whole (s.tree n o.tree) (s.tree n o.tree).root = false)
    (hrun : (s.room r).foreman.run = .running) : s.deliver n copy r = s := by
  have hchannels : (List.range 8).foldl (fun s c => s.deliverHead n copy r c) s = s :=
    List.foldlRecOn (motive := (· = s)) _ _ rfl fun t ht c _ => by rw [ht, State.deliverHead_of_waiting hgutter hwhole]
  have htries : iterate (fun _ s => (List.range 8).foldl (fun s c => s.deliverHead n copy r c) s) 1 s = s := hchannels
  simp only [State.deliver, hgutter, List.length_singleton, htries, State.wakeGutter, hrun]

section

variable {s u : State} {r : Nat} {g : Guard} {td : BitVec 4} {rs mode : BitVec 5} {n copy tree k : Nat} {d : Desc} {o : Bool}
  {c : CourseState} (hx : Executes s r g)
include hx

theorem exec_gwait_idle (hg : GoesOn s r) {imm : BitVec 16}
    (h : ∀ x ∈ (s.room r).gutter, bitOf (imm.toNat % 256) (x.tree % 8) = false) :
    exec (.gwait r g imm) s = .next (did s r fun f => f) := by
  have hfree : (s.room r).gutterBusy (imm.toNat % 256) = false := List.any_eq_false.2 fun x hx => by simp [h x hx]
  rw [exec_gwait, execGwait]
  exact foremanOp_done hx hg (by simp [hfree])

theorem exec_gwait_busy {imm : BitVec 16} (h : ∃ x ∈ (s.room r).gutter, bitOf (imm.toNat % 256) (x.tree % 8) = true) :
    exec (.gwait r g imm) s = .next (s.modForeman r ({ · with run := .waitGutter (BitVec.ofNat 8 (imm.toNat % 256)) })) := by
  have hbusy : (s.room r).gutterBusy (imm.toNat % 256) = true := List.any_eq_true.2 h
  rw [exec_gwait, execGwait, foremanOp_of r g _ s hx]
  simp only [hbusy, if_true]
  rfl

variable (hn : n = (s.suiteOf r).getD 0) (hcopy : copy = s.copyIdx r) (htree : tree = ((s.room r).foreman.reg rs).toNat % 4096)
  (hd : d = (s.room r).foreman.desc td) (ho : o = mode.getLsbD 0)
  (hchecks : gutterFault d (s.tree n tree) ((s.tree n tree).receives (s.ordinalOf r)) o (s.det r) (s.portion r) = none)
include hn htree hd ho hchecks

theorem exec_grecv_of_no_slot (hslot : (s.room r).course.openSlot d.layer d.tile = none) :
    exec (.grecv r g td rs mode) s = .next (s.keepQueue (s.programFault r 0x0B)) := by
  rw [exec_grecv, execGrecv]
  refine foremanOp_fault hx ?_
  subst hn htree hd ho
  simp only [hchecks, hslot]
  rfl

variable (hk : k = Store.get 0 (s.room r).foreman.recvs tree) (hslot : (s.room r).course.openSlot d.layer d.tile = some c)
  (hfailed : ((s.suite n).round copy tree k).failed = false) (horder : ((s.suite n).round copy tree k).order = some o)
  (hu : u = s.modRoom r fun x => { x with
    foreman := { x.foreman with recvs := Store.set 0 x.foreman.recvs tree (k + 1) }
    gutter := x.gutter ++ [{ isSend := false, tree, round := k, tile := d, order := o, piecesLeft := 0
                             slot := c.numberOf fun y => y.layer == d.layer && y.tile == d.tile && y.isOpen }]
    course := c.closeSlot d.layer d.tile })
include hcopy hk hslot hfailed horder hu

/-- What a GRECV does that joins its round: it delivers what can be delivered, and goes on unless that faulted its Room. -/
theorem exec_grecv_of : exec (.grecv r g td rs mode) s = .next (s.keepQueue (Issue.result r
    (if ((u.deliver n copy r).room r).foreman.run == .running then .done (u.deliver n copy r)
      else .stay (u.deliver n copy r)))) := by
  have hjoin : u.joinRound n copy tree k o = (u, true) := by
    subst hu
    apply State.joinRound_of_same <;> rw [State.suite_modRoom]
    · exact hfailed
    · exact horder
  rw [exec_grecv, execGrecv, foremanOp_of r g _ s hx]
  subst hn hcopy htree hd ho hk
  simp only [hchecks, hslot]
  rw [State.modForeman, State.modRoom_modRoom_of_run _ (hx.2.1.trans_ne (by decide) : (s.room r).foreman.run ≠ .idle)]
  simp only [Room.mapForeman, GuardSlot.hasKey, ← hu, hjoin, Bool.not_true, Bool.false_eq_true, if_false]

theorem exec_grecv_running (hrun : ((u.deliver n copy r).room r).foreman.run = .running) :
    exec (.grecv r g td rs mode) s = .next (s.keepQueue ((u.deliver n copy r).advance r)) := by
  rw [exec_grecv_of hx hn hcopy htree hd ho hchecks hk hslot hfailed horder hu, hrun]
  rfl

theorem exec_grecv_waiting (hg : GoesOn s r) (hgutter : (s.room r).gutter = [])
    (hwhole : ((s.suite n).round copy tree k).whole (s.tree n tree) (s.tree n tree).root = false) :
    u.deliver n copy r = u ∧ exec (.grecv r g td rs mode) s = .next (u.modForeman r passed) := by
  have hroom : u.room r = _ := (congrArg (State.room · r) hu).trans
    (State.room_modRoom_of_run (hx.2.1.trans_ne (by decide) : (s.room r).foreman.run ≠ .idle))
  have hrun : (u.room r).foreman.run = .running := by rw [hroom]; exact hx.2.1
  have hdeliver : u.deliver n copy r = u := by
    refine State.deliver_of_waiting (by rw [hroom, hgutter]; rfl) ?_ hrun
    rw [hu, State.suite_modRoom, State.tree_modRoom]
    exact hwhole
  refine ⟨hdeliver, ?_⟩
  rw [exec_grecv_running hx hn hcopy htree hd ho hchecks hk hslot hfailed horder hu (by rw [hdeliver]; exact hrun), hdeliver,
    State.advance_of u r (by unfold GoesOn; rw [hroom]; exact hg), State.keepQueue_of]
  rw [hu]
  rfl

end

/-- Settles O29, by the state `u` in which the receive has joined its round. -/
theorem gutterReceiveAndWait : Obligations.GutterReceiveAndWait := by
  unfold Obligations.GutterReceiveAndWait
  exact fun s u r g td rs mode imm n copy tree k d o c hx hg hn hcopy htree hd ho hk =>
    ⟨fun hchecks hslot hfailed horder hu => ⟨exec_grecv_running hx hn hcopy htree hd ho hchecks hk hslot hfailed horder hu,
        exec_grecv_waiting hx hn hcopy htree hd ho hchecks hk hslot hfailed horder hu hg⟩,
      exec_grecv_of_no_slot hx hn htree hd ho, exec_gwait_idle hx hg, exec_gwait_busy hx⟩

end Sys2Proof.Machine
end

section
/-! PROOF. Barriers (R99, R328 to R330): what an arrival changes, and how a release resumes a Room. -/

namespace Sys2Proof.Machine

open Sys2Proof.Safety

/-! ### Messages on the control class change the traffic alone -/

theorem State.control_trafficOnly (s : State) (cls : Nat) (a b : Site) : State.TrafficOnly s (s.control cls a b) := by
  obtain ⟨p, h⟩ := s.inject_frame 0 cls 1 a b .none
  exact ⟨p, s.regulators, h⟩

theorem State.controlAll_trafficOnly (s : State) (cls : Nat) (a : Site) (rooms : List Nat) :
    State.TrafficOnly s (s.controlAll cls a rooms) :=
  State.TrafficOnly.foldl (fun s _ => s.control_trafficOnly cls a _) rooms s

theorem State.TrafficOnly.time {s t : State} (h : State.TrafficOnly s t) : t.time = s.time := by
  obtain ⟨p, q, rfl⟩ := h
  rfl

theorem State.TrafficOnly.dict {s t : State} (h : State.TrafficOnly s t) : t.dict = s.dict := by
  obtain ⟨p, q, rfl⟩ := h
  rfl

theorem State.TrafficOnly.suites {s t : State} (h : State.TrafficOnly s t) : t.suites = s.suites := by
  obtain ⟨-, -, hsuites, -⟩ := h.frame
  exact hsuites

theorem State.TrafficOnly.room {s t : State} (h : State.TrafficOnly s t) : t.room = s.room := h.frame.1

theorem State.TrafficOnly.rooms {s t : State} (h : State.TrafficOnly s t) : t.rooms = s.rooms := by
  obtain ⟨p, q, rfl⟩ := h
  rfl

/-! ### Who performs a step -/

theorem State.suite_congr {s t : State} (h : t.suites = s.suites) (n : Nat) : t.suite n = s.suite n := by
  simp only [State.suite, h]

theorem State.performers_congr {s t : State} (hsuites : t.suites = s.suites)
    (hmember : ∀ q, (t.room q).member = (s.room q).member) (n copy : Nat) : t.performers n copy = s.performers n copy := by
  simp only [State.performers, State.ordinal?, State.listener, State.suite_congr hsuites, hmember]

/-! ### The arrival at a barrier -/

/-- A Room that arrives at barrier b for the k-th time, and stalls under its Grout. -/
def Room.atBarrier (g : Grout) (b k : Nat) (x : Room) : Room :=
  { x with grout := some g, foreman := { x.foreman with run := .barrier b, barriers := Store.set 0 x.foreman.barriers b k } }

/-- The state in which Room r has arrived, before the arrival is told. -/
def State.atBarrier (s : State) (r b k : Nat) : State :=
  s.draw.2.modRoom r (Room.atBarrier { since := s.time, level := s.draw.1 % 17, taper := 1000 * s.dictGet 0x2430 1 } b k)

section

variable (s : State) (r b k : Nat)

theorem State.room_atBarrier : (s.atBarrier r b k).room r = Room.atBarrier
    { since := s.time, level := s.draw.1 % 17, taper := 1000 * s.dictGet 0x2430 1 } b k (s.room r) :=
  State.room_modRoom_of_run (s := s.draw.2) (nofun : RunState.barrier b ≠ .idle)

theorem State.room_atBarrier_ne {q : Nat} (hq : q ≠ r) : (s.atBarrier r b k).room q = s.room q :=
  State.room_setRoom_ne s.draw.2 r q _ hq

theorem State.performers_atBarrier (n copy : Nat) : (s.atBarrier r b k).performers n copy = s.performers n copy := by
  refine State.performers_congr (by simp only [State.atBarrier, State.modRoom_suites, State.draw]) (fun q => ?_) n copy
  by_cases hq : q = r
  · rw [hq, State.room_atBarrier]
    rfl
  · rw [State.room_atBarrier_ne s r b k hq]

/-- Whether every performer of the copy has arrived for the k-th time, once Room r has. -/
theorem State.all_arrived_iff {n copy : Nat} (hk : k ≠ 0) :
    ((s.atBarrier r b k).performers n copy).all
        (fun q => decide (k ≤ Store.get 0 ((s.atBarrier r b k).room q).foreman.barriers b)) = true ↔
      ∀ q ∈ s.performers n copy, q ≠ r → k ≤ Store.get 0 (s.room q).foreman.barriers b := by
  simp only [State.performers_atBarrier, List.all_eq_true, decide_eq_true_iff]
  refine forall₂_congr fun q _ => ?_
  by_cases hq : q = r
  · subst hq
    rw [State.room_atBarrier]
    simp only [ne_eq, not_true, false_implies, iff_true]
    exact (Store.get_set_self_of_ne 0 _ b k hk).ge
  · simp only [State.room_atBarrier_ne s r b k hq, hq, ne_eq, not_false_iff, true_implies]

end

/-- An arrival is told to the Hall that decides for the Suite. -/
def State.tellArrival (s : State) (r n : Nat) : State := s.control (s.shareOf r) (.room r) (.hall (s.decider n))

/-- The last arrival tells the copy, and sets the release time. -/
def State.lastArrival (s : State) (n copy b : Nat) : State :=
  let s := (s.controlAll (s.suite n).share (.hall (s.decider n)) (s.performers n copy)).rampUp (s.performers n copy)
    (s.releaseTime n)
  s.modSuite n fun x => { x with releases := x.releases ++ [(copy, b, s.releaseTime n)] }

section

variable {s : State} {r : Nat} {g : Guard} {imm : BitVec 12} {n copy b k : Nat} (hx : Executes s r g)
  (hn : n = (s.suiteOf r).getD 0) (hcopy : copy = s.copyIdx r) (hb : b = imm.toNat % 16)
  (hk : k = Store.get 0 (s.room r).foreman.barriers b + 1)
include hx hn hcopy hb hk

theorem exec_barrier_of : exec (.barrier r g imm) s = .next (s.keepQueue (Issue.result r
    (if (((s.atBarrier r b k).performers n copy).all
        fun q => decide (k ≤ Store.get 0 ((s.atBarrier r b k).room q).foreman.barriers b)) &&
      !((s.atBarrier r b k).suite n).releases.any (fun x => x.1 == copy && x.2.1 == b)
    then .stay (((s.atBarrier r b k).tellArrival r n).lastArrival n copy b)
    else .stay ((s.atBarrier r b k).tellArrival r n)))) := by
  rw [exec_barrier, execBarrier, foremanOp_of r g _ s hx]
  subst hn hcopy hb hk
  rfl

/-- A BARRIER that is not the last arrival of its copy only stalls its Room, and tells the arrival. -/
theorem exec_barrier_waiting (h : ∃ q ∈ s.performers n copy, q ≠ r ∧ Store.get 0 (s.room q).foreman.barriers b < k) :
    exec (.barrier r g imm) s = .next (s.keepQueue ((s.atBarrier r b k).tellArrival r n)) := by
  have hall := (State.all_arrived_iff s r b k (n := n) (copy := copy) (by omega)).not.2 (by
    obtain ⟨q, hq, hne, hlt⟩ := h
    exact fun hle => absurd (hle q hq hne) (by omega))
  rw [exec_barrier_of hx hn hcopy hb hk, Bool.eq_false_of_not_eq_true hall]
  rfl

theorem exec_barrier_last (h : ∀ q ∈ s.performers n copy, q ≠ r → k ≤ Store.get 0 (s.room q).foreman.barriers b)
    (hnone : ∀ x ∈ (s.suite n).releases, ¬ (x.1 = copy ∧ x.2.1 = b)) :
    exec (.barrier r g imm) s = .next (s.keepQueue (((s.atBarrier r b k).tellArrival r n).lastArrival n copy b)) := by
  have hpending : ((s.atBarrier r b k).suite n).releases.any (fun x => x.1 == copy && x.2.1 == b) = false :=
    List.any_eq_false.2 fun x hx => by simpa using hnone x hx
  rw [exec_barrier_of hx hn hcopy hb hk, (State.all_arrived_iff s r b k (by omega)).2 h, hpending]
  rfl

end

/-! ### What the last arrival changes -/

/-- The Grouts of some Rooms change: no Foreman and nothing else of the module does. -/
structure State.GroutsOnly (s t : State) : Prop where
  frame : { t with rooms := s.rooms } = s
  foreman : Store.wf ({} : Room) s.rooms = true →
    Store.wf ({} : Room) t.rooms = true ∧ ∀ q, (t.room q).foreman = (s.room q).foreman

theorem State.groutsOnly_modRoom (s : State) (r : Nat) {e : Room → Room} (he : ∀ x, (e x).foreman = x.foreman) :
    s.GroutsOnly (s.modRoom r e) where
  frame := rfl
  foreman hwf := ⟨Store.wf_set _ _ _ _ hwf, fun q => by
    by_cases hq : q = r
    · subst hq
      exact (congrArg Room.foreman (Store.get_set_self ({} : Room) s.rooms q _ hwf)).trans (he _)
    · rw [State.modRoom, State.room_setRoom_ne s r q _ hq]⟩

theorem State.GroutsOnly.trans {s t u : State} (h : s.GroutsOnly t) (h' : t.GroutsOnly u) : s.GroutsOnly u where
  frame := by
    have hu := congrArg (fun v : State => { v with rooms := s.rooms }) h'.frame
    exact hu.trans h.frame
  foreman hwf := ⟨(h'.foreman (h.foreman hwf).1).1, fun q => ((h'.foreman (h.foreman hwf).1).2 q).trans ((h.foreman hwf).2 q)⟩

theorem State.rampUp_groutsOnly (s : State) (rooms : List Nat) (release : Nat) : s.GroutsOnly (s.rampUp rooms release) :=
  List.foldlRecOn (motive := s.GroutsOnly) rooms _ ⟨rfl, fun hwf => ⟨hwf, fun _ => rfl⟩⟩ fun t ht r _ =>
    ht.trans (t.groutsOnly_modRoom r fun _ => rfl)

theorem State.GroutsOnly.fields {s t : State} (h : s.GroutsOnly t) :
    t.suites = s.suites ∧ t.time = s.time ∧ t.dict = s.dict ∧ t.hbm = s.hbm := by
  rw [← h.frame]
  exact ⟨rfl, rfl, rfl, rfl⟩

theorem State.releaseTime_congr {s t : State} (htime : t.time = s.time) (hdict : t.dict = s.dict) (hsuites : t.suites = s.suites)
    (n : Nat) : t.releaseTime n = s.releaseTime n := by
  simp only [State.releaseTime, State.dictGet, htime, hdict, State.suite_congr hsuites]

theorem Suite.ne_default_of_releases {y : Suite} (h : y.releases ≠ []) : y ≠ {} := fun e => h (e ▸ rfl)

/-- The last arrival of a copy sets its release time, and leaves every Foreman, the memory and the settings. -/
theorem State.lastArrival_spec (s : State) (n copy b : Nat) :
    (s.lastArrival n copy b).suite n =
        { s.suite n with releases := (s.suite n).releases ++ [(copy, b, s.releaseTime n)] } ∧
      (∀ m, m ≠ n → (s.lastArrival n copy b).suite m = s.suite m) ∧
      (Store.wf ({} : Room) s.rooms = true → ∀ q, ((s.lastArrival n copy b).room q).foreman = (s.room q).foreman) ∧
      (s.lastArrival n copy b).hbm = s.hbm ∧ (s.lastArrival n copy b).dict = s.dict := by
  have htold := s.controlAll_trafficOnly (s.suite n).share (.hall (s.decider n)) (s.performers n copy)
  unfold State.lastArrival
  generalize s.controlAll (s.suite n).share (.hall (s.decider n)) (s.performers n copy) = t at htold
  obtain ⟨hrooms, hhbm, hsuites, -⟩ := htold.frame
  have hramp := t.rampUp_groutsOnly (s.performers n copy) (s.releaseTime n)
  generalize t.rampUp (s.performers n copy) (s.releaseTime n) = u at hramp
  obtain ⟨husuites, hutime, hudict, huhbm⟩ := hramp.fields
  have hsuite : ∀ m, u.suite m = s.suite m := State.suite_congr (husuites.trans hsuites)
  have hrelease : u.releaseTime n = s.releaseTime n :=
    State.releaseTime_congr (hutime.trans htold.time) (hudict.trans htold.dict) (husuites.trans hsuites) n
  refine ⟨?_, fun m hm => ?_, fun hwf q => ?_, huhbm.trans hhbm, hudict.trans htold.dict⟩
  · simp only [hrelease]
    rw [State.suite_modSuite_of_ne _ _ _ (Suite.ne_default_of_releases (by simp)), hsuite]
  · exact (Store.get_set_ne _ _ _ _ _ hm).trans (hsuite m)
  · exact ((hramp.foreman (htold.rooms ▸ hwf)).2 q).trans (congrArg Room.foreman (congrFun hrooms q))

/-! ### The release -/

section

variable {s : State} {n copy b at' : Nat} (hsuite : isSuite n = true) (hcopy : isCopy copy = true) (hb : b < 16)
  (hfind : (s.suite n).releases.find? (fun x => x.1 == copy && x.2.1 == b) = some (copy, b, at'))
include hsuite hcopy hb hfind

theorem exec_barrierRelease_early (h : s.time < at') : exec (.barrierRelease n copy b) s = .next s := by
  rw [exec_barrierRelease, execBarrierRelease, onUnits_of _ _ _ (by simp [hsuite, hcopy, isQueue, hb])]
  simp only [hfind, if_pos h]
  rfl

theorem exec_barrierRelease_due (h : at' ≤ s.time) {u : State} (hu : u = s.modSuite n (fun x => { x with
      releases := x.releases.filter fun y => !(y.1 == copy && y.2.1 == b) })) :
    exec (.barrierRelease n copy b) s = .next (s.keepQueue
      (((u.suite n).members copy ++ (u.suite n).spareRooms copy).foldl (fun s q => s.releaseRoom q b) u)) := by
  rw [exec_barrierRelease, execBarrierRelease, onUnits_of _ _ _ (by simp [hsuite, hcopy, isQueue, hb]), hu]
  simp only [hfind, if_neg (Nat.not_lt.2 h)]

end

/-- A stalled Room resumes, and its Foreman passes the instruction where it stands. -/
theorem State.resume_of {s : State} {r : Nat} (hg : GoesOn s r) : (s.modForeman r ({ · with run := .running })).advance r =
    s.modForeman r fun f => passed { f with run := .running } := by
  have hroom := State.room_modForeman s r ({ · with run := .running }) (nofun : RunState.running ≠ .idle)
  rw [State.advance_of, State.modForeman_modForeman _ _ _ _ (nofun : RunState.running ≠ .idle)]
  unfold GoesOn
  rw [hroom]
  exact hg

section

variable {s : State} {r b : Nat} (hrun : (s.room r).foreman.run = .barrier b) (hg : GoesOn s r)
include hrun hg

theorem State.releaseRoom_of_no_grout (h : (s.room r).grout = none) :
    s.releaseRoom r b = s.modForeman r fun f => passed { f with run := .running } := by
  rw [State.releaseRoom, if_pos hrun, State.endGrout]
  simp only [h]
  exact State.resume_of hg

theorem State.releaseRoom_of_grout {e : Grout} (h : (s.room r).grout = some e) :
    s.releaseRoom r b = (s.bump 0x2430 4 64 (s.time - e.since)).modRoom r fun x =>
      { x with grout := none, foreman := passed { x.foreman with run := .running } } := by
  have hidle : ((s.bump 0x2430 4 64 (s.time - e.since)).room r).foreman.run ≠ .idle := by
    rw [State.room_bump, hrun]
    nofun
  have hroom := State.room_modRoom_of_run (e := ({ · with grout := none } : Room → Room)) hidle
  rw [State.releaseRoom, if_pos hrun, State.endGrout]
  simp only [h]
  rw [State.resume_of]
  · rw [State.modForeman, State.modRoom_modRoom_of_run _ hidle]
    rfl
  · unfold GoesOn
    rw [hroom]
    exact hg

end

/-- Settles O33, by the state in which the Room has arrived: its arrival is told, and the last one sets the release. -/
theorem barriers : Obligations.Barriers := by
  unfold Obligations.Barriers
  refine ⟨fun s r g imm n copy b k at' hx hn hcopy hb hk => ⟨fun h => ?_, fun h hnone hwf => ?_, fun hsuite hisCopy hfind =>
      ⟨exec_barrierRelease_early hsuite hisCopy (by omega) hfind,
        fun h u hu => exec_barrierRelease_due hsuite hisCopy (by omega) hfind h hu⟩⟩,
    fun s r b e hrun hg => ⟨State.releaseRoom_of_grout hrun hg, State.releaseRoom_of_no_grout hrun hg⟩⟩
  · have htold : State.TrafficOnly (s.atBarrier r b k) ((s.atBarrier r b k).tellArrival r n) := State.control_trafficOnly ..
    obtain ⟨hrooms, hhbm, hsuites, -⟩ := htold.frame
    refine ⟨_, s.draw.1 % 17, exec_barrier_waiting hx hn hcopy hb hk h, by omega, ?_, fun q hq => ?_, ?_, ?_, ?_⟩
    · rw [State.room_keepQueue, hrooms, State.room_atBarrier]
      rfl
    · rw [State.room_keepQueue, hrooms, State.room_atBarrier_ne s r b k hq]
    · rw [State.keepQueue_suites, hsuites]
      rfl
    · rw [State.keepQueue_hbm, hhbm]
      rfl
    · rw [State.keepQueue_dict, htold.dict]
      rfl
  · have htold : State.TrafficOnly (s.atBarrier r b k) ((s.atBarrier r b k).tellArrival r n) := State.control_trafficOnly ..
    obtain ⟨hrooms, hhbm, hsuites, -⟩ := htold.frame
    have hwf' : Store.wf ({} : Room) ((s.atBarrier r b k).tellArrival r n).rooms = true := by
      rw [htold.rooms]
      exact Store.wf_set _ _ _ _ hwf
    have hsuite := State.suite_congr (s := s) (hsuites.trans rfl)
    have htime : ((s.atBarrier r b k).tellArrival r n).releaseTime n = s.releaseTime n :=
      State.releaseTime_congr (htold.time.trans rfl) (htold.dict.trans rfl) (hsuites.trans rfl) n
    obtain ⟨hlast, hothers, hforeman, hhbm', hdict⟩ := State.lastArrival_spec ((s.atBarrier r b k).tellArrival r n) n copy b
    refine ⟨_, exec_barrier_last hx hn hcopy hb hk h hnone, ?_, ?_, fun m hm => ?_, fun q hq => ?_, ?_, ?_⟩
    · rw [State.room_keepQueue, hforeman hwf', hrooms, State.room_atBarrier]
      rfl
    · rw [State.suite_congr (State.keepQueue_suites ..), hlast, hsuite, htime]
    · rw [State.suite_congr (State.keepQueue_suites ..), hothers m hm, hsuite]
    · rw [State.room_keepQueue, hforeman hwf', hrooms, State.room_atBarrier_ne s r b k hq]
    · rw [State.keepQueue_hbm, hhbm', hhbm]
      rfl
    · rw [State.keepQueue_dict, hdict, htold.dict]
      rfl

end Sys2Proof.Machine
end

section
/-! PROOF. The Course boundary (R96, R100 to R104, R335): what ending a Course leaves in its Room. -/

namespace Sys2Proof.Machine

open Sys2Proof.Safety

/-! ### Writing a cache back -/

theorem State.writeBackLine_cachesOnly (s : State) (k : Nat) (x : CacheLine) (r : Nat) :
    s.CachesOnly (s.writeBackLine k x) r := by
  obtain ⟨_, _, _, _, _, h⟩ := s.writeBackLine_frame k x
  exact .of_eq (by rw [h]) (by rw [h])

theorem State.cleanLine_cachesOnly (k : Nat) (s : State) (x : CacheLine) (r : Nat) : s.CachesOnly (s.cleanLine k x) r := by
  have hline := (s.writeBackLine_cachesOnly k x r).trans (State.modCache_cachesOnly _ k
    (·.mapLine x.addr fun y => some { y with st := if y.st == .m then .e else .s }) r)
  unfold State.cleanLine
  split
  · exact .refl s r
  simp only
  split
  · split
    · exact hline.trans (State.setDir_cachesOnly ..)
    · exact hline
  · exact hline

theorem State.writeBackAll_cachesOnly (s : State) (r : Nat) : s.CachesOnly (s.writeBackAll r) r :=
  .foldl (fun s x => s.cleanLine_cachesOnly r x r) _ s

theorem State.writeBackAll_time (s : State) (r : Nat) : (s.writeBackAll r).time = s.time := by
  obtain ⟨_, _, _, _, _, _, _, h⟩ := s.writeBackAll_frame r
  rw [h]

/-! ### The next Course of a Room -/

/-- Clearing the accumulators of every listed Brick clears those of every Brick (R71, R96). -/
theorem Store.acc_get_cleared (m : Store Brick) (b : Nat) :
    (Store.get {} (Store.mapValues {} (fun x => { x with acc := [] }) m) b).acc = [] := by
  induction m with
  | nil => rfl
  | cons e m ih =>
    obtain ⟨k, v⟩ := e
    by_cases hv : ({ v with acc := [] } : Brick) = {}
    · simpa only [Store.mapValues, hv, if_true] using ih
    · simp only [Store.mapValues, hv, if_false, Store.get]
      split
      · rfl
      · exact ih

/-- What a Room holds at the start of its next Course, as the end of the one before leaves it (R100). -/
structure Room.NextCourse (x y : Room) (f : Foreman) (now : Nat) : Prop where
  foreman : y.foreman = f
  course : y.course = { ordinal := x.course.ordinal + 1, start := now }
  accs : ∀ b, (Store.get {} y.bricks b).acc = []
  digests : y.digests.length = x.digests.length + 1
  pantry : y.pantry = x.pantry
  member : y.member = x.member

theorem Room.nextCourse_startCourse {x z : Room} (f : Foreman) (totals : Store LayerTotals) (digest : Nat × W64) (seed : W64)
    (ordinal lanes now : Nat) (h : ∃ cache, z = { x with cache := cache }) :
    x.NextCourse (Room.startCourse { z with foreman := f, totals, digests := z.digests ++ [digest] } seed (z.course.ordinal + 1)
      ordinal lanes now) f now := by
  obtain ⟨cache, rfl⟩ := h
  exact ⟨rfl, rfl, Store.acc_get_cleared _, List.length_append, rfl, rfl⟩

theorem State.endCourse_spec {s : State} {r : Nat} {f : Foreman} (hrun : (s.room r).foreman.run ≠ .idle) (hf : f.run ≠ .idle) :
    (s.endCourse r f).suites = s.suites ∧ Room.NextCourse (s.room r) ((s.endCourse r f).room r) f s.time := by
  have hback := s.writeBackAll_cachesOnly r
  have hnext := fun totals digest seed ordinal lanes now => Room.nextCourse_startCourse f totals digest seed ordinal lanes now
    (hback.room hrun)
  unfold State.endCourse
  simp only
  rw [(State.control_trafficOnly _ _ _ _).suites, (State.control_trafficOnly _ _ _ _).room, State.setRoom_suites,
    State.room_setRoom _ _ _ (Room.ne_default_of_run _ (by rw [(hnext ..).foreman]; exact hf)), State.writeBackAll_time]
  exact ⟨hback.suites, hnext ..⟩

/-- The Foreman past an instruction that lies in the program store (R82). -/
theorem Foreman.after_of {s : State} {r : Nat} (hg : GoesOn s r) :
    (s.room r).foreman.after (s.room r).foreman.pc = some (passed (s.room r).foreman) := if_pos hg

/-- How a Room leaves a boundary: it goes on, waits for the confirmation of its need, or is killed for its flags (R100, R369). -/
def State.passBoundary (s : State) (r need : Nat) (bricks : List Nat) : State :=
  match s.confirmed r with
  | some c => if need ≤ c then s.modRoom r Room.proceed else s.modForeman r ({ · with run := .confirm need })
  | none => (s.modRoom r Room.proceed).killFlagged r bricks

theorem State.confirmed_endCourse {s : State} {r : Nat} (f : Foreman) (hrun : (s.room r).foreman.run ≠ .idle)
    (hf : f.run ≠ .idle) :
    (s.endCourse r f).confirmed r = s.confirmed r := by
  obtain ⟨hsuites, hnext⟩ := State.endCourse_spec hrun hf
  simp only [State.confirmed, State.suiteOf, hnext.member, State.suite_congr hsuites]

section

variable {s : State} {r : Nat} {g : Guard} {imm : BitVec 16} (hx : Executes s r g)
include hx

/-! ### Before the boundary -/

theorem exec_course_busy (h : (s.room r).quiet = false) : exec (.course r g imm) s = .next s := by
  rw [exec_course, execCourse, foremanOp_of r g _ s hx]
  simp only [h, Bool.not_false, if_true]
  rfl

theorem exec_commit_busy (h : (s.room r).quiet = false) : exec (.commit r g) s = .next s := by
  rw [exec_commit, execCommit, foremanOp_of r g _ s hx]
  simp only [h, Bool.not_false, if_true]
  rfl

variable (hquiet : (s.room r).quiet = true)
include hquiet

theorem exec_course_open (hopen : (s.room r).course.openSlots ≠ 0) :
    exec (.course r g imm) s = .next (s.keepQueue (s.programFault r 0x0C)) := by
  rw [exec_course, execCourse]
  refine foremanOp_fault hx ?_
  simp only [hquiet, Bool.not_true, Bool.false_eq_true, if_false, bne_iff_ne.2 hopen, if_true]
  rfl

theorem exec_commit_open (hopen : (s.room r).course.openSlots ≠ 0) :
    exec (.commit r g) s = .next (s.keepQueue (s.programFault r 0x0C)) := by
  rw [exec_commit, execCommit]
  refine foremanOp_fault hx ?_
  simp only [hquiet, Bool.not_true, Bool.false_eq_true, if_false, bne_iff_ne.2 hopen, if_true]
  rfl

/-! ### The boundary -/

variable (hclosed : (s.room r).course.openSlots = 0)
include hclosed

/-- The need of a COURSE is its own Course, or the one before (R100). -/
theorem exec_course_of (hg : GoesOn s r) : ∃ need, (s.room r).course.ordinal ≤ need ∧ exec (.course r g imm) s =
    .next (s.keepQueue ((s.endCourse r (passed (s.room r).foreman)).passBoundary r need ((s.room r).flaggedBricks r))) := by
  refine ⟨if imm.getLsbD 0 || (((s.endCourse r (passed (s.room r).foreman)).suiteOf r).map fun n =>
      ((s.endCourse r (passed (s.room r).foreman)).suite n).vote.isSome).getD false
    then (s.room r).course.ordinal + 1 else (s.room r).course.ordinal, by split <;> omega, ?_⟩
  rw [exec_course, execCourse, foremanOp_of r g _ s hx, State.passBoundary]
  simp only [hquiet, hclosed, Bool.not_true, Bool.false_eq_true, if_false, bne_self_eq_false, Foreman.after_of hg]
  generalize (if imm.getLsbD 0 || _ then (s.room r).course.ordinal + 1 else (s.room r).course.ordinal) = need
  cases (s.endCourse r (passed (s.room r).foreman)).confirmed r with
  | none => rfl
  | some c =>
    simp only
    split <;> rfl

theorem exec_commit_of (hg : GoesOn s r) : exec (.commit r g) s = .next (s.keepQueue
    (((s.endCourse r (passed (s.room r).foreman)).modRoom r
      fun x => { x with foreman := { x.foreman with run := .committed } }).killFlagged r ((s.room r).flaggedBricks r))) := by
  rw [exec_commit, execCommit, foremanOp_of r g _ s hx]
  simp only [hquiet, hclosed, Bool.not_true, Bool.false_eq_true, if_false, bne_self_eq_false, Foreman.after_of hg, Option.getD_some]
  rfl

end

/-- With no checksum flag there is nothing to kill the step for (R369). -/
theorem State.killFlagged_nil (s : State) (r : Nat) : s.killFlagged r [] = s := by
  unfold State.killFlagged
  split
  · simp
  · rfl

theorem Room.flaggedBricks_of_none {x : Room} (r : Nat) (h : x.course.flagged = []) : x.flaggedBricks r = [] := by
  simp [Room.flaggedBricks, h]

theorem CourseState.openSlots_eq_zero_iff {c : CourseState} : c.openSlots = 0 ↔ ∀ x ∈ c.slots, x.isOpen = false := by
  simp [openSlots, countIf]

/-! ### The Room past the boundary -/

theorem Room.NextCourse.withRun {x y z : Room} {f : Foreman} {now : Nat} (h : x.NextCourse y f now) (run : RunState)
    (hz : ∃ checkpoints, z = { y with foreman := { y.foreman with run }, checkpoints }) :
    x.NextCourse z { f with run } now := by
  obtain ⟨checkpoints, rfl⟩ := hz
  exact ⟨by simp only [h.foreman], h.course, h.accs, h.digests, h.pantry, h.member⟩

section

variable {s : State} {r : Nat} (hrun : (s.room r).foreman.run = .running)
include hrun

/-- A Room without flags past its boundary is in its next Course; it runs, or waits for the confirmation of its need. -/
theorem State.passBoundary_spec (need : Nat) :
    ∃ run, run ≠ .idle ∧ Room.NextCourse (s.room r)
        (((s.endCourse r (passed (s.room r).foreman)).passBoundary r need []).room r)
        { passed (s.room r).foreman with run } s.time ∧
      (s.confirmed r = none → run = .running) ∧ ∀ c, s.confirmed r = some c → c < need → run = .confirm need := by
  have hidle : (passed (s.room r).foreman).run ≠ .idle := hrun.trans_ne (by decide)
  have hkept := State.confirmed_endCourse (passed (s.room r).foreman) hidle hidle
  obtain ⟨-, hnext⟩ := State.endCourse_spec hidle hidle
  generalize s.endCourse r (passed (s.room r).foreman) = u at hkept hnext
  have hproceed : (u.modRoom r Room.proceed).room r = (u.room r).proceed :=
    State.room_modRoom_of_run (nofun : RunState.running ≠ .idle)
  rw [State.passBoundary, hkept]
  cases hconfirmed : s.confirmed r with
  | none =>
    simp only [State.killFlagged_nil, hproceed]
    exact ⟨.running, nofun, hnext.withRun .running ⟨_, rfl⟩, fun _ => rfl, nofun⟩
  | some c =>
    simp only
    split
    · next hle =>
      rw [hproceed]
      exact ⟨.running, nofun, hnext.withRun .running ⟨_, rfl⟩, fun _ => rfl,
        fun c' hc' hlt => absurd (Option.some.inj hc' ▸ hle) (by omega)⟩
    · rw [State.room_modForeman u r ({ · with run := .confirm need }) (nofun : RunState.confirm need ≠ .idle)]
      exact ⟨.confirm need, nofun, hnext.withRun (.confirm need) ⟨_, rfl⟩, nofun, fun _ _ _ => rfl⟩

theorem State.committed_spec : Room.NextCourse (s.room r)
    (((s.endCourse r (passed (s.room r).foreman)).modRoom r
      fun x => { x with foreman := { x.foreman with run := .committed } }).room r)
    { passed (s.room r).foreman with run := .committed } s.time := by
  have hidle : (passed (s.room r).foreman).run ≠ .idle := hrun.trans_ne (by decide)
  obtain ⟨-, hnext⟩ := State.endCourse_spec hidle hidle
  rw [State.room_modRoom_of_run (nofun : RunState.committed ≠ .idle)]
  exact hnext.withRun .committed ⟨_, rfl⟩

end

/-- Settles O32: the state in which the Course has ended, and how the Room then leaves the boundary. -/
theorem courseBoundary : Obligations.CourseBoundary := by
  unfold Obligations.CourseBoundary
  refine ⟨fun s r g imm ra hx hg => ⟨?_, fun hquiet hclosed hflags => ⟨?_, ?_⟩⟩,
    fun s r g imm hx => ⟨fun hg hquiet hclosed hconfirmed => ?_,
      fun h => ⟨exec_course_busy hx h, exec_commit_busy hx h⟩, fun hquiet hopen => ?_⟩⟩
  · rw [exec_digest, execDigest]
    exact foremanOp_modRoom hx hg (by simp only [State.modRoom]) (by intros; rfl)
  · obtain ⟨need, hneed, hexec⟩ := exec_course_of (imm := imm) hx hquiet (CourseState.openSlots_eq_zero_iff.2 hclosed) hg
    obtain ⟨run, -, hnext, hfree, hwait⟩ := State.passBoundary_spec hx.2.1 need
    rw [Room.flaggedBricks_of_none r hflags] at hexec
    refine ⟨_, hexec, ?_⟩
    rw [State.room_keepQueue, hnext.course, hnext.foreman]
    exact ⟨rfl, rfl, rfl, rfl, hnext.accs, hnext.digests, rfl, rfl, hnext.pantry, hfree,
      fun c hc hlt => ⟨need, hwait c hc (hlt.trans_le hneed), hneed⟩⟩
  · have hexec := exec_commit_of hx hquiet (CourseState.openSlots_eq_zero_iff.2 hclosed) hg
    rw [Room.flaggedBricks_of_none r hflags, State.killFlagged_nil] at hexec
    have hnext := State.committed_spec hx.2.1
    refine ⟨_, hexec, ?_⟩
    rw [State.room_keepQueue, hnext.foreman]
    exact ⟨rfl, hnext.digests, hnext.pantry⟩
  · obtain ⟨need, -, hexec⟩ := exec_course_of (imm := imm) hx hquiet (CourseState.openSlots_eq_zero_iff.2 hclosed) hg
    have hidle : (passed (s.room r).foreman).run ≠ .idle := hx.2.1.trans_ne (by decide)
    rw [hexec, State.passBoundary, State.confirmed_endCourse (passed (s.room r).foreman) hidle hidle, hconfirmed]
  · have hne : (s.room r).course.openSlots ≠ 0 := fun h0 => by
      obtain ⟨x, hmem, hx⟩ := hopen
      simp [CourseState.openSlots_eq_zero_iff.1 h0 x hmem] at hx
    exact ⟨exec_course_open hx hquiet hne, exec_commit_open hx hquiet hne⟩

end Sys2Proof.Machine
end

section
/-! PROOF. COURSE_DIGEST_COMPARE of a DUPLEX Suite (R334, R337), COURSE_OVERRUN (R103) and the loads of vote spares (R339). -/

namespace Sys2Proof.Machine

open Sys2Proof.Safety

theorem Suite.ne_default_of_step {y : Suite} {st : Step} (h : y.step = some st) : y ≠ {} := fun e => by
  rw [e] at h
  cases h

/-! ### The results of a Course depend on the Rooms and Suites alone -/

section

variable {s t : State} (hroom : t.room = s.room) (hsuite : ∀ n, t.suite n = s.suite n)
include hroom hsuite

theorem State.copyResult_congr (n copy o k : Nat) : t.copyResult n copy o k = s.copyResult n copy o k := by
  simp only [State.copyResult, State.roomsAt, State.ordinal?, State.listener, hroom, hsuite]

theorem State.bothFaulted_congr (n o k : Nat) : t.bothFaulted n o k = s.bothFaulted n o k := by
  simp only [State.bothFaulted, State.copyResult_congr hroom hsuite]

theorem State.comparable_congr (n k : Nat) : t.comparable n k = s.comparable n k := by
  simp only [State.comparable, State.hasResult, State.failedAt, State.copyResult_congr hroom hsuite, hsuite]

theorem State.differ_congr (n k : Nat) : t.differ n k = s.differ n k := by
  simp only [State.differ, State.hasResult, State.failedAt, State.agreeAt, State.copyResult_congr hroom hsuite, hsuite]

end

/-! ### Agreement, difference and faults at an ordinal -/

/-- Digests that agree are results of both copies, and neither is a fault. -/
theorem State.of_agreeAt {s : State} {n o k : Nat} (h : s.agreeAt n o k = true) :
    s.hasResult n o k = true ∧ s.failedAt n o k = false ∧ s.bothFaulted n o k = false := by
  unfold State.agreeAt at h
  split at h
  · next a b ha hb => simp [State.hasResult, State.failedAt, State.bothFaulted, ha, hb]
  · cases h

theorem State.comparable_of_bothFaulted {s : State} {n o k : Nat} (ho : o < (s.suite n).ordinals)
    (h : s.bothFaulted n o k = true) : s.comparable n k = true := by
  obtain ⟨h0, h1⟩ : s.copyResult n 0 o k = some .faulted ∧ s.copyResult n 1 o k = some .faulted := by
    simpa [State.bothFaulted] using h
  refine Bool.or_eq_true_iff.2 (.inr (List.any_eq_true.2 ⟨o, List.mem_range.2 ho, ?_⟩))
  simp [State.hasResult, h0, h1]

theorem State.comparable_of_agree {s : State} {n k : Nat} (h : ∀ o, o < (s.suite n).ordinals → s.agreeAt n o k = true) :
    s.comparable n k = true :=
  Bool.or_eq_true_iff.2 (.inl (List.all_eq_true.2 fun o ho => (State.of_agreeAt (h o (List.mem_range.1 ho))).1))

theorem State.differ_of_agree {s : State} {n k : Nat} (h : ∀ o, o < (s.suite n).ordinals → s.agreeAt n o k = true) :
    s.differ n k = [] :=
  List.filter_eq_nil_iff.2 fun o ho => by
    have hagree := h o (List.mem_range.1 ho)
    simp [hagree, (State.of_agreeAt hagree).2.1]

theorem State.find_bothFaulted_eq_none {s : State} {n k : Nat}
    (h : ∀ o, o < (s.suite n).ordinals → s.bothFaulted n o k = false) :
    (List.range (s.suite n).ordinals).find? (fun o => s.bothFaulted n o k) = none :=
  List.find?_eq_none.2 fun o ho => by simp [h o (List.mem_range.1 ho)]

/-- In a DUPLEX Suite the exchange of results only sends messages across the Lintel (R130, R334). -/
theorem State.exchangeResults_trafficOnly {s : State} {n : Nat} (k : Nat) (hmode : (s.suite n).mode = .duplex) :
    State.TrafficOnly s (s.exchangeResults n k) := by
  have hpaired : ((s.suite n).mode != .paired) = true := by rw [hmode]; rfl
  simp only [State.exchangeResults, hpaired, if_true]
  exact .foldl (fun s _ => (s.control_trafficOnly ..).trans (State.control_trafficOnly ..)) _ s

/-! ### COURSE_DIGEST_COMPARE -/

section

variable {s : State} {n : Nat} (larger : List Bool)

theorem State.compare_of_no_step (h : (s.suite n).step = none) : s.compare n larger = s := by
  simp only [State.compare, h]

theorem State.compare_of_not_compares (h : (s.suite n).compares = false) : s.compare n larger = s := by
  simp only [State.compare, h, Bool.not_false, Bool.true_or, if_true]
  split <;> rfl

variable {t : State} {st : Step} {k : Nat} (hstep : (s.suite n).step = some st) (hcompares : (s.suite n).compares = true)
  (hvote : (s.suite n).vote = none) (hmode : (s.suite n).mode = .duplex) (hk : k = st.compared)
include hstep hcompares hvote hmode hk

/-- Nothing happens before the results are there (R334). -/
theorem State.compare_early (hcomparable : s.comparable n k = false)
    (hfaults : ∀ o, o < (s.suite n).ordinals → s.bothFaulted n o k = false) : s.compare n larger = s := by
  have hpaired : ((s.suite n).mode == .paired) = false := by rw [hmode]; rfl
  subst hk
  simp only [State.compare, hstep, hcompares, hvote, hpaired, hcomparable, State.find_bothFaulted_eq_none hfaults, Option.map_none,
    Option.getD_none, Bool.not_true, Bool.or_self, Bool.false_eq_true, if_false, Bool.not_false, Bool.true_or, if_true]

variable (ht : t = s.exchangeResults n k)
include ht

/-- A program fault that both copies have raised stands (R116, R117). -/
theorem State.compare_bothFaulted {o : Nat}
    (hfind : (List.range (s.suite n).ordinals).find? (fun o => s.bothFaulted n o k) = some o) :
    s.compare n larger = t.faultBoth n o := by
  have hboth : s.bothFaulted n o k = true := by simpa using List.find?_some hfind
  have hcomparable : s.comparable n k = true :=
    State.comparable_of_bothFaulted (List.mem_range.1 (List.mem_of_find?_eq_some hfind)) hboth
  have htraffic := State.exchangeResults_trafficOnly k hmode
  have hfind' : (List.range (s.suite n).ordinals).find? (fun o => t.bothFaulted n o k) = some o := by
    simpa only [ht, State.bothFaulted_congr htraffic.room (State.suite_congr htraffic.suites)] using hfind
  subst hk ht
  simp only [State.compare, hstep, hcompares, hvote, hcomparable, hfind', Option.map_none,
    Option.getD_none, Bool.not_true, Bool.or_self, Bool.or_true, Bool.false_eq_true, if_false, if_true]

variable (hcomparable : s.comparable n k = true)
  (hfaults : ∀ o, o < (s.suite n).ordinals → s.bothFaulted n o k = false)
include hcomparable hfaults

/-- Results that are all there, and no fault in both copies: the Course is confirmed where nothing differs, and a vote starts
where something does (R334, R337). -/
theorem State.compare_of_comparable : s.compare n larger =
    if (s.differ n k).isEmpty then t.confirm n k []
    else ((t.emit (.courseResult n k (s.differ n k))).controlAll (s.suite n).share (.hall (t.decider n))
      (s.suite n).allRooms).startVote n k (s.differ n k) := by
  have htraffic := State.exchangeResults_trafficOnly k hmode
  have hroom : t.room = s.room := ht ▸ htraffic.room
  have hsuite : ∀ m, t.suite m = s.suite m := ht ▸ State.suite_congr htraffic.suites
  have hfind := State.find_bothFaulted_eq_none hfaults
  simp only [← State.bothFaulted_congr hroom hsuite] at hfind
  have hdiffer := State.differ_congr hroom hsuite n k
  have hcomparable' := (State.comparable_congr hroom hsuite n k).trans hcomparable
  subst hk ht
  simp only [State.compare, hstep, hcompares, hvote, hcomparable, hfind, hcomparable', hdiffer, Option.map_none,
    Option.getD_none, List.all_nil, Bool.not_true, Bool.or_self, Bool.or_true, Bool.and_false, Bool.false_eq_true, if_false, if_true]

end

/-! ### The confirmation of a Course -/

theorem State.TrafficOnly.out {s t : State} (h : State.TrafficOnly s t) : t.out = s.out := by
  obtain ⟨p, q, rfl⟩ := h
  rfl

/-- Changing Rooms one after another leaves the Suites, what the module has put out, and the memory. -/
theorem State.foldl_modRoom_frame {f : Nat → Room → Room} (l : List Nat) (s : State) :
    (l.foldl (fun s r => s.modRoom r (f r)) s).suites = s.suites ∧ (l.foldl (fun s r => s.modRoom r (f r)) s).out = s.out ∧
      (l.foldl (fun s r => s.modRoom r (f r)) s).hbm = s.hbm :=
  List.foldlRecOn (motive := fun t : State => t.suites = s.suites ∧ t.out = s.out ∧ t.hbm = s.hbm) l _ ⟨rfl, rfl, rfl⟩
    fun t ht r _ => by simpa only [State.modRoom_suites, State.modRoom_out, State.modRoom_hbm] using ht

/-- Confirming a Course says so, counts it, and lets Rooms go on: no memory changes. -/
theorem State.confirm_spec {s : State} {n k : Nat} {st : Step} (l : List Nat) (hstep : (s.suite n).step = some st) :
    ((s.confirm n k l).suite n).step = some { st with compared := k + 1 } ∧
      (s.confirm n k l).out = s.out ++ [.courseResult n k l] ∧ (s.confirm n k l).hbm = s.hbm := by
  have hcounted : ((s.modStep n ({ · with compared := k + 1 })).suite n).step = some { st with compared := k + 1 } := by
    have h : ((s.suite n).step.map ({ · with compared := k + 1 })) = some { st with compared := k + 1 } := by rw [hstep]; rfl
    rw [State.modStep, State.suite_modSuite_of_ne _ _ _ (Suite.ne_default_of_step h)]
    exact h
  unfold State.confirm
  simp only
  generalize hu : (s.modStep n ({ · with compared := k + 1 })).emit (.courseResult n k l) = u
  have hout : u.out = s.out ++ [.courseResult n k l] := hu ▸ rfl
  have hhbm : u.hbm = s.hbm := hu ▸ rfl
  have hsuite : (u.suite n).step = some { st with compared := k + 1 } := by
    rw [← hu]
    exact hcounted
  have htold := u.controlAll_trafficOnly (u.suite n).share (.hall (u.decider n)) (u.suite n).allRooms
  generalize u.controlAll (u.suite n).share (.hall (u.decider n)) (u.suite n).allRooms = v at htold
  obtain ⟨-, hhbm', hsuites, -⟩ := htold.frame
  obtain ⟨hsuites', hout', hhbm''⟩ := State.foldl_modRoom_frame (v.suite n).allRooms v
  exact ⟨by rw [State.suite_congr (hsuites'.trans hsuites), hsuite], hout'.trans (htold.out.trans hout),
    hhbm''.trans (hhbm'.trans hhbm)⟩

/-! ### COURSE_OVERRUN (R103) -/

theorem State.room_modSuite (s : State) (n q : Nat) (f : Suite → Suite) : (s.modSuite n f).room q = s.room q := by
  simp only [State.room, State.modSuite_rooms]

theorem State.room_congr {s t : State} (h : t.rooms = s.rooms) (q : Nat) : t.room q = s.room q := by
  simp only [State.room, h]

section

variable (s : State) (cls code severity kind index household detail : Nat)

theorem State.report_rooms : (s.report cls code severity kind index household detail).rooms = s.rooms := by
  obtain ⟨_, _, _, h⟩ := s.report_frame cls code severity kind index household detail
  rw [h]

theorem State.report_suites : (s.report cls code severity kind index household detail).suites = s.suites := by
  obtain ⟨_, _, _, h⟩ := s.report_frame cls code severity kind index household detail
  rw [h]

theorem State.room_report (q : Nat) : (s.report cls code severity kind index household detail).room q = s.room q :=
  State.room_congr (s.report_rooms ..) q

theorem State.suite_report (n : Nat) : (s.report cls code severity kind index household detail).suite n = s.suite n :=
  State.suite_congr (s.report_suites ..) n

end

/-- An overrun is noted in the Room and counted in its Suite. -/
def State.noteOverrun (s : State) (r n : Nat) : State :=
  (s.modRoom r fun x => { x with course := { x.course with overrun := true } }).modSuite n fun x =>
    { x with overruns := satAdd 32 x.overruns 1 }

theorem State.room_noteOverrun {s : State} {r n : Nat} (hrun : (s.room r).foreman.run ≠ .idle) :
    (s.noteOverrun r n).room r = { s.room r with course := { (s.room r).course with overrun := true } } :=
  (State.room_modSuite ..).trans
    (State.room_modRoom_of_run (e := fun x => { x with course := { x.course with overrun := true } }) hrun)

theorem State.room_noteOverrun_ne {s : State} {r n q : Nat} (hq : q ≠ r) : (s.noteOverrun r n).room q = s.room q :=
  (State.room_modSuite ..).trans (State.room_setRoom_ne s r q _ hq)

theorem State.suite_noteOverrun {s : State} {r n : Nat} {st : Step} (hstep : (s.suite n).step = some st) :
    (s.noteOverrun r n).suite n = { s.suite n with overruns := satAdd 32 (s.suite n).overruns 1 } :=
  State.suite_modSuite_of_ne _ _ _ (Suite.ne_default_of_step (st := st) hstep)

section

variable {s : State} {r : Nat} (hr : isRoom r = true)
include hr

theorem exec_courseOverrun_of_free (h : (s.room r).member = none) : exec (.courseOverrun r) s = .next s := by
  rw [exec_courseOverrun, execCourseOverrun, onUnits_of _ _ _ hr]
  simp only [h]
  rfl

variable {m : Member} {st : Step} (hm : (s.room r).member = some m) (hst : s.stepOf r = some st)
  (hrun : (s.room r).foreman.run = .running) (hover : (s.room r).course.overrun = false)
include hm hst hrun hover

theorem exec_courseOverrun_early (h : s.time ≤ (s.room r).course.start + 250000) : exec (.courseOverrun r) s = .next s := by
  rw [exec_courseOverrun, execCourseOverrun, onUnits_of _ _ _ hr]
  simp only [hm, hst, hrun, hover, if_pos h, ite_self]
  rfl

/-- A Course that still runs is noted in its Room, counted in its Suite, and recorded. -/
theorem exec_courseOverrun_due (h : (s.room r).course.start + 250000 < s.time) : ∃ a, exec (.courseOverrun r) s = .next a ∧
    (a.room r).course.overrun = true ∧ (a.suite m.suite).overruns = satAdd 32 (s.suite m.suite).overruns 1 ∧
    (a.suite m.suite).step = (s.suite m.suite).step ∧ (∀ o, o ≠ r → a.room o = s.room o) := by
  have hstep : (s.suite m.suite).step = some st := by simpa only [State.stepOf, hm, Option.bind_some] using hst
  have hexec : exec (.courseOverrun r) s = .next (s.keepQueue ((s.noteOverrun r m.suite).report 9 5 2 2 r
      ((s.noteOverrun r m.suite).suite m.suite).owner
      (Config.detail (s.room r).course.ordinal (s.time - (s.room r).course.start - 250000)))) := by
    rw [exec_courseOverrun, execCourseOverrun, onUnits_of _ _ _ hr]
    simp only [hm, hst, hrun, hover, if_neg (Nat.not_le.2 h)]
    rfl
  refine ⟨_, hexec, ?_, ?_, ?_, fun o ho => ?_⟩
  · rw [State.room_keepQueue, State.room_report, State.room_noteOverrun (hrun.trans_ne (by decide))]
  · rw [State.suite_congr (State.keepQueue_suites ..), State.suite_report, State.suite_noteOverrun hstep]
  · rw [State.suite_congr (State.keepQueue_suites ..), State.suite_report, State.suite_noteOverrun hstep]
  · rw [State.room_keepQueue, State.room_report, State.room_noteOverrun_ne ho]

end

/-! ### SPARE_LOAD_COMPLETE (R339) -/

/-- The re-run waits for every load. -/
theorem State.tryRerun_of_loads_left {t w : State} {n : Nat} {v : Vote} {st : Step} (hstep : (t.suite n).step = some st)
    (hw : w = t.modSuite n ({ · with vote := some v })) (h : v.loading ≠ []) : w.tryRerun n = w := by
  have hsuite : w.suite n = { t.suite n with vote := some v } := by
    rw [hw, State.suite_modSuite_of_ne _ _ _ (Suite.ne_default_of_step (st := st) hstep)]
  have hempty : v.loading.isEmpty = false := by simpa using h
  simp only [State.tryRerun, hsuite, hstep, hempty, Bool.not_false, Bool.or_true, Bool.true_or, if_true]

section

variable {s : State} {r n : Nat} (hr : isRoom r = true) (hn : s.suiteOf r = some n)
include hr hn

theorem exec_spareLoadComplete_of_no_vote (h : (s.suite n).vote = none) : exec (.spareLoadComplete r) s = .next s := by
  rw [exec_spareLoadComplete, execSpareLoadComplete, onUnits_of _ _ _ hr]
  simp only [hn, h]
  rfl

variable {v : Vote} (hv : (s.suite n).vote = some v)
include hv

theorem exec_spareLoadComplete_of_not_loading (h : r ∉ v.loading) : exec (.spareLoadComplete r) s = .next s := by
  have hloading : v.loading.contains r = false := by simpa using h
  rw [exec_spareLoadComplete, execSpareLoadComplete, onUnits_of _ _ _ hr]
  simp only [hn, hv, hloading, Bool.not_false, if_true]
  rfl

variable {st : Step} {x : Nat} {t w : State} (hloading : r ∈ v.loading) (hstep : (s.suite n).step = some st)
  (hsource : s.loadSource n r = some x)
  (ht : t = s.modRoom r (fun z => { z.withContents (s.room x) st.lanes with
    checkpoints := (s.room x).checkpoints, foreman := { z.foreman with program := (s.room x).foreman.program } }))
  (hw : w = (t.modRoom r ({ · with loading := false })).modSuite n
    ({ · with vote := some { v with loading := v.loading.filter (· != r) } }))
include hloading hstep hsource ht hw

theorem exec_spareLoadComplete_of_loading : exec (.spareLoadComplete r) s = .next (s.keepQueue (w.tryRerun n)) := by
  have hcontains : v.loading.contains r = true := by simpa using hloading
  rw [exec_spareLoadComplete, execSpareLoadComplete, onUnits_of _ _ _ hr]
  simp only [hn, hv, hcontains, hstep, hsource, Option.map_some, Option.getD_some, Bool.not_true, Bool.false_eq_true, if_false]
  rw [hw, ht]

end

end Sys2Proof.Machine
end

section
/-! PROOF. Leases between the Halls and between the modules of a pair, and the arbiter (R343 to R350). -/

namespace Sys2Proof.Machine

open Sys2Proof.Safety

theorem exec_courseDigestCompare_of {s : State} {n : Nat} {larger : List Bool} (hn : isSuite n = true) :
    exec (.courseDigestCompare n larger) s = .next (s.keepQueue (s.compare n larger)) := by
  rw [exec_courseDigestCompare, execCourseDigestCompare, onUnits_of _ _ _ hn]

/-! ### Leases between the Halls -/

section

variable {s : State} {h : Nat} (hh : isHall h = true)
include hh

theorem exec_hallLease_silent (hl : s.leases h = false) : exec (.hallLease h) s = .next s := by
  rw [exec_hallLease, execHallLease, onUnits_of _ _ _ hh]
  simp only [hl, Bool.not_false, if_true]
  rfl

theorem exec_hallLeaseTimeout_silent (hl : s.leases h = false) : exec (.hallLeaseTimeout h) s = .next s := by
  rw [exec_hallLeaseTimeout, execHallLeaseTimeout, onUnits_of _ _ _ hh]
  simp only [hl, Bool.not_false, Bool.or_true, Bool.true_or, if_true]
  rfl

variable (hl : s.leases h = true)
include hl

/-- With the Lintel down a lease arrives on the Lintel line alone (R343). -/
theorem exec_hallLease_of_lintelDown (hd : s.lintelDown = true) : exec (.hallLease h) s = .next (s.modWarden (1 - h) fun w =>
    { w with lineLease := if s.lineDown then w.lineLease else s.time }) := by
  rw [exec_hallLease, execHallLease, onUnits_of _ _ _ hh]
  simp only [hl, hd, Bool.not_true, Bool.false_eq_true, if_false, if_true]
  rfl

theorem exec_hallLease_of_lintelUp (hd : s.lintelDown = false) : exec (.hallLease h) s = .next (s.keepQueue
    ((s.control s.moduleClass (.hall h) (.hall (1 - h))).modWarden (1 - h) fun w => { w with
      lintelLease := s.time, lineLease := if s.lineDown then w.lineLease else s.time })) := by
  rw [exec_hallLease, execHallLease, onUnits_of _ _ _ hh]
  simp only [hl, hd, Bool.not_true, Bool.false_eq_true, if_false]

variable {y z : Nat} (hawake : s.asleep = false) (hy : y = max (s.hall h).warden.lintelLease (s.hall h).warden.lineLease)
include hawake hy

theorem exec_hallLeaseTimeout_early (ht : s.time < y + 150000) : exec (.hallLeaseTimeout h) s = .next s := by
  subst hy
  rw [exec_hallLeaseTimeout, execHallLeaseTimeout, onUnits_of _ _ _ hh]
  simp only [hl, hawake, ht, decide_true, Bool.or_true, if_true]
  rfl

variable (hz : z = 1 - h) (ht : y + 150000 ≤ s.time)
include hz ht

theorem exec_hallLeaseTimeout_due : exec (.hallLeaseTimeout h) s = .next (s.keepQueue (s.hallLost z)) := by
  subst hy hz
  rw [exec_hallLeaseTimeout, execHallLeaseTimeout, onUnits_of _ _ _ hh]
  simp only [hl, hawake, Nat.not_lt.2 ht, decide_false, Bool.not_true, Bool.or_self, Bool.false_eq_true, if_false]

/-- In service a Hall that is lost already is not lost again (R345). -/
theorem exec_hallLeaseTimeout_lost (hready : s.ready = true) (hlost : (s.hall z).lost = true) :
    exec (.hallLeaseTimeout h) s = .next s := by
  rw [exec_hallLeaseTimeout_due hh hl hawake hy hz ht]
  simp only [State.hallLost, State.lostInBringUp, State.loseHall, hready, hlost, Bool.not_true, Bool.false_and,
    Bool.false_eq_true, if_false, Bool.true_or, if_true]
  rfl

/-- In service the other Hall takes the whole module over (R345, R346). -/
theorem exec_hallLeaseTimeout_takeover (hready : s.ready = true) (hlost : (s.hall z).lost = false) {t w : State}
    (htt : t = ((s.bump 0x5200 2 32).modHall z ({ · with lost := true })).loseChannels z)
    (hw : w = (t.report 9 3 2 6 z 0 (t.dictGet 0x5200 2)).dropWing z) :
    exec (.hallLeaseTimeout h) s = .next (s.keepQueue ((w.takeover z).killIn fun n => w.usesWing z n).refresh) := by
  have hlive : (s.hall (1 - z)).lost = false := by
    have hself : 1 - z = h := by
      have : h < 2 := by simpa [isHall] using hh
      omega
    rw [hself]
    obtain ⟨⟨-, hkept⟩, -⟩ : ((s.hall h).warden.running = true ∧ (s.hall h).lost = false) ∧ s.failSilent = false := by
      simpa [State.leases] using hl
    exact hkept
  rw [exec_hallLeaseTimeout_due hh hl hawake hy hz ht]
  simp only [State.hallLost, State.lostInBringUp, State.loseHall, hready, hlost, hlive, Bool.not_true, Bool.false_and,
    Bool.false_eq_true, if_false, Bool.or_self]
  rw [hw, htt]

end

theorem exec_hallRejoin_of_both {s : State} (h0 : (s.hall 0).lost = false) (h1 : (s.hall 1).lost = false) :
    exec .hallRejoin s = .next s := by
  rw [exec_hallRejoin, execHallRejoin, onUnits_next]
  simp only [h0, h1, Bool.not_false, Bool.false_eq_true, if_false, if_true, ite_self]
  rfl

theorem exec_hallRejoin_of_lost {s : State} (hsilent : s.failSilent = false) (h1 : (s.hall 1).lost = true) :
    exec .hallRejoin s = .next (s.keepQueue
      ((s.modWarden 0 fun w => { w with lintelLease := s.time, lineLease := s.time }).startWing 1)) := by
  rw [exec_hallRejoin, execHallRejoin, onUnits_next]
  simp only [hsilent, h1, Bool.false_eq_true, if_false, if_true]

/-! ### The settings of the pair -/

/-- In canonical form, a setting that is written is read back. -/
theorem State.dictGet_dictSet_self {s : State} (i k v : Nat) (hwf : Store.wf none s.dict = true) :
    (s.dictSet i k v).dictGet i k = v := by
  simp only [State.dictGet, State.dictSet, Store.get_set_self _ _ _ _ hwf]
  split
  · next h => exact h.symm
  · rfl

theorem State.wf_dictSet {s : State} (i k v : Nat) (hwf : Store.wf none s.dict = true) :
    Store.wf none (s.dictSet i k v).dict = true := Store.wf_set _ _ _ _ hwf

theorem State.port_modPort {s : State} {p : Nat} {f : MortarPort → MortarPort} (h : (f (s.port p)).st ≠ 0) :
    (s.modPort p f).port p = f (s.port p) :=
  Store.get_set_self_of_ne _ _ _ _ fun e => h (by rw [e])

/-! ### Leases of the pair (R348) -/

section

variable {s : State} {p epoch : Nat} (hp : isMortar p = true) (hsilent : s.failSilent = false) (hrole : s.pairRole ≠ 0)
  (hdirection : s.portDirection p = 6) (hup : s.portUp p = true)
include hp hsilent hrole hdirection hup

theorem exec_pairLease_old (h : epoch < s.pairEpoch) :
    exec (.pairLease p epoch) s = .next (s.emit (.pairLease p s.pairEpoch)) := by
  have hsame : epoch < (s.emit (.pairLease p s.pairEpoch)).pairEpoch := h
  rw [exec_pairLease, execPairLease, onUnits_of _ _ _ hp]
  simp only [hsilent, hrole, hdirection, hup, hsame, decide_false, bne_self_eq_false, Bool.not_true, Bool.or_self,
    Bool.false_eq_true, if_false, if_true]
  rfl

/-- A lease of the pair's epoch, or of a newer one, is noted at its port, and the epoch is taken over (log entry 46). -/
theorem exec_pairLease_current (h : s.pairEpoch ≤ epoch) (hwf : Store.wf none s.dict = true) :
    ∃ a, exec (.pairLease p epoch) s = .next a ∧ a.pairEpoch = epoch ∧ (a.port p).lastLease = s.time ∧
      a.out = s.out ++ [.pairLease p s.pairEpoch] ∧ a.rooms = s.rooms := by
  have hsame : ¬ epoch < (s.emit (.pairLease p s.pairEpoch)).pairEpoch := Nat.not_lt.2 h
  rw [exec_pairLease, execPairLease, onUnits_of _ _ _ hp]
  simp only [hsilent, hrole, hdirection, hup, hsame, decide_false, bne_self_eq_false, Bool.not_true, Bool.or_self,
    Bool.false_eq_true, if_false]
  generalize hu : (if (s.emit (.pairLease p s.pairEpoch)).dictGet 0x5200 5 = 0
    then (s.emit (.pairLease p s.pairEpoch)).dictSet 0x5200 5 1 else s.emit (.pairLease p s.pairEpoch)) = u
  have hwfu : Store.wf none u.dict = true := by
    rw [← hu]
    split
    · exact State.wf_dictSet _ _ _ hwf
    · exact hwf
  obtain ⟨htime, hport, hout, hrooms⟩ : u.time = s.time ∧ u.port p = s.port p ∧
      u.out = s.out ++ [.pairLease p s.pairEpoch] ∧ u.rooms = s.rooms := by
    rw [← hu]
    split <;> exact ⟨rfl, rfl, rfl, rfl⟩
  have hst : ((u.dictSet 0x5200 4 epoch).port p).st ≠ 0 := by
    have h2 : (s.port p).st = 2 := of_decide_eq_true hup
    rw [show (u.dictSet 0x5200 4 epoch).port p = u.port p from rfl, hport, h2]
    decide
  refine ⟨_, rfl, State.dictGet_dictSet_self 0x5200 4 epoch hwfu, ?_, hout, hrooms⟩
  exact (congrArg MortarPort.lastLease (State.port_modPort (s := u.dictSet 0x5200 4 epoch)
    (f := ({ · with lastLease := u.time })) hst)).trans htime

end

/-! ### The loss of the partner, and the arbiter (R348 to R350) -/

section

variable {s : State}

theorem State.losePartner_of_lost (h : s.pair.lost = true) : s.losePartner = s := by
  simp only [State.losePartner, h, Bool.or_true, if_true]

theorem State.report_pair (s : State) (cls code severity kind index household detail : Nat) :
    (s.report cls code severity kind index household detail).pair = s.pair := by
  obtain ⟨_, _, _, h⟩ := s.report_frame cls code severity kind index household detail
  rw [h]

/-- The module that has lost its partner: the epoch has risen, and ARBITER_OUT is asserted (R348, R349). -/
def State.claimed (s : State) : State :=
  { (s.bump 0x5200 4 32).dictSet 0x5200 5 2 with pair := { s.pair with lost := true, arbiterOut := true, claimAt := s.time } }

/-- Without a grant the loss of the partner is recorded, and the module waits for the arbiter. -/
theorem State.losePartner_of (hsilent : s.failSilent = false) (hrole : s.pairRole ≠ 0) (hlost : s.pair.lost = false)
    (hgrant : s.pair.arbiterIn = false) : s.losePartner = s.claimed.report 9 3 2 0 0 0 s.claimed.pairEpoch := by
  simp only [State.losePartner, hsilent, hrole, hlost, decide_false, Bool.or_self, Bool.false_eq_true, if_false]
  exact if_neg (by rw [State.report_pair]; simpa [State.bump, State.dictSet] using hgrant)

theorem exec_pairLeaseTimeout_of_lost (h : s.pair.lost = true) : exec .pairLeaseTimeout s = .next s := by
  rw [exec_pairLeaseTimeout, execPairLeaseTimeout, onUnits_next, State.losePartner_of_lost h, ite_self]
  rfl

theorem exec_pairLeaseTimeout_due (hsilent : s.failSilent = false) (hrole : s.pairRole ≠ 0) (hlost : s.pair.lost = false)
    (hgrant : s.pair.arbiterIn = false) (hports : ∀ o ∈ s.pairPorts, (s.port o).lastLease + 200000 ≤ s.time) :
    ∃ a, exec .pairLeaseTimeout s = .next a ∧
      a.pair.lost = true ∧ a.pair.arbiterOut = true ∧ a.pair.claimAt = s.time ∧ a.suites = s.suites := by
  have hnone : s.pairPorts.any (fun p => decide (s.time < (s.port p).lastLease + 200000)) = false :=
    List.any_eq_false.2 fun o ho => by simpa using hports o ho
  rw [exec_pairLeaseTimeout, execPairLeaseTimeout, onUnits_next, hnone, if_neg Bool.false_ne_true,
    State.losePartner_of hsilent hrole hlost hgrant]
  refine ⟨_, rfl, ?_, ?_, ?_, ?_⟩
  · rw [State.keepQueue_pair, State.report_pair]
    rfl
  · rw [State.keepQueue_pair, State.report_pair]
    rfl
  · rw [State.keepQueue_pair, State.report_pair]
    rfl
  · rw [State.keepQueue_suites, State.report_suites]
    rfl

theorem exec_islandModeEntry_of_joined (h : s.pair.lost = false) : exec .islandModeEntry s = .next s := by
  rw [exec_islandModeEntry, execIslandModeEntry, onUnits_next]
  simp only [h, Bool.false_and, Bool.false_eq_true, if_false]
  rfl

theorem exec_pairRejoin_of_joined (h : s.pair.lost = false) : exec .pairRejoin s = .next s := by
  rw [exec_pairRejoin, execPairRejoin, onUnits_next]
  simp only [h, Bool.not_false, Bool.or_true, if_true]
  rfl

theorem exec_arbiterGrant_of_joined (h : s.pair.lost = false) :
    exec .arbiterGrant s = .next { s with pair := { s.pair with arbiterIn := true } } := by
  rw [exec_arbiterGrant, execArbiterGrant, onUnits_next]
  simp only [h, Bool.false_and, Bool.false_eq_true, if_false]
  rfl

theorem exec_arbiterWithdraw_of_joined (h : s.pair.lost = false) :
    exec .arbiterWithdraw s = .next { s with pair := { s.pair with arbiterIn := false } } := by
  rw [exec_arbiterWithdraw, execArbiterWithdraw, onUnits_next]
  simp only [h, Bool.false_and, Bool.false_eq_true, if_false]
  rfl

variable (hlost : s.pair.lost = true) (hsilent : s.failSilent = false)
include hlost hsilent

theorem exec_arbiterGrant_of_lost : exec .arbiterGrant s = .next (s.keepQueue
    ((State.dictSet { s with pair := { s.pair with arbiterIn := true } } 0x5200 5 3).dropPartner fun _ => true)) := by
  rw [exec_arbiterGrant, execArbiterGrant, onUnits_next]
  simp only [hlost, hsilent, Bool.not_false, Bool.and_self, if_true]
  rfl

theorem exec_arbiterWithdraw_of_granted (hstate : s.pairState = 3) : exec .arbiterWithdraw s =
    .next (s.keepQueue (State.island { s with pair := { s.pair with arbiterIn := false } })) := by
  have hkept : State.pairState { s with pair := { s.pair with arbiterIn := false } } = 3 := hstate
  rw [exec_arbiterWithdraw, execArbiterWithdraw, onUnits_next]
  refine congrArg (fun t => Host.Outcome.next (s.keepQueue t)) (if_pos ?_)
  change (s.pair.lost && decide (State.pairState { s with pair := { s.pair with arbiterIn := false } } = 3) && !s.failSilent) = true
  rw [hkept, hlost, hsilent]
  rfl

theorem exec_islandModeEntry_due (hstate : s.pairState = 2) (hgrant : s.pair.arbiterIn = false)
    (ht : s.pair.claimAt + 100000 ≤ s.time) : exec .islandModeEntry s = .next (s.keepQueue s.island) := by
  rw [exec_islandModeEntry, execIslandModeEntry, onUnits_next]
  simp only [hlost, hsilent, hstate, hgrant, ht, Bool.not_false, Bool.and_self, decide_true, if_true]

theorem exec_pairRejoin_of_granted (hstate : s.pairState = 3) : exec .pairRejoin s = .next (s.keepQueue
    (State.dictSet { s with free := s.free + 1, pair := { s.pair with lost := false, arbiterOut := false } } 0x5200 5 1)) := by
  rw [exec_pairRejoin, execPairRejoin, onUnits_next]
  simp only [hlost, hsilent, hstate, Bool.not_true, Bool.or_self, Bool.false_eq_true, if_false, decide_true, Bool.true_or, if_true]

end

/-! ### Background reintegration (R354) -/

section

variable {s : State} {r : Nat} {ok : Bool} {dead : List Nat}

theorem exec_reintegrationSelfTest_silent {u : UnitRef} (hu : isUnit u = true) (h : s.failSilent = true) :
    exec (.reintegrationSelfTest u ok dead) s = .next s := by
  rw [exec_reintegrationSelfTest, execReintegrationSelfTest, onUnits_of _ _ _ hu, if_pos h]
  rfl

theorem exec_reintegrationSelfTest_of {u : UnitRef} (hu : isUnit u = true) (h : s.failSilent = false) :
    exec (.reintegrationSelfTest u ok dead) s = .next (s.keepQueue (s.selfTest u ok dead)) := by
  rw [exec_reintegrationSelfTest, execReintegrationSelfTest, onUnits_of _ _ _ hu, if_neg (by simp [h])]

theorem State.selfTest_room_of_failed (h : (s.room r).life ≠ .fencedInService ∨ ok = false) :
    s.selfTest (.room r) ok dead = s := if_pos (by simpa using h)

/-- A fenced Room that passes its test works again, and the routes of its Floor are looked at again. -/
theorem State.selfTest_room_of_passed (h : (s.room r).life = .fencedInService) : s.selfTest (.room r) true dead =
    State.checkRoutes (r / 320) 320 (s.planChange true 2 r fun a => a.modRoom r fun x => { x with
      life := .working, power := .gated, freeSince := a.time
      deadBricks := dead.foldl (fun m b => m ||| (1#256 <<< b)) x.deadBricks }) := if_neg (by simp [h])

end

/-! ### The loss of a Floor's power (R333, R353) -/

theorem State.startRung_frame (s : State) (rung : Nat) (u : UnitRef) :
    ∃ halls dict out, s.startRung rung u = { s with halls, dict, out } := by
  unfold State.startRung
  simp only
  split
  · exact ⟨s.halls, s.dict, s.out, rfl⟩
  · obtain ⟨halls, dict, out, h⟩ := State.report_frame ((s.modWarden (s.rungWarden rung u) fun w =>
      { w with rungs := w.rungs ++ [(rung, u, s.time)] }).bump 0x5031 rung 32) 7 1 3 (unitSource u).1 (unitSource u).2 0 rung
    exact ⟨halls, dict, out, h.trans rfl⟩

/-- Without Suites the loss of a Wing drops no copy. -/
theorem State.dropWing_of_no_suites {s : State} (w : Nat) (h : s.suites = []) : s.dropWing w = s := by
  simp only [State.dropWing, State.dropDuplex, h, List.map_nil, List.foldl_nil]

theorem State.killIn_of_no_suites {s : State} (uses : Nat → Bool) (h : s.suites = []) : s.killIn uses = s := by
  simp only [State.killIn, h, List.map_nil, List.filter_nil, List.foldl_nil]

/-- Without Rooms and Suites the segment rung of a Floor's clock only starts. -/
theorem State.startSegment_clock_of_empty {s : State} (f : Nat) (hrooms : s.rooms = []) (hsuites : s.suites = []) :
    (s.startSegment (.clock f)).rooms = [] ∧ (s.startSegment (.clock f)).suites = [] ∧
      (s.startSegment (.clock f)).floors = s.floors := by
  have hstart : s.startSegment (.clock f) = s.startRung 3 (.clock f) := by
    simp only [State.startSegment, segmentWing, hrooms, List.any_nil, List.filter_false, List.foldl_nil, ite_self,
      State.dropWing_of_no_suites _ hsuites, State.killIn_of_no_suites _ hsuites]
  obtain ⟨_, _, _, h⟩ := s.startRung_frame 3 (.clock f)
  rw [hstart, h]
  exact ⟨hrooms, hsuites, rfl⟩

theorem State.refresh_rooms_suites (s : State) : s.refresh.rooms = s.rooms ∧ s.refresh.suites = s.suites := by
  obtain ⟨⟨_, _, _, _, h, -⟩, -⟩ := s.refresh_frame
  rw [h]
  exact ⟨rfl, rfl⟩

theorem State.floor_congr {s t : State} (h : t.floors = s.floors) (f : Nat) : t.floor f = s.floor f := by
  simp only [State.floor, h]

section

variable {s t : State} {f : Nat} (hf : isFloor f = true)
include hf

theorem exec_floorPowerGoodLoss_of_off (h : (s.floor f).powerGood = false) : exec (.floorPowerGoodLoss f) s = .next s := by
  rw [exec_floorPowerGoodLoss, execFloorPowerGoodLoss, onUnits_of _ _ _ hf, if_pos (by simp [h])]
  rfl

variable (hgood : (s.floor f).powerGood = true) (hsilent : s.failSilent = false)
  (ht : t = (s.modFloor f ({ · with powerGood := false })).startSegment (.clock f))
include hgood hsilent ht

theorem exec_floorPowerGoodLoss_of_good : exec (.floorPowerGoodLoss f) s =
    .next (s.keepQueue ((t.rooms.map (·.1)).foldl (State.losePower f) t).refresh) := by
  rw [exec_floorPowerGoodLoss, execFloorPowerGoodLoss, onUnits_of _ _ _ hf, if_neg (by simp [hgood, hsilent]), ht]

theorem exec_floorPowerGoodLoss_of_empty (hrooms : s.rooms = []) (hsuites : s.suites = [])
    (hwf : Store.wf ({} : Floor) s.floors = true) : ∃ a, exec (.floorPowerGoodLoss f) s = .next a ∧
      (a.floor f).powerGood = false ∧ a.rooms = [] ∧ a.suites = [] := by
  obtain ⟨htrooms, htsuites, htfloors⟩ := State.startSegment_clock_of_empty
    (s := s.modFloor f ({ · with powerGood := false })) f hrooms hsuites
  rw [← ht] at htrooms htsuites htfloors
  have hwf' : Store.wf ({} : Floor) t.floors = true := by
    rw [htfloors]
    exact Store.wf_set _ _ _ _ hwf
  have hoff : (t.floor f).powerGood = false := by
    rw [State.floor_congr htfloors, State.floor_modFloor s f _ hwf]
  have hexec := exec_floorPowerGoodLoss_of_good hf hgood hsilent ht
  rw [htrooms, List.map_nil, List.foldl_nil] at hexec
  obtain ⟨hrrooms, hrsuites⟩ := t.refresh_rooms_suites
  refine ⟨_, hexec, ?_, ?_, ?_⟩
  · rw [State.floor_congr (State.keepQueue_floors ..), State.refresh_floor t f (of_decide_eq_true hf) hwf']
    exact hoff
  · rw [State.keepQueue_rooms, hrrooms, htrooms]
  · rw [State.keepQueue_suites, hrsuites, htsuites]

end

/-- Where every digest agrees the Course is confirmed (R334, R335). -/
theorem exec_courseDigestCompare_agreeing {s t : State} {n k : Nat} {larger : List Bool} {st : Step} (hn : isSuite n = true)
    (hstep : (s.suite n).step = some st) (hcompares : (s.suite n).compares = true) (hvote : (s.suite n).vote = none)
    (hmode : (s.suite n).mode = .duplex) (hk : k = st.compared) (ht : t = s.exchangeResults n k)
    (hagree : ∀ o, o < (s.suite n).ordinals → s.agreeAt n o k = true) :
    exec (.courseDigestCompare n larger) s = .next (s.keepQueue (t.confirm n k [])) ∧
      ∃ a, exec (.courseDigestCompare n larger) s = .next a ∧ (a.suite n).step = some { st with compared := k + 1 } ∧
        a.out = s.out ++ [.courseResult n k []] ∧ a.hbm = s.hbm := by
  have hexec : exec (.courseDigestCompare n larger) s = .next (s.keepQueue (t.confirm n k [])) := by
    rw [exec_courseDigestCompare_of hn, State.compare_of_comparable larger hstep hcompares hvote hmode hk ht
      (State.comparable_of_agree hagree) fun o ho => (State.of_agreeAt (hagree o ho)).2.2, State.differ_of_agree hagree]
    rfl
  have htraffic : State.TrafficOnly s t := ht ▸ State.exchangeResults_trafficOnly k hmode
  obtain ⟨-, hhbm, -, -⟩ := htraffic.frame
  obtain ⟨hcounted, hout, hhbm'⟩ := State.confirm_spec (s := t) (n := n) (k := k) [] (by rw [State.suite_congr htraffic.suites, hstep])
  refine ⟨hexec, _, hexec, ?_, ?_, ?_⟩
  · rw [State.suite_congr (State.keepQueue_suites ..), hcounted]
  · rw [State.keepQueue_out, hout, htraffic.out]
  · rw [State.keepQueue_hbm, hhbm', hhbm]

/-- Settles O59: each event by the lemmas about it, in the order of its clauses. -/
theorem redundancyEvents : Obligations.RedundancyEvents := by
  unfold Obligations.RedundancyEvents
  intro s t w n r k h p epoch f x y z o larger l st m v u ok dead
  refine ⟨fun hn => ⟨fun hstep => ?_, fun hcompares => ?_, fun hstep hcompares hvote hmode hk ht => ⟨fun hagree => ?_,
      fun hcomparable hdiffer hfaults => ?_, fun hfind => ?_, fun hcomparable hfaults => ?_⟩⟩,
    fun hr => ⟨exec_courseOverrun_of_free hr, fun hm hst hrun hover => ⟨exec_courseOverrun_early hr hm hst hrun hover,
        exec_courseOverrun_due hr hm hst hrun hover⟩, exec_spareLoadComplete_of_no_vote hr,
      fun hn hv => exec_spareLoadComplete_of_not_loading hr hn hv,
      fun hn hv hloading hstep hsource ht hw => ?_⟩,
    fun hh => ⟨fun hl => ⟨exec_hallLease_silent hh hl, exec_hallLeaseTimeout_silent hh hl⟩,
      fun hl => ⟨exec_hallLease_of_lintelDown hh hl, exec_hallLease_of_lintelUp hh hl⟩,
      fun hl hawake hy hz => ⟨exec_hallLeaseTimeout_early hh hl hawake hy,
        fun hlate => ⟨exec_hallLeaseTimeout_due hh hl hawake hy hz hlate, exec_hallLeaseTimeout_lost hh hl hawake hy hz hlate,
          fun hready hlost ht hw => exec_hallLeaseTimeout_takeover hh hl hawake hy hz hlate hready hlost ht hw⟩⟩⟩,
    exec_hallRejoin_of_both, exec_hallRejoin_of_lost,
    fun hp hsilent hrole hdirection hup => ⟨exec_pairLease_old hp hsilent hrole hdirection hup,
      exec_pairLease_current hp hsilent hrole hdirection hup⟩,
    fun hsilent hrole hlost hgrant _ hports => exec_pairLeaseTimeout_due hsilent hrole hlost hgrant hports,
    exec_pairLeaseTimeout_of_lost,
    fun hjoined => ⟨exec_arbiterGrant_of_joined hjoined, exec_arbiterWithdraw_of_joined hjoined,
      exec_islandModeEntry_of_joined hjoined, exec_pairRejoin_of_joined hjoined⟩,
    fun ht hw => by rw [hw, ht]; rfl,
    fun hlost hsilent => ⟨exec_arbiterGrant_of_lost hlost hsilent, exec_arbiterWithdraw_of_granted hlost hsilent,
      exec_islandModeEntry_due hlost hsilent, exec_pairRejoin_of_granted hlost hsilent⟩,
    fun hu => ⟨exec_reintegrationSelfTest_silent hu, exec_reintegrationSelfTest_of hu⟩,
    fun hr hsilent => ⟨fun hfailed => ?_, fun hfenced => ?_⟩,
    fun hf => ⟨exec_floorPowerGoodLoss_of_off hf, fun hgood hsilent ht => ⟨exec_floorPowerGoodLoss_of_good hf hgood hsilent ht,
      fun hrooms hsuites hwf => exec_floorPowerGoodLoss_of_empty hf hgood hsilent ht hrooms hsuites hwf⟩⟩⟩
  · rw [exec_courseDigestCompare_of hn, State.compare_of_no_step larger hstep]
    rfl
  · rw [exec_courseDigestCompare_of hn, State.compare_of_not_compares larger hcompares]
    rfl
  · exact exec_courseDigestCompare_agreeing hn hstep hcompares hvote hmode hk ht hagree
  · rw [exec_courseDigestCompare_of hn,
      State.compare_of_comparable larger hstep hcompares hvote hmode hk ht hcomparable hfaults, hdiffer]
    rfl
  · rw [exec_courseDigestCompare_of hn, State.compare_bothFaulted larger hstep hcompares hvote hmode hk ht hfind]
  · rw [exec_courseDigestCompare_of hn, State.compare_early larger hstep hcompares hvote hmode hk hcomparable hfaults]
    rfl
  · have hexec := exec_spareLoadComplete_of_loading hr hn hv hloading hstep hsource ht hw
    have hstep' : ((t.modRoom r ({ · with loading := false })).suite n).step = some st := by
      rw [State.suite_modRoom, ht, State.suite_modRoom, hstep]
    exact ⟨hexec, fun hleft => by rw [hexec, State.tryRerun_of_loads_left hstep' hw hleft]⟩
  · rw [exec_reintegrationSelfTest_of (u := .room r) hr hsilent, State.selfTest_room_of_failed hfailed]
    rfl
  · rw [exec_reintegrationSelfTest_of (u := .room r) hr hsilent, State.selfTest_room_of_passed hfenced]

end Sys2Proof.Machine
end

section
/-! PROOF. The rounds of a Gutter tree (R136): what a change of one round leaves of the others, and the GSEND that joins its
round (R137, R140, R340). -/

namespace Sys2Proof.Machine

open Sys2Proof.Safety

/-! ### Changing the first element that satisfies a test -/

theorem find?_modifyFirst {α : Type} {p : α → Bool} {f : α → α} (hf : ∀ x, p (f x) = p x) (l : List α) :
    (modifyFirst p f l).find? p = (l.find? p).map f := by
  induction l with
  | nil => rfl
  | cons x l ih => by_cases hx : p x = true <;> simp [modifyFirst, hx, hf, ih]

theorem find?_modifyFirst_of_disjoint {α : Type} {p q : α → Bool} {f : α → α} (hf : ∀ x, q (f x) = q x)
    (hpq : ∀ x, p x = true → q x = false) (l : List α) : (modifyFirst p f l).find? q = l.find? q := by
  induction l with
  | nil => rfl
  | cons x l ih =>
    by_cases hx : p x = true
    · simp [modifyFirst, hx, hf, hpq]
    · simp [modifyFirst, hx, List.find?_cons, ih]

theorem modifyFirst_ne_nil {α : Type} {p : α → Bool} (f : α → α) {l : List α} (h : l.any p = true) :
    modifyFirst p f l ≠ [] := by
  cases l with
  | nil => simp at h
  | cons x l => unfold modifyFirst; split <;> simp

/-! ### Changing one round -/

theorem GutterRound.is_iff {x : GutterRound} {a b c : Nat} :
    x.is a b c = true ↔ x.copy = a ∧ x.tree = b ∧ x.round = c := by
  simp [GutterRound.is, and_assoc]

/-- A change of a round that leaves its copy, its tree and its number. -/
def KeepsRound (f : GutterRound → GutterRound) : Prop := ∀ x a b c, (f x).is a b c = x.is a b c

theorem GutterRound.is_unique {x : GutterRound} {copy tree k a b c : Nat} (h : x.is copy tree k = true)
    (h' : x.is a b c = true) : a = copy ∧ b = tree ∧ c = k := by
  obtain ⟨rfl, rfl, rfl⟩ := GutterRound.is_iff.1 h
  obtain ⟨rfl, rfl, rfl⟩ := GutterRound.is_iff.1 h'
  exact ⟨rfl, rfl, rfl⟩

section

variable {x : Suite} {copy tree k : Nat} {f : GutterRound → GutterRound} (hf : KeepsRound f)
include hf

theorem GutterRound.is_fresh : (f { copy, tree, round := k }).is copy tree k = true := by
  rw [hf]
  exact GutterRound.is_iff.2 ⟨rfl, rfl, rfl⟩

theorem Suite.round_modRound_self : (x.modRound copy tree k f).round copy tree k = f (x.round copy tree k) := by
  unfold Suite.modRound Suite.round
  split
  · next hany =>
    obtain ⟨y, hy⟩ := Option.isSome_iff_exists.1 (List.find?_isSome.2 (List.any_eq_true.1 hany))
    rw [find?_modifyFirst (fun x => hf x copy tree k), hy]
    rfl
  · next hnone =>
    have habsent : x.rounds.find? (·.is copy tree k) = none :=
      List.find?_eq_none.2 fun y hy h => hnone (List.any_eq_true.2 ⟨y, hy, h⟩)
    simp [habsent, GutterRound.is_fresh hf]

theorem Suite.round_modRound_ne {a b c : Nat} (h : ¬ (a = copy ∧ b = tree ∧ c = k)) :
    (x.modRound copy tree k f).round a b c = x.round a b c := by
  unfold Suite.modRound Suite.round
  split
  · rw [find?_modifyFirst_of_disjoint fun x => hf x a b c]
    exact fun y hy => Bool.eq_false_iff.2 fun hy' => h (GutterRound.is_unique hy hy')
  · have hfresh : (f { copy, tree, round := k }).is a b c = false :=
      Bool.eq_false_iff.2 fun h' => h (GutterRound.is_unique (GutterRound.is_fresh hf) h')
    simp [hfresh]

end

theorem Suite.modRound_frame (x : Suite) (copy tree k : Nat) (f : GutterRound → GutterRound) :
    ∃ rounds, rounds ≠ [] ∧ x.modRound copy tree k f = { x with rounds } := by
  unfold Suite.modRound
  split
  · next h => exact ⟨_, modifyFirst_ne_nil f h, rfl⟩
  · exact ⟨_, by simp, rfl⟩

/-- One round of Suite n has become `f` of it: every other round, and everything but the rounds of Suite n, stands. -/
structure State.TurnsRound (s t : State) (n copy tree k : Nat) (f : GutterRound → GutterRound) : Prop where
  frame : { t with suites := s.suites } = s
  others : ∀ m, m ≠ n → t.suite m = s.suite m
  suite : ∃ rounds, t.suite n = { s.suite n with rounds }
  round : ∀ a b c, (t.suite n).round a b c =
    if a = copy ∧ b = tree ∧ c = k then f ((s.suite n).round a b c) else (s.suite n).round a b c

theorem State.turnsRound_modRound (s : State) (n copy tree k : Nat) {f : GutterRound → GutterRound} (hf : KeepsRound f) :
    s.TurnsRound (s.modSuite n (·.modRound copy tree k f)) n copy tree k f := by
  obtain ⟨rounds, hne, hrounds⟩ := (s.suite n).modRound_frame copy tree k f
  have hsuite : (s.modSuite n (·.modRound copy tree k f)).suite n = (s.suite n).modRound copy tree k f :=
    State.suite_modSuite_of_ne _ _ _ (by rw [hrounds]; exact fun e => hne (congrArg Suite.rounds e))
  exact ⟨rfl, fun m hm => Store.get_set_ne _ _ _ _ _ hm, ⟨rounds, hsuite.trans hrounds⟩, fun a b c => by
    rw [hsuite]
    split
    · next hsame =>
      obtain ⟨rfl, rfl, rfl⟩ := hsame
      exact Suite.round_modRound_self hf
    · next hother => exact Suite.round_modRound_ne hf hother⟩

/-- A change that a round does not feel changes nothing. -/
theorem State.turnsRound_self {s : State} {n copy tree k : Nat} {f : GutterRound → GutterRound}
    (h : f ((s.suite n).round copy tree k) = (s.suite n).round copy tree k) : s.TurnsRound s n copy tree k f where
  frame := rfl
  others _ _ := rfl
  suite := ⟨_, rfl⟩
  round a b c := by
    split
    · next hsame =>
      obtain ⟨rfl, rfl, rfl⟩ := hsame
      exact h.symm
    · rfl

section

variable {s t u : State} {n copy tree k : Nat} {f g : GutterRound → GutterRound}

theorem State.TurnsRound.trans (h : s.TurnsRound t n copy tree k f) (h' : t.TurnsRound u n copy tree k g) :
    s.TurnsRound u n copy tree k fun x => g (f x) where
  frame := (congrArg (fun v : State => { v with suites := s.suites }) h'.frame).trans h.frame
  others m hm := (h'.others m hm).trans (h.others m hm)
  suite := by
    obtain ⟨_, ht⟩ := h.suite
    obtain ⟨rounds, hu⟩ := h'.suite
    exact ⟨rounds, by rw [hu, ht]⟩
  round a b c := by
    rw [h'.round, h.round]
    split <;> rfl

theorem State.TurnsRound.rooms (h : s.TurnsRound t n copy tree k f) : t.rooms = s.rooms := by rw [← h.frame]

theorem State.TurnsRound.pending (h : s.TurnsRound t n copy tree k f) : t.pending = s.pending := by rw [← h.frame]

theorem State.TurnsRound.replaced (h : s.TurnsRound t n copy tree k f) (rooms : Store Room) (suites : Store Suite) :
    ({ t with rooms, suites } : State) = { s with rooms, suites } := by rw [← h.frame]

theorem State.TurnsRound.round_self (h : s.TurnsRound t n copy tree k f) :
    (t.suite n).round copy tree k = f ((s.suite n).round copy tree k) := by simp [h.round]

/-- A change that leaves a component of every round leaves it of each. -/
theorem State.TurnsRound.component {β : Type} (h : s.TurnsRound t n copy tree k f) (p : GutterRound → β)
    (hp : ∀ x, p (f x) = p x) (a b c : Nat) : p ((t.suite n).round a b c) = p ((s.suite n).round a b c) := by
  rw [h.round]
  split
  · exact hp _
  · rfl

theorem State.TurnsRound.step (h : s.TurnsRound t n copy tree k f) (m : Nat) : (t.suite m).step = (s.suite m).step := by
  by_cases hm : m = n
  · subst hm
    obtain ⟨_, ht⟩ := h.suite
    rw [ht]
  · rw [h.others m hm]

theorem State.TurnsRound.vote (h : s.TurnsRound t n copy tree k f) (m : Nat) : (t.suite m).vote = (s.suite m).vote := by
  by_cases hm : m = n
  · subst hm
    obtain ⟨_, ht⟩ := h.suite
    rw [ht]
  · rw [h.others m hm]

end

/-! ### What a Room runs as -/

theorem State.tree_congr {s t : State} {n : Nat} (h : (t.suite n).step = (s.suite n).step) (tree : Nat) :
    t.tree n tree = s.tree n tree := by simp only [State.tree, h]

theorem State.ordinalOf_congr {s t : State} (hvote : ∀ m, (t.suite m).vote = (s.suite m).vote)
    (hmember : ∀ q, (t.room q).member = (s.room q).member) (r : Nat) : t.ordinalOf r = s.ordinalOf r := by
  simp only [State.ordinalOf, State.ordinal?, hvote, hmember]

theorem State.listener_congr {s t : State} (hvote : ∀ m, (t.suite m).vote = (s.suite m).vote)
    (hmember : ∀ q, (t.room q).member = (s.room q).member) (r : Nat) : t.listener r = s.listener r := by
  simp only [State.listener, hvote, hmember]

theorem State.member_modRoom {s : State} {r : Nat} {e : Room → Room} (hrun : (e (s.room r)).foreman.run ≠ .idle)
    (he : ∀ x, (e x).member = x.member) (q : Nat) : ((s.modRoom r e).room q).member = (s.room q).member := by
  by_cases hq : q = r
  · subst hq
    rw [State.room_modRoom_of_run hrun, he]
  · rw [State.modRoom, State.room_setRoom_ne _ _ _ _ hq]

/-! ### The contribution joins its round -/

/-- The number of a Room's own contribution among the arrivals of a round of a tree (R140). -/
def State.ownInput (s : State) (n r tree : Nat) : Nat := 2 * ((s.tree n tree).localNode (s.ordinalOf r)).getD 0

/-- The round has the contribution of an ordinal, and an ORDER (R136, R140). -/
def GutterRound.take (o : Bool) (ordinal : Nat) (bytes : List Byte) (x : GutterRound) : GutterRound :=
  { x with order := some o, inputs := Store.set [] x.inputs ordinal bytes }

theorem State.joinRound_of {s : State} {n copy tree k : Nat} {o : Bool}
    (hfailed : ((s.suite n).round copy tree k).failed = false)
    (horder : ((s.suite n).round copy tree k).order = none ∨ ((s.suite n).round copy tree k).order = some o) :
    ∃ u, s.joinRound n copy tree k o = (u, true) ∧ s.TurnsRound u n copy tree k ({ · with order := some o }) := by
  obtain horder | horder := horder
  · refine ⟨_, ?_, s.turnsRound_modRound n copy tree k (f := ({ · with order := some o })) fun _ _ _ _ => rfl⟩
    simp only [State.joinRound, horder, hfailed, Bool.not_false]
  · exact ⟨s, State.joinRound_of_same hfailed horder, State.turnsRound_self (by rw [← horder])⟩

/-- The head of a channel, if anything, arrives: only arrivals change. -/
theorem State.arriveHead_turns (s : State) (n copy r channel : Nat) : ∃ tree k l,
    s.TurnsRound (s.arriveHead n copy r channel) n copy tree k fun x => { x with arrived := x.arrived ++ l } := by
  unfold State.arriveHead
  split
  · exact ⟨0, 0, [], State.turnsRound_self (by simp)⟩
  · next x _ =>
    simp only
    split
    · exact ⟨0, 0, [], State.turnsRound_self (by simp)⟩
    · exact ⟨x.tree, x.round, _, s.turnsRound_modRound n copy x.tree x.round fun _ _ _ _ => rfl⟩

theorem State.arriveHead_of_send {s : State} {n copy r channel : Nat} {x : GutterOp} (hx : (s.room r).headOf channel = some x)
    (hsend : x.isSend = true) (hnew : s.ownInput n r x.tree ∉ ((s.suite n).round copy x.tree x.round).arrived) :
    s.TurnsRound (s.arriveHead n copy r channel) n copy x.tree x.round fun y =>
      { y with arrived := y.arrived ++ [s.ownInput n r x.tree] } := by
  have h := s.turnsRound_modRound n copy x.tree x.round
    (f := fun y => { y with arrived := y.arrived ++ [s.ownInput n r x.tree] }) fun _ _ _ _ => rfl
  simp only [State.ownInput] at hnew h ⊢
  simpa [State.arriveHead, hx, hsend, hnew] using h

theorem State.arriveHead_of_done {s : State} {n copy r channel : Nat} {x : GutterOp} (hx : (s.room r).headOf channel = some x)
    (hdone : x.isSend = false ∨ s.ownInput n r x.tree ∈ ((s.suite n).round copy x.tree x.round).arrived) :
    s.arriveHead n copy r channel = s := by
  simp only [State.ownInput] at hdone
  simp [State.arriveHead, hx, hdone]

/-! ### GSEND -/

/-- The Foreman has counted a send of a tree (R136). -/
def Foreman.countSend (tree k : Nat) (f : Foreman) : Foreman := { f with sends := Store.set 0 f.sends tree (k + 1) }

/-- The send of tile `d` into round `k` of a tree (R136). -/
def GutterOp.sendOf (t : Tree) (tree k : Nat) (d : Desc) (o : Bool) : GutterOp :=
  { isSend := true, tree, round := k, tile := d, order := o, piecesLeft := t.pieces }

/-- A Room whose Foreman has counted a send, which queues on its channel (R136, R137). -/
def Room.queueSend (t : Tree) (tree k : Nat) (d : Desc) (o : Bool) (x : Room) : Room :=
  { x.mapForeman (Foreman.countSend tree k) with gutter := x.gutter ++ [GutterOp.sendOf t tree k d o] }

theorem Room.headOf_queueSend (x : Room) (t : Tree) (tree k : Nat) (d : Desc) (o : Bool) :
    (x.queueSend t tree k d o).headOf (tree % 8) = (x.headOf (tree % 8)).or (some (GutterOp.sendOf t tree k d o)) := by
  simp [Room.queueSend, Room.mapForeman, Room.headOf, GutterOp.sendOf, List.find?_append]

section

variable {s u : State} {r n copy tree k ordinal : Nat} {t : Tree} {d : Desc} {o : Bool} {bytes : List Byte}
  (hidle : (s.room r).foreman.run ≠ .idle)
  (hheld : (s.modRoom r (Room.queueSend t tree k d o)).TurnsRound u n copy tree k (GutterRound.take o ordinal bytes))
include hidle hheld

theorem State.room_held : u.room r = (s.room r).queueSend t tree k d o :=
  (State.room_congr hheld.rooms r).trans (State.room_modRoom_of_run hidle)

theorem State.ownInput_held (tree' : Nat) : u.ownInput n r tree' = s.ownInput n r tree' := by
  have hordinal : u.ordinalOf r = s.ordinalOf r := State.ordinalOf_congr (s := s) (fun m => hheld.vote m)
    (fun q => (congrArg Room.member (State.room_congr hheld.rooms q)).trans
      (State.member_modRoom (e := Room.queueSend t tree k d o) hidle (fun _ => rfl) q)) r
  rw [State.ownInput, State.tree_congr (hheld.step n), hordinal]
  rfl

omit hidle in
theorem State.arrived_held (a b c : Nat) : ((u.suite n).round a b c).arrived = ((s.suite n).round a b c).arrived :=
  hheld.component GutterRound.arrived (fun _ => rfl) a b c

/-- On an idle channel a contribution arrives as soon as it is sent (R137, R140; log entry 25). -/
theorem State.arrived_of_idle_channel (hhead : (s.room r).headOf (tree % 8) = none)
    (hnew : s.ownInput n r tree ∉ ((s.suite n).round copy tree k).arrived) :
    (((u.arriveHead n copy r (tree % 8)).suite n).round copy tree k).arrived =
      ((s.suite n).round copy tree k).arrived ++ [s.ownInput n r tree] := by
  have hfirst : (u.room r).headOf (tree % 8) = some (GutterOp.sendOf t tree k d o) := by
    rw [State.room_held hidle hheld, Room.headOf_queueSend, hhead, Option.none_or]
  have hturn := State.arriveHead_of_send (n := n) (copy := copy) hfirst rfl (by
    rw [State.ownInput_held hidle hheld, State.arrived_held hheld]
    exact hnew)
  rw [State.ownInput_held hidle hheld] at hturn
  exact (congrArg GutterRound.arrived hturn.round_self).trans (congrArg (· ++ _) (State.arrived_held hheld ..))

/-- Behind an earlier instruction that has nothing left to bring, nothing arrives yet (R137). -/
theorem State.arrived_of_busy_channel {x : GutterOp} (hhead : (s.room r).headOf (tree % 8) = some x)
    (hdone : x.isSend = false ∨ s.ownInput n r x.tree ∈ ((s.suite n).round copy x.tree x.round).arrived) :
    (((u.arriveHead n copy r (tree % 8)).suite n).round copy tree k).arrived = ((s.suite n).round copy tree k).arrived := by
  have hfirst : (u.room r).headOf (tree % 8) = some x := by
    rw [State.room_held hidle hheld, Room.headOf_queueSend, hhead, Option.some_or]
  rw [State.arriveHead_of_done hfirst (by rwa [State.ownInput_held hidle hheld, State.arrived_held hheld])]
  exact State.arrived_held hheld copy tree k

end

section

variable {s : State} {r : Nat} {g : Guard} {ta : BitVec 4} {rs mode : BitVec 5} {n copy tree k : Nat} {d : Desc} {o : Bool}
  (hx : Executes s r g)
include hx

theorem State.listener_countSend : (s.modForeman r (Foreman.countSend tree k)).listener r = s.listener r :=
  have hidle : (s.room r).foreman.run ≠ .idle := hx.2.1.trans_ne (by decide)
  State.listener_congr (s := s) (t := s.modForeman r (Foreman.countSend tree k)) (fun _ => rfl)
    (State.member_modRoom (e := (·.mapForeman (Foreman.countSend tree k))) hidle fun _ => rfl) r

variable (hn : n = (s.suiteOf r).getD 0) (hcopy : copy = s.copyIdx r)
  (htree : tree = ((s.room r).foreman.reg rs).toNat % 4096) (hd : d = (s.room r).foreman.desc ta) (ho : o = mode.getLsbD 0)
  (hk : k = Store.get 0 (s.room r).foreman.sends tree)
  (hchecks : gutterFault d (s.tree n tree) ((s.tree n tree).localNode (s.ordinalOf r)).isSome o (s.det r) (s.portion r) = none)
include hn htree hd ho hk hchecks

/-- A listener's GSEND only counts its round (R340). -/
theorem exec_gsend_of_listener (hg : GoesOn s r) (h : s.listener r = true) : exec (.gsend r g ta rs mode) s =
    .next (did s r (Foreman.countSend tree k)) := by
  have hlistener := (State.listener_countSend (tree := tree) (k := k) hx).trans h
  rw [exec_gsend, execGsend]
  refine foremanOp_regs s r g _ _ hx hg ?_ rfl rfl rfl
  subst hn htree hd ho hk
  simp only [hchecks]
  exact if_pos hlistener

variable (hlistener : s.listener r = false)
include hcopy hlistener

/-- What a GSEND does that joins its round: its contribution is held, and what stands first on its channel arrives. -/
theorem exec_gsend_of {u : State}
    (hu : (s.modRoom r (Room.queueSend (s.tree n tree) tree k d o)).joinRound n copy tree k o = (u, true)) :
    exec (.gsend r g ta rs mode) s = .next (s.keepQueue (((u.modSuite n (·.modRound copy tree k fun x =>
      { x with inputs := Store.set [] x.inputs (s.ordinalOf r) (d.gatherBytes (s.room r).pantry) })).arriveHead n copy r
        (tree % 8)).advance r)) := by
  have hidle : (s.room r).foreman.run ≠ .idle := hx.2.1.trans_ne (by decide)
  have hl := (State.listener_countSend (tree := tree) (k := k) hx).trans hlistener
  have hpantry : ((s.modForeman r (Foreman.countSend tree k)).room r).pantry = (s.room r).pantry := by
    rw [State.room_modForeman s r _ hidle]
    rfl
  have hroom : (s.modForeman r (Foreman.countSend tree k)).modRoom r
      (fun x => { x with gutter := x.gutter ++ [GutterOp.sendOf (s.tree n tree) tree k d o] }) =
      s.modRoom r (Room.queueSend (s.tree n tree) tree k d o) := State.modRoom_modRoom_of_run _ hidle
  rw [exec_gsend, execGsend, foremanOp_of r g _ s hx]
  subst hn hcopy htree hd ho hk
  unfold Foreman.countSend at hl hpantry hroom
  unfold GutterOp.sendOf at hroom
  simp only [hchecks, hl, hpantry, hroom, hu, Bool.false_eq_true, if_false, Bool.not_true, Issue.result]

/-- The state in which the contribution is held comes from the Room that has queued its send by a turn of its round. -/
theorem exec_gsend_joins (hg : GoesOn s r) (hfailed : ((s.suite n).round copy tree k).failed = false)
    (horder : ((s.suite n).round copy tree k).order = none ∨ ((s.suite n).round copy tree k).order = some o) :
    ∃ u, (s.modRoom r (Room.queueSend (s.tree n tree) tree k d o)).TurnsRound u n copy tree k
        (GutterRound.take o (s.ordinalOf r) (d.gatherBytes (s.room r).pantry)) ∧
      exec (.gsend r g ta rs mode) s = .next ((u.arriveHead n copy r (tree % 8)).modForeman r passed) := by
  obtain ⟨u, hu, hturns⟩ := State.joinRound_of (s := s.modRoom r (Room.queueSend (s.tree n tree) tree k d o)) hfailed horder
  have hheld := hturns.trans (u.turnsRound_modRound n copy tree k
    (f := fun x => { x with inputs := Store.set [] x.inputs (s.ordinalOf r) (d.gatherBytes (s.room r).pantry) })
    fun _ _ _ _ => rfl)
  refine ⟨_, hheld, ?_⟩
  rw [exec_gsend_of hx hn hcopy htree hd ho hk hchecks hlistener hu]
  generalize u.modSuite n _ = v at hheld ⊢
  obtain ⟨_, _, _, harrive⟩ := v.arriveHead_turns n copy r (tree % 8)
  rw [State.advance_of, State.keepQueue_of]
  · exact harrive.pending.trans hheld.pending
  · unfold GoesOn
    rw [State.room_congr (harrive.rooms.trans hheld.rooms), State.room_modRoom_of_run (hx.2.1.trans_ne (by decide))]
    exact hg

end

/-- Settles O28, by the state in which the contribution is held, before the head of its channel arrives. -/
theorem gutterSend : Obligations.GutterSend := by
  unfold Obligations.GutterSend
  intro s r g ta rs mode n copy tree k d o hx hg hn hcopy htree hd ho hk hchecks
  refine ⟨exec_gsend_of_listener hx hn htree hd ho hk hchecks hg, fun hlistener hfailed horder => ?_⟩
  obtain ⟨u, hheld, hexec⟩ := exec_gsend_joins hx hn hcopy htree hd ho hk hchecks hlistener hg hfailed horder
  have hidle : (s.room r).foreman.run ≠ .idle := hx.2.1.trans_ne (by decide)
  have hround : (u.suite n).round copy tree k = _ := hheld.round_self
  obtain ⟨_, _, _, harrive⟩ := u.arriveHead_turns n copy r (tree % 8)
  refine ⟨_, hexec, ?_, ?_, State.arrived_of_idle_channel hidle hheld, fun x => State.arrived_of_busy_channel hidle hheld, ?_,
    fun q hq => ?_, fun m hm => (harrive.others m hm).trans (hheld.others m hm), ?_⟩
  · have hroom := (State.room_congr harrive.rooms r).trans (State.room_held hidle hheld)
    rw [State.room_modForeman _ _ _ (by rw [hroom]; exact hidle), hroom]
    rfl
  · exact (harrive.component GutterRound.order (fun _ => rfl) copy tree k).trans (congrArg GutterRound.order hround)
  · exact (harrive.component GutterRound.inputs (fun _ => rfl) copy tree k).trans (congrArg GutterRound.inputs hround)
  · rw [State.modForeman, State.modRoom, State.room_setRoom_ne _ _ _ _ hq, State.room_congr (harrive.rooms.trans hheld.rooms),
      State.modRoom, State.room_setRoom_ne _ _ _ _ hq]
  · exact (harrive.replaced s.rooms s.suites).trans (hheld.replaced s.rooms s.suites)

end Sys2Proof.Machine
end

section
/-! PROOF. GUTTER_PIECE_REDUCE (R138, R139, R142): the order of a fold, and the piece that a node puts out. -/

namespace Sys2Proof.Machine

open Sys2Proof.Safety

/-! ### The order of a fold (R138) -/

/-- Settles O31: the overflows, which the fold carries beside the words, decide no word. -/
theorem gutterFoldOrder : Obligations.GutterFoldOrder := by
  unfold Obligations.GutterFoldOrder
  intro f o x xs
  exact (List.foldl_hom Prod.fst fun acc y => List.map_zipWith.symm).symm

/-! ### The piece of a node (R138, R139, R142) -/

section

variable {s : State} {suite copy tree k node piece : Nat} {v : TreeNode}
  (hunits : (isSuite suite && isCopy copy && isTree tree node piece) = true) (hnode : (s.tree suite tree).nodes[node]? = some v)
include hunits hnode

theorem exec_gutterPieceReduce_of_missing
    (hmissing : nodeInputs ((s.suite suite).round copy tree k) (s.tree suite tree) node piece = none) :
    exec (.gutterPieceReduce suite copy tree k node piece) s = .next s := by
  rw [exec_gutterPieceReduce, execGutterPieceReduce, onUnits_of _ _ _ hunits]
  simp only [hnode, hmissing, ite_self]
  rfl

/-- The round remembers the elements of a piece that overflowed (R139). -/
def GutterRound.noteOverflow (t : Tree) (piece : Nat) (ovf : List Bool) (x : GutterRound) : GutterRound :=
  { x with overflow := x.overflow ++ ((List.range 16).filterMap fun i =>
      if ovf[i]? == some true && t.op = 0 then some (16 * piece + i) else none).filter fun e => !x.overflow.contains e }

/-- A node whose router works, whose paths stand and whose inputs are all there puts out the fold of the inputs. -/
theorem exec_gutterPieceReduce_of_ready {ins : List (List Byte)} {ws : List W32} {ovf : List Bool} (hport : v.port = 0)
    (hpiece : piece < (s.tree suite tree).pieces) (hout : ((s.suite suite).round copy tree k).out node piece = none)
    (hins : nodeInputs ((s.suite suite).round copy tree k) (s.tree suite tree) node piece = some ins)
    (hready : s.nodeReady suite copy tree k node piece = true)
    (hhead : v.isLocal = true → s.sendAtHead suite copy tree k v.ordinal = true)
    (hfold : foldPieces (s.tree suite tree).fmt (s.tree suite tree).op ins = (ws, ovf)) {u : State}
    (hu : u = (s.modSuite suite (·.modRound copy tree k (GutterRound.noteOverflow (s.tree suite tree) piece ovf))).putOut suite copy
      tree k node piece (if (s.tree suite tree).op = 3 then ins.headD [] else bytesOf ws)) :
    exec (.gutterPieceReduce suite copy tree k node piece) s =
      .next (s.keepQueue (if v.isLocal then u.tookPiece suite copy tree k v.ordinal else u)) := by
  have hgo : (v.port != 0 || decide ((s.tree suite tree).pieces ≤ piece) ||
      (((s.suite suite).round copy tree k).out node piece).isSome || !s.nodeReady suite copy tree k node piece) = false := by
    simp [hport, hpiece, hout, hready]
  have hsent : (v.isLocal && !s.sendAtHead suite copy tree k v.ordinal) = false := by
    cases h : v.isLocal
    · rfl
    · simp [hhead h]
  rw [exec_gutterPieceReduce, execGutterPieceReduce, onUnits_of _ _ _ hunits]
  simp only [hnode, hgo, hsent, hins, hfold, Bool.false_eq_true, if_false]
  rw [hu]
  rfl

end

/-- Settles O30, by the round that remembers the overflows of the piece. -/
theorem gutterReduce : Obligations.GutterReduce := by
  unfold Obligations.GutterReduce
  intro s u suite copy tree k node piece v ins bytes ws ovf hsuite hcopy htree hnode
  have hunits : (isSuite suite && isCopy copy && isTree tree node piece) = true := by rw [hsuite, hcopy, htree]; rfl
  refine ⟨exec_gutterPieceReduce_of_missing hunits hnode, fun hport hpiece hout hins hready hhead hfold hbytes hu => ?_⟩
  have hnoted : u = s.modSuite suite (·.modRound copy tree k (GutterRound.noteOverflow (s.tree suite tree) piece ovf)) := by
    rw [hu]
    unfold GutterRound.noteOverflow
    simp only [Bool.and_eq_true, beq_iff_eq, decide_eq_true_eq]
  rw [exec_gutterPieceReduce_of_ready hunits hnode hport hpiece hout hins hready hhead hfold rfl, hbytes, hnoted]

end Sys2Proof.Machine
end

section
/-! PROOF. Mortar ports (R142, R429 to R431): training, and the flits that arrive. -/

namespace Sys2Proof.Machine

open Sys2Proof.Safety

theorem State.port_modPort_ne (s : State) {p o : Nat} (f : MortarPort → MortarPort) (h : o ≠ p) :
    (s.modPort p f).port o = s.port o := Store.get_set_ne _ _ _ _ _ h

theorem State.port_keepQueue (s t : State) (p : Nat) : (s.keepQueue t).port p = t.port p := rfl

/-- A report and the refresh of what follows from it leave all but Floors, Halls, settings and outputs. -/
theorem State.report_refresh_frame (s : State) (cls code severity kind index household detail : Nat) :
    ∃ floors dict halls out, (s.report cls code severity kind index household detail).refresh =
      { s with floors, dict, halls, out } := by
  obtain ⟨halls, dict, out, h⟩ := s.report_frame cls code severity kind index household detail
  obtain ⟨⟨floors, dict', halls', out', h', -⟩, -⟩ :=
    (s.report cls code severity kind index household detail).refresh_frame
  exact ⟨floors, dict', halls', out', by rw [h', h]⟩

/-! ### Training (R429, R430) -/

/-- What a port takes over from its peer. -/
def MortarPort.meet (peer : MortarPeer) (x : MortarPort) : MortarPort :=
  { x with peerNode := peer.node, peerPlane := peer.plane, version := min peer.version 1 }

/-- A port that comes up on some lanes. -/
def MortarPort.comeUp (lanes : Nat) (x : MortarPort) : MortarPort :=
  { x with st := 2, lanes, group := [], failed := [], sent := [] }

theorem lanesUsed_of_few {n : Nat} (h : n < 2) : lanesUsed n = 0 := by
  rw [lanesUsed, if_neg (by omega), if_neg (by omega)]

theorem lanesUsed_of_two {n : Nat} (h : 2 ≤ n) : lanesUsed n = if 4 ≤ n then 4 else 2 := by rw [lanesUsed, if_pos h]

section

variable {s t : State} {p : Nat} {peer : MortarPeer}

theorem State.train_of_not_due (h : s.linked = false ∨ (s.port p).st ≠ 1) : s.train p peer = s := by
  refine if_pos ?_
  obtain h | h := h <;> simp [h]

variable (hlinked : s.linked = true) (hst : (s.port p).st = 1)
include hlinked hst

theorem State.train_of_due : s.train p peer =
    let t := s.modPort p (MortarPort.meet peer)
    if t.heldDown p peer then
      (t.modPort p ({ · with st := 3, lanes := 0 })).report 4 3 2 7 p 0 (Config.detail peer.plane peer.node)
    else if lanesUsed peer.lanes = 0 then t.modPort p ({ · with st := 0, lanes := 0 })
    else
      let u := t.modPort p (MortarPort.comeUp (lanesUsed peer.lanes))
      let v := if u.portDirection p = 6 && u.pairEpoch < peer.epoch then u.dictSet 0x5200 4 peer.epoch else u
      (State.report { v with linksLost := v.linksLost.filter (· != p), retraining := v.retraining.filter fun e => e.1 != p }
        4 2 0 7 p 0 (Config.detail peer.plane peer.node)).refresh := if_neg (by simp [hlinked, hst])

/-- A port that comes up changes itself, and what its report, the pair's epoch and the refresh change. -/
theorem State.train_of_lanes (hheld : (s.modPort p (MortarPort.meet peer)).heldDown p peer = false)
    (hlanes : 2 ≤ peer.lanes) : ∃ floors dict halls out retraining, s.train p peer =
      { (s.modPort p (MortarPort.meet peer)).modPort p (MortarPort.comeUp (lanesUsed peer.lanes)) with
        floors, dict, halls, out, retraining, linksLost := s.linksLost.filter (· != p) } := by
  have hused : lanesUsed peer.lanes ≠ 0 := by
    rw [lanesUsed_of_two hlanes]
    split <;> decide
  rw [State.train_of_due hlinked hst]
  simp only [hheld, hused, Bool.false_eq_true, if_false]
  generalize hu : (s.modPort p (MortarPort.meet peer)).modPort p (MortarPort.comeUp (lanesUsed peer.lanes)) = u
  have hlost : u.linksLost = s.linksLost := by rw [← hu]; rfl
  obtain ⟨dict, hdict⟩ : ∃ dict, (if u.portDirection p = 6 && u.pairEpoch < peer.epoch then u.dictSet 0x5200 4 peer.epoch
      else u) = { u with dict } := by
    split
    · exact ⟨_, rfl⟩
    · exact ⟨u.dict, rfl⟩
  obtain ⟨floors, dict', halls, out, h⟩ := State.report_refresh_frame { u with
    dict, linksLost := u.linksLost.filter (· != p), retraining := u.retraining.filter fun e => e.1 != p }
    4 2 0 7 p 0 (Config.detail peer.plane peer.node)
  rw [hdict, h, hlost]
  exact ⟨floors, dict', halls, out, _, rfl⟩

end

section

variable {s : State} {p : Nat} (hp : isMortar p = true)
include hp

theorem exec_mortarLinkTrain_of (peer : MortarPeer) :
    exec (.mortarLinkTrain p peer) s = .next (s.keepQueue (s.train p peer)) := by
  rw [exec_mortarLinkTrain, execMortarLinkTrain, onUnits_of _ _ _ hp]

section

variable {t : State} {peer : MortarPeer} (hlinked : s.linked = true) (hst : (s.port p).st = 1)
  (ht : t = s.modPort p (MortarPort.meet peer))
include hlinked hst ht

theorem exec_mortarLinkTrain_heldDown (hheld : t.heldDown p peer = true) : exec (.mortarLinkTrain p peer) s = .next (s.keepQueue
    ((t.modPort p ({ · with st := 3, lanes := 0 })).report 4 3 2 7 p 0 (Config.detail peer.plane peer.node))) := by
  subst ht
  rw [exec_mortarLinkTrain_of hp, State.train_of_due hlinked hst]
  simp only [hheld, if_true]

theorem exec_mortarLinkTrain_few_lanes (hheld : t.heldDown p peer = false) (hlanes : peer.lanes < 2) :
    exec (.mortarLinkTrain p peer) s = .next (s.keepQueue (t.modPort p ({ · with st := 0, lanes := 0 }))) := by
  subst ht
  rw [exec_mortarLinkTrain_of hp, State.train_of_due hlinked hst]
  simp only [hheld, lanesUsed_of_few hlanes, Bool.false_eq_true, if_false, if_true]

theorem exec_mortarLinkTrain_up (hheld : t.heldDown p peer = false) (hlanes : 2 ≤ peer.lanes) :
    ∃ u, exec (.mortarLinkTrain p peer) s = .next u ∧
      (u.port p).st = 2 ∧ (u.port p).lanes = (if 4 ≤ peer.lanes then 4 else 2) ∧ (u.port p).peerNode = peer.node ∧
      (∀ o, o ≠ p → u.port o = s.port o) ∧ p ∉ u.linksLost ∧ u.rooms = s.rooms ∧ u.hbm = s.hbm := by
  subst ht
  obtain ⟨_, _, _, _, _, htrain⟩ := State.train_of_lanes hlinked hst hheld hlanes
  have hmet : (s.modPort p (MortarPort.meet peer)).port p = (s.port p).meet peer :=
    State.port_modPort (by rw [MortarPort.meet, hst]; decide)
  have hport : (s.train p peer).port p = ((s.port p).meet peer).comeUp (lanesUsed peer.lanes) := by
    rw [htrain, ← hmet]
    exact State.port_modPort (s := s.modPort p (MortarPort.meet peer)) (f := MortarPort.comeUp _) nofun
  refine ⟨_, exec_mortarLinkTrain_of hp peer, ?_, ?_, ?_, fun o ho => ?_, ?_, ?_, ?_⟩
  · rw [State.port_keepQueue, hport]
    rfl
  · rw [State.port_keepQueue, hport, ← lanesUsed_of_two hlanes]
    rfl
  · rw [State.port_keepQueue, hport]
    rfl
  · rw [State.port_keepQueue, htrain]
    exact (State.port_modPort_ne _ _ ho).trans (State.port_modPort_ne _ _ ho)
  · rw [State.keepQueue_linksLost, htrain]
    simp
  · rw [State.keepQueue_rooms, htrain]
    rfl
  · rw [State.keepQueue_hbm, htrain]
    rfl

end

/-! ### Flits (R142, R431) -/

theorem exec_mortarFlitReceive_of_down (f : Flit) (hup : s.portUp p = false) : exec (.mortarFlitReceive p f) s = .next s := by
  rw [exec_mortarFlitReceive, execMortarFlitReceive, onUnits_of _ _ _ hp, State.takeFlit, if_pos (by simp [hup])]
  rfl

variable (hlinked : s.linked = true) (hup : s.portUp p = true)
include hlinked hup

/-- What a flit does at a port that is up. -/
theorem exec_mortarFlitReceive_of_up {f : Flit} {t : State}
    (ht : (!s.linked || !s.portUp p) = false → s.takeFlit p f = t) :
    exec (.mortarFlitReceive p f) s = .next (s.keepQueue t) := by
  rw [exec_mortarFlitReceive, execMortarFlitReceive, onUnits_of _ _ _ hp, ht (by rw [hlinked, hup]; rfl)]

theorem exec_mortarFlitReceive_failed : exec (.mortarFlitReceive p ⟨false, .other⟩) s = .next (s.keepQueue
    ((s.emit (.mortarReplay p)).modPort p fun x => { x with replays := satAdd 32 x.replays 1 })) :=
  exec_mortarFlitReceive_of_up hp hlinked hup fun h => if_neg (by simp [h])

/-- A flit whose check holds, neither of the Gutter nor a parity, is taken at once. -/
theorem exec_mortarFlitReceive_good {b : FlitBody} (hpiece : ∀ suite tree round node piece data,
    b ≠ .gutter suite tree round node piece data) (hparity : ∀ data, b ≠ .parity data) :
    exec (.mortarFlitReceive p ⟨true, b⟩) s = .next (s.keepQueue (s.takeBody p b)) := by
  refine exec_mortarFlitReceive_of_up hp hlinked hup fun h => ?_
  rw [State.takeFlit, if_neg (by simp [h])]
  cases b
  case gutter => exact absurd rfl (hpiece _ _ _ _ _ _)
  case parity => exact absurd rfl (hparity _)
  all_goals rfl

theorem exec_mortarFlitReceive_failed_piece (suite tree round node piece : Nat) (data : List Byte) :
    exec (.mortarFlitReceive p ⟨false, .gutter suite tree round node piece data⟩) s = .next (s.keepQueue (s.modPort p fun x =>
      { x with failed := x.failed ++ [.gutter suite tree round node piece data] })) :=
  exec_mortarFlitReceive_of_up hp hlinked hup fun h => if_neg (by simp [h])

theorem exec_mortarFlitReceive_piece (suite tree round node piece : Nat) (data : List Byte) :
    exec (.mortarFlitReceive p ⟨true, .gutter suite tree round node piece data⟩) s = .next (s.keepQueue
      ((s.modPort p fun x => { x with group := x.group ++ [data] }).takePiece p suite tree round node piece data)) :=
  exec_mortarFlitReceive_of_up hp hlinked hup fun h => if_neg (by simp [h])

theorem exec_mortarFlitReceive_parity (data : List Byte) :
    exec (.mortarFlitReceive p ⟨true, .parity data⟩) s = .next (s.keepQueue (s.closeGroup p true data)) :=
  exec_mortarFlitReceive_of_up hp hlinked hup fun h => if_neg (by simp [h])

end

section

variable {s t : State} {p : Nat} (ht : t = s.modPort p ({ · with group := [], failed := [] }))
include ht

/-- One failed flit of a group is rebuilt from the others and their parity (R142). -/
theorem State.closeGroup_of_one {b : FlitBody} (h : (s.port p).failed = [b]) (data : List Byte) : s.closeGroup p true data =
    (t.bump 0x2828 1 32).takeBody p (withData b ((s.port p).group.foldl xorBytes data)) := by
  simp only [State.closeGroup, h, ht]

theorem State.closeGroup_of_more {b b' : FlitBody} {l : List FlitBody} (h : (s.port p).failed = b :: b' :: l)
    (data : List Byte) : s.closeGroup p true data = (t.bump 0x2828 2 32).emit (.mortarReplay p) := by
  simp only [State.closeGroup, h, ht]

end

/-- A crossing edge whose operation is another one fails its round in both modules (R133, R142). -/
theorem State.takeEdge_of_op_ne {s : State} {p suite tree round node fmt op bytes : Nat} {extra : List Nat} {e : TreeNode}
    (hnode : (s.tree suite tree).nodes[node]? = some e) (hport : e.port = p + 1) (hchildren : e.children = 0)
    (hstep : (s.suite suite).step ≠ none) (hop : op ≠ (s.tree suite tree).op) :
    s.takeEdge p suite tree round node fmt op bytes extra =
      (s.failRound suite 0 tree round).emit (.gutterFail p suite tree round) := by
  simp [State.takeEdge, hnode, hport, hchildren, hstep, hop]

end Sys2Proof.Machine
end

section
/-! PROOF. Links that go down and come up (R333, R358, R421). -/

namespace Sys2Proof.Machine

open Sys2Proof.Safety

/-! ### What a report leaves of the settings and of the Halls -/

theorem State.dictGet_congr {s t : State} (h : t.dict = s.dict) (i k : Nat) : t.dictGet i k = s.dictGet i k := by
  simp only [State.dictGet, h]

theorem State.writeRecord_dict (s : State) (h : Nat) (r : Report) : (s.writeRecord h r).dict = s.dict := by
  obtain ⟨_, _, e⟩ := s.writeRecord_frame h r
  rw [e]

/-- A report counts in the Ledger's counters alone (R361), so that every setting below them reads as before. -/
theorem State.dictGet_report (s : State) (cls code severity kind index household detail : Nat) {j m : Nat} (hj : j < 0x5004)
    (hm : m < 256) : (s.report cls code severity kind index household detail).dictGet j m = s.dictGet j m := by
  have hcount (t : State) (h k : Nat) : (t.bump (0x5004 + h) k 32).dictGet j m = t.dictGet j m :=
    State.dictGet_dictSet_ne _ _ _ _ _ _ (by simp only [entry]; omega)
  unfold State.report
  split
  · rfl
  · unfold State.reportTo
    simp only
    split
    · split
      · exact hcount ..
      · rw [State.dictGet_congr (State.writeRecord_dict ..), hcount]
        exact hcount ..
    · split <;> exact hcount ..

theorem State.portDirection_report (s : State) (cls code severity kind index household detail : Nat) {p : Nat} (hp : p < 12) :
    (s.report cls code severity kind index household detail).portDirection p = s.portDirection p :=
  s.dictGet_report _ _ _ _ _ _ _ (by omega) (by decide)

/-- The Halls are in canonical form. -/
def State.HallsOk (s : State) : Prop := Store.wf ({} : Hall) s.halls = true

theorem State.HallsOk.modHall {s : State} (hs : s.HallsOk) (h : Nat) (f : Hall → Hall) : (s.modHall h f).HallsOk :=
  Store.wf_set _ _ _ _ hs

theorem State.HallsOk.modLedger {s : State} (hs : s.HallsOk) (h : Nat) (f : Ledger → Ledger) : (s.modLedger h f).HallsOk :=
  hs.modHall ..

theorem State.HallsOk.bump {s : State} (hs : s.HallsOk) (i k bits n : Nat) : (s.bump i k bits n).HallsOk := hs

theorem State.HallsOk.emit {s : State} (hs : s.HallsOk) (o : Output) : (s.emit o).HallsOk := hs

theorem State.HallsOk.sendVector {s : State} (hs : s.HallsOk) (h v : Nat) : (s.sendVector h v).HallsOk := by
  unfold State.sendVector
  split
  · exact hs
  · split
    · exact hs.modHall ..
    · exact hs

theorem State.HallsOk.writeRecord {s : State} (hs : s.HallsOk) (h : Nat) (r : Report) : (s.writeRecord h r).HallsOk := by
  unfold State.writeRecord
  simp only
  split
  · exact hs.modLedger ..
  · generalize (fun l : Ledger => Ledger.lastWord _ _) = f
    split
    · exact (hs.modLedger ..).sendVector ..
    · exact hs.modLedger ..

theorem State.HallsOk.report {s : State} (hs : s.HallsOk) (cls code severity kind index household detail : Nat) :
    (s.report cls code severity kind index household detail).HallsOk := by
  unfold State.report
  split
  · exact hs
  · unfold State.reportTo
    simp only
    split
    · split
      · exact (hs.bump ..).modLedger ..
      · exact (((hs.bump ..).modLedger ..).bump ..).writeRecord ..
    · split <;> exact (hs.bump ..).modLedger ..

/-! ### What the refresh leaves of a Hall -/

theorem State.hall_modHall {s : State} (hs : s.HallsOk) (h : Nat) (f : Hall → Hall) : (s.modHall h f).hall h = f (s.hall h) :=
  Store.get_set_self _ _ _ _ hs

theorem State.hall_congr {s t : State} (h : t.halls = s.halls) (k : Nat) : t.hall k = s.hall k := by
  simp only [State.hall, h]

theorem State.hall_emit (s : State) (o : Output) (k : Nat) : (s.emit o).hall k = s.hall k := rfl

theorem State.hall_takeover (s : State) (h k : Nat) : (s.takeover h).hall k = s.hall k := rfl

theorem State.HallsOk.takeover {s : State} (hs : s.HallsOk) (h : Nat) : (s.takeover h).HallsOk := hs

theorem State.feed_congr {s t : State} (h : t.ingest = s.ingest) (p : Nat) : t.feed p = s.feed p := by
  simp only [State.feed, h]

theorem IngestPort.ne_default_of_up {x : IngestPort} (h : x.up = true) : x ≠ {} := fun e => by
  rw [e] at h
  exact Bool.noConfusion h

theorem State.feed_modFeed {s : State} {p : Nat} {f : IngestPort → IngestPort} (h : f (s.feed p) ≠ {}) :
    (s.modFeed p f).feed p = f (s.feed p) := Store.get_set_self_of_ne _ _ _ _ h

theorem State.feed_modFeed_of_wf {s : State} (p : Nat) (f : IngestPort → IngestPort)
    (hwf : Store.wf ({} : IngestPort) s.ingest = true) : (s.modFeed p f).feed p = f (s.feed p) :=
  Store.get_set_self _ _ _ _ hwf

theorem State.port_modPort_of_wf {s : State} (p : Nat) (f : MortarPort → MortarPort)
    (hwf : Store.wf ({} : MortarPort) s.mortar = true) : (s.modPort p f).port p = f (s.port p) :=
  Store.get_set_self _ _ _ _ hwf

theorem State.feed_keepQueue (s t : State) (p : Nat) : (s.keepQueue t).feed p = t.feed p := rfl

theorem State.port_congr {s t : State} (h : t.mortar = s.mortar) (p : Nat) : t.port p = s.port p := by
  simp only [State.port, h]

theorem State.hostUp_refreshRegister {s : State} (hs : s.HallsOk) (h k : Nat) :
    (s.refreshRegister h).HallsOk ∧ ((s.refreshRegister h).hall k).hostUp = (s.hall k).hostUp := by
  unfold State.refreshRegister
  simp only
  split
  · exact ⟨hs, rfl⟩
  · refine ⟨(hs.modHall ..).emit _, ?_⟩
    by_cases hk : k = h
    · subst hk
      rw [State.hall_emit, State.hall_modHall hs]
    · exact congrArg Hall.hostUp (Store.get_set_ne _ _ _ _ _ hk)

/-- The refresh changes no Hall but in its error register. -/
theorem State.hostUp_refresh {s : State} (hs : s.HallsOk) (k : Nat) : (s.refresh.hall k).hostUp = (s.hall k).hostUp := by
  obtain ⟨_, hfloors⟩ := State.refreshFloors_frame 4 s
  obtain ⟨⟨_, hreasons⟩, -⟩ := State.refreshReasons_frame 8
    (iterate (fun f s => s.modFloor f ({ · with applied := s.lowest f })) 4 s)
  rw [State.refresh_eq]
  generalize hu : iterate State.refreshReason 8 (iterate (fun f s => s.modFloor f ({ · with applied := s.lowest f })) 4 s) = u
  have hhalls : u.halls = s.halls := by rw [← hu, hreasons, hfloors]
  have hus : u.HallsOk := by
    unfold State.HallsOk
    rw [hhalls]
    exact hs
  obtain ⟨hok, hfirst⟩ := State.hostUp_refreshRegister hus 0 k
  exact (State.hostUp_refreshRegister hok 1 k).2.trans (hfirst.trans (congrArg Hall.hostUp (State.hall_congr hhalls k)))

/-! ### Tunnels that are lost with their links (R300) -/

theorem State.loseTunnels_frame (s : State) (ports : Nat → Bool) : ∃ halls, s.loseTunnels ports = { s with halls } :=
  ⟨_, rfl⟩

/-! ### LINK_DOWN -/

/-- Between the Mortar ports and the ingest ports there is no link (R356). -/
theorem sixteen_le_of_isLink {l : Nat} (h : isLink l = true) (hl : 12 ≤ l) : 16 ≤ l := by
  simp only [isLink, Bool.or_eq_true, Bool.and_eq_true, decide_eq_true_eq, beq_iff_eq] at h
  omega

/-- The state in which a link is noted as lost, before its own consequences (R358). -/
def State.noteDown (s : State) (l : Nat) : State :=
  let t := s.report 4 1 2 7 l 0 (s.linkPeer l)
  { t with linksLost := t.linksLost ++ [l], retraining := t.retraining.filter fun e => e.1 != l }

theorem State.noteDown_fields (s : State) (l : Nat) : (s.noteDown l).linksLost = s.linksLost ++ [l] ∧
    (s.noteDown l).mortar = s.mortar ∧ (s.noteDown l).ingest = s.ingest ∧ (s.noteDown l).rooms = s.rooms ∧
    (s.noteDown l).suites = s.suites ∧ (s.noteDown l).hbm = s.hbm := by
  obtain ⟨_, _, _, h⟩ := s.report_frame 4 1 2 7 l 0 (s.linkPeer l)
  rw [State.noteDown, h]
  exact ⟨rfl, rfl, rfl, rfl, rfl, rfl⟩

theorem State.HallsOk.noteDown {s : State} (hs : s.HallsOk) (l : Nat) : (s.noteDown l).HallsOk :=
  hs.report 4 1 2 7 l 0 (s.linkPeer l)

theorem State.portDirection_noteDown (s : State) (l : Nat) {p : Nat} (hp : p < 12) :
    (s.noteDown l).portDirection p = s.portDirection p := s.portDirection_report _ _ _ _ _ _ _ hp

theorem State.refresh_fields (s : State) : s.refresh.linksLost = s.linksLost ∧ s.refresh.mortar = s.mortar ∧
    s.refresh.ingest = s.ingest ∧ s.refresh.rooms = s.rooms ∧ s.refresh.suites = s.suites ∧ s.refresh.hbm = s.hbm := by
  obtain ⟨⟨_, _, _, _, h, -⟩, -⟩ := s.refresh_frame
  rw [h]
  exact ⟨rfl, rfl, rfl, rfl, rfl, rfl⟩

section

variable {s : State} {l : Nat} (hsilent : s.failSilent = false) (hawake : s.asleep = false)
include hsilent hawake

section

variable (hlost : l ∉ s.linksLost)
include hlost

/-- What follows the note of a lost Mortar, ingest or host link. -/
theorem State.linkDown_of (hl : l < 26) : s.linkDown l =
    (if l < 12 then (((s.noteDown l).modPort l ({ · with st := 0, lanes := 0 })).loseTunnels (· == l)).portLost l
     else if l < 20 then (s.noteDown l).modFeed (l - 16) ({ · with up := false })
     else ((s.noteDown l).modHall (l - 24) ({ · with hostUp := false, hostRate := 0, hostWidth := 0 })).takeover
       (l - 24)).refresh := by
  have hfirst : ¬ 32 ≤ l := by omega
  unfold State.linkDown
  rw [if_neg (by simp [hsilent, hawake, hlost])]
  simp only [hfirst, hl, decide_false, Bool.false_and, Bool.false_eq_true, if_false, if_true]
  rfl

/-- A Mortar port that is no pair link takes no partner with it (R333). -/
theorem State.linkDown_of_mortar (hl : l < 12) (hdirection : s.portDirection l ≠ 6) : s.linkDown l =
    (((s.noteDown l).modPort l ({ · with st := 0, lanes := 0 })).loseTunnels (· == l)).refresh := by
  have hkept : (((s.noteDown l).modPort l ({ · with st := 0, lanes := 0 })).loseTunnels (· == l)).portDirection l =
    s.portDirection l := s.portDirection_noteDown l hl
  rw [State.linkDown_of hsilent hawake hlost (by omega), if_pos hl, State.portLost, hkept, if_neg (by simp [hdirection])]

end

variable (hlink : isLink l = true)
include hlink

omit hsilent hawake in
theorem exec_linkDown_of_lost (hlost : l ∈ s.linksLost) : exec (.linkDown l) s = .next s := by
  rw [exec_linkDown, execLinkDown, onUnits_of _ _ _ hlink, State.linkDown, if_pos (by simp [hlost])]
  rfl

omit hsilent hawake in
/-- The refresh at the end of LINK_DOWN leaves links, ports, Rooms, Suites, memory and the host links as they came to stand. -/
theorem exec_linkDown_of {u : State} (hu : s.linkDown l = u.refresh) : ∃ v, exec (.linkDown l) s = .next v ∧
    v.linksLost = u.linksLost ∧ v.mortar = u.mortar ∧ v.ingest = u.ingest ∧ v.rooms = u.rooms ∧ v.suites = u.suites ∧
    v.hbm = u.hbm ∧ (u.HallsOk → ∀ k, (v.hall k).hostUp = (u.hall k).hostUp) := by
  obtain ⟨hlinks, hmortar, hingest, hrooms, hsuites, hhbm⟩ := u.refresh_fields
  have hhost : u.HallsOk → ∀ k, (u.refresh.hall k).hostUp = (u.hall k).hostUp := State.hostUp_refresh
  rw [exec_linkDown, execLinkDown, onUnits_of _ _ _ hlink, hu]
  generalize u.refresh = v at hlinks hmortar hingest hrooms hsuites hhbm hhost ⊢
  exact ⟨s.keepQueue v, rfl, hlinks, hmortar, hingest, hrooms, hsuites, hhbm, hhost⟩

section

variable (hlost : l ∉ s.linksLost)
include hlost

theorem exec_linkDown_mortar (hl : l < 12) (hdirection : s.portDirection l ≠ 6)
    (hwf : Store.wf ({} : MortarPort) s.mortar = true) : ∃ u, exec (.linkDown l) s = .next u ∧
      u.linksLost = s.linksLost ++ [l] ∧ (u.port l).st = 0 ∧ u.ingest = s.ingest ∧ u.rooms = s.rooms ∧ u.suites = s.suites ∧
      u.hbm = s.hbm := by
  obtain ⟨hnlinks, hnmortar, hningest, hnrooms, hnsuites, hnhbm⟩ := s.noteDown_fields l
  have hdown := State.linkDown_of_mortar hsilent hawake hlost hl hdirection
  obtain ⟨_, htunnels⟩ := ((s.noteDown l).modPort l ({ · with st := 0, lanes := 0 })).loseTunnels_frame (· == l)
  rw [htunnels] at hdown
  obtain ⟨v, hexec, hlinks, hmortar, hingest, hrooms, hsuites, hhbm, -⟩ := exec_linkDown_of hlink hdown
  refine ⟨v, hexec, ?_, ?_, ?_, ?_, ?_, ?_⟩
  · rw [hlinks, State.modPort_linksLost, hnlinks]
  · have hport := State.port_congr (s := (s.noteDown l).modPort l ({ · with st := 0, lanes := 0 })) hmortar l
    rw [hport, State.port_modPort_of_wf _ _ (hnmortar ▸ hwf)]
  · rw [hingest, State.modPort_ingest, hningest]
  · rw [hrooms, State.modPort_rooms, hnrooms]
  · rw [hsuites, State.modPort_suites, hnsuites]
  · rw [hhbm, State.modPort_hbm, hnhbm]

theorem exec_linkDown_ingest (hl : 16 ≤ l) (hl' : l < 20) (hwf : Store.wf ({} : IngestPort) s.ingest = true) :
    ∃ u, exec (.linkDown l) s = .next u ∧ u.linksLost = s.linksLost ++ [l] ∧ (u.feed (l - 16)).up = false ∧
      u.mortar = s.mortar ∧ u.rooms = s.rooms ∧ u.suites = s.suites ∧ u.hbm = s.hbm := by
  obtain ⟨hnlinks, hnmortar, hningest, hnrooms, hnsuites, hnhbm⟩ := s.noteDown_fields l
  have hdown := State.linkDown_of hsilent hawake hlost (by omega)
  rw [if_neg (by omega), if_pos hl'] at hdown
  obtain ⟨v, hexec, hlinks, hmortar, hingest, hrooms, hsuites, hhbm, -⟩ := exec_linkDown_of hlink hdown
  refine ⟨v, hexec, hlinks.trans hnlinks, ?_, hmortar.trans hnmortar, hrooms.trans hnrooms, hsuites.trans hnsuites,
    hhbm.trans hnhbm⟩
  rw [State.feed_congr hingest, State.feed_modFeed_of_wf _ _ (hningest ▸ hwf)]

theorem exec_linkDown_host {h : Nat} (hl : l = 24 + h) (hh : h < 2) (hwf : s.HallsOk) :
    ∃ u, exec (.linkDown l) s = .next u ∧ u.linksLost = s.linksLost ++ [l] ∧ (u.hall h).hostUp = false ∧
      u.rooms = s.rooms ∧ u.suites = s.suites ∧ u.mortar = s.mortar ∧ u.ingest = s.ingest := by
  have hok : (s.noteDown l).HallsOk := hwf.noteDown l
  obtain ⟨hnlinks, hnmortar, hningest, hnrooms, hnsuites, -⟩ := s.noteDown_fields l
  have hdown := State.linkDown_of hsilent hawake hlost (by omega)
  rw [if_neg (by omega), if_neg (by omega), show l - 24 = h by omega] at hdown
  obtain ⟨v, hexec, hlinks, hmortar, hingest, hrooms, hsuites, -, hhost⟩ := exec_linkDown_of hlink hdown
  refine ⟨v, hexec, hlinks.trans hnlinks, (hhost ((hok.modHall ..).takeover h) h).trans ?_, hrooms.trans hnrooms,
    hsuites.trans hnsuites, hmortar.trans hnmortar, hingest.trans hningest⟩
  rw [State.hall_takeover, State.hall_modHall hok]

end

end

/-! ### LINK_UP -/

/-- The state in which a link is noted as up again, before it works (R358). -/
def State.noteUp (s : State) (l : Nat) : State :=
  let t := s.report 4 2 0 7 l
  { t with linksLost := t.linksLost.filter (· != l), retraining := t.retraining.filter fun e => e.1 != l }

theorem State.noteUp_fields (s : State) (l : Nat) : (s.noteUp l).linksLost = s.linksLost.filter (· != l) ∧
    (s.noteUp l).rooms = s.rooms ∧ (s.noteUp l).hbm = s.hbm := by
  obtain ⟨_, _, _, h⟩ := s.report_frame 4 2 0 7 l 0 0
  rw [State.noteUp, h]
  exact ⟨rfl, rfl, rfl⟩

section

variable {s : State} {l : Nat} (hlink : isLink l = true) (rate width : Nat)
include hlink

theorem exec_linkUp_of_mortar (hl : l < 12) : exec (.linkUp l rate width) s = .next s := by
  rw [exec_linkUp, execLinkUp, onUnits_of _ _ _ hlink, if_pos (by simp [hl])]
  rfl

theorem exec_linkUp_ingest (hsilent : s.failSilent = false) (hawake : s.asleep = false) (hl : 16 ≤ l) (hl' : l < 20) :
    ∃ u, exec (.linkUp l rate width) s = .next u ∧ l ∉ u.linksLost ∧ (u.feed (l - 16)).up = true ∧ u.rooms = s.rooms ∧
      u.hbm = s.hbm := by
  have hexec : exec (.linkUp l rate width) s =
      .next (s.keepQueue ((s.noteUp l).modFeed (l - 16) ({ · with up := true })).refresh) := by
    rw [exec_linkUp, execLinkUp, onUnits_of _ _ _ hlink, if_neg (by simpa [hsilent, hawake] using (by omega : 12 ≤ l))]
    simp only [hl', if_true]
    rfl
  obtain ⟨hnlinks, hnrooms, hnhbm⟩ := s.noteUp_fields l
  obtain ⟨hlinks, -, hingest, hrooms, -, hhbm⟩ := ((s.noteUp l).modFeed (l - 16) ({ · with up := true })).refresh_fields
  refine ⟨_, hexec, ?_, ?_, ?_, ?_⟩
  · rw [State.keepQueue_linksLost, hlinks, State.modFeed, hnlinks]
    simp
  · rw [State.feed_keepQueue, State.feed_congr hingest, State.feed_modFeed (IngestPort.ne_default_of_up rfl)]
  · rw [State.keepQueue_rooms, hrooms, State.modFeed_rooms, hnrooms]
  · rw [State.keepQueue_hbm, hhbm, State.modFeed_hbm, hnhbm]

end

end Sys2Proof.Machine
end

section
/-! PROOF. NODE_PLANE_WRITE for NODE (R24, R433), and the statement on links. -/

namespace Sys2Proof.Machine

open Sys2Proof.Safety

/-! ### The answer to a setting -/

theorem State.reply_frame (s : State) (q : Chan) (i sub code : Nat) (data : List Byte) :
    ∃ halls out, s.reply q i sub code data = { s with halls, out } := by cases q <;> exact ⟨_, _, rfl⟩

theorem answered_frame (s t : State) (q : Chan) (i sub : Nat) :
    ∃ splitWrites halls out, answered s t q i sub = { t with splitWrites, halls, out } := by
  obtain ⟨halls, out, h⟩ := (noted s t q i sub).reply_frame q i sub 0 []
  rw [answered, h, noted]
  split
  · exact ⟨_, halls, out, rfl⟩
  · exact ⟨t.splitWrites, halls, out, rfl⟩

/-! ### Every Mortar port retrains (R433) -/

/-- The first n Mortar ports change, and nothing else of the module. -/
theorem State.iterate_modPort {f : MortarPort → MortarPort} (hf : ∀ x, (f x).st ≠ 0) (n : Nat) (s : State) :
    (∀ p < n, ∃ x, (iterate (fun p s => s.modPort p f) n s).port p = f x) ∧
      ∃ mortar, iterate (fun p s => s.modPort p f) n s = { s with mortar } := by
  induction n with
  | zero => exact ⟨nofun, s.mortar, rfl⟩
  | succ n ih =>
    obtain ⟨hports, mortar, hframe⟩ := ih
    rw [iterate]
    refine ⟨fun p hp => ?_, _, by rw [hframe]; rfl⟩
    by_cases hpn : p = n
    · subst hpn
      exact ⟨_, State.port_modPort (hf _)⟩
    · rw [State.port_modPort_ne _ _ hpn]
      exact hports p (by omega)

/-- From stage 9 on every Mortar port trains again. -/
theorem State.retrainAll_of_stage {s : State} (h : (s.hall s.senior).up.stage = 9) :
    (∀ p < 12, (s.retrainAll.port p).st = 1 ∧ (s.retrainAll.port p).lanes = 0) ∧
      ∃ halls mortar, s.retrainAll = { s with halls, mortar } := by
  obtain ⟨hports, mortar, hframe⟩ := State.iterate_modPort (f := ({ · with st := 1, lanes := 0 })) (fun _ => nofun) 12 s
  rw [State.retrainAll, if_neg (by omega)]
  generalize iterate (fun p s => State.modPort s p ({ · with st := 1, lanes := 0 })) 12 s = t at hports hframe ⊢
  obtain ⟨halls, htunnels⟩ := t.loseTunnels_frame fun _ => true
  rw [htunnels]
  refine ⟨fun p hp => ?_, halls, mortar, by rw [hframe]⟩
  obtain ⟨x, hx⟩ := hports p hp
  have hport : (t.port p).st = 1 ∧ (t.port p).lanes = 0 := by rw [hx]; exact ⟨rfl, rfl⟩
  exact hport

section

variable {s : State} {q : Chan} {v : BitVec 16} (hserved : Served s q 0x2851 4 2)
include hserved

theorem exec_nodePlaneWrite_high (hv : 32767 < v.toNat) :
    exec (.nodePlaneWrite q false v) s = .next (s.keepQueue (s.refuse q 0x2851 4 0x06090031)) := by
  rw [exec_nodePlaneWrite, execNodePlaneWrite, onUnits_of _ _ _ (served_isChan hserved), if_neg Bool.false_ne_true,
    served_refused s q 0x2851 4 abHigh (leBytes 2 v.toNat) _ hserved]
  · rfl
  · simp [actNodePlane, judged, must, Nat.not_le.2 hv]

variable (hfree : ∀ e ∈ s.suites, e.2.st = .free) (hv : v.toNat ≤ 32767)
include hfree hv

theorem exec_nodePlaneWrite_node : exec (.nodePlaneWrite q false v) s = .next (s.keepQueue
    (answered s (s.dictSet 0x2851 4 v.toNat).retrainAll q 0x2851 4)) := by
  have hnone : (s.suites.all fun e => e.2.st == .free) = true := List.all_eq_true.2 fun e he => by simp [hfree e he]
  rw [exec_nodePlaneWrite, execNodePlaneWrite, onUnits_of _ _ _ (served_isChan hserved), if_neg Bool.false_ne_true,
    served_done s (s.dictSet 0x2851 4 v.toNat).retrainAll q 0x2851 4 (leBytes 2 v.toNat) _ hserved]
  simp [actNodePlane, judged, must, hv, hnone]

theorem exec_nodePlaneWrite_retrains (hstage : (s.hall s.senior).up.stage = 9) :
    ∃ u, exec (.nodePlaneWrite q false v) s = .next u ∧ (∀ p < 12, (u.port p).st = 1 ∧ (u.port p).lanes = 0) ∧
      u.rooms = s.rooms ∧ u.suites = s.suites := by
  refine ⟨_, exec_nodePlaneWrite_node hserved hfree hv, ?_⟩
  obtain ⟨hports, _, _, hframe⟩ := State.retrainAll_of_stage (s := s.dictSet 0x2851 4 v.toNat) hstage
  obtain ⟨_, _, _, hanswered⟩ := answered_frame s (s.dictSet 0x2851 4 v.toNat).retrainAll q 0x2851 4
  rw [hanswered]
  generalize (s.dictSet 0x2851 4 v.toNat).retrainAll = t at hports hframe ⊢
  refine ⟨hports, ?_, ?_⟩ <;> rw [hframe] <;> rfl

end

theorem exec_lineDown_of (s : State) : exec .lineDown s = .next { s with lineDown := true } := by
  rw [exec_lineDown, execLineDown, onUnits_next]
  rfl

/-- Settles O52, by the lemmas about each event, in the order of its clauses. -/
theorem linkEvents : Obligations.LinkEvents := by
  unfold Obligations.LinkEvents
  intro s t p l h rate width fab st suite tree round node fmt op bytes extra peer b b' data q v e
  refine ⟨fun hp => ⟨fun h => ?_, fun hlinked hst ht => ⟨exec_mortarLinkTrain_heldDown hp hlinked hst ht,
        exec_mortarLinkTrain_few_lanes hp hlinked hst ht, exec_mortarLinkTrain_up hp hlinked hst ht⟩,
      fun hlinked hup => ⟨exec_mortarFlitReceive_failed hp hlinked hup, ?_, ?_, ?_, fun ht => ⟨fun hfailed => ?_,
        fun l hfailed => ?_⟩, fun hnode hport hchildren hstep hop => ?_⟩, exec_mortarFlitReceive_of_down hp _⟩,
    fun hlink hsilent hawake hmortar hingest hhalls => ⟨exec_linkDown_of_lost hlink, fun hlost hl hdirection => ?_,
      fun hlost hl hh => exec_linkDown_host hsilent hawake hlink hlost hl hh hhalls, exec_linkUp_of_mortar hlink rate width,
      exec_linkUp_ingest hlink rate width hsilent hawake⟩,
    fun hserved hfree hv => ⟨exec_nodePlaneWrite_node hserved hfree hv,
      fun hstage _ => exec_nodePlaneWrite_retrains hserved hfree hv hstage⟩, exec_nodePlaneWrite_high, exec_lineDown_of s⟩
  · rw [exec_mortarLinkTrain_of hp, State.train_of_not_due h]
    rfl
  · exact exec_mortarFlitReceive_good (b := .other) hp hlinked hup nofun nofun
  · exact exec_mortarFlitReceive_good (b := .response fab st data) hp hlinked hup nofun nofun
  · rintro rfl
    exact ⟨exec_mortarFlitReceive_failed_piece hp hlinked hup .., exec_mortarFlitReceive_piece hp hlinked hup ..⟩
  · rw [exec_mortarFlitReceive_parity hp hlinked hup, State.closeGroup_of_one ht hfailed]
  · rw [exec_mortarFlitReceive_parity hp hlinked hup, State.closeGroup_of_more ht hfailed]
  · rw [← State.takeEdge_of_op_ne hnode hport hchildren hstep hop]
    exact exec_mortarFlitReceive_good (b := .gutterEdge suite tree round node fmt op bytes extra) hp hlinked hup nofun nofun
  · obtain hl' | hl' := Nat.lt_or_ge l 12
    · obtain ⟨u, hexec, hlinks, hport, hing, hrooms, hsuites, hhbm⟩ :=
        exec_linkDown_mortar hsilent hawake hlink hlost hl' (hdirection.resolve_left (by omega)) hmortar
      exact ⟨u, hexec, hlinks, fun _ => ⟨hport, hing⟩, fun h => absurd h (by omega), hrooms, hsuites, hhbm⟩
    · obtain ⟨u, hexec, hlinks, hup, hmort, hrooms, hsuites, hhbm⟩ :=
        exec_linkDown_ingest hsilent hawake hlink hlost (sixteen_le_of_isLink hlink hl') hl hingest
      exact ⟨u, hexec, hlinks, fun h => absurd h (by omega), fun _ => ⟨hup, hmort⟩, hrooms, hsuites, hhbm⟩

end Sys2Proof.Machine
end

section
/-! PROOF. Memories (R144, R148, R151): a canonical store is determined by what it reads, a written range is read back, and a
write to good units of usable groups is one write to memory. -/

namespace Sys2Proof.Machine

/-! ### Canonical stores -/

section

variable {α : Type} [DecidableEq α] {d : α}

theorem Store.wfFrom_cons_iff {m : Store α} {lo k : Nat} {v : α} :
    Store.wfFrom d lo ((k, v) :: m) = true ↔ lo ≤ k ∧ v ≠ d ∧ Store.wfFrom d (k + 1) m = true := by
  simp [Store.wfFrom, and_assoc]

/-- The first key of a canonical store is the lowest at which it reads anything but the default. -/
theorem Store.firstKey_le {m n : Store α} {lo j k : Nat} {v w : α} (hm : v ≠ d)
    (hn : Store.wfFrom d lo ((j, w) :: n) = true) (h : ∀ i, Store.get d ((k, v) :: m) i = Store.get d ((j, w) :: n) i) :
    j ≤ k := by
  by_contra hlt
  obtain ⟨-, hw, hrest⟩ := Store.wfFrom_cons_iff.1 hn
  have hdefault : Store.get d ((j, w) :: n) k = d :=
    Store.get_of_wfFrom d _ j k (by omega) (Store.wfFrom_cons_iff.2 ⟨le_rfl, hw, hrest⟩)
  exact hm (by simpa [Store.get] using (h k).trans hdefault)

theorem Store.eq_of_wfFrom {m n : Store α} {lo : Nat} (hm : Store.wfFrom d lo m = true) (hn : Store.wfFrom d lo n = true)
    (h : ∀ k, Store.get d m k = Store.get d n k) : m = n := by
  induction m generalizing n lo with
  | nil =>
    cases n with
    | nil => rfl
    | cons e n => exact absurd (by simpa [Store.get] using (h e.1).symm) (Store.wfFrom_cons_iff.1 hn).2.1
  | cons e m ih =>
    obtain ⟨k, v⟩ := e
    obtain ⟨-, hv, hm'⟩ := Store.wfFrom_cons_iff.1 hm
    cases n with
    | nil => exact absurd (by simpa [Store.get] using h k) hv
    | cons e' n =>
      obtain ⟨j, w⟩ := e'
      obtain ⟨-, hw, hn'⟩ := Store.wfFrom_cons_iff.1 hn
      obtain rfl : k = j := Nat.le_antisymm (Store.firstKey_le hw hm fun i => (h i).symm) (Store.firstKey_le hv hn h)
      obtain rfl : v = w := by simpa [Store.get] using h k
      refine congrArg _ (ih hm' hn' fun i => ?_)
      by_cases hi : i = k
      · rw [Store.get_of_wfFrom d m (k + 1) i (by omega) hm', Store.get_of_wfFrom d n (k + 1) i (by omega) hn']
      · simpa [Store.get, hi] using h i

/-- Equal contents are equal data. -/
theorem Store.eq_of_get {m n : Store α} (hm : Store.wf d m = true) (hn : Store.wf d n = true)
    (h : ∀ k, Store.get d m k = Store.get d n k) : m = n := Store.eq_of_wfFrom hm hn h

theorem Store.range_setRange {m : Store α} (a : Nat) (l : List α) (hm : Store.wf d m = true) :
    Store.range d (Store.setRange d m a l) a l.length = l := by
  induction l generalizing m a with
  | nil => rfl
  | cons x l ih =>
    rw [Store.setRange, List.length_cons, Store.range, Store.get_setRange_ne d l _ _ _ (by omega), Store.get_set_self d m a x hm,
      ih (a + 1) (Store.wf_set d m a x hm)]

theorem Store.setRange_append (m : Store α) (a : Nat) (x y : List α) :
    Store.setRange d m a (x ++ y) = Store.setRange d (Store.setRange d m a x) (a + x.length) y := by
  induction x generalizing m a with
  | nil => rfl
  | cons v x ih => rw [List.cons_append, Store.setRange, ih, Store.setRange, List.length_cons, Nat.add_assoc, Nat.add_comm 1]

end

/-! ### Writes to good units -/

theorem span_succ (a n : Nat) : span a (n + 1) = span a n ++ [a + n] := by
  simp [span, List.range_succ]

/-- A good unit of a usable group takes the bytes that are its own. -/
theorem State.hbmWriteUnit_of_good {s : State} {u : Nat} (a : Nat) (l : List Byte) (husable : s.usableAt (u * 64) = true)
    (hgood : s.badUnits.contains u = false) : State.hbmWriteUnit a l u (s, true) =
      ({ s with
        hbm := Store.setRange 0 s.hbm (max a (u * 64))
          ((l.drop (max a (u * 64) - a)).take (min (a + l.length) (u * 64 + 64) - max a (u * 64))) }, true) := by
  have hfilter : s.badUnits.filter (· != u) = s.badUnits :=
    List.filter_eq_self.2 fun v hv => bne_iff_ne.2 fun e => by simp [← e, hv] at hgood
  simp only [State.hbmWriteUnit, husable, hgood, hfilter, Bool.not_true, Bool.false_eq_true, if_false]
  split <;> rfl

/-- The first j units of a write take its bytes up to the end of the last of them. -/
theorem State.hbmWrite_units {s : State} {a n : Nat} {l : List Byte} (hlen : a / 64 * 64 + 64 * n < a + l.length + 64)
    (h : ∀ u ∈ span (a / 64) n, s.usableAt (u * 64) = true ∧ s.badUnits.contains u = false) :
    (span (a / 64) n).foldl (fun acc u => State.hbmWriteUnit a l u acc) (s, true) =
      ({ s with hbm := Store.setRange 0 s.hbm a (l.take ((a / 64 + n) * 64 - a)) }, true) := by
  induction n with
  | zero =>
    have hnone : (a / 64 + 0) * 64 - a = 0 := by omega
    rw [hnone]
    rfl
  | succ n ih =>
    rw [span_succ] at h ⊢
    obtain ⟨husable, hgood⟩ := h (a / 64 + n) (by simp)
    rw [List.foldl_append, ih (by omega) fun u hu => h u (List.mem_append_left _ hu), List.foldl_cons, List.foldl_nil,
      State.hbmWriteUnit_of_good (s := { s with hbm := Store.setRange 0 s.hbm a _ }) a l husable hgood]
    have hat : max a ((a / 64 + n) * 64) = a + (l.take ((a / 64 + n) * 64 - a)).length := by
      rw [List.length_take]; omega
    have hfrom : max a ((a / 64 + n) * 64) - a = (a / 64 + n) * 64 - a := by omega
    have hpiece : l.take ((a / 64 + n) * 64 - a) ++ (l.drop ((a / 64 + n) * 64 - a)).take
        (min (a + l.length) ((a / 64 + n) * 64 + 64) - max a ((a / 64 + n) * 64)) = l.take ((a / 64 + (n + 1)) * 64 - a) := by
      rw [← List.take_add, ← List.take_eq_take_iff.2]
      omega
    rw [hfrom, ← hpiece, Store.setRange_append, ← hat]

/-- A write to good units of usable groups writes its bytes, and the writer sees no error. -/
theorem State.hbmWrite_of_good {s : State} {a : Nat} {l : List Byte}
    (h : ∀ u ∈ unitsOf a l.length, s.usableAt (u * 64) = true ∧ s.badUnits.contains u = false) :
    s.hbmWrite a l = ({ s with hbm := Store.setRange 0 s.hbm a l }, true) := by
  obtain rfl | hl := eq_or_ne l []
  · rfl
  have hpos := List.length_pos_of_ne_nil hl
  rw [unitsOf, if_neg (by omega)] at h
  rw [State.hbmWrite, unitsOf, if_neg (by omega), State.hbmWrite_units (by omega) h, List.take_of_length_le (by omega)]

/-- Settles O39: canonical stores are what they read, and a write to good units of usable groups is one write to memory. -/
theorem memoryReadBack : Obligations.MemoryReadBack := by
  unfold Obligations.MemoryReadBack
  refine ⟨fun m n a b x l hm => ⟨Store.wf_set 0 m a x hm, Store.get_set_self 0 m a x hm, Store.get_set_ne 0 m a b x,
    Store.wf_setRange 0 l m a hm, Store.range_setRange a l hm, Store.get_setRange_ne 0 l m a b, Store.eq_of_get hm⟩,
    fun s a l hm h => ⟨Store.setRange 0 s.hbm a l, State.hbmWrite_of_good h, Store.wf_setRange 0 l s.hbm a hm,
      Store.range_setRange a l hm, fun b hb => Store.get_setRange_ne 0 l s.hbm a b hb⟩⟩

end Sys2Proof.Machine
end

section
/-! PROOF. Coherence messages on their way (R120, R181, log entry 57): what taking one and sending one changes, and to whom a
message goes. -/

namespace Sys2Proof.Machine

/-! ### Taking a message -/

/-- The Room that a message of a kind reaches, none for the home: `room` is the Room that it names, `peer` its collector
(R181). -/
def CohKind.receiver (kind : CohKind) (room : Nat) (peer : Option Nat) : Option Nat :=
  match kind with
  | .gets | .getm | .putm | .pute | .puts | .done | .fwdAck => none
  | .invAck => peer
  | .fwdGets | .fwdGetm | .recall | .inv | .data | .nack | .putAck => some room

theorem CohMsg.ends_snd (m : CohMsg) : m.ends.2 = m.kind.receiver m.room m.peer := by
  obtain ⟨kind, _, _, _, _, _, _, _, _, _⟩ := m
  cases kind <;> rfl

section

variable {s t : State} {kind : CohKind} {r l q : Nat} {m : CohMsg}

theorem State.takeMsg_eq_some (h : s.takeMsg kind r l = some (m, t)) :
    (m.kind = kind ∧ m.room = r ∧ m.line = l) ∧ ∃ net, t = { s with net } := by
  simp only [State.takeMsg] at h
  split at h
  · cases h
  · rename_i m' hfind
    have hthis := List.find?_some hfind
    split at h
    · cases h
    · cases h
      exact ⟨by simpa [and_assoc] using hthis, _, rfl⟩

/-- Taking a message changes the messages on their way alone. -/
theorem State.takeMsg_fields (h : s.takeMsg kind r l = some (m, t)) :
    t.time = s.time ∧ t.rooms = s.rooms ∧ t.hbm = s.hbm ∧ t.directory = s.directory ∧ t.waiters = s.waiters := by
  obtain ⟨-, _, rfl⟩ := State.takeMsg_eq_some h
  exact ⟨rfl, rfl, rfl, rfl, rfl⟩

theorem State.onMsg_of_none (f : CohMsg → State → State) (h : s.takeMsg kind r l = none) : s.onMsg kind r l f = s := by
  rw [State.onMsg, h]

theorem State.onMsg_home (f : CohMsg → State → State) (h : s.takeMsg kind r l = some (m, t))
    (hto : kind.receiver r m.peer = none) : s.onMsg kind r l f = f m t := by
  obtain ⟨⟨rfl, rfl, -⟩, -⟩ := State.takeMsg_eq_some h
  rw [← CohMsg.ends_snd] at hto
  rw [State.onMsg, h]
  simp only [hto]

theorem State.onMsg_room (f : CohMsg → State → State) (h : s.takeMsg kind r l = some (m, t))
    (hto : kind.receiver r m.peer = some q) : s.onMsg kind r l f = f m (t.reachRoom q) := by
  obtain ⟨⟨rfl, rfl, -⟩, -⟩ := State.takeMsg_eq_some h
  rw [← CohMsg.ends_snd] at hto
  rw [State.onMsg, h]
  simp only [hto]

end

/-! ### Sending a message -/

theorem State.send_frame (s : State) (m : CohMsg) : ∃ packets, s.send m = { s with net := s.net ++ [m], packets } :=
  State.inject_frame ..

section

variable (s : State) (m : CohMsg)

@[simp] theorem State.send_net : (s.send m).net = s.net ++ [m] := by obtain ⟨_, h⟩ := s.send_frame m; rw [h]
@[simp] theorem State.send_hbm : (s.send m).hbm = s.hbm := by obtain ⟨_, h⟩ := s.send_frame m; rw [h]
@[simp] theorem State.send_rooms : (s.send m).rooms = s.rooms := by obtain ⟨_, h⟩ := s.send_frame m; rw [h]
@[simp] theorem State.send_directory : (s.send m).directory = s.directory := by obtain ⟨_, h⟩ := s.send_frame m; rw [h]
@[simp] theorem State.send_waiters : (s.send m).waiters = s.waiters := by obtain ⟨_, h⟩ := s.send_frame m; rw [h]

end

/-- INV goes to every Room of the list, in its order. -/
theorem State.invalidate_frame (s : State) (l : Nat) (collector : Option Nat) (rooms : List Nat) :
    ∃ packets, s.invalidate l collector rooms = { s with
      net := s.net ++ rooms.map fun q => { kind := .inv, room := q, line := l, peer := collector }, packets } := by
  induction rooms generalizing s with
  | nil => exact ⟨s.packets, by rw [List.map_nil, List.append_nil]; rfl⟩
  | cons q rooms ih =>
    obtain ⟨_, hsend⟩ := s.send_frame { kind := .inv, room := q, line := l, peer := collector }
    obtain ⟨packets, hrest⟩ := ih (s.send { kind := .inv, room := q, line := l, peer := collector })
    refine ⟨packets, ?_⟩
    rw [State.invalidate, List.foldl_cons, ← State.invalidate, hrest, hsend]
    simp only [List.map_cons, List.append_assoc, List.singleton_append]

end Sys2Proof.Machine
end

section
/-! PROOF. What the home does with coherence messages (R148, R182 to R185): requests, evictions by caches, and the ends of
transactions. -/

namespace Sys2Proof.Machine

/-! ### Memory and the directory -/

theorem State.hbmRead_congr {s t : State} (h : t.hbm = s.hbm) (a n : Nat) : t.hbmRead a n = s.hbmRead a n := by
  rw [State.hbmRead, h, State.hbmRead]

theorem State.dirFind_line {s : State} {l k : Nat} {e : DirEntry} (h : s.dirFind l = some (k, e)) : e.line = l := by
  obtain ⟨j, -, hj⟩ := List.exists_of_findSome?_eq_some h
  split at hj
  · split at hj
    · cases hj; assumption
    · cases hj
  · cases hj

theorem State.get_setDir_self (s : State) (k : Nat) (e : DirEntry) : Store.get none (s.setDir k (some e)).directory k = some e :=
  Store.get_set_self_of_ne none s.directory k (some e) nofun

/-- A home on which no access waits serves none. -/
theorem State.serveWaiters_of_none {s : State} (h : s.waiters = []) : s.serveWaiters = s := by
  simp only [State.serveWaiters, h, List.filter_nil, List.foldl_nil]
  rw [← h]

/-! ### Requests (R182 to R185) -/

section

variable {s t : State} {r l k : Nat} {m : CohMsg} {e : DirEntry} (exclusive : Bool)

theorem State.request'_of_refused
    (h : t.keptOut r l = true ∨ ∃ k e, t.dirFind l = some (k, e) ∧ e.txn.isSome = true) :
    t.request' r l exclusive = t.nackRequest r l := by
  rw [State.request']
  split
  · rfl
  · obtain hkept | ⟨k, e, hfind, hbusy⟩ := h
    · contradiction
    · simp only [hfind, hbusy, if_true]

theorem State.request'_of_none (hkept : t.keptOut r l = false) (hfind : t.dirFind l = none) :
    t.request' r l exclusive = t.allocate r l exclusive := by
  simp only [State.request', hkept, hfind, Bool.false_eq_true, if_false]

theorem State.request'_of_entry (hkept : t.keptOut r l = false) (hfind : t.dirFind l = some (k, e)) (hidle : e.txn = none) :
    t.request' r l exclusive = if exclusive then t.getmEntry k e r else t.getsEntry k e r := by
  simp only [State.request', hkept, hfind, hidle, Option.isSome_none, Bool.false_eq_true, if_false]

theorem State.nackRequest_net : (t.nackRequest r l).net = t.net ++ [{ kind := .nack, room := r, line := l }] :=
  State.send_net ..

theorem State.nackRequest_directory : (t.nackRequest r l).directory = t.directory := State.send_directory ..

/-- The first free way of the set takes the entry. -/
theorem State.allocate_of_free (hfree : (dirKeys l).find? (fun k => (Store.get none t.directory k).isNone) = some k) :
    t.allocate r l exclusive = State.dataFromHbm
      { (t.accept r l exclusive).setDir k (some { line := l, st := .excl, owner := r, stamp := (t.accept r l exclusive).dirStamp
                                                  txn := some { requester := some r, exclusive } }) with
        dirStamp := (t.accept r l exclusive).dirStamp + 1 } r l (if exclusive then .m else .e) 0 := by
  simp only [State.allocate, hfree]
  rfl

/-- GETS of a line in SHARED is answered from HBM. -/
theorem State.getsEntry_of_shared (hst : e.st = .shared) : t.getsEntry k e r = State.dataFromHbm
    ((t.accept r e.line false).setDir k
      (some { e with txn := some { requester := some r, exclusive := false, fwdAckDue := e.st == .excl } })) r e.line .s 0 := by
  simp only [State.getsEntry, hst, beq_self_eq_true, if_true]

/-- GETS of an owned line is forwarded to its owner. -/
theorem State.getsEntry_of_owned (hst : e.st ≠ .shared) : t.getsEntry k e r =
    ((t.accept r e.line false).setDir k
      (some { e with txn := some { requester := some r, exclusive := false, fwdAckDue := e.st == .excl } })).send
      { kind := .fwdGets, room := e.owner, line := e.line, peer := some r } := by
  simp only [State.getsEntry, beq_iff_eq, hst, if_false]

theorem State.getsEntry_directory : Store.get none (t.getsEntry k e r).directory k =
    some { e with txn := some { requester := some r, exclusive := false, fwdAckDue := e.st == .excl } } := by
  by_cases hst : e.st = .shared
  · rw [State.getsEntry_of_shared hst, State.dataFromHbm, State.send_directory, State.get_setDir_self]
  · rw [State.getsEntry_of_owned hst, State.send_directory, State.get_setDir_self]

theorem State.getsEntry_net : (t.getsEntry k e r).net = t.net ++ [if e.st = .shared then
    { kind := .data, room := r, line := e.line, bytes := some (t.hbmRead (e.line * 128) 128), take := .s, count := 0
      poisoned := (t.accept r e.line false).poisonedAt (e.line * 128) 128 }
    else { kind := .fwdGets, room := e.owner, line := e.line, peer := some r }] := by
  by_cases hst : e.st = .shared
  · rw [State.getsEntry_of_shared hst, State.dataFromHbm, State.send_net, if_pos hst]
    rfl
  · rw [State.getsEntry_of_owned hst, State.send_net, if_neg hst]
    rfl

/-- How GETM of a line leaves its home before the home answers: its transaction has begun, and the other holders are told. -/
def State.getmOpened (t : State) (k : Nat) (e : DirEntry) (r : Nat) (others : List Nat) : State :=
  ((t.accept r e.line true).setDir k (some { e with txn := some { requester := some r, exclusive := true } })).invalidate e.line
    (some r) others

theorem State.getmOpened_directory (others : List Nat) : Store.get none (t.getmOpened k e r others).directory k =
    some { e with txn := some { requester := some r, exclusive := true } } := by
  obtain ⟨_, h⟩ := State.invalidate_frame ((t.accept r e.line true).setDir k
    (some { e with txn := some { requester := some r, exclusive := true } })) e.line (some r) others
  rw [State.getmOpened, h]
  exact State.get_setDir_self ..

theorem State.getmOpened_net (others : List Nat) : (t.getmOpened k e r others).net =
    t.net ++ others.map fun q => { kind := .inv, room := q, line := e.line, peer := some r } := by
  obtain ⟨_, h⟩ := State.invalidate_frame ((t.accept r e.line true).setDir k
    (some { e with txn := some { requester := some r, exclusive := true } })) e.line (some r) others
  rw [State.getmOpened, h]
  rfl

/-- GETM of a line that has an entry ends with one message, after the INVs. -/
theorem State.getmEntry_eq_send (t : State) (k : Nat) (e : DirEntry) (r : Nat) : ∃ m, t.getmEntry k e r =
    (t.getmOpened k e r (if e.st == .excl then [] else e.sharers.rooms.filter (· != r))).send m := by
  simp only [State.getmEntry]
  split
  · split
    · exact ⟨_, rfl⟩
    · exact ⟨_, rfl⟩
  · split
    · exact ⟨_, rfl⟩
    · exact ⟨_, rfl⟩

theorem State.getmEntry_directory : Store.get none (t.getmEntry k e r).directory k =
    some { e with txn := some { requester := some r, exclusive := true } } := by
  obtain ⟨m, h⟩ := t.getmEntry_eq_send k e r
  rw [h, State.send_directory, State.getmOpened_directory]

theorem State.getmEntry_net_of_excl (hst : e.st = .excl) : (t.getmEntry k e r).net =
    t.net ++ [{ kind := .fwdGetm, room := e.owner, line := e.line, peer := some r, count := 0 }] := by
  have h : t.getmEntry k e r = (t.getmOpened k e r []).send
      { kind := .fwdGetm, room := e.owner, line := e.line, peer := some r, count := 0 } := by
    simp [State.getmEntry, State.getmOpened, hst]
  rw [h, State.send_net, State.getmOpened_net, List.map_nil, List.append_nil]

theorem State.getmEntry_net_of_shared (hst : e.st = .shared) (hlists : e.lists r = true) : (t.getmEntry k e r).net =
    t.net ++ (e.sharers.rooms.filter (· != r)).map (fun q => { kind := .inv, room := q, line := e.line, peer := some r }) ++
      [{ kind := .data, room := r, line := e.line, take := .m, count := (e.sharers.rooms.filter (· != r)).length }] := by
  have h : t.getmEntry k e r = (t.getmOpened k e r (e.sharers.rooms.filter (· != r))).send
      { kind := .data, room := r, line := e.line, take := .m, count := (e.sharers.rooms.filter (· != r)).length } := by
    simp [State.getmEntry, State.getmOpened, hst, hlists]
  rw [h, State.send_net, State.getmOpened_net]

variable (hr : isRoom r = true)
include hr

theorem exec_gets_of (h : s.takeMsg .gets r l = some (m, t)) :
    exec (.gets r l) s = .next (s.keepQueue (t.request' r l false)) := by
  rw [exec_gets, execGets, onUnits_of _ _ _ hr, State.onMsg_home _ h rfl]

theorem exec_getm_of (h : s.takeMsg .getm r l = some (m, t)) :
    exec (.getm r l) s = .next (s.keepQueue (t.request' r l true)) := by
  rw [exec_getm, execGetm, onUnits_of _ _ _ hr, State.onMsg_home _ h rfl]

theorem exec_request_of_refused {i : Instr} {kind : CohKind}
    (hi : (i, kind) ∈ [(Instr.gets r l, CohKind.gets), (.getm r l, .getm)]) (h : s.takeMsg kind r l = some (m, t))
    (hrefused : t.keptOut r l = true ∨ ∃ k e, t.dirFind l = some (k, e) ∧ e.txn.isSome = true) :
    exec i s = .next (s.keepQueue (t.nackRequest r l)) := by
  simp only [List.mem_cons, Prod.mk.injEq, List.not_mem_nil, or_false] at hi
  obtain ⟨rfl, rfl⟩ | ⟨rfl, rfl⟩ := hi
  · rw [exec_gets_of hr h, State.request'_of_refused _ hrefused]
  · rw [exec_getm_of hr h, State.request'_of_refused _ hrefused]

end

/-! ### Evictions by caches (R178, R182) -/

section

variable {s t u : State} {r l k : Nat} {m : CohMsg} {e : DirEntry} {kind : CohKind} {b : List Byte}

/-- The home drops the Room from the entry of a line, and answers; what waits for the line goes on. -/
def State.putAccepted (t : State) (k : Nat) (e : DirEntry) (r l : Nat) : State :=
  ((t.setDir k (e.without r)).send { kind := .putAck, room := r, line := l, stale := false }).serveWaiters

theorem State.put_of_stale (bytes : Option (List Byte))
    (h : t.dirFind l = none ∨ ∃ k e, t.dirFind l = some (k, e) ∧ e.knows kind r = false) :
    t.put kind r l bytes = t.send { kind := .putAck, room := r, line := l, stale := true } := by
  obtain hfind | ⟨k, e, hfind, hknows⟩ := h
  · simp only [State.put, hfind]
  · simp only [State.put, hfind, hknows, Bool.not_false, if_true]

variable (hfind : t.dirFind l = some (k, e)) (hknows : e.knows kind r = true)
include hfind hknows

theorem State.put_of_clean : t.put kind r l none = t.putAccepted k e r l := by
  simp only [State.put, hfind, hknows, Bool.not_true, Bool.false_eq_true, if_false, if_true]
  rfl

theorem State.put_of_dirty {ok : Bool} (hwrite : t.hbmWrite (l * 128) b = (u, ok)) :
    t.put kind r l (some b) = if ok then u.putAccepted k e r l else (u.putAccepted k e r l).hardwareFault r := by
  simp only [State.put, hfind, hknows, hwrite, Bool.not_true, Bool.false_eq_true, if_false]
  rfl

end

theorem exec_putm_of {s t : State} {r l : Nat} {m : CohMsg} (hr : isRoom r = true) (h : s.takeMsg .putm r l = some (m, t)) :
    exec (.putm r l) s = .next (s.keepQueue (t.put .putm r l m.bytes)) := by
  rw [exec_putm, execPutm, onUnits_of _ _ _ hr, State.onMsg_home _ h rfl]

theorem exec_put_of_clean {s t : State} {r l k : Nat} {m : CohMsg} {e : DirEntry} {i : Instr} {kind : CohKind}
    (hr : isRoom r = true) (hi : (i, kind) ∈ [(Instr.putm r l, CohKind.putm), (.pute r l, .pute), (.puts r l, .puts)])
    (h : s.takeMsg kind r l = some (m, t)) (hfind : t.dirFind l = some (k, e)) (hknows : e.knows kind r = true)
    (hclean : kind = .putm ∧ m.bytes = none ∨ kind ≠ .putm) :
    exec i s = .next (s.keepQueue (t.putAccepted k e r l)) := by
  rw [← State.put_of_clean hfind hknows]
  simp only [List.mem_cons, Prod.mk.injEq, List.not_mem_nil, or_false] at hi
  obtain ⟨rfl, rfl⟩ | ⟨rfl, rfl⟩ | ⟨rfl, rfl⟩ := hi
  · rw [exec_putm_of hr h, (hclean.resolve_right (by simp)).2]
  · rw [exec_pute, execPute, onUnits_of _ _ _ hr, State.onMsg_home _ h rfl]
  · rw [exec_puts, execPuts, onUnits_of _ _ _ hr, State.onMsg_home _ h rfl]

theorem State.putAccepted_of_no_waiters {t : State} (h : t.waiters = []) (k : Nat) (e : DirEntry) (r l : Nat) :
    t.putAccepted k e r l = (t.setDir k (e.without r)).send { kind := .putAck, room := r, line := l, stale := false } :=
  State.serveWaiters_of_none (by rw [State.send_waiters]; exact h)

/-! ### The ends of transactions (R182, R183, R185) -/

section

variable {s t : State} {r l k p : Nat} {m : CohMsg} {e : DirEntry} {x : Txn} (hr : isRoom r = true)
include hr

theorem exec_done_of_ackDue (h : s.ackDue l = true) : exec (.done r l) s = .next s := by
  rw [exec_done, execDone, onUnits_of _ _ _ hr, if_pos h, State.keepQueue_self]

theorem exec_done_of (hdue : s.ackDue l = false) (h : s.takeMsg .done r l = some (m, t)) (hfind : t.dirFind l = some (k, e))
    (htxn : e.txn = some x) (hmine : x.requester = some r) :
    exec (.done r l) s = .next (s.keepQueue ((t.setDir k (some (e.closed x r))).serveWaiters)) := by
  have hclose : t.close r l = (t.setDir k (some (e.closed x r))).serveWaiters := by
    simp only [State.close, hfind, htxn, hmine, beq_self_eq_true, if_true]
  rw [exec_done, execDone, onUnits_of _ _ _ hr, if_neg (by simp [hdue]), State.onMsg_home _ h rfl, hclose]

theorem exec_fwdAck_of (h : s.takeMsg .fwdAck r l = some (m, t)) (hfind : t.dirFind l = some (k, e)) (htxn : e.txn = some x)
    (hdue : x.fwdAckDue = true) (hkeeps : x.evicting = false) (hrequester : x.requester = some p) :
    exec (.fwdAck r l) s = .next (s.keepQueue (t.setDir k
      (some { e with txn := some { x with fwdAckDue := false, ownerWasM := m.wasM, data := none } }))) := by
  rw [exec_fwdAck, execFwdAck, onUnits_of _ _ _ hr, State.onMsg_home _ h rfl]
  simp [State.modTxn, hfind, htxn, hdue, hkeeps, State.settleEviction, hrequester]

end

/-! ### The statement -/

/-- The commands whose message does nothing before it is on its way. -/
theorem exec_onMsg_of_mem {i : Instr} {kind : CohKind} {r l : Nat}
    (h : (i, kind) ∈ [(Instr.gets r l, CohKind.gets), (.getm r l, .getm), (.putm r l, .putm), (.pute r l, .pute),
      (.puts r l, .puts), (.fwdAck r l, .fwdAck), (.data r l, .data), (.nack r l, .nack), (.putAck r l, .putAck)]) :
    ∃ f, ∀ s, exec i s = onUnits (isRoom r) s (s.onMsg kind r l f) := by
  simp only [List.mem_cons, Prod.mk.injEq, List.not_mem_nil, or_false] at h
  obtain ⟨rfl, rfl⟩ | ⟨rfl, rfl⟩ | ⟨rfl, rfl⟩ | ⟨rfl, rfl⟩ | ⟨rfl, rfl⟩ | ⟨rfl, rfl⟩ | ⟨rfl, rfl⟩ | ⟨rfl, rfl⟩ |
    ⟨rfl, rfl⟩ := h
  all_goals exact ⟨_, fun _ => rfl⟩

/-- Settles O49, by the lemmas about each message of the home, in the order of its clauses. -/
theorem homeMessages : Obligations.HomeMessages := by
  unfold Obligations.HomeMessages
  intro s t u r l k p m e x b hr
  refine ⟨fun i kind hi h => ?_,
    fun i kind hi h hrefused => ⟨exec_request_of_refused hr hi h hrefused, State.nackRequest_net, ?_⟩,
    fun h hkept => ⟨fun hfind hfree hu => ?_, fun hfind hidle => ?_⟩,
    fun h hkept => ⟨fun hfind => ?_, fun hfind hidle => ?_⟩,
    fun i kind hi h hfind hknows hclean => ⟨exec_put_of_clean hr hi h hfind hknows hclean, fun hwaiters => ?_⟩,
    fun h hfind hknows hbytes => ⟨fun hwrite => ?_, fun hwrite => ?_⟩, fun h hstale => ?_, exec_done_of_ackDue hr,
    fun hdue h hfind htxn hmine => ⟨exec_done_of hr hdue h hfind htxn hmine, fun hwaiters => ?_⟩,
    fun h hfind htxn hdue hkeeps hrequester => exec_fwdAck_of hr h hfind htxn hdue hkeeps hrequester⟩
  · obtain ⟨f, hf⟩ := exec_onMsg_of_mem hi
    rw [hf, onUnits_of _ _ _ hr, State.onMsg_of_none f h, State.keepQueue_self]
  · obtain ⟨-, -, -, hdirectory, -⟩ := State.takeMsg_fields h
    rw [State.nackRequest_directory, hdirectory]
  · rw [exec_gets_of hr h, State.request'_of_none _ hkept hfind, State.allocate_of_free _ hfree, hu]
    rfl
  · obtain ⟨-, -, hhbm, -, -⟩ := State.takeMsg_fields h
    obtain rfl := State.dirFind_line hfind
    refine ⟨_, ?_, rfl, State.getsEntry_directory, by rw [← State.hbmRead_congr hhbm]; exact State.getsEntry_net⟩
    rw [exec_gets_of hr h, State.request'_of_entry _ hkept hfind hidle, if_neg Bool.false_ne_true]
  · rw [exec_getm_of hr h, State.request'_of_none _ hkept hfind]
  · obtain rfl := State.dirFind_line hfind
    refine ⟨_, ?_, rfl, State.getmEntry_directory, State.getmEntry_net_of_excl, State.getmEntry_net_of_shared⟩
    rw [exec_getm_of hr h, State.request'_of_entry _ hkept hfind hidle, if_pos rfl]
  · obtain ⟨-, hrooms, hhbm, hdirectory, hw⟩ := State.takeMsg_fields h
    refine ⟨_, exec_put_of_clean hr hi h hfind hknows hclean, ?_⟩
    rw [State.putAccepted_of_no_waiters (hw.trans hwaiters), ← hrooms, ← hhbm, ← hdirectory]
    exact ⟨State.send_directory .., State.send_net .., State.send_hbm .., State.send_rooms ..⟩
  · rw [exec_putm_of hr h, hbytes, State.put_of_dirty hfind hknows hwrite]
    rfl
  · rw [exec_putm_of hr h, hbytes, State.put_of_dirty hfind hknows hwrite]
    rfl
  · rw [exec_putm_of hr h, State.put_of_stale _ hstale]
  · obtain ⟨-, -, -, -, hw⟩ := State.takeMsg_fields h
    have hnone : (t.setDir k (some (e.closed x r))).waiters = [] := hw.trans hwaiters
    rw [exec_done_of hr hdue h hfind htxn hmine, State.serveWaiters_of_none hnone]

end Sys2Proof.Machine
end

section
/-! PROOF. What owners, sharers and requesters do with coherence messages (R151, R178, R179, R182 to R185, R189), and the Room
that a message reaches (R308, R316). -/

namespace Sys2Proof.Machine

/-! ### The Room that a message reaches (R308, R316) -/

theorem State.reachRoom_of_parked {s : State} {r : Nat} (h : (s.room r).isParked = true) :
    s.reachRoom r = s.bump (0x2420 + r / 320) 9 32 := by
  rw [State.reachRoom, if_pos h]
  rfl

theorem State.reachRoom_of_awake {s : State} {r : Nat} (h : (s.room r).isParked = false) :
    s.reachRoom r = s.modRoom r fun x => { x with power := x.power.ungate } := by
  rw [State.reachRoom, if_neg (by simp [h])]

theorem State.reachRoom_fields (s : State) (r : Nat) : (s.reachRoom r).time = s.time ∧ (s.reachRoom r).hbm = s.hbm ∧
    (s.reachRoom r).directory = s.directory ∧ (s.reachRoom r).net = s.net := by
  rw [State.reachRoom]
  split <;> exact ⟨rfl, rfl, rfl, rfl⟩

theorem State.room_modRoom_of_wf {s : State} (hwf : Store.wf ({} : Room) s.rooms = true) (r : Nat) (f : Room → Room) :
    (s.modRoom r f).room r = f (s.room r) := Store.get_set_self _ _ _ _ hwf

theorem State.cache_modCache {s : State} (hwf : Store.wf ({} : Room) s.rooms = true) (r : Nat) (f : Cache → Cache) :
    ((s.modCache r f).room r).cache = f (s.room r).cache := by rw [State.modCache, State.room_modRoom_of_wf hwf]

/-- A message changes no cache by its arrival. -/
theorem State.reachRoom_cache {s : State} (r : Nat) (hwf : Store.wf ({} : Room) s.rooms = true) :
    ((s.reachRoom r).room r).cache = (s.room r).cache ∧ Store.wf ({} : Room) (s.reachRoom r).rooms = true := by
  by_cases h : (s.room r).isParked = true
  · rw [State.reachRoom_of_parked h]
    exact ⟨rfl, hwf⟩
  · rw [State.reachRoom_of_awake (by simpa using h), State.room_modRoom_of_wf hwf]
    exact ⟨rfl, Store.wf_set _ _ _ _ hwf⟩

/-! ### Owners and sharers (R178, R182, R185, R189) -/

section

variable {s t u v : State} {r l p : Nat} {m : CohMsg} {x : CacheLine}

theorem State.dataFromOwner_of_held (take : Moesi) (hheld : (u.room r).cache.held l = some x) (hp : m.peer = some p) :
    u.dataFromOwner r l m take = u.send { kind := .data, room := p, line := l, peer := some r, bytes := some x.data, take
                                          count := m.count } := by
  simp only [State.dataFromOwner, hp, hheld]

theorem State.dataFromOwner_of_gone (take : Moesi) (hheld : (u.room r).cache.held l = none) (hp : m.peer = some p) :
    u.dataFromOwner r l m take = u.send { kind := .data, room := p, line := l, peer := some r
                                          bytes := some (u.hbmRead (l * 128) 128), take, count := m.count } := by
  simp only [State.dataFromOwner, hp, hheld]

variable (hr : isRoom r = true)
include hr

theorem exec_fwdGets_of (h : s.takeMsg .fwdGets r l = some (m, t)) (hu : u = t.reachRoom r)
    (hheld : (u.room r).cache.held l = some x) (hp : m.peer = some p)
    (hv : v = (u.send { kind := .data, room := p, line := l, peer := some r, bytes := some x.data, take := .s
                        count := m.count }).modCache r
      (·.served l (fun y => some { y with st := if isDirty y.st then .o else .s }) fun _ => .o)) :
    exec (.fwdGets r l) s = .next (s.keepQueue
      (if u.ackDue l then v.send { kind := .fwdAck, room := r, line := l, wasM := x.st == .m } else v)) := by
  rw [exec_fwdGets, execFwdGets, onUnits_of _ _ _ hr, State.onMsg_room _ h rfl, ← hu,
    State.dataFromOwner_of_held .s hheld hp, hheld, hv]
  rfl

theorem exec_fwdGetm_of (h : s.takeMsg .fwdGetm r l = some (m, t)) (hu : u = t.reachRoom r) :
    exec (.fwdGetm r l) s = .next (s.keepQueue (((u.dataFromOwner r l m .m).modCache r
      (·.served l (fun _ => none) fun _ => .s)).wakeRoom r l)) := by
  rw [exec_fwdGetm, execFwdGetm, onUnits_of _ _ _ hr, State.onMsg_room _ h rfl, ← hu]

theorem exec_recall_of (h : s.takeMsg .recall r l = some (m, t)) (hu : u = t.reachRoom r)
    (hheld : (u.room r).cache.held l = some x) :
    exec (.recall r l) s = .next (s.keepQueue (((u.modCache r (·.served l (fun _ => none) fun _ => .s)).send
      { kind := .fwdAck, room := r, line := l, wasM := isDirty x.st, bytes := some x.data }).wakeRoom r l)) := by
  rw [exec_recall, execRecall, onUnits_of _ _ _ hr, State.onMsg_room _ h rfl, ← hu, hheld]
  rfl

theorem exec_inv_of (h : s.takeMsg .inv r l = some (m, t)) (hu : u = t.reachRoom r) : exec (.inv r l) s = .next (s.keepQueue
    ((if ((u.room r).cache.line? l).map (·.st) = some .s then (u.modCache r (·.mapLine l fun _ => none)).wakeRoom r l
      else u).send { kind := .invAck, room := r, line := l, peer := m.peer })) := by
  rw [exec_inv, execInv, onUnits_of _ _ _ hr, State.onMsg_room _ h rfl, ← hu]
  simp only [beq_iff_eq]

/-- A Room that does not share the line acknowledges only. -/
theorem exec_inv_of_not_shared (h : s.takeMsg .inv r l = some (m, t)) (hu : u = t.reachRoom r)
    (hst : ((u.room r).cache.line? l).map (·.st) ≠ some .s) :
    exec (.inv r l) s = .next (s.keepQueue (u.send { kind := .invAck, room := r, line := l, peer := m.peer })) := by
  rw [exec_inv_of hr h hu, if_neg hst]

end

/-! ### The requester (R182 to R184) -/

section

variable {s t u : State} {r l p set : Nat} {m : CohMsg} {x : CacheLine} {ms : Miss} {st : Moesi}

/-- A miss that has its data and every acknowledgement installs its line and sends DONE. -/
theorem State.settleMiss_of_done (hmiss : (s.room r).cache.miss = some ms) (hgranted : ms.granted = some st)
    (hdue : ms.acksDue = some p) (hacks : p ≤ ms.acks) (hset : set = setOf (cacheSets (s.portion r)) ms.line)
    (hdata : ms.data = some x.data) (haddr : x.addr = ms.line) (hst : x.st = st) : s.settleMiss r =
      (s.modCache r fun c => Cache.install { c with miss := none } set x).send { kind := .done, room := r, line := ms.line } := by
  obtain ⟨addr, st', data⟩ := x
  obtain rfl : addr = ms.line := haddr
  obtain rfl : st' = st := hst
  rw [hset]
  simp only [State.settleMiss, hmiss, hgranted, hdue, hdata, Nat.not_lt.2 hacks, if_false]
  rfl

theorem State.cache_modMiss {r l : Nat} (hwf : Store.wf ({} : Room) u.rooms = true) (hmiss : (u.room r).cache.miss = some ms)
    (hline : ms.line = l) (f : Miss → Miss) :
    ((u.modMiss r l f).room r).cache = { (u.room r).cache with miss := some (f ms) } := by
  rw [State.modMiss, State.cache_modCache hwf, hmiss, Option.map_some, if_pos hline]

/-- The portion of a Room's cache does not depend on its contents (R110, R176). -/
theorem State.portion_modMiss {r l : Nat} (hwf : Store.wf ({} : Room) u.rooms = true) (f : Miss → Miss) :
    (u.modMiss r l f).portion r = u.portion r := by
  have hmember : ((u.modMiss r l f).room r).member = (u.room r).member := by
    rw [State.modMiss, State.modCache, State.room_modRoom_of_wf hwf]
  simp only [State.portion, State.stepOf, State.cacheBytes, hmember]
  rfl

/-- What DATA brings to the miss that waits for it (R181, R182). -/
def Miss.filledBy (m : CohMsg) (y : Miss) : Miss := { y with granted := some m.take, data := m.bytes, acksDue := some m.count }

/-- DATA that ends a miss installs its line, and DONE goes to the home. -/
theorem State.settleMiss_filled {v : State} (hv : v = (u.modMiss r l (Miss.filledBy m)).settleMiss r)
    (hwf : Store.wf ({} : Room) u.rooms = true) (hmiss : (u.room r).cache.miss = some ms) (hline : ms.line = l)
    (hdata : m.bytes = some x.data) (haddr : x.addr = l) (hst : x.st = m.take) (hacks : m.count ≤ ms.acks)
    (hset : set = setOf (cacheSets (u.portion r)) l) :
    (v.room r).cache = Cache.install { (u.room r).cache with miss := none } set x ∧
      v.net = u.net ++ [{ kind := .done, room := r, line := l }] ∧ v.hbm = u.hbm ∧ v.directory = u.directory := by
  subst hline
  have hcache := State.cache_modMiss hwf hmiss rfl (Miss.filledBy m)
  have hwf' : Store.wf ({} : Room) (u.modMiss r ms.line (Miss.filledBy m)).rooms = true := Store.wf_set _ _ _ _ hwf
  rw [State.settleMiss_of_done (set := set) (ms := Miss.filledBy m ms) (by rw [hcache]) rfl rfl hacks
    (by rw [State.portion_modMiss hwf]; exact hset) hdata haddr hst] at hv
  rw [hv]
  refine ⟨?_, State.send_net .., State.send_hbm .., State.send_directory ..⟩
  rw [State.room_congr (State.send_rooms ..), State.cache_modCache hwf', hcache]

variable (hr : isRoom r = true)
include hr

theorem exec_data_of (h : s.takeMsg .data r l = some (m, t)) (hu : u = t.reachRoom r) (hmiss : (u.room r).cache.miss = some ms) :
    exec (.data r l) s = .next (s.keepQueue (if ms.line = l then (if m.poisoned then u.poisonedFill r l m.take
      else (u.modMiss r l fun y => { y with granted := some m.take, data := m.bytes, acksDue := some m.count }).settleMiss r)
      else u)) := by
  rw [exec_data, execData, onUnits_of _ _ _ hr, State.onMsg_room _ h rfl, ← hu]
  by_cases hline : ms.line = l <;> simp [hmiss, hline]

theorem exec_data_poisoned (h : s.takeMsg .data r l = some (m, t)) (hu : u = t.reachRoom r)
    (hmiss : (u.room r).cache.miss = some ms) (hline : ms.line = l) (hpoisoned : m.poisoned = true) :
    exec (.data r l) s = .next (s.keepQueue
      ((((u.modCache r fun c => { c with miss := none }).send { kind := .done, room := r, line := l }).send
        { kind := if m.take = .s then .puts else .pute, room := r, line := l }).hardwareFault r)) := by
  rw [exec_data_of hr h hu hmiss, if_pos hline, if_pos hpoisoned]
  simp only [State.poisonedFill, beq_iff_eq]

theorem exec_data_fills (h : s.takeMsg .data r l = some (m, t)) (hu : u = t.reachRoom r)
    (hmiss : (u.room r).cache.miss = some ms) (hline : ms.line = l) (hgood : m.poisoned = false) :
    exec (.data r l) s = .next (s.keepQueue ((u.modMiss r l fun y =>
      { y with granted := some m.take, data := m.bytes, acksDue := some m.count }).settleMiss r)) := by
  rw [exec_data_of hr h hu hmiss, if_pos hline, if_neg (by simp [hgood])]

/-- DATA that ends a miss installs its line. -/
theorem exec_data_installs (h : s.takeMsg .data r l = some (m, t)) (hu : u = t.reachRoom r)
    (hmiss : (u.room r).cache.miss = some ms) (hline : ms.line = l) (hgood : m.poisoned = false) (hdata : m.bytes = some x.data)
    (haddr : x.addr = l) (hst : x.st = m.take) (hacks : m.count ≤ ms.acks) (hwf : Store.wf ({} : Room) s.rooms = true)
    (hset : set = setOf (cacheSets (u.portion r)) l) : ∃ v, exec (.data r l) s = .next v ∧
      (v.room r).cache = Cache.install { (s.room r).cache with miss := none } set x ∧
      v.net = t.net ++ [{ kind := .done, room := r, line := l }] ∧ v.hbm = s.hbm ∧ v.directory = s.directory := by
  obtain ⟨-, hrooms, hhbm, hdirectory, -⟩ := State.takeMsg_fields h
  obtain ⟨-, huhbm, hudirectory, hunet⟩ := t.reachRoom_fields r
  obtain ⟨hcache, huwf⟩ := State.reachRoom_cache (s := t) r (by rw [hrooms]; exact hwf)
  rw [← hu] at huhbm hudirectory hunet hcache huwf
  obtain ⟨hinstalled, hnet, hvhbm, hvdirectory⟩ := State.settleMiss_filled rfl huwf hmiss hline hdata haddr hst hacks hset
  rw [hcache, State.room_congr hrooms] at hinstalled
  exact ⟨_, exec_data_fills hr h hu hmiss hline hgood, hinstalled, hnet.trans (by rw [hunet]), hvhbm.trans (huhbm.trans hhbm),
    hvdirectory.trans (hudirectory.trans hdirectory)⟩

theorem exec_invAck_of (h : s.takeMsg .invAck r l = some (m, t)) (hp : m.peer = some p) (hu : u = t.reachRoom p) :
    exec (.invAck r l) s = .next (s.keepQueue ((u.modMiss p l fun y => { y with acks := y.acks + 1 }).settleMiss p)) := by
  rw [exec_invAck, execInvAck, onUnits_of _ _ _ hr, State.onMsg_room _ h hp, ← hu, hp]

theorem exec_nack_of (h : s.takeMsg .nack r l = some (m, t)) (hu : u = t.reachRoom r) (hmiss : (u.room r).cache.miss = some ms)
    (hline : ms.line = l) (hn : ms.nacks + 1 ≠ 8) : exec (.nack r l) s = .next (s.keepQueue (u.modMiss r l fun y =>
      { y with nacks := ms.nacks + 1, retryAt := s.time + 32 * 2 ^ min ms.nacks 5 })) := by
  obtain ⟨htime, -⟩ := State.takeMsg_fields h
  obtain ⟨hutime, -⟩ := t.reachRoom_fields r
  rw [← hu, htime] at hutime
  rw [exec_nack, execNack, onUnits_of _ _ _ hr, State.onMsg_room _ h rfl, ← hu]
  simp [State.refused, hmiss, hline, hn, hutime, backOff]

theorem exec_nackRetry_of (hmiss : (s.room r).cache.miss = some ms) (hline : ms.line = l) (hwaits : ms.retryAt ≠ 0) :
    exec (.nackRetry r l) s = .next (s.keepQueue (if s.time < ms.retryAt then s else
      (s.modMiss r l ({ · with retryAt := 0 })).send
        { kind := if ms.exclusive then .getm else .gets, room := r, line := l })) := by
  rw [exec_nackRetry, execNackRetry, onUnits_of _ _ _ hr]
  simp [hmiss, hline, hwaits]

theorem exec_putAck_of (h : s.takeMsg .putAck r l = some (m, t)) : exec (.putAck r l) s = .next (s.keepQueue
    ((t.reachRoom r).modCache r fun c => { c with writeBack := removeFirst (·.addr == l) c.writeBack })) := by
  rw [exec_putAck, execPutAck, onUnits_of _ _ _ hr, State.onMsg_room _ h rfl]

end

/-- Settles O50, by the lemmas about each message of a cache, in the order of its clauses. -/
theorem cacheMessages : Obligations.CacheMessages := by
  unfold Obligations.CacheMessages
  intro s t u v r l p set m x ms st hr
  refine ⟨State.reachRoom_of_parked, State.reachRoom_of_awake, exec_fwdGets_of hr, fun h hu hheld hp => ?_,
    fun h hu hheld hp => ?_, exec_recall_of hr, fun h hu => ⟨fun hline => ?_, fun hline hst => ?_, fun hline hst => ?_⟩,
    fun h hu hmiss => ⟨fun hline => ?_, exec_data_poisoned hr h hu hmiss, fun hline hgood =>
      ⟨exec_data_fills hr h hu hmiss hline hgood, exec_data_installs hr h hu hmiss hline hgood⟩⟩, exec_invAck_of hr,
    exec_nack_of hr, fun hmiss hline hwaits => ⟨fun hearly => ?_, fun hdue => ?_⟩, exec_putAck_of hr,
    State.settleMiss_of_done⟩
  · rw [exec_fwdGetm_of hr h hu, State.dataFromOwner_of_held .m hheld hp]
  · obtain ⟨-, -, hhbm, -, -⟩ := State.takeMsg_fields h
    obtain ⟨-, huhbm, -, hunet⟩ := t.reachRoom_fields r
    rw [← hu] at huhbm hunet
    refine ⟨_, exec_fwdGetm_of hr h hu, ?_⟩
    rw [State.dataFromOwner_of_gone .m hheld hp, ← State.hbmRead_congr (huhbm.trans hhbm), ← hunet]
    exact State.send_net ..
  · exact exec_inv_of_not_shared hr h hu (by simp [hline])
  · exact exec_inv_of_not_shared hr h hu (by simp [hline, hst])
  · rw [exec_inv_of hr h hu, if_pos (by simp [hline, hst])]
  · rw [exec_data_of hr h hu hmiss, if_neg hline]
  · rw [exec_nackRetry_of hr hmiss hline hwaits, if_pos hearly, State.keepQueue_self]
  · rw [exec_nackRetry_of hr hmiss hline hwaits, if_neg (by omega)]

end Sys2Proof.Machine
end

section
/-! PROOF. The Port Regulators, the congestion levels and the patrol scrub (R156, R160 to R167): when a waiting request issues,
and what a controller publishes. -/

namespace Sys2Proof.Machine

/-! ### PORT_REGULATOR_ISSUE (R160, R164, R167, R171) -/

section

variable {s t : State} {p : Nat} {q : MemReq} (ht : t = s.refill p)
include ht

/-- A request that its tokens or its port hold back waits on. -/
theorem State.issuePort_of_held (hnext : t.nextRequest p = some q)
    (hheld : (t.reg p).tokens < (q.len + 63) / 64 * 256000 ∨ t.mayIssue p q = false) : s.issuePort p = t := by
  have hcond : (decide ((t.reg p).tokens < (q.len + 63) / 64 * tokenUnit) || !t.mayIssue p q) = true := by
    rw [Bool.or_eq_true, decide_eq_true_iff, Bool.not_eq_true']
    exact hheld
  simp only [State.issuePort, ← ht, hnext, hcond, if_true]

variable (hp : isMaster p = true)
include hp

theorem exec_portRegulatorIssue_of_none (hnext : t.nextRequest p = none) :
    exec (.portRegulatorIssue p) s = .next (s.keepQueue t) := by
  rw [exec_portRegulatorIssue, execPortRegulatorIssue, onUnits_of _ _ _ hp]
  simp only [State.issuePort, ← ht, hnext]

theorem exec_portRegulatorIssue_of_held (hnext : t.nextRequest p = some q)
    (hheld : (t.reg p).tokens < (q.len + 63) / 64 * 256000 ∨ t.mayIssue p q = false) :
    exec (.portRegulatorIssue p) s = .next (s.keepQueue t) := by
  rw [exec_portRegulatorIssue, execPortRegulatorIssue, onUnits_of _ _ _ hp, State.issuePort_of_held ht hnext hheld]

theorem exec_portRegulatorIssue_of_ready {need pc : Nat} {d : Option Nat} {cl : Bool} (hnext : t.nextRequest p = some q)
    (hneed : need = (q.len + 63) / 64 * 256000) (htokens : need ≤ (t.reg p).tokens) (hmay : t.mayIssue p q = true)
    (hdeadline : t.deadlineAt (t.portSetting p) q = (d, cl)) (hpc : pc = t.pcOf q.lpa) :
    exec (.portRegulatorIssue p) s = .next (s.keepQueue ((t.modReg p (·.issued p t.time need q cl)).modPc pc fun y =>
      { y with
        queue := y.queue ++ accessesOf { q with cls := regClass (t.portSetting p), deadline := d, arrival := t.time } })) := by
  have hcond : (decide ((t.reg p).tokens < (q.len + 63) / 64 * tokenUnit) || !t.mayIssue p q) = false := by
    rw [Bool.or_eq_false_iff, decide_eq_false_iff_not, hmay]
    exact ⟨Nat.not_lt.2 (hneed ▸ htokens), rfl⟩
  rw [exec_portRegulatorIssue, execPortRegulatorIssue, onUnits_of _ _ _ hp, hneed, hpc]
  simp only [State.issuePort, ← ht, hnext, hdeadline, hcond, Bool.false_eq_true, if_false]
  rfl

end

theorem State.nextRequest_of_plain (s : State) {p : Nat} (h : isCopyPort p = false) :
    s.nextRequest p = (s.reg p).waiting.head? := by
  simp only [State.nextRequest, h, Bool.not_false, if_true]

theorem State.deadlineAt_of_not_rt (s : State) {w : Nat} (h : regClass w ≠ 0) (q : MemReq) :
    s.deadlineAt w q = (none, false) := by
  rw [State.deadlineAt, if_pos (by simp [h])]

/-! ### CONGESTION_PUBLISH (R163) -/

/-- One group's level is published. -/
def State.publishLevel (s : State) (g : Nat) : State := { s with levels := Store.set 0 s.levels g (s.groupLevel g) }

/-- Publishing levels changes the levels alone: those of the groups that are named. -/
theorem State.publishLevel_foldl (names : List Nat) (s : State) :
    (∃ levels, names.foldl State.publishLevel s = { s with levels }) ∧ (Store.wf (0 : Nat) s.levels = true →
      ∀ g, Store.get 0 (names.foldl State.publishLevel s).levels g =
        if g ∈ names then s.groupLevel g else Store.get 0 s.levels g) := by
  induction names generalizing s with
  | nil => exact ⟨⟨s.levels, rfl⟩, fun _ g => by simp⟩
  | cons n names ih =>
    obtain ⟨⟨levels, hframe⟩, hget⟩ := ih (s.publishLevel n)
    refine ⟨⟨levels, hframe⟩, fun hwf g => ?_⟩
    rw [List.foldl_cons, hget (Store.wf_set _ _ _ _ hwf)]
    by_cases hg : g ∈ names
    · rw [if_pos hg, if_pos (List.mem_cons_of_mem n hg)]
      rfl
    · rw [if_neg hg]
      by_cases hn : g = n
      · subst hn
        rw [if_pos List.mem_cons_self]
        exact Store.get_set_self _ _ _ _ hwf
      · rw [if_neg (by simp [hg, hn])]
        exact Store.get_set_ne _ _ _ _ _ hn

theorem State.refill_foldl_frame (l : List Nat) (s : State) : ∃ regulators, l.foldl State.refill s = { s with regulators } :=
  List.foldlRecOn (motive := fun t => ∃ regulators, t = { s with regulators }) l State.refill ⟨s.regulators, rfl⟩
    fun t ht p _ => by obtain ⟨_, rfl⟩ := ht; exact ⟨_, rfl⟩

/-- The names of the groups of a stack (R146). -/
def State.groupNames (s : State) (stack : Nat) : List Nat :=
  (List.range (32 / s.groupSize stack)).map fun g => stack * 32 + g * s.groupSize stack

theorem State.publishLevels_eq (s : State) (stack : Nat) :
    ∃ regulators, s.publishLevels stack = (s.groupNames stack).foldl State.publishLevel { s with regulators } := by
  obtain ⟨regulators, h⟩ := State.refill_foldl_frame (s.regulators.map (·.1)) s
  refine ⟨regulators, ?_⟩
  rw [State.publishLevels, h]
  rfl

theorem State.publishLevels_frame (s : State) (stack : Nat) :
    ∃ regulators levels, s.publishLevels stack = { s with regulators, levels } := by
  obtain ⟨regulators, h⟩ := s.publishLevels_eq stack
  obtain ⟨⟨levels, hlevels⟩, -⟩ := State.publishLevel_foldl (s.groupNames stack) { s with regulators }
  exact ⟨regulators, levels, h.trans hlevels⟩

/-- Each group of the stack reads as its level. -/
theorem State.get_publishLevels {s : State} {stack j : Nat} (hwf : Store.wf (0 : Nat) s.levels = true)
    (hj : j < 32 / s.groupSize stack) : Store.get 0 (s.publishLevels stack).levels (stack * 32 + j * s.groupSize stack) =
      s.groupLevel (stack * 32 + j * s.groupSize stack) := by
  obtain ⟨regulators, h⟩ := s.publishLevels_eq stack
  have hname : stack * 32 + j * s.groupSize stack ∈ s.groupNames stack := List.mem_map.2 ⟨j, List.mem_range.2 hj, rfl⟩
  rw [h, (State.publishLevel_foldl _ { s with regulators }).2 hwf, if_pos hname]
  rfl

/-! ### PATROL_SCRUB (R156) -/

section

variable {s t : State} {stack a pc : Nat} (hstack : isFloor stack = true) (ha : a = stack * 2 ^ 36 + (s.floor stack).scrub * 64)
  (hpc : pc = s.pcOf a)
include hstack ha hpc

theorem exec_patrolScrub_of_full (h : (s.pc pc).admits 3 1 = false) : exec (.patrolScrub stack) s = .next s := by
  subst ha hpc
  rw [exec_patrolScrub, execPatrolScrub, onUnits_of _ _ _ hstack]
  simp only [State.scrubNext, h, Bool.not_false, if_true, State.keepQueue_self]

theorem exec_patrolScrub_of_room (h : (s.pc pc).admits 3 1 = true) (ht : t = (s.modPc pc fun y =>
      { y with queue := y.queue ++
          [{ port := controllerPort, lpa := a, len := 64, write := false, cls := 3, arrival := s.time }] })) :
    exec (.patrolScrub stack) s = .next (s.keepQueue (if (s.floor stack).scrub + 1 < stackUnits then
      t.modFloor stack ({ · with scrub := (s.floor stack).scrub + 1 })
      else (t.modFloor stack ({ · with scrub := 0 })).bump (0x2601 + stack) 5 32)) := by
  have hscavenge : s.scavenge pc a false = t := by
    simp only [State.scavenge, h, ht, Bool.not_true, Bool.false_eq_true, if_false]
  rw [exec_patrolScrub, execPatrolScrub, onUnits_of _ _ _ hstack]
  simp only [State.scrubNext, ← ha, ← hpc, h, hscavenge, Bool.not_true, Bool.false_eq_true, if_false]

end

end Sys2Proof.Machine
end

section
/-! PROOF. The controller of a pseudo-channel (R148 to R154, R157, R168, R169): what goes into service next, and how an access
ends. -/

namespace Sys2Proof.Machine

theorem State.pc_modPc {s : State} (hwf : Store.wf ({} : PseudoChannel) s.pcs = true) (p : Nat)
    (f : PseudoChannel → PseudoChannel) : (s.modPc p f).pc p = f (s.pc p) := Store.get_set_self _ _ _ _ hwf

theorem State.pc_congr {s t : State} (h : t.pcs = s.pcs) (p : Nat) : t.pc p = s.pc p := by rw [State.pc, h, State.pc]

/-- A module without held answers and waiting removals has none to release. -/
theorem State.releaseAnswers_of_none {s : State} (hanswers : s.heldAnswers = []) (hremovals : s.removals = []) :
    s.releaseAnswers = s := by
  simp only [State.releaseAnswers, State.endRemovals, hanswers, hremovals, List.filter_nil, List.foldl_nil]
  rw [← hanswers, ← hremovals]

theorem exec_hbmRefresh_of {s : State} {p : Nat} (hp : isPc p = true) : exec (.hbmRefresh p) s =
    .next (s.modPc p fun y => { y with refreshDue := y.refreshDue + (s.floor (p / 32)).refresh }) := by
  rw [exec_hbmRefresh, execHbmRefresh, onUnits_of _ _ _ hp]
  rfl

/-! ### PC_SCHEDULE (R148, R150, R157, R168) -/

theorem exec_pcSchedule_of {s u : State} {p : Nat} (hp : isPc p = true) (hu : s.schedule p = u) :
    exec (.pcSchedule p) s = .next (s.keepQueue u.releaseAnswers) := by
  rw [exec_pcSchedule, execPcSchedule, onUnits_of _ _ _ hp, hu]

section

variable {s t : State} {p : Nat} {q : MemReq} {rest : List MemReq}
  (ht : t = s.modPc p (PseudoChannel.admitRewrites controllerPort s.time))
include ht

theorem State.schedule_of_busy (h : (t.pc p).inService.isSome = true) : s.schedule p = t := by
  simp only [State.schedule, ← ht, h, if_true]

variable (hidle : (t.pc p).inService = none)
include hidle

theorem State.schedule_of_refresh (hdue : 0 < (t.pc p).refreshDue) (hurgent : (t.pc p).queue.filter (·.urgent t.time) = []) :
    s.schedule p = t.modPc p PseudoChannel.refreshed := by
  simp [State.schedule, ← ht, hidle, hdue, hurgent]

variable (hdue : (t.pc p).refreshDue = 0)
include hdue

theorem State.schedule_of_unusable (hgroup : t.groupOk (t.groupName p) = false) (hqueue : (t.pc p).queue = q :: rest) :
    s.schedule p = (t.modPc p ({ · with queue := rest })).dropAccess p q := by
  simp [State.schedule, ← ht, hidle, hdue, hgroup, hqueue]

variable (hgroup : t.groupOk (t.groupName p) = true)
include hgroup

theorem State.schedule_of_urgent (h : earliest ((t.pc p).queue.filter (·.urgent t.time)) = some q) :
    s.schedule p = t.serveAccess p q (t.pc p).batch := by
  simp [State.schedule, ← ht, hidle, hdue, hgroup, h]

theorem State.schedule_of_picked (hurgent : earliest ((t.pc p).queue.filter (·.urgent t.time)) = none)
    (hbatch : (t.pc p).batch < 64) (h : t.pickAccess (t.pc p) = some q) :
    s.schedule p = t.serveAccess p q ((t.pc p).batch + 1) := by
  simp [State.schedule, ← ht, hidle, hdue, hgroup, hurgent, hbatch, h]

end

/-! ### HBM_ACCESS_COMPLETE (R149 to R154, R169) -/

theorem exec_hbmAccessComplete_of {s u : State} {p : Nat} {result : HbmResult} (hp : isPc p = true)
    (hresult : isHbmResult result = true) (hu : s.complete p result = u) :
    exec (.hbmAccessComplete p result) s = .next (s.keepQueue u.releaseAnswers) := by
  rw [exec_hbmAccessComplete, execHbmAccessComplete, onUnits_of _ _ _ (by rw [hp, hresult]; rfl), hu]

theorem State.complete_of_idle {s : State} {p : Nat} (h : (s.pc p).inService = none) (result : HbmResult) :
    s.complete p result = s := by
  simp only [State.complete, h]

section

variable {s : State} {p : Nat} {q : MemReq} (hservice : (s.pc p).inService = some q)
include hservice

theorem State.complete_parityCommand (h : (s.pc p).retries < 3) : s.complete p .parityCommand =
    (s.bump (0x2610 + p) 1 32).modPc p fun y => { y with retries := y.retries + 1 } := by
  simp only [State.complete, hservice, State.retryAccess, h, if_true]

variable (hgood : s.badUnits.contains (q.lpa / 64) = false)
include hgood

theorem State.complete_ok : s.complete p .ok = s.endAccess p q := by
  simp only [State.complete, hservice, hgood, Bool.and_false, Bool.false_eq_true, if_false]

variable (hread : q.write = false)
include hread

theorem State.complete_uncorrectable : s.complete p .uncorrectable =
    ((((State.markReader { s with badUnits := s.badUnits ++ [q.lpa / 64] } q).dropGroup p).recordBad p q.lpa).endAccess p q) := by
  simp only [State.complete, hservice, hgood, hread, Bool.and_false, Bool.false_and, Bool.false_eq_true, if_false]

theorem State.complete_corrected (lane : Nat) : s.complete p (.corrected lane) = (s.correct p lane q).endAccess p q := by
  simp only [State.complete, hservice, hgood, hread, Bool.and_false, Bool.false_and, Bool.false_eq_true, if_false]

end

/-- An access that is not of an RT port misses no deadline (R169). -/
theorem State.countMiss_of_not_rt {q : MemReq} (h : q.cls ≠ 0) (s : State) (p : Nat) : s.countMiss p q = s := by
  simp [State.countMiss, h]

theorem State.endAccess_of_not_rt {q : MemReq} (h : q.cls ≠ 0) (s : State) (p : Nat) : s.endAccess p q =
    (s.modPc p ({ · with inService := none, retries := 0 })).bump (0x2610 + p) (if q.write then 8 else 7) 64 q.len :=
  State.countMiss_of_not_rt h ..

/-! ### Without held answers -/

section

variable {s : State} {p : Nat} {q : MemReq} (hanswers : s.heldAnswers = []) (hremovals : s.removals = [])
  (hwf : Store.wf ({} : PseudoChannel) s.pcs = true)
include hanswers hremovals hwf

theorem State.serveAccess_spec {t : State} (ht : t = s.modPc p (PseudoChannel.admitRewrites controllerPort s.time)) (n : Nat)
    {u : State} (hu : u = s.keepQueue (t.serveAccess p q n).releaseAnswers) :
    (u.pc p).inService = some q ∧ (u.pc p).queue = removeFirst (· == q) (t.pc p).queue ∧ (u.pc p).batch = n ∧
      u.hbm = s.hbm ∧ u.rooms = s.rooms ∧ u.regulators = s.regulators := by
  have hwf' : Store.wf ({} : PseudoChannel) t.pcs = true := by rw [ht]; exact Store.wf_set _ _ _ _ hwf
  have hpc := State.pc_modPc hwf' p fun x => { x with
    queue := removeFirst (· == q) x.queue, inService := some q, batch := n
    openRows := Store.set none x.openRows (t.place q.lpa).bank (some (t.place q.lpa).row) }
  rw [State.releaseAnswers_of_none (by rw [ht]; exact hanswers) (by rw [ht]; exact hremovals)] at hu
  have hupc : u.pc p = (t.serveAccess p q n).pc p := by rw [hu]; rfl
  rw [hupc, State.serveAccess, hpc, hu, ht]
  exact ⟨rfl, rfl, rfl, rfl, rfl, rfl⟩

theorem State.endAccess_spec (hclass : q.cls ≠ 0) {u : State} (hu : u = s.keepQueue (s.endAccess p q).releaseAnswers) :
    u.pc p = { s.pc p with inService := none, retries := 0 } ∧ u.hbm = s.hbm ∧ u.rooms = s.rooms ∧
      u.badUnits = s.badUnits ∧ u.halls = s.halls ∧
      u.dict = (s.bump (0x2610 + p) (if q.write then 8 else 7) 64 q.len).dict := by
  have hends := State.endAccess_of_not_rt hclass s p
  rw [State.releaseAnswers_of_none (by rw [hends]; exact hanswers) (by rw [hends]; exact hremovals), hends] at hu
  subst hu
  have hpc := State.pc_modPc hwf p ({ · with inService := none, retries := 0 })
  exact ⟨(State.pc_congr rfl p).trans hpc, rfl, rfl, rfl, rfl, rfl⟩

end

end Sys2Proof.Machine
end

section
/-! PROOF. Uncached accesses at a home (R186), the answers of hosts and other modules (R242, R243), and the statement on HBM. -/

namespace Sys2Proof.Machine

/-! ### Lines that the directory does not list (R186) -/

section

variable {s : State} {ls : List Nat} (h : ∀ l ∈ ls, s.dirFind l = none)
include h

theorem State.any_isBusy_of_unlisted : ls.any s.isBusy = false := by
  refine List.any_eq_false.2 fun l hl => ?_
  rw [State.isBusy, h l hl]
  exact Bool.false_ne_true

theorem State.foldl_readLine_of_unlisted : ls.foldl State.readLine s = s :=
  List.foldlRecOn (motive := (· = s)) ls State.readLine rfl fun t ht l hl => by rw [ht, State.readLine, h l hl]

theorem State.foldl_recallLine_of_unlisted : ls.foldl State.recallLine s = s :=
  List.foldlRecOn (motive := (· = s)) ls State.recallLine rfl fun t ht l hl => by rw [ht, State.recallLine, h l hl]

end

theorem State.foldl_wakeLine_fields (ls : List Nat) (s : State) : (ls.foldl State.wakeLine s).hbm = s.hbm ∧
    (ls.foldl State.wakeLine s).rooms = ls.foldl (fun r l => Store.mapValues {} (wakeOn l) r) s.rooms :=
  ⟨List.foldlRecOn (motive := fun t : State => t.hbm = s.hbm) ls State.wakeLine rfl fun _ ht _ _ => ht,
    (List.foldl_hom State.rooms fun _ _ => rfl).symm⟩

section

variable {s : State} {a n : Nat}

theorem State.homeOp_read_of_unlisted (h : ∀ l ∈ linesOf a n, s.dirFind l = none) :
    (s.homeOp a n .read).2 = s.countUncached a := by
  simp only [State.homeOp, State.any_isBusy_of_unlisted h, Bool.false_eq_true, if_false]
  split
  · rfl
  · rw [State.uncachedRead, State.foldl_readLine_of_unlisted h]

theorem State.homeOp_write_of_unlisted {b : List Byte} (h : ∀ l ∈ linesOf a b.length, s.dirFind l = none) :
    (s.homeOp a b.length (.write b)).2 =
      ((linesOf a b.length).foldl State.wakeLine (s.hbmWrite a b).1).countUncached a := by
  simp only [State.homeOp, State.uncachedWrite, State.any_isBusy_of_unlisted h, State.foldl_recallLine_of_unlisted h,
    Bool.false_eq_true, if_false]

end

/-! ### UNCACHED_ACCESS (R186) -/

section

variable {s : State} {a len : Nat} {kind : AccKind}

theorem exec_uncachedAccess_of (a len : Nat) (kind : AccKind) (s : State) :
    exec (.uncachedAccess a len kind) s = .next (s.keepQueue (s.uncached a len kind)) := by
  rw [exec_uncachedAccess, execUncachedAccess, onUnits_next]

/-- An access for which nothing waits comes now. -/
theorem exec_uncachedAccess_now (hwaiters : s.waiters = []) (hwashed : s.isWashing (a / 4096) = false)
    (hrange : populatedRange a (AccKind.size kind len) = true) :
    exec (.uncachedAccess a len kind) s = .next (s.keepQueue (s.homeOp a (AccKind.size kind len) kind).2) := by
  rw [exec_uncachedAccess_of]
  simp [State.uncached, hwaiters, hwashed, hrange]

theorem exec_uncachedAccess_waiting {w : Waiter} (hwaiters : s.waiters = [w]) (haddr : w.addr = a)
    (hlen : w.acc.len = AccKind.size kind len) (hkind : w.acc.kind = kind) :
    exec (.uncachedAccess a len kind) s = .next (s.keepQueue (State.performArrived { s with waiters := [] } w)) := by
  rw [exec_uncachedAccess_of]
  simp [State.uncached, hwaiters, haddr, hlen, hkind, removeFirst]

variable (hwaiters : s.waiters = []) (hwashed : s.isWashing (a / 4096) = false)
include hwaiters hwashed

theorem exec_uncachedAccess_read (hrange : populatedRange a len = true) (h : ∀ l ∈ linesOf a len, s.dirFind l = none) :
    exec (.uncachedAccess a len .read) s = .next (s.keepQueue (s.bump (0x2841 + a / 2 ^ 36) 6 64)) := by
  rw [exec_uncachedAccess_now (kind := .read) hwaiters hwashed hrange]
  exact congrArg (fun u => Host.Outcome.next (s.keepQueue u)) (State.homeOp_read_of_unlisted h)

theorem exec_uncachedAccess_write {b : List Byte} (hrange : populatedRange a b.length = true)
    (h : ∀ l ∈ linesOf a b.length, s.dirFind l = none) :
    ∃ u, exec (.uncachedAccess a len (.write b)) s = .next u ∧ u.hbm = (s.hbmWrite a b).1.hbm ∧
      u.rooms = (linesOf a b.length).foldl (fun r l => Store.mapValues {} (wakeOn l) r) s.rooms := by
  obtain ⟨hhbm, hrooms⟩ := State.foldl_wakeLine_fields (linesOf a b.length) (s.hbmWrite a b).1
  obtain ⟨_, _, hframe⟩ := s.hbmWrite_frame a b
  refine ⟨_, exec_uncachedAccess_now (kind := .write b) hwaiters hwashed hrange, ?_⟩
  have hop : (s.homeOp a (AccKind.size (.write b) len) (.write b)).2 = _ := State.homeOp_write_of_unlisted h
  rw [hop]
  refine ⟨hhbm, hrooms.trans ?_⟩
  rw [hframe]

end

/-! ### Answers from outside (R242, R243) -/

theorem exec_remoteResponseTimeout_of_some {k : Nat} {s : State} {x : RemoteReq} (h : s.remotes[k]? = some x) :
    exec (.remoteResponseTimeout k) s = .next (s.keepQueue (s.answerRemote (· == x) 2 [])) := by
  rw [exec_remoteResponseTimeout, execRemoteResponseTimeout, onUnits_next, h]

theorem exec_remoteResponseTimeout_of_none {k : Nat} {s : State} (h : s.remotes[k]? = none) :
    exec (.remoteResponseTimeout k) s = .next s := by
  rw [exec_remoteResponseTimeout, execRemoteResponseTimeout, onUnits_next, h, State.keepQueue_self]

/-- The only request that waits for a response gets it. -/
theorem State.answerRemote_of_one {s : State} {x : RemoteReq} (hremotes : s.remotes = [x]) (hopen : x.answer = none)
    (hlives : 1280 ≤ x.room ∨ (s.suite x.suite).step ≠ none) (status : Nat) (data : List Byte) :
    s.answerRemote (· == x) status data = { s with remotes := [{ x with answer := some (status, data) }] } := by
  have hkeeps : ¬ (x.room < 1280 ∧ (s.suite x.suite).step = none) := fun h => hlives.elim (by omega) (· h.2)
  simp [State.answerRemote, hremotes, hopen, hkeeps, modifyFirst]

/-- Settles O51, by the lemmas about each event, in the order of its clauses. -/
theorem memoryEvents : Obligations.MemoryEvents := by
  unfold Obligations.MemoryEvents
  intro s t p stack hall a len k st' pc need lane q rest kind w c x b d cl g
  refine ⟨fun hp ht => ⟨exec_portRegulatorIssue_of_none ht hp,
      fun hnext h => exec_portRegulatorIssue_of_held ht hp hnext (.inl h),
      fun hnext h => exec_portRegulatorIssue_of_held ht hp hnext (.inr h), exec_portRegulatorIssue_of_ready ht hp⟩,
    s.nextRequest_of_plain, ⟨rfl, rfl, rfl, rfl, rfl⟩, fun h => s.deadlineAt_of_not_rt h q, fun hstack => ?_,
    State.releaseAnswers_of_none, fun hp ht => ?_, exec_uncachedAccess_now,
    fun hwaiters hwashed => ⟨exec_uncachedAccess_read hwaiters hwashed, exec_uncachedAccess_write hwaiters hwashed⟩,
    exec_uncachedAccess_waiting, fun hhall => ⟨?_, ?_⟩, exec_remoteResponseTimeout_of_some,
    exec_remoteResponseTimeout_of_none, fun hremotes hopen hlives => State.answerRemote_of_one hremotes hopen hlives st' b⟩
  · obtain ⟨_, _, hframe⟩ := s.publishLevels_frame stack
    refine ⟨by rw [exec_congestionPublish, execCongestionPublish, onUnits_of _ _ _ hstack], by rw [hframe], by rw [hframe],
      by rw [hframe], fun hwf j hj => State.get_publishLevels hwf hj,
      fun ha hpc => ⟨exec_patrolScrub_of_full hstack ha hpc, fun h ht => ?_⟩⟩
    rw [exec_patrolScrub_of_room hstack ha hpc h ht]
    exact ⟨fun hmore => by rw [if_pos hmore], fun hlast => by rw [if_neg (by omega)]⟩
  · refine ⟨exec_hbmRefresh_of hp, fun h => exec_pcSchedule_of hp (State.schedule_of_busy ht h),
      fun hidle hdue h => exec_pcSchedule_of hp (State.schedule_of_refresh ht hidle hdue h),
      fun hidle hdue hgroup h => exec_pcSchedule_of hp (State.schedule_of_unusable ht hidle hdue hgroup h),
      fun hidle hdue hgroup h => exec_pcSchedule_of hp (State.schedule_of_urgent ht hidle hdue hgroup h),
      fun hidle hdue hgroup hurgent hbatch h => ?_,
      fun h => exec_hbmAccessComplete_of hp rfl (State.complete_of_idle h _), fun hservice hgood => ?_⟩
    · have hexec := exec_pcSchedule_of hp (State.schedule_of_picked ht hidle hdue hgroup hurgent hbatch h)
      exact ⟨hexec, fun hanswers hremovals hwf => ⟨_, hexec, State.serveAccess_spec hanswers hremovals hwf ht _ rfl⟩⟩
    · have hexec := exec_hbmAccessComplete_of hp rfl (State.complete_ok hservice hgood)
      exact ⟨hexec, fun hanswers hremovals hwf hclass => ⟨_, hexec, State.endAccess_spec hanswers hremovals hwf hclass rfl⟩,
        fun hread => exec_hbmAccessComplete_of hp rfl (State.complete_uncorrectable hservice hgood hread),
        fun hlane hread =>
          exec_hbmAccessComplete_of hp (decide_eq_true hlane) (State.complete_corrected hservice hgood hread lane),
        fun h => exec_hbmAccessComplete_of hp rfl (State.complete_parityCommand hservice h)⟩
  · rw [exec_pcieCompletion, execPcieCompletion, onUnits_of _ _ _ hhall]
    rfl
  · rw [exec_pcieCompletionTimeout, execPcieCompletionTimeout, onUnits_of _ _ _ hhall]
    rfl

end Sys2Proof.Machine
end

section
/-! PROOF. Page walks (R226 to R234), the stalls of ports and their ends (R238, R240), and fault records (R236, R237). -/

namespace Sys2Proof.Machine

/-! ### PAGE_WALK -/

section

variable {s t : State} {port ctx va lvl : Nat} {wr np : Bool} (hport : isMaster port = true) (hctx : isContext ctx = true)
include hport hctx

theorem exec_pageWalk_of :
    exec (.pageWalk port ctx va wr) s = .next (s.keepQueue (s.walkAt port ctx va wr)) := by
  rw [exec_pageWalk, execPageWalk, onUnits_of _ _ _ (by rw [hport, hctx]; rfl)]

theorem exec_pageWalk_of_stalled (h : s.stalled port ctx = true) : exec (.pageWalk port ctx va wr) s = .next s := by
  rw [exec_pageWalk_of hport hctx, State.walkAt, if_pos h, State.keepQueue_self]

theorem exec_pageWalk_of_fault (h : s.stalled port ctx = false) (hwalk : s.translate port ctx va wr = (.fault np lvl, t)) :
    exec (.pageWalk port ctx va wr) s =
      .next (s.keepQueue (if t.faultsRefused ctx then t else t.stall port ctx va wr np lvl)) := by
  rw [exec_pageWalk_of hport hctx, State.walkAt, if_neg (Bool.eq_false_iff.1 h), hwalk]

theorem exec_pageWalk_of_no_fault (h : s.stalled port ctx = false) (hwalk : (s.translate port ctx va wr).2 = t)
    (hfault : ∀ m l, (s.translate port ctx va wr).1 ≠ .fault m l) :
    exec (.pageWalk port ctx va wr) s = .next (s.keepQueue t) := by
  rw [exec_pageWalk_of hport hctx, State.walkAt, if_neg (Bool.eq_false_iff.1 h)]
  subst hwalk
  generalize s.translate port ctx va wr = walk at hfault ⊢
  obtain ⟨r, u⟩ := walk
  cases r with
  | fault m l => exact absurd rfl (hfault m l)
  | ok | access | poisoned | wait => rfl

end

/-- A fault adds one stall, which has no record yet, and leaves the Rooms and HBM (R238). -/
theorem State.stall_adds (t : State) (port ctx va : Nat) (wr np : Bool) (lvl : Nat) :
    (t.stall port ctx va wr np lvl).rooms = t.rooms ∧ (t.stall port ctx va wr np lvl).hbm = t.hbm ∧
      ∃ z, (t.stall port ctx va wr np lvl).stalls = t.stalls ++ [z] ∧ z.port = port ∧ z.ctx = ctx ∧ z.va = va ∧
        z.write = wr ∧ z.notPresent = np ∧ z.level = lvl ∧ z.seq = none :=
  ⟨rfl, rfl, _, rfl, rfl, rfl, rfl, rfl, rfl, rfl, rfl⟩

/-! ### The end of a stall (R238, R240) -/

/-- Whatever a Room changes but its place, every Room stays in its Suite. -/
theorem State.modRoom_keepsMembers {s : State} (hwf : Store.wf ({} : Room) s.rooms = true) (r : Nat) {f : Room → Room}
    (hf : ∀ x, (f x).member = x.member) :
    ∃ rooms, s.modRoom r f = { s with rooms } ∧ Store.wf ({} : Room) rooms = true ∧
      ∀ q, (Store.get {} rooms q).member = (s.room q).member := by
  refine ⟨_, rfl, Store.wf_set _ _ _ _ hwf, fun q => ?_⟩
  by_cases hq : q = r
  · rw [hq, Store.get_set_self _ _ _ _ hwf, hf]
  · rw [Store.get_set_ne _ _ _ _ _ hq]
    rfl

theorem State.release_keepsMembers {s : State} (hwf : Store.wf ({} : Room) s.rooms = true) (x : PortStall) :
    ∃ rooms, s.release x = { s with rooms, stalls := s.stalls.filter (· != x) } ∧ Store.wf ({} : Room) rooms = true ∧
      ∀ q, (Store.get {} rooms q).member = (s.room q).member := by
  rw [State.release]
  split
  · exact State.modRoom_keepsMembers (s := { s with stalls := s.stalls.filter (· != x) }) hwf x.port fun _ => rfl
  · exact ⟨s.rooms, rfl, hwf, fun _ => rfl⟩

/-- The transfer that a refused access belongs to is dropped. -/
theorem State.dropStalledDma_keepsMembers {s : State} (hwf : Store.wf ({} : Room) s.rooms = true) (x : PortStall) :
    ∃ rooms, (if x.port < 1280 then s.modRoom x.port fun y => { y with dma := removeFirst (·.stalled) y.dma } else s) =
      { s with rooms } ∧ Store.wf ({} : Room) rooms = true ∧ ∀ q, (Store.get {} rooms q).member = (s.room q).member := by
  split
  · exact State.modRoom_keepsMembers hwf x.port fun _ => rfl
  · exact ⟨s.rooms, rfl, hwf, fun _ => rfl⟩

/-- A Room that belongs to no Suite has nothing to fault or to settle. -/
theorem State.refuseStall_of_released {s t : State} {x : PortStall} (hport : x.port < 2560)
    (ht : State.release
      (if x.port < 1280 then s.modRoom x.port fun y => { y with dma := removeFirst (·.stalled) y.dma } else s) x = t)
    (hfree : (t.room (x.port % 1280)).member = none) : s.refuseStall x = t := by
  have hstep : t.stepOf (x.port % 1280) = none := by rw [State.stepOf, hfree]; rfl
  have hsuite : t.suiteOf (x.port % 1280) = none := by rw [State.suiteOf, hfree]; rfl
  simp only [State.refuseStall, ht, if_pos hport, hstep, hsuite, Option.isSome_none, Bool.false_eq_true, if_false]

/-- A refused access of a Room that belongs to no Suite ends its stall, and changes nothing else outside of the Rooms. -/
theorem State.refuseStall_of_free {s : State} {x : PortStall} (hwf : Store.wf ({} : Room) s.rooms = true)
    (hport : x.port < 2560) (hsuite : s.suiteOf (x.port % 1280) = none) :
    ∃ rooms, s.refuseStall x = { s with rooms, stalls := s.stalls.filter (· != x) } := by
  obtain ⟨dropped, hdrop, hwf', hkept⟩ := State.dropStalledDma_keepsMembers hwf x
  obtain ⟨rooms, hrelease, _, hkept'⟩ := State.release_keepsMembers (s := { s with rooms := dropped }) hwf' x
  refine ⟨rooms, State.refuseStall_of_released hport (by rw [hdrop]; exact hrelease) ?_⟩
  exact (hkept' _).trans ((hkept _).trans (Option.map_eq_none_iff.1 hsuite))

/-! ### FAULT_TIMEOUT (R240) -/

section

variable {s : State} {port : Nat} {x : PortStall} (hport : isMaster port = true)
include hport

theorem exec_faultTimeout_of_none (h : ∀ z ∈ s.stalls, z.port = port → s.expired z = false) :
    exec (.faultTimeout port) s = .next s := by
  have hnone : s.stalls.filter (fun z => z.port == port && s.expired z) = [] :=
    List.filter_eq_nil_iff.2 fun z hz hexpired => by
      obtain ⟨hat, hdue⟩ := Bool.and_eq_true_iff.1 hexpired
      exact Bool.false_ne_true ((h z hz (beq_iff_eq.1 hat)).symm.trans hdue)
  rw [exec_faultTimeout, execFaultTimeout, onUnits_of _ _ _ hport, hnone, List.foldl_nil, State.keepQueue_self]

theorem exec_faultTimeout_of_one (h : s.stalls.filter (fun z => z.port == port && s.expired z) = [x]) :
    exec (.faultTimeout port) s = .next (s.keepQueue (s.refuseStall x)) := by
  rw [exec_faultTimeout, execFaultTimeout, onUnits_of _ _ _ hport, h, List.foldl_cons, List.foldl_nil]

end

/-! ### FAULT_RECORD_WRITE (R236 to R238) -/

theorem exec_faultRecordWrite_of {s u : State} {hh : Nat} (h : isHousehold hh = true) (hu : s.writeFault hh = u) :
    exec (.faultRecordWrite hh) s = .next (s.keepQueue u) := by
  rw [exec_faultRecordWrite, execFaultRecordWrite, onUnits_of _ _ _ h, hu]

theorem State.sendVector_out (s : State) (h v : Nat) : s.out ⊆ (s.sendVector h v).out := by
  rw [State.sendVector]
  split
  · exact fun _ ho => ho
  · split
    · exact fun _ ho => ho
    · exact List.subset_append_left _ _

/-- Counting the stalls that a full ring keeps waiting marks them, and sends nothing. -/
theorem State.countWaits_fields (s : State) (hh : Nat) : (s.countWaits hh).out = s.out ∧
    (s.countWaits hh).stalls.map (fun z => { z with waited := true }) = s.stalls.map fun z => { z with waited := true } := by
  refine ⟨rfl, List.map_map.trans (List.map_congr_left fun z _ => ?_)⟩
  simp only [Function.comp_apply]
  split <;> rfl

/-- The entry of the ring that takes record k of a household (R236). -/
def Household.faultEntry (h : Household) (k : Nat) : Nat :=
  h.faultqBase.toNat / 4096 * 4096 + 32 * ((k + faultqEntries h - 1) % faultqEntries h)

/-- The record of a stall has been written, and neither the host nor the count of waiting stalls has been told. -/
def State.recordFault (s : State) (hh : Nat) (x : PortStall) : State :=
  let k := (s.house hh).faultqTail + 1
  let t := s.emit (.hostWrite (bitsOf (s.house hh).faultqBase.toNat 4 4) ((s.house hh).faultEntry k.toNat) none
    (faultRecord x k.toNat))
  { t.modHouse hh ({ · with faultqTail := k }) with
    stalls := modifyFirst (· == x) (fun y => { y with seq := some k, time := s.time }) s.stalls }

theorem State.recordFault_out (s : State) (hh : Nat) (x : PortStall) :
    Output.hostWrite (bitsOf (s.house hh).faultqBase.toNat 4 4) ((s.house hh).faultEntry ((s.house hh).faultqTail + 1).toNat)
      none (faultRecord x ((s.house hh).faultqTail + 1).toNat) ∈ (s.recordFault hh x).out :=
  List.mem_append_right _ (List.mem_singleton.2 rfl)

/-- The interrupt of a household's fault queue (R236, R237). -/
def State.signalFault (t : State) (hh : Nat) (h : Household) : State :=
  if h.faultqCtrl.getLsbD 31 then t.houseVector (bitsOf h.faultqBase.toNat 4 4) hh (bitsOf h.faultqCtrl.toNat 20 16) else t

theorem State.signalFault_fields (t : State) (hh : Nat) (h : Household) :
    t.out ⊆ (t.signalFault hh h).out ∧ (t.signalFault hh h).stalls = t.stalls := by
  rw [State.signalFault]
  split
  · obtain ⟨_, _, hframe⟩ := t.sendVector_frame (bitsOf h.faultqBase.toNat 4 4) (32 * hh + bitsOf h.faultqCtrl.toNat 20 16)
    exact ⟨t.sendVector_out .., (congrArg State.stalls hframe :)⟩
  · exact ⟨fun _ ho => ho, rfl⟩

section

variable {s : State} {hh : Nat} {x : PortStall}

theorem State.writeFault_of_none (h : s.nextFault hh = none) : s.writeFault hh = s := by
  simp only [State.writeFault, h]

theorem State.writeFault_of_full (h : s.nextFault hh = some x) (hfull : faultqFull (s.house hh) = true) :
    s.writeFault hh = s.countWaits hh := by
  simp only [State.writeFault, h, hfull, if_true]

theorem State.writeFault_of_linkDown (h : s.nextFault hh = some x) (hfull : faultqFull (s.house hh) = false)
    (hlink : s.hostLink (bitsOf (s.house hh).faultqBase.toNat 4 4) = false) : s.writeFault hh = s.refuseStall x := by
  simp only [State.writeFault, h, hfull, hlink, Bool.false_eq_true, if_false, Bool.not_false, if_true]

theorem State.writeFault_of_linkUp (h : s.nextFault hh = some x) (hfull : faultqFull (s.house hh) = false)
    (hlink : s.hostLink (bitsOf (s.house hh).faultqBase.toNat 4 4) = true) {t : State}
    (ht : t = (s.recordFault hh x).signalFault hh (s.house hh)) :
    s.writeFault hh = if faultqFull (t.house hh) then t.countWaits hh else t := by
  simp only [State.writeFault, h, hfull, hlink, Bool.false_eq_true, if_false, Bool.not_true, ht]
  rfl

/-- A stall takes the sequence number and the time of its record; after that stalls are only counted, and messages go out. -/
theorem State.writeFault_records (h : s.nextFault hh = some x) (hfull : faultqFull (s.house hh) = false)
    (hlink : s.hostLink (bitsOf (s.house hh).faultqBase.toNat 4 4) = true) :
    (s.recordFault hh x).out ⊆ (s.writeFault hh).out ∧
      (s.writeFault hh).stalls.map (fun z => { z with waited := true }) =
        (s.recordFault hh x).stalls.map fun z => { z with waited := true } := by
  obtain ⟨hout, hstalls⟩ := (s.recordFault hh x).signalFault_fields hh (s.house hh)
  rw [State.writeFault_of_linkUp h hfull hlink rfl, ← hstalls]
  split
  · exact ⟨hout, (State.countWaits_fields _ hh).2⟩
  · exact ⟨hout, rfl⟩

end

end Sys2Proof.Machine
end

section
/-! PROOF. What an uncached access reads at its home when no cache holds its lines (R186). -/

namespace Sys2Proof.Machine

/-! ### Ranges of a store -/

section

variable {α : Type} (d : α) (m : Store α)

theorem Store.length_range (a n : Nat) : (Store.range d m a n).length = n := by
  induction n generalizing a with
  | zero => rfl
  | succ n ih => rw [Store.range, List.length_cons, ih]

theorem Store.range_append (a i j : Nat) :
    Store.range d m a i ++ Store.range d m (a + i) j = Store.range d m a (i + j) := by
  induction i generalizing a with
  | zero => rw [Nat.zero_add]; rfl
  | succ i ih =>
    rw [Nat.add_right_comm i 1 j, Store.range, Store.range, List.cons_append, Nat.add_comm i 1, ← Nat.add_assoc, ih]

/-- A part of a range is a range. -/
theorem Store.take_drop_range (a i n j : Nat) :
    ((Store.range d m a (i + n + j)).drop i).take n = Store.range d m (a + i) n := by
  rw [Nat.add_assoc, ← Store.range_append, List.drop_left' (Store.length_range d m a i), ← Store.range_append,
    List.take_left' (Store.length_range d m (a + i) n)]

/-- Lines one after another hold the bytes of one range. -/
theorem Store.flatMap_span_range (k n w : Nat) :
    (span k n).flatMap (fun l => Store.range d m (l * w) w) = Store.range d m (k * w) (n * w) := by
  induction n with
  | zero => rw [Nat.zero_mul]; rfl
  | succ n ih =>
    rw [span_succ, List.flatMap_append, ih, List.flatMap_singleton, Nat.add_mul k n w, Store.range_append, Nat.succ_mul]

end

/-! ### Coherent reads -/

section

variable {s : State} {a n : Nat}

theorem State.coherentBytes_of_uncached (h : ∀ l ∈ linesOf a n, s.lineElsewhere l = none) :
    s.coherentBytes a n = s.hbmRead a n := by
  have hlines : (linesOf a n).flatMap s.lineValue = (linesOf a n).flatMap fun l => s.hbmRead (l * 128) 128 :=
    List.flatMap_congr fun l hl => by rw [State.lineValue, h l hl, Option.getD_none]
  rw [State.coherentBytes, hlines, linesOf]
  split
  · next hn => rw [hn]; rfl
  · next hn =>
    have hsize : ((a + n - 1) / 128 - a / 128 + 1) * 128 =
        a % 128 + n + (((a + n - 1) / 128 - a / 128 + 1) * 128 - (a % 128 + n)) := by omega
    have hstart : a / 128 * 128 + a % 128 = a := by omega
    unfold State.hbmRead
    rw [Store.flatMap_span_range, hsize, Store.take_drop_range, hstart]

theorem State.coherentPoison_of_good (h : ∀ u ∈ unitsOf a n, s.unitBad u = false) : s.coherentPoison a n = false :=
  List.any_eq_false.2 fun u hu => by simp [h u hu]

/-- A read of lines that neither the directory nor a message holds answers the bytes of HBM, and counts at its home. -/
theorem State.homeOp_read_of_uncached (hunlisted : ∀ l ∈ linesOf a n, s.dirFind l = none)
    (huncached : ∀ l ∈ linesOf a n, s.lineElsewhere l = none) (hgood : ∀ u ∈ unitsOf a n, s.unitBad u = false) :
    s.homeOp a n .read = (.ok (s.hbmRead a n), s.countUncached a) := by
  simp only [State.homeOp, State.any_isBusy_of_unlisted hunlisted, State.coherentPoison_of_good hgood, Bool.false_eq_true,
    if_false, State.uncachedRead, State.coherentBytes_of_uncached huncached, State.foldl_readLine_of_unlisted hunlisted]

end

end Sys2Proof.Machine
end

section
/-! PROOF. Accesses that arrive through Mortar (R186, R245 to R247), and the statement on walks and arrivals. -/

namespace Sys2Proof.Machine

/-! ### Answers -/

theorem State.reply_out (s : State) (q : Chan) (i sub code : Nat) (data : List Byte) :
    s.out ⊆ (s.reply q i sub code data).out := by
  have hanswer : s.out ⊆ (s.emit (.answer q i sub code data)).out := List.subset_append_left _ _
  cases q with
  | window | own => exact hanswer
  | can | tunnel => exact List.Subset.trans hanswer (List.subset_append_left _ _)

/-- The removals that end are answered (R245). -/
theorem State.endRemovals_frame (s : State) :
    ∃ removals halls out, s.endRemovals = { s with removals, halls, out } ∧ s.out ⊆ out := by
  rw [State.endRemovals]
  refine List.foldlRecOn
    (motive := fun t : State => ∃ removals halls out, t = { s with removals, halls, out } ∧ s.out ⊆ out) _ _
    ⟨_, s.halls, s.out, rfl, fun _ ho => ho⟩ ?_
  rintro t ⟨removals, halls, out, rfl, hout⟩ r -
  obtain ⟨halls', out', hreply⟩ := State.reply_frame { s with removals, halls, out } r.chan r.index r.sub 0 []
  have hgrows := State.reply_out { s with removals, halls, out } r.chan r.index r.sub 0 []
  rw [hreply] at hgrows ⊢
  exact ⟨removals, halls', out', rfl, List.Subset.trans hout hgrows⟩

/-- A performed access of another module is answered now, or its answer is held (log entry 65). -/
theorem State.answerLater_remote (s : State) {w : Waiter} (hport : w.acc.port < 12) (b : List Byte) :
    ∃ heldAnswers out, s.answerLater w b = { s with heldAnswers, out } ∧
      ((∃ z ∈ heldAnswers, z.waiter = w ∧ z.data = b) ∨ .remoteAnswer w.acc true false b ∈ out) := by
  rw [State.answerLater]
  split
  · exact ⟨_, s.out, rfl, .inl ⟨_, List.mem_append_right _ (List.mem_singleton.2 rfl), rfl, rfl⟩⟩
  · rw [State.answerAccess, if_pos hport]
    exact ⟨s.heldAnswers, _, rfl, .inr (List.mem_append_right _ (List.mem_singleton.2 rfl))⟩

/-! ### Arrived accesses (R246) -/

theorem State.washingPages_of_washed {s : State} {w : Waiter}
    (h : ∀ p ∈ pageStarts w.addr w.acc.len, s.isWashing (p / 4096) = false) : s.washingPages w = [] := by
  rw [State.washingPages]
  split
  · rfl
  · refine List.filter_eq_nil_iff.2 fun p hp => ?_
    obtain ⟨q, hq, rfl⟩ := List.mem_map.1 hp
    exact Bool.eq_false_iff.1 (h q hq)

section

variable {s : State} {w : Waiter} (hkind : w.acc.kind = .read)
  (hwashed : ∀ p ∈ pageStarts w.addr w.acc.len, s.isWashing (p / 4096) = false)
  (hlines : ∀ l ∈ linesOf w.addr w.acc.len, s.dirFind l = none ∧ s.lineElsewhere l = none)
  (hgood : ∀ u ∈ unitsOf w.addr w.acc.len, s.unitBad u = false)
include hkind hwashed hlines hgood

theorem State.performArrived_read : s.performArrived w =
    ((s.countUncached w.addr).answerLater w (s.hbmRead w.addr w.acc.len)).endRemovals := by
  rw [State.performArrived, State.washingPages_of_washed hwashed, hkind,
    State.homeOp_read_of_uncached (fun l hl => (hlines l hl).1) (fun l hl => (hlines l hl).2) hgood]
  rfl

/-- A read of uncached lines answers the bytes of HBM to the other module, and changes no memory. -/
theorem State.performArrived_read_spec (hport : w.acc.port < 12) : (s.performArrived w).hbm = s.hbm ∧
    (s.performArrived w).rooms = s.rooms ∧ (s.performArrived w).suites = s.suites ∧
    (s.performArrived w).directory = s.directory ∧ (s.performArrived w).pages = s.pages ∧
    ((∃ z ∈ (s.performArrived w).heldAnswers, z.waiter = w ∧ z.data = s.hbmRead w.addr w.acc.len) ∨
      .remoteAnswer w.acc true false (s.hbmRead w.addr w.acc.len) ∈ (s.performArrived w).out) := by
  obtain ⟨held, out, hanswer, hheld⟩ := (s.countUncached w.addr).answerLater_remote hport (s.hbmRead w.addr w.acc.len)
  obtain ⟨_, _, _, hremovals, hgrows⟩ :=
    State.endRemovals_frame { s.countUncached w.addr with heldAnswers := held, out }
  rw [State.performArrived_read hkind hwashed hlines hgood, hanswer, hremovals]
  exact ⟨rfl, rfl, rfl, rfl, rfl, hheld.imp_right fun hout => hgrows hout⟩

end

section

variable {s : State} {acc : RemoteAccess} (hport : isMortar acc.port = true)
include hport

theorem exec_remoteAccessArrival_of (s : State) :
    exec (.remoteAccessArrival acc) s = .next (s.keepQueue (s.arrive acc)) := by
  rw [exec_remoteAccessArrival, execRemoteAccessArrival, onUnits_of _ _ _ hport]

theorem exec_remoteAccessArrival_of_silent (h : s.portUp acc.port = false ∨ s.failSilent = true) :
    exec (.remoteAccessArrival acc) s = .next s := by
  have hsilent : (!s.portUp acc.port || s.failSilent) = true := h.elim (fun h => by rw [h]; rfl) (fun h => by rw [h, Bool.or_true])
  rw [exec_remoteAccessArrival_of hport, State.arrive]
  simp only [hsilent, if_true, State.keepQueue_self]

variable (hup : s.portUp acc.port = true) (hloud : s.failSilent = false)
include hup hloud

variable {acc' : RemoteAccess} (hacc : acc' = { acc with len := AccKind.size acc.kind acc.len })
include hacc

theorem exec_remoteAccessArrival_of_refused (h : s.allow acc' = none) :
    exec (.remoteAccessArrival acc) s = .next (s.keepQueue
      (State.countRefused { s with windowRefusals := s.windowRefusals ++ [{ acc := acc', arrived := s.time }] } acc')) := by
  subst hacc
  rw [exec_remoteAccessArrival_of hport, State.arrive]
  simp only [hup, hloud, h, Bool.not_true, Bool.or_false, Bool.false_eq_true, if_false]

theorem exec_remoteAccessArrival_of_allowed {a : Nat} (h : s.allow acc' = some a) :
    exec (.remoteAccessArrival acc) s = .next (s.keepQueue
      ((s.enqueue (mortarMaster acc.port) a acc'.len (writes acc.kind) none).performArrived
        { window := s.admitter acc', addr := a, acc := acc' })) := by
  subst hacc
  rw [exec_remoteAccessArrival_of hport, State.arrive]
  simp only [hup, hloud, h, Bool.not_true, Bool.or_false, Bool.false_eq_true, if_false]

/-- An admitted read only adds requests to the traffic of its port before it is performed. -/
theorem exec_remoteAccessArrival_read {a : Nat} (h : s.allow acc' = some a) (hkind : acc.kind = .read)
    (hwashed : ∀ p ∈ pageStarts a acc.len, s.isWashing (p / 4096) = false)
    (hlines : ∀ l ∈ linesOf a acc.len, s.dirFind l = none ∧ s.lineElsewhere l = none)
    (hgood : ∀ u ∈ unitsOf a acc.len, s.unitBad u = false) : ∃ u, exec (.remoteAccessArrival acc) s = .next u ∧ u.hbm = s.hbm ∧
      u.rooms = s.rooms ∧ u.suites = s.suites ∧ u.directory = s.directory ∧ u.pages = s.pages ∧
      ((∃ z ∈ u.heldAnswers, z.waiter.acc = acc ∧ z.data = s.hbmRead a acc.len) ∨
        Output.remoteAnswer acc true false (s.hbmRead a acc.len) ∈ u.out) := by
  obtain rfl : acc' = acc := by rw [hacc, show AccKind.size acc.kind acc.len = acc.len by rw [hkind]; rfl]
  refine ⟨_, exec_remoteAccessArrival_of_allowed hport hup hloud hacc h, ?_⟩
  obtain ⟨packets, regulators, henqueue⟩ :=
    s.enqueue_frame (mortarMaster acc'.port) a acc'.len (writes acc'.kind) none .none none false
  rw [henqueue]
  obtain ⟨hhbm, hrooms, hsuites, hdirectory, hpages, hanswer⟩ := State.performArrived_read_spec
    (s := { s with packets, regulators }) (w := { window := s.admitter acc', addr := a, acc := acc' })
    hkind hwashed hlines hgood (of_decide_eq_true hport)
  refine ⟨hhbm, hrooms, hsuites, hdirectory, hpages, hanswer.imp_left ?_⟩
  rintro ⟨z, hz, hwaiter, hdata⟩
  exact ⟨z, hz, by rw [hwaiter], hdata⟩

end

/-- A refusal counts at the owners of the Windows that the access meets, and changes nothing else. -/
theorem State.countRefused_frame (s : State) (acc : RemoteAccess) : ∃ households, s.countRefused acc = { s with households } := by
  rw [State.countRefused]
  refine List.foldlRecOn (motive := fun t : State => ∃ households, t = { s with households }) _ _ ⟨s.households, rfl⟩ ?_
  rintro t ⟨households, rfl⟩ hh -
  exact ⟨_, rfl⟩

/-! ### WINDOW_REFUSAL (R247) -/

section

variable {s : State} {k : Nat} {y : Refusal1}

theorem exec_windowRefusal_of_none (h : s.windowRefusals[k]? = none) : exec (.windowRefusal k) s = .next s := by
  rw [exec_windowRefusal, execWindowRefusal, onUnits_next, h, State.keepQueue_self]

theorem exec_windowRefusal_of_some (h : s.windowRefusals[k]? = some y) :
    exec (.windowRefusal k) s = .next (s.keepQueue (if s.time < y.arrived + 2000 then s
      else State.answerAccess { s with windowRefusals := removeAt k s.windowRefusals } y.acc false false [])) := by
  rw [exec_windowRefusal, execWindowRefusal, onUnits_next, h]

end

/-! ### The statement -/

/-- Settles O41, by the lemmas about each event, in the order of its clauses. -/
theorem walksAndArrivals : Obligations.WalksAndArrivals := by
  unfold Obligations.WalksAndArrivals
  intro s t port ctx va hh k a hall lvl wr np x y acc acc'
  refine ⟨fun hport hctx => ⟨exec_pageWalk_of_stalled hport hctx, fun hfree hwalk => ?_, exec_pageWalk_of_no_fault hport hctx⟩,
    fun hport => ⟨exec_faultTimeout_of_none hport,
      fun hone => ⟨exec_faultTimeout_of_one hport hone, fun hwf hroom _ hsuite => ?_⟩⟩,
    fun hhh hhall => ⟨fun hnone => ?_, fun hnext hfull => ?_, fun hnext hspace hlink => ?_, fun hnext hspace hlink => ?_⟩,
    fun hport => ⟨exec_remoteAccessArrival_of_silent hport, fun hup hloud hacc => ?_⟩, exec_windowRefusal_of_none,
    fun hsome => ⟨fun hearly => ?_, fun hdue => ?_⟩⟩
  · have hexec := exec_pageWalk_of_fault hport hctx hfree hwalk
    refine ⟨fun hkept => ?_, fun hrefused => by rw [hexec, if_pos hrefused]⟩
    rw [if_neg (Bool.eq_false_iff.1 hkept)] at hexec
    exact ⟨hexec, _, hexec, t.stall_adds port ctx va wr np lvl⟩
  · have hmem : x ∈ s.stalls.filter fun z => z.port == port && s.expired z := hone ▸ List.mem_singleton.2 rfl
    obtain rfl : x.port = port := beq_iff_eq.1 (Bool.and_eq_true_iff.1 (List.mem_filter.1 hmem).2).1
    obtain ⟨_, hends⟩ := State.refuseStall_of_free hwf hroom hsuite
    refine ⟨_, exec_faultTimeout_of_one hport hone, ?_⟩
    rw [hends]
    exact ⟨rfl, rfl, rfl, rfl⟩
  · rw [exec_faultRecordWrite_of hhh (State.writeFault_of_none hnone), State.keepQueue_self]
  · exact exec_faultRecordWrite_of hhh (State.writeFault_of_full hnext hfull)
  · exact exec_faultRecordWrite_of hhh (State.writeFault_of_linkDown hnext hspace (hhall ▸ hlink))
  · obtain ⟨hout, hstalls⟩ := State.writeFault_records hnext hspace (hhall ▸ hlink)
    refine ⟨_, exec_faultRecordWrite_of hhh rfl, ?_, hstalls⟩
    rw [hhall, ← Nat.mod_eq_sub]
    exact hout (s.recordFault_out hh x)
  · have hsize : acc' = { acc with len := AccKind.size acc.kind acc.len } := hacc
    refine ⟨fun hallow => ⟨exec_remoteAccessArrival_of_allowed hport hup hloud hsize hallow,
      exec_remoteAccessArrival_read hport hup hloud hsize hallow⟩, fun hrefused => ?_⟩
    have hexec := exec_remoteAccessArrival_of_refused hport hup hloud hsize hrefused
    refine ⟨hexec, _, hexec, ?_⟩
    obtain ⟨_, hframe⟩ := State.countRefused_frame
      { s with windowRefusals := s.windowRefusals ++ [{ acc := acc', arrived := s.time }] } acc'
    rw [hframe]
    exact ⟨rfl, rfl, rfl, rfl⟩
  · rw [exec_windowRefusal_of_some hsome, if_pos hearly, State.keepQueue_self]
  · rw [exec_windowRefusal_of_some hsome, if_neg (Nat.not_lt.2 hdue)]

end Sys2Proof.Machine
end

section
/-! PROOF. The state at power-up (R197, R199, R415). -/

namespace Sys2Proof.Machine

theorem step_of_pending_nil {s : State} (h : s.pending = []) : step s = .next s.tick := by
  simp only [step, h]

theorem Store.range_nil {α : Type} (d : α) (a n : Nat) : Store.range d ([] : Store α) a n = List.replicate n d := by
  induction n generalizing a with
  | zero => rfl
  | succ n ih => rw [Store.range, Store.get_nil, ih, List.replicate_succ]

theorem Foreman.reg_default (k : BitVec 5) : ({} : Foreman).reg k = 0 := ite_self _

/-- Settles O4: every store but that of the Halls is empty at power-up, so that each of its keys reads as the default. -/
theorem resetState : Obligations.ResetState := by
  unfold Obligations.ResetState
  refine ⟨List.forall_mem_nil _, rfl, rfl, rfl, rfl, rfl, rfl, fun h hh => ?_, fun _ => rfl, fun _ => rfl, fun _ => rfl,
    fun _ => rfl, fun _ hk => hk.symm, fun _ k _ => ⟨Foreman.reg_default k, rfl, rfl, rfl, rfl, rfl⟩,
    fun a n => Store.range_nil 0 a n, step_of_pending_nil rfl, fun _ => step_of_pending_nil⟩
  interval_cases h
  · exact ⟨rfl, rfl⟩
  · exact ⟨rfl, rfl⟩

end Sys2Proof.Machine
end

section
/-! PROOF. Doorbells (R197, R209, R239), MSI-X unmasking (R221) and the BAR4 aperture (R198). -/

namespace Sys2Proof.Machine

/-! ### Tail doorbells (R209) -/

section

variable {s : State} {hall ctx q : Nat} {x : Context}

theorem State.ringTail_of_dropped {size : Nat} (hx : s.ctx? ctx = some x)
    (h : s.bellLive hall ctx = false ∨ size ≠ 4 ∨ (x.queue q).st ≠ .opened) (v : W32) :
    s.ringTail hall ctx q size v = s.dropBell hall := by
  have hdrop : (!s.bellLive hall ctx || size != 4 || (x.queue q).st != .opened) = true := by
    obtain h | h | h := h
    · rw [h]; rfl
    · rw [bne_iff_ne.2 h, Bool.or_true, Bool.true_or]
    · rw [bne_iff_ne.2 h, Bool.or_true]
  simp only [State.ringTail, hx, hdrop, if_true]

theorem State.ringTail_of_live (hx : s.ctx? ctx = some x) (hlive : s.bellLive hall ctx = true) (hopen : (x.queue q).st = .opened)
    (v : W32) : s.ringTail hall ctx q 4 v =
      if (v - (x.queue q).tail).toNat = 0 then s.recheck ctx q
      else if (v - (x.queue q).tail).toNat ≤ (x.queue q).entries - (x.queue q).waiting then s.modQueue ctx q ({ · with tail := v })
      else if 2 ^ 31 ≤ (v - (x.queue q).tail).toNat then s
      else s.ctxFault ctx 0x40 q none (x.queue q).tail.toNat := by
  simp only [State.ringTail, hx, hlive, hopen, bne_self_eq_false, Bool.not_true, Bool.or_self, Bool.false_eq_true, if_false]
  rfl

/-- A ring has at most 2 ^ 21 entries, so that no advance of TAIL by 2 ^ 31 or more fits it (R205). -/
theorem Queue.entries_le (u : Queue) : u.entries ≤ 2 ^ 21 :=
  Nat.pow_le_pow_right (by decide) (by have := Nat.mod_lt u.value.toNat (y := 16) (by decide); omega)

variable (hhall : isHall hall = true) (hctx : isContext ctx = true) (hqueue : isQueue q = true)
include hhall hctx hqueue

theorem exec_tailDoorbell_of {size : Nat} {v : W32} {t : State} (h : s.ringTail hall ctx q size v = t) :
    exec (.tailDoorbell hall ctx q size v) s = .next (s.keepQueue t) := by
  rw [exec_tailDoorbell, execTailDoorbell, onUnits_of _ _ _ (by rw [hhall, hctx, hqueue]; rfl), h]

end

/-! ### REPLAY and ABORT (R239) -/

section

variable {s : State} {hall ctx : Nat}

theorem State.replayBell_of_live (h : s.bellLive hall ctx = true) (f : State → PortStall → State) (k : W32) :
    s.replayBell hall ctx 8 1 f k = (s.stalls.filter (·.covered ctx k)).foldl f s := by
  simp only [State.replayBell, h, bne_self_eq_false, Bool.not_true, Bool.or_self, Bool.false_eq_true, if_false]

theorem State.replayBell_of_dropped {size : Nat} {ver : Byte} (h : s.bellLive hall ctx = false ∨ size ≠ 8 ∨ ver ≠ 1)
    (f : State → PortStall → State) (k : W32) : s.replayBell hall ctx size ver f k = s.dropBell hall := by
  have hdrop : (!s.bellLive hall ctx || size != 8 || ver != 1) = true := by
    obtain h | h | h := h
    · rw [h]; rfl
    · rw [bne_iff_ne.2 h, Bool.or_true, Bool.true_or]
    · rw [bne_iff_ne.2 h, Bool.or_true]
  simp only [State.replayBell, hdrop, if_true]

/-- A replayed stall has ended; outside of the Rooms and the translations nothing else changes. -/
theorem State.replayStall_frame (s : State) (z : PortStall) :
    ∃ rooms tlb walks, s.replayStall z = { s with rooms, tlb, walks, stalls := s.stalls.filter (· != z) } := by
  rw [State.replayStall, State.release]
  split
  · exact ⟨_, _, _, rfl⟩
  · exact ⟨_, _, _, rfl⟩

theorem State.foldl_replayStall_frame (l : List PortStall) (s : State) : ∃ rooms tlb walks,
    l.foldl State.replayStall s = { s with rooms, tlb, walks, stalls := s.stalls.filter (fun z => !l.contains z) } := by
  induction l generalizing s with
  | nil => exact ⟨s.rooms, s.tlb, s.walks, by simp⟩
  | cons y l ih =>
    obtain ⟨rooms, tlb, walks, hy⟩ := s.replayStall_frame y
    obtain ⟨rooms', tlb', walks', hl⟩ := ih (s.replayStall y)
    rw [hy] at hl
    refine ⟨rooms', tlb', walks', ?_⟩
    rw [List.foldl_cons, hy, hl, List.filter_filter]
    simp only [List.contains_cons, Bool.not_or, bne, Bool.and_comm]

/-- The stalls outside of the chosen ones are those that the choice passes over. -/
theorem filter_not_contains_filter {α : Type} [DecidableEq α] (p : α → Bool) (l : List α) :
    l.filter (fun z => !(l.filter p).contains z) = l.filter fun z => !p z :=
  List.filter_congr fun z hz => by simp [hz]

variable (hhall : isHall hall = true) (hctx : isContext ctx = true)
include hhall hctx

theorem exec_replay_of {size : Nat} {ver : Byte} {seq : W32} {t : State}
    (h : s.replayBell hall ctx size ver State.replayStall seq = t) :
    exec (.replay hall ctx size ver seq) s = .next (s.keepQueue t) := by
  rw [exec_replay, execReplay, onUnits_of _ _ _ (by rw [hhall, hctx]; rfl), h]

theorem exec_abort_of {size : Nat} {ver : Byte} {seq : W32} {t : State}
    (h : s.replayBell hall ctx size ver State.refuseStall seq = t) :
    exec (.abort hall ctx size ver seq) s = .next (s.keepQueue t) := by
  rw [exec_abort, execAbort, onUnits_of _ _ _ (by rw [hhall, hctx]; rfl), h]

end

/-! ### MSI-X (R221) -/

section

variable {s : State} {hall vec : Nat} (hhall : isHall hall = true) (hvec : isVector vec = true)
include hhall hvec

theorem exec_vectorUnmask_of : exec (.vectorUnmask hall vec) s = .next (s.keepQueue (s.unmask hall vec)) := by
  rw [exec_vectorUnmask, execVectorUnmask, onUnits_of _ _ _ (by rw [hhall, hvec]; rfl)]

theorem exec_vectorUnmask_of_silent (h : s.failSilent = true) : exec (.vectorUnmask hall vec) s = .next (s.keepQueue
    (s.modHall hall (·.modVector vec ({ · with masked := false, isPending := ((s.hall hall).vector vec).isPending })))) := by
  rw [exec_vectorUnmask_of hhall hvec, State.unmask]
  simp only [State.modHall_failSilent, h, Bool.and_true, Bool.not_true, Bool.and_false, Bool.false_eq_true, if_false]

theorem exec_vectorUnmask_of_pending (h : s.failSilent = false)
    (hpending : ((s.hall hall).vector vec).isPending = true) :
    exec (.vectorUnmask hall vec) s = .next (s.keepQueue
      ((s.modHall hall (·.modVector vec ({ · with masked := false, isPending := false }))).emit (.msix hall vec))) := by
  rw [exec_vectorUnmask_of hhall hvec, State.unmask]
  simp only [State.modHall_failSilent, h, hpending, Bool.and_false, Bool.not_false, Bool.and_true, if_true]

theorem exec_vectorUnmask_of_not_pending (hpending : ((s.hall hall).vector vec).isPending = false) :
    exec (.vectorUnmask hall vec) s = .next (s.keepQueue
      (s.modHall hall (·.modVector vec ({ · with masked := false, isPending := false })))) := by
  rw [exec_vectorUnmask_of hhall hvec, State.unmask]
  simp only [hpending, Bool.false_and, Bool.false_eq_true, if_false]

end

/-! ### BAR4 (R198, R402) -/

/-- What a host asks for through BAR4: a write of the bytes it brings, or a read (R198). -/
def hostKind : Option (List Byte) → AccKind
  | some b => .write b
  | none => .read

/-- The access that a host makes through BAR4 at an offset (R198). -/
def State.bar4Acc (s : State) (hall off len : Nat) (data : Option (List Byte)) : RemoteAccess :=
  { port := 12 + hall, plane := 0, node := 0, household := 0, addr := (s.hall hall).bar4Base + off
    len := (data.map (·.length)).getD len, kind := hostKind data }

theorem State.bar4_eq (s : State) (hall off len : Nat) (data : Option (List Byte)) {acc : RemoteAccess}
    (hacc : acc = s.bar4Acc hall off len data) : s.bar4 hall off len data =
      if s.bar4Log2 hall = 0 || 2 ^ s.bar4Log2 hall < off + acc.len || acc.len = 0 || !s.hostLink hall then s
      else if s.failSilent || decide ((s.hall hall).up.stage < 9) || !populatedRange acc.addr acc.len ||
          (pageStarts acc.addr acc.len).any (fun p => (s.page (p / 4096)).isProtected) then s.answerAccess acc false false []
      else (s.enqueue (hostPort hall) acc.addr acc.len data.isSome none).performArrived { window := none, addr := acc.addr, acc } := by
  subst hacc
  cases data with
  | none => rfl
  | some b => rfl

/-- A host's access is answered now, or its answer is held (log entry 65). -/
theorem State.answerLater_host (s : State) {w : Waiter} {hall : Nat} (hport : w.acc.port = 12 + hall) (hkind : w.acc.kind = .read)
    (b : List Byte) : ∃ heldAnswers out, s.answerLater w b = { s with heldAnswers, out } ∧
      ((∃ z ∈ heldAnswers, z.waiter = w ∧ z.data = b) ∨ .hostAnswer hall true false b ∈ out) := by
  have hhost : ¬ w.acc.port < 12 := by omega
  rw [State.answerLater]
  split
  · exact ⟨_, s.out, rfl, .inl ⟨_, List.mem_append_right _ (List.mem_singleton.2 rfl), rfl, rfl⟩⟩
  · rw [State.answerAccess, if_neg hhost, hkind, hport, Nat.add_sub_cancel_left]
    exact ⟨s.heldAnswers, _, rfl, .inr (List.mem_append_right _ (List.mem_singleton.2 rfl))⟩

/-- A host's read of uncached lines answers the bytes of HBM, and changes neither memory nor the directory. -/
theorem State.performArrived_hostRead {s : State} {w : Waiter} {hall : Nat} (hport : w.acc.port = 12 + hall)
    (hkind : w.acc.kind = .read) (hwindow : w.window = none)
    (hlines : ∀ l ∈ linesOf w.addr w.acc.len, s.dirFind l = none ∧ s.lineElsewhere l = none)
    (hgood : ∀ u ∈ unitsOf w.addr w.acc.len, s.unitBad u = false) : (s.performArrived w).hbm = s.hbm ∧
      (s.performArrived w).rooms = s.rooms ∧ (s.performArrived w).directory = s.directory ∧
      ((∃ z ∈ (s.performArrived w).heldAnswers, z.waiter = w ∧ z.data = s.hbmRead w.addr w.acc.len) ∨
        .hostAnswer hall true false (s.hbmRead w.addr w.acc.len) ∈ (s.performArrived w).out) := by
  have hwashing : s.washingPages w = [] := by rw [State.washingPages, hwindow]; rfl
  have hperformed : s.performArrived w =
      ((s.countUncached w.addr).answerLater w (s.hbmRead w.addr w.acc.len)).endRemovals := by
    rw [State.performArrived, hwashing, hkind,
      State.homeOp_read_of_uncached (fun l hl => (hlines l hl).1) (fun l hl => (hlines l hl).2) hgood]
    rfl
  obtain ⟨held, out, hanswer, hheld⟩ := (s.countUncached w.addr).answerLater_host hport hkind (s.hbmRead w.addr w.acc.len)
  obtain ⟨_, _, _, hremovals, hgrows⟩ :=
    State.endRemovals_frame { s.countUncached w.addr with heldAnswers := held, out }
  rw [hperformed, hanswer, hremovals]
  exact ⟨rfl, rfl, rfl, hheld.imp_right fun hout => hgrows hout⟩

section

variable {s : State} {hall off len : Nat} (hhall : isHall hall = true)
include hhall

theorem exec_bar4Access_of (data : Option (List Byte)) :
    exec (.bar4Access hall off len data) s = .next (s.keepQueue (s.bar4 hall off len data)) := by
  rw [exec_bar4Access, execBar4Access, onUnits_of _ _ _ hhall]

theorem exec_bar4Access_of_withheld (h : s.bar4Log2 hall = 0) (data : Option (List Byte)) :
    exec (.bar4Access hall off len data) s = .next s := by
  rw [exec_bar4Access_of hhall, State.bar4_eq s hall off len data rfl]
  simp only [h, decide_true, Bool.true_or, if_true, State.keepQueue_self]

variable {data : Option (List Byte)} {acc : RemoteAccess} (hacc : acc = s.bar4Acc hall off len data)
  (hsize : s.bar4Log2 hall ≠ 0) (hfits : off + acc.len ≤ 2 ^ s.bar4Log2 hall) (hlen : acc.len ≠ 0)
  (hlink : s.hostLink hall = true)
include hacc hsize hfits hlen hlink

theorem exec_bar4Access_of_inside : exec (.bar4Access hall off len data) s = .next (s.keepQueue
    (if s.failSilent || decide ((s.hall hall).up.stage < 9) || !populatedRange acc.addr acc.len ||
        (pageStarts acc.addr acc.len).any (fun p => (s.page (p / 4096)).isProtected) then s.answerAccess acc false false []
      else (s.enqueue (hostPort hall) acc.addr acc.len data.isSome none).performArrived
        { window := none, addr := acc.addr, acc })) := by
  rw [exec_bar4Access_of hhall, State.bar4_eq s hall off len data hacc]
  simp only [hsize, Nat.not_lt.2 hfits, hlen, hlink, decide_false, Bool.or_self, Bool.not_true, Bool.false_eq_true, if_false]

theorem exec_bar4Access_of_refused (h : (s.hall hall).up.stage < 9 ∨ populatedRange acc.addr acc.len = false ∨
      ∃ p ∈ pageStarts acc.addr acc.len, (s.page (p / 4096)).isProtected = true) :
    exec (.bar4Access hall off len data) s = .next (s.keepQueue (s.answerAccess acc false false [])) := by
  rw [exec_bar4Access_of_inside hhall hacc hsize hfits hlen hlink, if_pos]
  obtain h | h | h := h
  · rw [decide_eq_true h, Bool.or_true, Bool.true_or, Bool.true_or]
  · rw [h, Bool.not_false, Bool.or_true, Bool.true_or]
  · rw [List.any_eq_true.2 h, Bool.or_true]

variable (hloud : s.failSilent = false) (hstage : 9 ≤ (s.hall hall).up.stage)
  (hpopulated : populatedRange acc.addr acc.len = true)
  (hopen : ∀ p ∈ pageStarts acc.addr acc.len, (s.page (p / 4096)).isProtected = false)
include hloud hstage hpopulated hopen

theorem exec_bar4Access_of_open : exec (.bar4Access hall off len data) s = .next (s.keepQueue
    ((s.enqueue (hostPort hall) acc.addr acc.len data.isSome none).performArrived
      { window := none, addr := acc.addr, acc })) := by
  have hany : (pageStarts acc.addr acc.len).any (fun p => (s.page (p / 4096)).isProtected) = false :=
    List.any_eq_false.2 fun p hp => Bool.eq_false_iff.1 (hopen p hp)
  rw [exec_bar4Access_of_inside hhall hacc hsize hfits hlen hlink, hloud, decide_eq_false (Nat.not_lt.2 hstage), hpopulated, hany]
  rfl

/-- A host's read of good units that no cache holds adds requests to the traffic of its port and answers the bytes of HBM. -/
theorem exec_bar4Access_read (hdata : data = none)
    (hlines : ∀ l ∈ linesOf acc.addr len, s.dirFind l = none ∧ s.lineElsewhere l = none)
    (hgood : ∀ u ∈ unitsOf acc.addr len, s.unitBad u = false) : ∃ u, exec (.bar4Access hall off len none) s = .next u ∧
      u.hbm = s.hbm ∧ u.rooms = s.rooms ∧ u.directory = s.directory ∧
      ((∃ z ∈ u.heldAnswers, z.waiter.acc = acc ∧ z.data = s.hbmRead acc.addr len) ∨
        Output.hostAnswer hall true false (s.hbmRead acc.addr len) ∈ u.out) := by
  subst hdata
  refine ⟨_, exec_bar4Access_of_open hhall hacc hsize hfits hlen hlink hloud hstage hpopulated hopen, ?_⟩
  obtain ⟨packets, regulators, henqueue⟩ := s.enqueue_frame (hostPort hall) acc.addr acc.len false none .none none false
  obtain rfl : len = acc.len := by rw [hacc]; rfl
  obtain ⟨hhbm, hrooms, hdirectory, hanswer⟩ := State.performArrived_hostRead (s := { s with packets, regulators })
    (w := { window := none, addr := acc.addr, acc }) (by rw [hacc]; rfl) (by rw [hacc]; rfl) rfl hlines hgood
  rw [Option.isSome_none, henqueue]
  refine ⟨hhbm, hrooms, hdirectory, hanswer.imp_left ?_⟩
  rintro ⟨z, hz, hwaiter, hdata⟩
  exact ⟨z, hz, by rw [hwaiter], hdata⟩

end

/-! ### The statement -/

/-- Settles O42, by the lemmas about each access, in the order of its clauses. -/
theorem hostAccesses : Obligations.HostAccesses := by
  unfold Obligations.HostAccesses
  intro s hall ctx q size vec off len d v seq ver x data acc hhall
  refine ⟨fun hctx hqueue hx => ⟨fun hdropped => ?_, fun hlive hopen hd => ?_⟩,
    fun hctx => ⟨fun hlive => ⟨?_, ?_, ?_, fun z hwf hone hport _ hsuite => ?_⟩, fun hdropped => ⟨?_, ?_⟩⟩,
    fun hvec hloud => ⟨exec_vectorUnmask_of_pending hhall hvec hloud, exec_vectorUnmask_of_not_pending hhall hvec⟩,
    fun hvec hsilent => exec_vectorUnmask_of_silent hhall hvec hsilent,
    fun hwithheld => exec_bar4Access_of_withheld hhall hwithheld data, fun hacc hsize hfits hlen hlink hloud => ?_⟩
  · exact exec_tailDoorbell_of hhall hctx hqueue (State.ringTail_of_dropped hx hdropped v)
  · have hring := exec_tailDoorbell_of hhall hctx hqueue (State.ringTail_of_live hx hlive hopen v)
    have hentries := (x.queue q).entries_le
    rw [← hd] at hring
    refine ⟨fun hzero => ?_, fun hpos hfits => ?_, fun hover hsmall => ?_, fun hbig => ?_⟩
    · rw [hring, if_pos hzero]
    · rw [hring, if_neg (by omega), if_pos hfits]
    · rw [hring, if_neg (by omega), if_neg (by omega), if_neg (by omega)]
    · rw [hring, if_neg (by omega), if_neg (by omega), if_pos hbig, State.keepQueue_self]
  · exact exec_replay_of hhall hctx (State.replayBell_of_live hlive _ seq)
  · obtain ⟨rooms, tlb, walks, hreplay⟩ := s.foldl_replayStall_frame (s.stalls.filter (·.covered ctx seq))
    refine ⟨_, exec_replay_of hhall hctx (State.replayBell_of_live hlive _ seq), ?_⟩
    rw [hreplay]
    exact ⟨filter_not_contains_filter _ _, rfl, rfl, rfl⟩
  · exact exec_abort_of hhall hctx (State.replayBell_of_live hlive _ seq)
  · obtain ⟨_, hends⟩ := State.refuseStall_of_free hwf hport hsuite
    refine ⟨_, exec_abort_of hhall hctx (State.replayBell_of_live hlive _ seq), ?_⟩
    rw [hone, List.foldl_cons, List.foldl_nil, hends]
    exact ⟨rfl, rfl, rfl, rfl⟩
  · exact exec_replay_of hhall hctx (State.replayBell_of_dropped hdropped _ seq)
  · exact exec_abort_of hhall hctx (State.replayBell_of_dropped hdropped _ seq)
  · have hbar4 : acc = s.bar4Acc hall off len data := by
      rw [hacc]
      cases data with
      | none => rfl
      | some b => rfl
    exact ⟨fun hstage hpopulated hopen =>
      ⟨exec_bar4Access_of_open hhall hbar4 hsize hfits hlen hlink hloud hstage hpopulated hopen,
        exec_bar4Access_read hhall hbar4 hsize hfits hlen hlink hloud hstage hpopulated hopen⟩,
      exec_bar4Access_of_refused hhall hbar4 hsize hfits hlen hlink⟩

end Sys2Proof.Machine
end

section
/-! PROOF. The end of a run and of a context (R207, R273, R281): what they leave alone, and what a kill leaves of its Suite. -/

namespace Sys2Proof.Machine

/-! ### What ends change outside of the Rooms and the Suites -/

/-- Only contexts, their translations, stalls and transfers, freezing households and answers differ. -/
def State.EndsOnly (s t : State) : Prop := ∃ contexts households stalls tlb walks hostReads remotes halls out,
  t = { s with contexts, households, stalls, tlb, walks, hostReads, remotes, halls, out }

theorem State.EndsOnly.refl (s : State) : s.EndsOnly s := ⟨_, _, _, _, _, _, _, _, _, rfl⟩

theorem State.EndsOnly.trans {s t u : State} (h : s.EndsOnly t) (h' : t.EndsOnly u) : s.EndsOnly u := by
  obtain ⟨_, _, _, _, _, _, _, _, _, rfl⟩ := h
  obtain ⟨_, _, _, _, _, _, _, _, _, rfl⟩ := h'
  exact ⟨_, _, _, _, _, _, _, _, _, rfl⟩

theorem State.EndsOnly.foldl {β : Type} {f : State → β → State} (h : ∀ (s : State) b, s.EndsOnly (f s b)) (l : List β) (s : State) :
    s.EndsOnly (l.foldl f s) :=
  List.foldlRecOn l f (.refl s) fun _ ht b _ => ht.trans (h _ b)

theorem State.EndsOnly.suites {s t : State} (h : s.EndsOnly t) : t.suites = s.suites := by
  obtain ⟨_, _, _, _, _, _, _, _, _, rfl⟩ := h; rfl

theorem State.EndsOnly.rooms {s t : State} (h : s.EndsOnly t) : t.rooms = s.rooms := by
  obtain ⟨_, _, _, _, _, _, _, _, _, rfl⟩ := h; rfl

theorem State.setCtx_endsOnly (s : State) (c : Nat) (x : Option Context) : s.EndsOnly (s.setCtx c x) :=
  ⟨_, _, _, _, _, _, _, _, _, rfl⟩

theorem State.modQueue_endsOnly (s : State) (c q : Nat) (f : Queue → Queue) : s.EndsOnly (s.modQueue c q f) :=
  s.setCtx_endsOnly c _

theorem State.reply_endsOnly (s : State) (q : Chan) (i sub code : Nat) (data : List Byte) :
    s.EndsOnly (s.reply q i sub code data) := by
  obtain ⟨_, _, hreply⟩ := s.reply_frame q i sub code data
  exact ⟨_, _, _, _, _, _, _, _, _, hreply⟩

theorem State.closeQueue_endsOnly (s : State) (c q : Nat) : s.EndsOnly (s.closeQueue c q) := by
  unfold State.closeQueue
  split
  · exact .refl s
  · dsimp only
    split
    · exact .refl s
    · split
      · exact (State.modQueue_endsOnly ..).trans (State.reply_endsOnly ..)
      · exact State.modQueue_endsOnly ..

theorem State.settleFreeze_frame (s : State) (hh : Nat) : ∃ households, s.settleFreeze hh = { s with households } := by
  unfold State.settleFreeze
  dsimp only
  split
  · exact ⟨_, rfl⟩
  · exact ⟨_, rfl⟩

theorem State.settleFreeze_endsOnly (s : State) (hh : Nat) : s.EndsOnly (s.settleFreeze hh) := by
  obtain ⟨_, hsettled⟩ := s.settleFreeze_frame hh
  exact ⟨_, _, _, _, _, _, _, _, _, hsettled⟩

theorem State.freeCtx_frame (s : State) (c : Nat) : ∃ households stalls tlb walks,
    s.freeCtx c = { s with contexts := Store.set none s.contexts c none, households, stalls, tlb, walks } := by
  unfold State.freeCtx
  dsimp only
  obtain ⟨households, hsettled⟩ := State.settleFreeze_frame
    ((State.tlbDrop { s with stalls := s.stalls.filter fun x => x.ctx != c } (·.ctx == c)).setCtx c none)
    (((s.ctx? c).map (·.household)).getD 0)
  exact ⟨households, _, _, _, hsettled⟩

theorem State.freeCtx_endsOnly (s : State) (c : Nat) : s.EndsOnly (s.freeCtx c) := by
  obtain ⟨_, _, _, _, hfreed⟩ := s.freeCtx_frame c
  exact ⟨_, _, _, _, _, _, _, _, _, hfreed⟩

theorem State.flushHost_endsOnly (s : State) (c : Nat) (x : Context) : s.EndsOnly (s.flushHost c x) :=
  (s.setCtx_endsOnly c _).trans (.foldl (fun _ _ => ⟨_, _, _, _, _, _, _, _, _, rfl⟩) _ _)

theorem State.finishClose_endsOnly (s : State) (c : Nat) : s.EndsOnly (s.finishClose c) := by
  unfold State.finishClose
  split
  · exact .refl s
  · split
    · exact .refl s
    · split
      · exact s.flushHost_endsOnly c _
      · exact .trans ⟨_, _, _, _, _, _, _, _, _, rfl⟩ (State.freeCtx_endsOnly ..)

theorem State.freeClosed_endsOnly (s : State) (n : Nat) : s.EndsOnly (s.freeClosed n) := by
  unfold State.freeClosed
  split
  · exact .refl s
  · exact .foldl State.finishClose_endsOnly _ s

theorem State.freezeBound_endsOnly (s : State) (n : Nat) : s.EndsOnly (s.freezeBound n) := by
  unfold State.freezeBound
  split
  · exact .refl s
  · exact .foldl (fun s (e : Nat × Nat) => (s.setCtx_endsOnly e.1 _).trans (State.settleFreeze_endsOnly _ e.2)) _ s

theorem State.takeRoot_endsOnly (s : State) (c : Nat) : s.EndsOnly (s.takeRoot c) := by
  unfold State.takeRoot
  split
  · split
    · exact ⟨_, _, _, _, _, _, _, _, _, rfl⟩
    · exact .refl s
  · exact .refl s

/-! ### What the ends of a run leave of its Suite -/

/-- Suite n goes on as it was: its step and what it has counted of kills stand. -/
structure State.KeepsRun (s t : State) (n : Nat) : Prop where
  step : (t.suite n).step = (s.suite n).step
  killed : (t.suite n).killed = (s.suite n).killed

theorem State.KeepsRun.trans {s t u : State} {n : Nat} (h : s.KeepsRun t n) (h' : t.KeepsRun u n) : s.KeepsRun u n :=
  ⟨h'.step.trans h.step, h'.killed.trans h.killed⟩

theorem State.keepsRun_of_suites {s t : State} (h : t.suites = s.suites) (n : Nat) : s.KeepsRun t n := by
  have hn := State.suite_congr h n
  exact ⟨congrArg Suite.step hn, congrArg Suite.killed hn⟩

theorem State.EndsOnly.keepsRun {s t : State} (h : s.EndsOnly t) (n : Nat) : s.KeepsRun t n := State.keepsRun_of_suites h.suites n

theorem State.modSuite_keepsRun {s : State} {n : Nat} {f : Suite → Suite} (hlisted : f (s.suite n) ≠ {})
    (hstep : (f (s.suite n)).step = (s.suite n).step) (hkilled : (f (s.suite n)).killed = (s.suite n).killed) :
    s.KeepsRun (s.modSuite n f) n := by
  have hsuite := s.suite_modSuite_of_ne n f hlisted
  exact ⟨(congrArg Suite.step hsuite).trans hstep, (congrArg Suite.killed hsuite).trans hkilled⟩

theorem State.accrue_keepsRun (s : State) (n : Nat) : s.KeepsRun (s.accrue n) n := by
  unfold State.accrue
  dsimp only
  split
  · exact State.keepsRun_of_suites rfl n
  · next hst =>
    refine State.modSuite_keepsRun (fun hdefault => hst (beq_iff_eq.2 ?_)) rfl rfl
    exact congrArg Suite.st hdefault

theorem Suite.ne_default_of_killed {y : Suite} (h : y.killed ≠ 0) : y ≠ {} := fun e => h (e ▸ rfl)

theorem State.dropAnswers_suites (s : State) (n : Nat) : (s.dropAnswers n).suites = s.suites := rfl

theorem State.endRun_keepsRun {s : State} {n : Nat} (h : (s.suite n).killed ≠ 0) (d : Drain) : s.KeepsRun (s.endRun n d) n := by
  have haccrued : s.KeepsRun ((s.accrue n).dropAnswers n) n := 
    (s.accrue_keepsRun n).trans (State.keepsRun_of_suites (State.dropAnswers_suites ..) n)
  unfold State.endRun
  dsimp only
  refine .trans (haccrued.trans ?_) (State.EndsOnly.keepsRun ((State.modQueue_endsOnly ..).trans
    ((State.takeRoot_endsOnly ..).trans (State.closeQueue_endsOnly ..))) n)
  exact State.modSuite_keepsRun (Suite.ne_default_of_killed (haccrued.killed.trans_ne h)) rfl rfl

theorem State.settle_keepsRun {s : State} {n : Nat} (h : (s.suite n).killed ≠ 0) : s.KeepsRun (s.settle n) n := by
  unfold State.settle
  split
  · split
    · exact State.keepsRun_of_suites rfl n
    · exact (State.endRun_keepsRun h _).trans
        (((State.freeClosed_endsOnly ..).trans (State.freezeBound_endsOnly ..)).keepsRun n)
  · exact State.keepsRun_of_suites rfl n

theorem State.settlePower_suites (s : State) : s.settlePower.suites = s.suites := by
  unfold State.settlePower
  split <;> rfl

theorem State.foldl_stopRoom_suites (l : List Nat) (s : State) : (l.foldl State.stopRoom s).suites = s.suites :=
  List.foldlRecOn (motive := fun t : State => t.suites = s.suites) l _ rfl fun (t : State) ht r _ => by
    obtain ⟨_, _, _, _, hstop⟩ := t.stopRoom_frame r
    rw [hstop, ← ht]

theorem State.foldl_writeBackAll_suites (l : List Nat) (s : State) : (l.foldl State.writeBackAll s).suites = s.suites :=
  List.foldlRecOn (motive := fun t : State => t.suites = s.suites) l _ rfl fun (t : State) ht r _ => by
    obtain ⟨_, _, _, _, _, _, _, hwrite⟩ := t.writeBackAll_frame r
    rw [hwrite, ← ht]

theorem satAdd_succ_ne_zero (k a : Nat) : satAdd (k + 1) a 1 ≠ 0 := by
  have := Nat.one_lt_two_pow (Nat.succ_ne_zero k)
  unfold satAdd
  omega

/-! ### KILL (R273) -/

theorem State.killStep_of_none {s : State} {n : Nat} (h : (s.suite n).step = none) : s.killStep n = s := by
  simp only [State.killStep, h]

/-- Every Room of Suite n has stopped and written its cache back (R273). -/
def State.haltRun (s : State) (n : Nat) : State :=
  let x := s.suite n
  x.allRooms.foldl State.writeBackAll (x.allRooms.foldl State.stopRoom
    ((s.accrue n).controlAll x.share (.hall (s.decider n)) x.allRooms))

theorem State.haltRun_keepsRun (s : State) (n : Nat) : s.KeepsRun (s.haltRun n) n := by
  refine (s.accrue_keepsRun n).trans (State.keepsRun_of_suites ?_ n)
  rw [State.haltRun, State.foldl_writeBackAll_suites, State.foldl_stopRoom_suites, (State.controlAll_trafficOnly ..).suites]

/-- A Suite whose step was killed, up to the boundary (R273). -/
def Suite.dropStep (st : Step) (x : Suite) : Suite :=
  { x with
    step := none, vote := none, rounds := [], releases := [], killed := satAdd 64 x.killed 1
    drain := some { ctx := st.ctx, queue := st.queue, dispatched := st.dispatched } }

theorem State.killStep_of_some {s : State} {n : Nat} {st : Step} (h : (s.suite n).step = some st) : s.killStep n =
    (((((s.haltRun n).modSuite n (Suite.dropStep st)).modCtx st.ctx fun c => { c with killed := satAdd 64 c.killed 1 }).modQueue
      st.ctx st.queue fun q => { q with kills := satAdd 16 q.kills 1 }).settle n).settlePower := by
  simp only [State.killStep, h]
  rfl

/-- A kill leaves its Suite without a step, and counts (R273). -/
theorem State.killStep_suite {s : State} {n : Nat} {st : Step} (h : (s.suite n).step = some st) :
    ((s.killStep n).suite n).step = none ∧ ((s.killStep n).suite n).killed = satAdd 64 (s.suite n).killed 1 := by
  have hcounts : satAdd 64 ((s.haltRun n).suite n).killed 1 ≠ 0 := satAdd_succ_ne_zero 63 _
  have hsuite := (s.haltRun n).suite_modSuite_of_ne n (Suite.dropStep st) (Suite.ne_default_of_killed hcounts)
  rw [State.killStep_of_some h, State.suite_congr (State.settlePower_suites _), ← (s.haltRun_keepsRun n).killed]
  generalize hu : State.modQueue _ st.ctx st.queue _ = u
  have hdropped : u.suite n = ((s.haltRun n).suite n).dropStep st := by rw [← hsuite, ← hu]; rfl
  have hsettled := State.settle_keepsRun (s := u) (n := n) (by rw [hdropped]; exact hcounts)
  rw [hsettled.step, hsettled.killed, hdropped]
  exact ⟨rfl, rfl⟩

theorem State.killStep_step (s : State) (n : Nat) : ((s.killStep n).suite n).step = none := by
  cases h : (s.suite n).step with
  | none => rw [State.killStep_of_none h, h]
  | some st => exact (State.killStep_suite h).left

end Sys2Proof.Machine
end

section
/-! PROOF. Descriptors (R210 to R216): fetching, waiting, MARKER steps and the slice (R264, R265). -/

namespace Sys2Proof.Machine

section

variable {s s1 s2 s3 : State} {ctx q : Nat} {x : Context} (hunits : (isContext ctx && isQueue q) = true)
include hunits

theorem exec_descriptorFetch_of : exec (.descriptorFetch ctx q) s = .next (s.keepQueue (s.fetchStep ctx q)) := by
  rw [exec_descriptorFetch, execDescriptorFetch, onUnits_of _ _ _ hunits]

theorem exec_waitRecheck_of : exec (.waitRecheck ctx q) s = .next (s.keepQueue (s.recheck ctx q)) := by
  rw [exec_waitRecheck, execWaitRecheck, onUnits_of _ _ _ hunits]

theorem exec_markerPublish_of : exec (.markerPublish ctx q) s = .next (s.keepQueue (s.marker ctx q)) := by
  rw [exec_markerPublish, execMarkerPublish, onUnits_of _ _ _ hunits]

end

section

variable {s s1 s2 s3 : State} {ctx q : Nat} {x : Context} (hx : s.ctx? ctx = some x) (hserved : s.served x = true)
include hx hserved

/-! ### Fetching (R210, R213) -/

section

variable {n : Nat} {b : List Byte} (hopened : (x.queue q).st = .opened) (hctx : x.st = .opened)
  (hnext : (x.queue q).nextFetch = some n) (hread : s.stewardRead ctx ((x.queue q).slotAddr n) 128 = (.ok b, s1))
  (hs2 : s2 = s1.modQueue ctx q (fun u => { u with fetched := Store.set [] u.fetched n b }))
include hopened hctx hnext hread hs2

theorem State.fetchStep_of_ok (hcheck : s2.checkStep ctx (parseStep b) = (.ok, s3)) : s.fetchStep ctx q = s3 := by
  subst hs2
  simp [State.fetchStep, hx, hserved, hopened, hctx, hnext, hread, hcheck]

theorem State.fetchStep_of_bad {code : Nat} (hcheck : s2.checkStep ctx (parseStep b) = (.bad code, s3)) :
    s.fetchStep ctx q = s3.ctxFault ctx code q none n := by
  subst hs2
  simp [State.fetchStep, hx, hserved, hopened, hctx, hnext, hread, hcheck]

end

/-! ### Waits (R214, R215) -/

section

variable {d : StepDesc} (hopened : (x.queue q).st = .opened) (hctx : x.st = .opened)
  (hwaiting : (x.queue q).head ≠ (x.queue q).tail) (hholds : (x.queue q).waitsHold = false)
  (hdesc : (x.queue q).headDesc = some d)
include hopened hctx hwaiting hholds hdesc

theorem State.recheck_of_ready (h0 : s.waitHolds ctx d.wait0 d.wait0Value = (.ok true, s1))
    (h1 : s1.waitHolds ctx d.wait1 d.wait1Value = (.ok true, s2)) : s.recheck ctx q = s2.becomeReady ctx q := by
  simp [State.recheck, hx, hserved, hopened, hctx, hwaiting, hholds, hdesc, h0, h1]

theorem State.recheck_of_blocked (h0 : s.waitHolds ctx d.wait0 d.wait0Value = (.ok false, s1)) :
    s.recheck ctx q = s1.modQueue ctx q ({ · with blocked := true }) := by
  simp [State.recheck, hx, hserved, hopened, hctx, hwaiting, hholds, hdesc, h0]

end

/-! ### MARKER (R212) -/

omit hserved in
/-- A ready queue's waits are not looked at again. -/
theorem State.recheck_of_holds (hholds : (x.queue q).waitsHold = true) : s.recheck ctx q = s := by
  simp [State.recheck, hx, hholds]

theorem State.marker_of_published {d : StepDesc} (hready : Queue.ready x (x.queue q) = true)
    (hdesc : (x.queue q).headDesc = some d) (htype : d.type = 1) (hheld : (s.suite x.suite).held = 0)
    (hcheck : s.checkStep ctx d = (.ok, s1)) (hpublish : s1.publish ctx d.event d.eventValue = (.ok (), s2)) :
    s.marker ctx q = (if d.irq then s2.doneVector ctx else s2).modQueue ctx q Queue.advance := by
  have hmarker : (x.queue q).markerHead = true := by rw [Queue.markerHead, hdesc]; simp [htype]
  have hholds : (x.queue q).waitsHold = true := (Bool.and_eq_true_iff.1 hready).2
  simp [State.marker, State.recheck_of_holds hx hholds, hx, hready, hmarker, hheld, hserved, hdesc, hcheck, hpublish]

end

/-! ### The slice (R264, R265) -/

section

variable {s s1 : State} {suite : Nat} (hsuite : isSuite suite = true)
include hsuite

theorem exec_sliceExpiry_of_no_slice (h : (s.suite suite).slice = 0) : exec (.sliceExpiry suite) s = .next s := by
  rw [exec_sliceExpiry, execSliceExpiry, onUnits_of _ _ _ hsuite]
  cases hstep : (s.suite suite).step with
  | none => simp only [hstep, State.keepQueue_self]
  | some st => simp only [hstep, h, decide_true, Bool.true_or, if_true, State.keepQueue_self]

variable {st : Step} {x : Context} (hstep : (s.suite suite).step = some st) (hx : s.ctx? st.ctx = some x)
  (hcommit : st.committing = false) (hslice : (s.suite suite).slice ≠ 0)
  (hdue : st.dispatched + (s.suite suite).slice * 100000 ≤ s.time) (hfirst : (x.queue st.queue).sliced = false)
  (hs1 : s1 = ((s.queuesOf suite).filter (·.1 != st.ctx)).foldl (fun s e => s.recheck e.1 e.2.1) s)
include hstep hx hcommit hslice hdue hfirst hs1

/-- What a step that has run its slice comes to, once the rivals' waits have been looked at again. -/
theorem exec_sliceExpiry_of_due : exec (.sliceExpiry suite) s = .next (s.keepQueue
    (if !(s1.queuesOf suite).any (fun e => e.1 != st.ctx && Queue.ready e.2.2.1 e.2.2.2) then s1
      else (s1.killStep suite).modQueue st.ctx st.queue ({ · with sliced := true }))) := by
  rw [exec_sliceExpiry, execSliceExpiry, onUnits_of _ _ _ hsuite, hs1]
  simp only [hstep, hx, hslice, hcommit, hfirst, Nat.not_lt.2 hdue, Option.map_some, Option.getD_some, decide_false, Bool.or_self,
    Bool.false_eq_true, if_false]

theorem exec_sliceExpiry_of_rival (hrival : ∃ e ∈ s1.queuesOf suite, e.1 ≠ st.ctx ∧ Queue.ready e.2.2.1 e.2.2.2 = true) :
    exec (.sliceExpiry suite) s =
      .next (s.keepQueue ((s1.killStep suite).modQueue st.ctx st.queue ({ · with sliced := true }))) := by
  obtain ⟨e, he, hother, hready⟩ := hrival
  have hany : (s1.queuesOf suite).any (fun e => e.1 != st.ctx && Queue.ready e.2.2.1 e.2.2.2) = true :=
    List.any_eq_true.2 ⟨e, he, Bool.and_eq_true_iff.2 ⟨bne_iff_ne.2 hother, hready⟩⟩
  rw [exec_sliceExpiry_of_due hsuite hstep hx hcommit hslice hdue hfirst hs1, hany]
  rfl

theorem exec_sliceExpiry_of_no_rival (halone : ∀ e ∈ s1.queuesOf suite, e.1 ≠ st.ctx → Queue.ready e.2.2.1 e.2.2.2 = false) :
    exec (.sliceExpiry suite) s = .next (s.keepQueue s1) := by
  have hany : (s1.queuesOf suite).any (fun e => e.1 != st.ctx && Queue.ready e.2.2.1 e.2.2.2) = false := by
    refine List.any_eq_false.2 fun e he hrival => ?_
    obtain ⟨hother, hready⟩ := Bool.and_eq_true_iff.1 hrival
    exact Bool.false_ne_true ((halone e he (bne_iff_ne.1 hother)).symm.trans hready)
  rw [exec_sliceExpiry_of_due hsuite hstep hx hcommit hslice hdue hfirst hs1, hany]
  rfl

end

/-- Settles O37, by the lemmas about each event, in the order of its clauses. -/
theorem descriptorEvents : Obligations.DescriptorEvents := by
  unfold Obligations.DescriptorEvents
  intro s s1 s2 s3 ctx q n code x d b st suite hctx hqueue hx hserved hopened
  have hunits : (isContext ctx && isQueue q) = true := by rw [hctx, hqueue]; rfl
  refine ⟨fun hst hnext hread hs2 => ⟨fun hcheck => ?_, fun hcheck => ?_⟩,
    fun hst hwaiting hholds hdesc => ⟨fun h0 h1 => ?_, fun h0 => ?_⟩,
    fun hready hdesc htype hheld hcheck hpublish => ?_,
    fun hsuite hstep hcommit hstctx hstqueue hslice hdue hfirst hs1 => ?_,
    fun hsuite => exec_sliceExpiry_of_no_slice hsuite⟩
  · rw [exec_descriptorFetch_of hunits, State.fetchStep_of_ok hx hserved hopened hst hnext hread hs2 hcheck]
  · rw [exec_descriptorFetch_of hunits, State.fetchStep_of_bad hx hserved hopened hst hnext hread hs2 hcheck]
  · rw [exec_waitRecheck_of hunits, State.recheck_of_ready hx hserved hopened hst hwaiting hholds hdesc h0 h1]
  · rw [exec_waitRecheck_of hunits, State.recheck_of_blocked hx hserved hopened hst hwaiting hholds hdesc h0]
  · rw [exec_markerPublish_of hunits, State.marker_of_published hx hserved hready hdesc htype hheld hcheck hpublish]
  · subst hstctx hstqueue
    refine ⟨fun hrival => ?_, exec_sliceExpiry_of_no_rival hsuite hstep hx hcommit hslice hdue hfirst hs1⟩
    have hexec := exec_sliceExpiry_of_rival hsuite hstep hx hcommit hslice hdue hfirst hs1 hrival
    exact ⟨hexec, _, hexec, s1.killStep_step suite⟩

end Sys2Proof.Machine
end

section
/-! PROOF. The commands of contexts (R200, R204 to R207, R281) and KILL (R273). -/

namespace Sys2Proof.Machine

open Sys2Proof.Safety

/-! ### Served downloads -/

theorem noted_frame (s t : State) (q : Chan) (i sub : Nat) : ∃ splitWrites, noted s t q i sub = { t with splitWrites } := by
  unfold noted
  split
  · exact ⟨_, rfl⟩
  · exact ⟨_, rfl⟩

section

variable {s t : State} {q : Chan} {i sub : Nat} {data : List Byte} {act : Act} {units : Bool} (hunits : units = true)
  (hserved : Served s q i sub data.length)
include hunits hserved

theorem onUnits_download_answered (h : act s = .ok (t, true)) :
    onUnits (isChan q && units) s (s.download q i sub data act) = .next (s.keepQueue (answered s t q i sub)) := by
  rw [onUnits_of _ _ _ (by rw [served_isChan hserved, hunits]; rfl), served_done s t q i sub data act hserved h]

theorem onUnits_download_noted (h : act s = .ok (t, false)) :
    onUnits (isChan q && units) s (s.download q i sub data act) = .next (s.keepQueue (noted s t q i sub)) := by
  rw [onUnits_of _ _ _ (by rw [served_isChan hserved, hunits]; rfl), served_download s q i sub data act hserved, h]
  rfl

theorem onUnits_download_refused {c : Nat} (h : act s = .error c) :
    onUnits (isChan q && units) s (s.download q i sub data act) = .next (s.keepQueue (s.refuse q i sub c)) := by
  rw [onUnits_of _ _ _ (by rw [served_isChan hserved, hunits]; rfl), served_refused s q i sub c data act hserved h]

end

/-! ### Contexts and their queues -/

theorem State.ctx?_setCtx_some (s : State) (c : Nat) (x : Context) : (s.setCtx c (some x)).ctx? c = some x :=
  Store.get_set_self_of_ne _ _ _ _ (Option.some_ne_none x)

theorem State.ctx?_setCtx_ne (s : State) {c c' : Nat} (x : Option Context) (h : c ≠ c') : (s.setCtx c' x).ctx? c = s.ctx? c :=
  Store.get_set_ne _ _ _ _ _ h

theorem State.ctx?_modQueue {s : State} {c : Nat} {x : Context} (hx : s.ctx? c = some x) (q : Nat) (f : Queue → Queue) :
    (s.modQueue c q f).ctx? c = some (x.modQueue q f) := by
  rw [State.modQueue, State.modCtx, hx, Option.map_some, State.ctx?_setCtx_some]

theorem Context.queue_modQueue_self {x : Context} (hwf : Store.wf ({} : Queue) x.queues = true) (q : Nat) (f : Queue → Queue) :
    (x.modQueue q f).queue q = f (x.queue q) := Store.get_set_self _ _ _ _ hwf

theorem Context.queue_modQueue_ne (x : Context) {j q : Nat} (f : Queue → Queue) (h : j ≠ q) : (x.modQueue q f).queue j = x.queue j :=
  Store.get_set_ne _ _ _ _ _ h

/-- An opened queue that closes: what it has not dispatched is discarded (R207). -/
def Queue.closing (u : Queue) (closer : Option Chan) : Queue := { u.discard with closer }

/-- A queue that has closed, of which HEAD, TAIL and the last commit are left (R207). -/
def Queue.closed (u : Queue) : Queue := { value := u.value, head := u.head, tail := u.tail, lastCommit := u.lastCommit }

theorem Queue.closing_of_opened {u : Queue} (h : u.st = .opened) (closer : Option Chan) : (u.closing closer).st = .closing ∧
    (u.closing closer).head = u.tail ∧ (u.closing closer).tail = u.tail ∧ (u.closing closer).closer = closer := by
  simp [Queue.closing, Queue.discard, h]

/-! ### CTX_REQUEST (R200) -/

/-- The context that CTX_REQUEST opens for household hh. -/
def State.requested (s : State) (hh : Nat) (w : W64) : Context :=
  { household := hh, suite := bitsOf w.toNat 55 48, pasid := bitsOf w.toNat 19 0, home := bitsOf w.toNat 28 28,
    serving := s.servingHall (bitsOf w.toNat 55 48) (bitsOf w.toNat 28 28) }

theorem actCtxRequest_eq {s : State} {hh c : Nat} {w : W64} (howner : s.suiteOwner (bitsOf w.toNat 55 48) = some hh)
    (hversion : bitsOf w.toNat 63 56 = 1) (hactive : s.houseActive hh = true)
    (hsuite : (s.suite (bitsOf w.toNat 55 48)).st ≠ .releasing) (hhouse : (s.house hh).st ≠ .closing)
    (hmode : (s.suite (bitsOf w.toNat 55 48)).mode ≠ .paired) (hfree : s.freeContextNumber = some c) :
    actCtxRequest hh w s = .ok ((s.setCtx c (some (s.requested hh w))).modHouse hh
      ({ · with ctxResult := BitVec.ofNat 64 (2 ^ 56 + bitsOf w.toNat 47 32 * 2 ^ 32 + c) }), true) := by
  simp [actCtxRequest, State.requested, versionAt, State.awake, must, howner, hversion, hactive, hsuite, hhouse, hmode, hfree]

/-! ### RETRY and SKIP (R202, R204) -/

section

variable {s : State} {ctx : Nat} {x : Context} (hx : s.ctx? ctx = some x)
include hx

theorem actClearFault_retry (h : x.st = .faulted) :
    actClearFault ctx 1 s = .ok (s.setCtx ctx (some { x with st := .opened, fault := 0 }), true) := by
  simp [actClearFault, judged, must, hx, h]

theorem actClearFault_skip (h : x.st = .faulted) (hcode : bitsOf x.fault.toNat 55 48 ≠ 0x40) :
    actClearFault ctx 2 s = .ok ((s.setCtx ctx (some { x with st := .opened, fault := 0 })).modQueue ctx
      (bitsOf x.fault.toNat 47 44) (·.skip (bitsOf x.fault.toNat 15 0)), true) := by
  have hskips : (bitsOf x.fault.toNat 55 48 != faultQueueOverflow) = true := bne_iff_ne.2 hcode
  simp [actClearFault, judged, must, hx, h, hskips]

theorem actClearFault_of_not_faulted (h : x.st ≠ .faulted) {v : Nat} (hlow : v ≠ 0) (hhigh : v ≤ 2) :
    actClearFault ctx v s = .error 0x08000022 := by
  have hrefused : firstFault [must (v ≠ 0) abRange, must (v ≤ 2) abHigh, must (x.st == .faulted) abState] = some abState := by
    rw [must_of (decide_eq_true hlow), must_of (decide_eq_true hhigh), beq_eq_false_iff_ne.2 h, must_false]
    rfl
  simp only [actClearFault, hx, judged, hrefused]
  rfl

/-! ### QUEUE_OPEN and QUEUE_CLOSE (R205 to R207) -/

theorem actQueueOpen_eq (h : x.st = .opened) {v : W64} (hsize : bitsOf v.toNat 3 0 ≤ 10) {k : Nat}
    (hk : bitsOf v.toNat 63 59 < 16 ∧ k = bitsOf v.toNat 63 59 ∧ (x.queue k).st = .closed ∨
      bitsOf v.toNat 63 59 = 31 ∧ x.closedQueue = some k) :
    actQueueOpen ctx v s = .ok (s.modQueue ctx k fun _ =>
      { st := .opened
        value := BitVec.ofNat 64 (bitsOf v.toNat 63 59 * 2 ^ 59 + bitsOf v.toNat 47 12 * 2 ^ 12 + bitsOf v.toNat 7 0) }, true) := by
  obtain ⟨hslot, rfl, hclosed⟩ | ⟨hslot, hclosed⟩ := hk
  · have hnamed : bitsOf v.toNat 63 59 ≠ 31 := by omega
    simp [actQueueOpen, must, hx, h, hsize, hslot, hnamed, hclosed]
  · simp [actQueueOpen, must, hx, h, hsize, hslot, hclosed]

variable {b : Nat}

theorem State.closeQueue_of_none (hwf : Store.wf ({} : Queue) x.queues = true) (f : Queue → Queue)
    (hclosing : (f (x.queue b)).st = .closing) (hcloser : (f (x.queue b)).closer = none) :
    (s.modQueue ctx b f).closeQueue ctx b = (s.modQueue ctx b f).modQueue ctx b fun _ => (f (x.queue b)).closed := by
  simp only [State.closeQueue, State.ctx?_modQueue hx, Context.queue_modQueue_self hwf, hclosing, hcloser, bne_self_eq_false,
    Bool.false_eq_true, if_false]
  rfl

variable {ch : Chan} (hb : b < 16) (hopened : (x.queue b).st = .opened)
include hb hopened

theorem actQueueClose_eq : actQueueClose ch ctx b s = .ok
    (if s.inFlight ctx b then s.modQueue ctx b (·.closing (some ch))
      else (s.modQueue ctx b (·.closing none)).closeQueue ctx b, !s.inFlight ctx b) := by
  have hchecks : firstFault [must (b < 16) abHigh, must ((x.queue b).st == .opened) abState] = none := by
    rw [must_of (decide_eq_true hb), must_of (beq_iff_eq.2 hopened)]
    rfl
  simp only [actQueueClose, hx, judged, hchecks]
  cases s.inFlight ctx b <;> rfl

end

section

variable {s : State} {q : Chan} {ctx : Nat} {x : Context} {b : Byte} (hctx : isContext ctx = true) (hx : s.ctx? ctx = some x)
  (hserved : Served s q (0x4000 + ctx) 7 1) (hb : b.toNat < 16) (hopened : (x.queue b.toNat).st = .opened)
include hctx hx hserved hb hopened

theorem exec_queueClose_of_idle (hflight : s.inFlight ctx b.toNat = false) : exec (.queueClose q ctx b) s = .next (s.keepQueue
    (answered s ((s.modQueue ctx b.toNat (·.closing none)).closeQueue ctx b.toNat) q (0x4000 + ctx) 7)) := by
  have hact := actQueueClose_eq (ch := q) hx hb hopened
  rw [hflight] at hact
  rw [exec_queueClose, execQueueClose]
  exact onUnits_download_answered hctx hserved hact

theorem exec_queueClose_of_inFlight (hflight : s.inFlight ctx b.toNat = true) : exec (.queueClose q ctx b) s = .next (s.keepQueue
    (noted s (s.modQueue ctx b.toNat (·.closing (some q))) q (0x4000 + ctx) 7)) := by
  have hact := actQueueClose_eq (ch := q) hx hb hopened
  rw [hflight] at hact
  rw [exec_queueClose, execQueueClose]
  exact onUnits_download_noted hctx hserved hact

/-- A queue that closes is empty, and CLOSED unless a step of it is in flight; the other queues stand (R207). -/
theorem exec_queueClose_spec (hwf : Store.wf ({} : Queue) x.queues = true) : ∃ t y, exec (.queueClose q ctx b) s = .next t ∧
    t.ctx? ctx = some y ∧ (y.queue b.toNat).st = (if s.inFlight ctx b.toNat then .closing else .closed) ∧
    (y.queue b.toNat).head = (x.queue b.toNat).tail ∧ (y.queue b.toNat).tail = (x.queue b.toNat).tail ∧
    (∀ j, j ≠ b.toNat → y.queue j = x.queue j) ∧ y.st = x.st ∧ t.suites = s.suites ∧ t.rooms = s.rooms := by
  cases hflight : s.inFlight ctx b.toNat with
  | true =>
    obtain ⟨hst, hhead, htail, -⟩ := Queue.closing_of_opened hopened (some q)
    obtain ⟨splitWrites, hnoted⟩ := noted_frame s (s.modQueue ctx b.toNat (·.closing (some q))) q (0x4000 + ctx) 7
    have hexec := exec_queueClose_of_inFlight hctx hx hserved hb hopened hflight
    rw [hnoted] at hexec
    have hqueue := Context.queue_modQueue_self hwf b.toNat (·.closing (some q))
    rw [← hqueue] at hst hhead htail
    exact ⟨_, _, hexec, State.ctx?_modQueue hx .., hst, hhead, htail, fun _ hj => Context.queue_modQueue_ne _ _ hj, rfl, rfl,
      rfl⟩
  | false =>
    obtain ⟨hst, hhead, htail, hcloser⟩ := Queue.closing_of_opened hopened none
    have hexec := exec_queueClose_of_idle hctx hx hserved hb hopened hflight
    rw [State.closeQueue_of_none hx hwf (·.closing none) hst hcloser] at hexec
    generalize hclosed : ((x.queue b.toNat).closing none).closed = u at hexec
    obtain ⟨splitWrites, halls, out, hanswered⟩ := answered_frame s
      ((s.modQueue ctx b.toNat (·.closing none)).modQueue ctx b.toNat fun _ => u) q (0x4000 + ctx) 7
    rw [hanswered] at hexec
    have hqueue := Context.queue_modQueue_self (x := x.modQueue b.toNat (·.closing none)) (Store.wf_set _ _ _ _ hwf) b.toNat
      fun _ => u
    refine ⟨_, _, hexec, State.ctx?_modQueue (State.ctx?_modQueue hx ..) .., ?_, ?_, ?_, fun j hj => ?_, rfl, rfl, rfl⟩
    · rw [hqueue, ← hclosed]; rfl
    · rw [hqueue, ← hclosed]; exact hhead
    · rw [hqueue, ← hclosed]; exact htail
    · rw [Context.queue_modQueue_ne _ _ hj, Context.queue_modQueue_ne _ _ hj]

end

/-! ### What the end of a context leaves of another (R281) -/

/-- Context c stands, in a canonical store, and awaits nothing that it did not await. -/
structure State.LeavesCtx (s t : State) (c : Nat) : Prop where
  ctx : t.ctx? c = s.ctx? c
  wf : Store.wf none s.contexts = true → Store.wf none t.contexts = true
  reads : ∀ x ∈ t.hostReads, x.ctx = some c → x ∈ s.hostReads
  remotes : ∀ x ∈ t.remotes, x ∈ s.remotes

section

variable {s t u : State} {c c' : Nat}

theorem State.LeavesCtx.of_eq (hcontexts : t.contexts = s.contexts) (hreads : t.hostReads = s.hostReads)
    (hremotes : t.remotes = s.remotes) : s.LeavesCtx t c where
  ctx := by rw [State.ctx?, hcontexts]; rfl
  wf hwf := hcontexts ▸ hwf
  reads _ hx _ := hreads ▸ hx
  remotes _ hx := hremotes ▸ hx

theorem State.LeavesCtx.trans (h : s.LeavesCtx t c) (h' : t.LeavesCtx u c) : s.LeavesCtx u c where
  ctx := h'.ctx.trans h.ctx
  wf hwf := h'.wf (h.wf hwf)
  reads x hx hc := h.reads x (h'.reads x hx hc) hc
  remotes x hx := h.remotes x (h'.remotes x hx)

theorem State.LeavesCtx.foldl {β : Type} {f : State → β → State} (h : ∀ (s : State) b, s.LeavesCtx (f s b) c) (l : List β)
    (s : State) : s.LeavesCtx (l.foldl f s) c :=
  List.foldlRecOn (motive := fun t => s.LeavesCtx t c) l f (.of_eq rfl rfl rfl) fun _ ht b _ => ht.trans (h _ b)

theorem State.LeavesCtx.awaits (h : s.LeavesCtx t c) (hs : s.awaits c = false) : t.awaits c = false := by
  obtain ⟨hreads, hremotes⟩ := Bool.or_eq_false_iff.1 hs
  refine Bool.or_eq_false_iff.2 ⟨List.any_eq_false.2 fun x hx hawaited => ?_, List.any_eq_false.2 fun x hx => ?_⟩
  · have hc : x.ctx = some c := beq_iff_eq.1 (Bool.and_eq_true_iff.1 (Bool.and_eq_true_iff.1 hawaited).1).1
    exact List.any_eq_false.1 hreads x (h.reads x hx hc) hawaited
  · exact List.any_eq_false.1 hremotes x (h.remotes x hx)

variable (hne : c ≠ c')
include hne

theorem State.setCtx_leavesCtx (s : State) (x : Option Context) : s.LeavesCtx (s.setCtx c' x) c where
  ctx := s.ctx?_setCtx_ne x hne
  wf := Store.wf_set _ _ _ _
  reads _ hx _ := hx
  remotes _ hx := hx

theorem State.flushHost_leavesCtx (s : State) (x : Context) : s.LeavesCtx (s.flushHost c' x) c := by
  refine (s.setCtx_leavesCtx hne _).trans (.foldl (fun t u => ?_) _ _)
  refine ⟨rfl, id, fun y hy hc => ?_, fun _ hy => hy⟩
  refine (List.mem_append.1 hy).resolve_right fun hnew => hne ?_
  rw [List.mem_singleton.1 hnew] at hc
  exact (Option.some.inj hc).symm

theorem State.freeCtx_leavesCtx (s : State) : s.LeavesCtx (s.freeCtx c') c := by
  obtain ⟨_, _, _, _, hfreed⟩ := s.freeCtx_frame c'
  rw [hfreed]
  exact (s.setCtx_leavesCtx hne none).trans (.of_eq rfl rfl rfl)

theorem State.finishClose_leavesCtx (s : State) : s.LeavesCtx (s.finishClose c') c := by
  unfold State.finishClose
  split
  · exact .of_eq rfl rfl rfl
  · split
    · exact .of_eq rfl rfl rfl
    · split
      · exact s.flushHost_leavesCtx hne _
      · refine .trans ?_ (State.freeCtx_leavesCtx hne _)
        exact ⟨rfl, id, fun _ hx _ => List.mem_of_mem_filter hx, fun _ hx => List.mem_of_mem_filter hx⟩

end

/-! ### CLOSE (R281) -/

/-- Context c of Suite n closes, and nothing of it is left to wait for. -/
structure State.Closable (s : State) (c n : Nat) : Prop where
  ctx : ∃ y, s.ctx? c = some y ∧ y.suite = n ∧ y.st = .closing ∧ y.hostUsed = []
  wf : Store.wf none s.contexts = true
  awaits : s.awaits c = false
  idle : (s.suite n).step.map (·.ctx) ≠ some c

section

variable {s t : State} {c c' n : Nat}

theorem State.Closable.leave (h : s.Closable c n) (hleaves : s.LeavesCtx t c) (hends : s.EndsOnly t) : t.Closable c n where
  ctx := by rw [hleaves.ctx]; exact h.ctx
  wf := hleaves.wf h.wf
  awaits := hleaves.awaits h.awaits
  idle := by rw [State.suite_congr hends.suites]; exact h.idle

theorem State.Closable.closeQueue (h : s.Closable c n) (q : Nat) : (s.closeQueue c q).Closable c n := by
  obtain ⟨y, hy, hsuite, hst, hused⟩ := h.ctx
  have hclosed (f : Queue → Queue) : (s.modQueue c q f).Closable c n :=
    ⟨⟨_, State.ctx?_modQueue hy q f, hsuite, hst, hused⟩, Store.wf_set _ _ _ _ h.wf, h.awaits, h.idle⟩
  simp only [State.closeQueue, hy]
  split
  · exact h
  · split
    · next ch _ =>
      obtain ⟨_, _, hreply⟩ := State.reply_frame (s.modQueue c q _) ch (0x4000 + c) 7 0 []
      rw [hreply]
      exact (hclosed _).leave (.of_eq rfl rfl rfl) ⟨_, _, _, _, _, _, _, _, _, rfl⟩
    · exact hclosed _

/-- The context goes as soon as its turn comes. -/
theorem State.Closable.finishClose (h : s.Closable c n) :
    (s.finishClose c).ctx? c = none ∧ Store.wf none (s.finishClose c).contexts = true := by
  obtain ⟨y, hy, rfl, -, hused⟩ := h.ctx
  simp only [State.finishClose, hy, beq_eq_false_iff_ne.2 h.idle, h.awaits, hused, List.any_nil, Bool.or_self, Bool.false_eq_true,
    if_false]
  obtain ⟨_, _, _, _, hfreed⟩ := State.freeCtx_frame { s with
    hostReads := s.hostReads.filter (·.ctx != some c), remotes := s.remotes.filter (·.ctx != c) } c
  rw [hfreed]
  exact ⟨Store.get_set_self _ _ _ _ h.wf, Store.wf_set _ _ _ _ h.wf⟩

theorem State.finishClose_of_none (h : s.ctx? c = none) : s.finishClose c = s := by
  simp only [State.finishClose, h]

/-- A freed context stays free while others end. -/
theorem State.ctx?_finishClose_of_none (h : s.ctx? c = none) (c' : Nat) : (s.finishClose c').ctx? c = none := by
  by_cases hne : c = c'
  · rw [← hne, State.finishClose_of_none h, h]
  · rw [(State.finishClose_leavesCtx hne s).ctx, h]

theorem State.ctx?_foldl_finishClose_of_none (l : List Nat) (h : s.ctx? c = none) : (l.foldl State.finishClose s).ctx? c = none :=
  List.foldlRecOn (motive := fun t : State => t.ctx? c = none) l _ h fun _ ht c' _ => State.ctx?_finishClose_of_none ht c'

theorem State.Closable.foldl_finishClose {l : List Nat} (h : s.Closable c n) (hc : c ∈ l) :
    (l.foldl State.finishClose s).ctx? c = none := by
  induction l generalizing s with
  | nil => exact absurd hc List.not_mem_nil
  | cons c' l ih =>
    by_cases hne : c = c'
    · subst hne
      exact State.ctx?_foldl_finishClose_of_none l h.finishClose.left
    · exact ih (h.leave (State.finishClose_leavesCtx hne s) (s.finishClose_endsOnly c'))
        ((List.mem_cons.1 hc).resolve_left hne)

theorem Store.mem_of_get {α : Type} {d : α} {m : Store α} {a : Nat} {x : α} (h : Store.get d m a = x) (hx : x ≠ d) :
    (a, x) ∈ m := by
  induction m with
  | nil => exact absurd h.symm hx
  | cons e m ih =>
    obtain ⟨k, v⟩ := e
    rw [Store.get] at h
    split at h
    · next hk => exact hk ▸ h ▸ List.mem_cons_self
    · exact List.mem_cons_of_mem _ (ih h)

theorem State.Closable.freeClosed (h : s.Closable c n) (hdraining : (s.suite n).draining = false) :
    (s.freeClosed n).ctx? c = none := by
  obtain ⟨y, hy, hsuite, hst, -⟩ := h.ctx
  rw [State.freeClosed, if_neg (Bool.eq_false_iff.1 hdraining)]
  refine h.foldl_finishClose (List.mem_filterMap.2 ⟨_, Store.mem_of_get hy (Option.some_ne_none y), ?_⟩)
  simp only [Option.bind_some, hsuite, hst, decide_true, Bool.and_self, beq_self_eq_true, if_true]

/-- The queues of context c that no step holds close, one after another (R207, R281). -/
def State.closeQueues (s : State) (c : Nat) : State :=
  (List.range 16).foldl (fun s q => if s.inFlight c q then s else s.closeQueue c q) s

theorem State.closeQueues_endsOnly (s : State) (c : Nat) : s.EndsOnly (s.closeQueues c) :=
  .foldl (fun s q => by split; exacts [.refl s, s.closeQueue_endsOnly c q]) _ s

theorem State.Closable.closeQueues (h : s.Closable c n) : (s.closeQueues c).Closable c n :=
  List.foldlRecOn (motive := fun t : State => t.Closable c n) _ _ h fun t ht q _ => by
    split
    · exact ht
    · exact ht.closeQueue q

variable {x : Context} (hx : s.ctx? c = some x) (hidle : (s.suite x.suite).step.map (·.ctx) ≠ some c)
include hx hidle

/-- A context that runs nothing closes its queues and drops its stalls before its turn comes. -/
theorem State.closeContext_of_idle {u : State} (hu : State.closeQueues (s.setCtx c
    (some { x with st := .closing, queues := Store.mapValues {} Queue.discard x.queues })) c = u) :
    ∃ t, u.LeavesCtx t c ∧ u.EndsOnly t ∧ s.closeContext c = t.freeClosed x.suite := by
  rw [State.closeQueues] at hu
  simp only [State.closeContext, hx, beq_eq_false_iff_ne.2 hidle, Bool.false_eq_true, if_false, hu]
  refine ⟨_, ?_, ?_, rfl⟩
  · exact .of_eq rfl rfl rfl
  · exact ⟨_, _, _, _, _, _, _, _, _, rfl⟩

/-- A context with nothing running or outstanding is freed at once (R281). -/
theorem State.closeContext_spec (hwf : Store.wf none s.contexts = true) (hused : x.hostUsed = []) (hawaits : s.awaits c = false)
    (hdraining : (s.suite x.suite).draining = false) :
    (s.closeContext c).ctx? c = none ∧ s.EndsOnly (s.closeContext c) := by
  obtain ⟨t, hleaves, hends, hclose⟩ := State.closeContext_of_idle hx hidle rfl
  rw [hclose]
  generalize hy : { x with st := .closing, queues := Store.mapValues {} Queue.discard x.queues } = y at hleaves hends
  have hclosable : (s.setCtx c (some y)).Closable c x.suite :=
    ⟨⟨y, s.ctx?_setCtx_some c y, by rw [← hy], by rw [← hy], by rw [← hy]; exact hused⟩, Store.wf_set _ _ _ _ hwf, hawaits, hidle⟩
  have hends' : s.EndsOnly t := ((s.setCtx_endsOnly c (some y)).trans (State.closeQueues_endsOnly _ c)).trans hends
  have hready : (t.suite x.suite).draining = false := by rw [State.suite_congr hends'.suites, hdraining]
  exact ⟨(hclosable.closeQueues.leave hleaves hends).freeClosed hready, hends'.trans (State.freeClosed_endsOnly ..)⟩

end

section

variable {s : State} {q : Chan} {ctx : Nat} {x : Context} (hctx : isContext ctx = true) (hx : s.ctx? ctx = some x)
  (hserved : Served s q (0x4000 + ctx) 8 1) (hst : x.st ≠ .closing)
include hctx hx hserved hst

theorem exec_close_of : exec (.close q ctx) s = .next (s.keepQueue (answered s (s.closeContext ctx) q (0x4000 + ctx) 8)) := by
  have hact : actClose ctx 1 s = .ok (s.closeContext ctx, true) := by
    simp only [actClose, hx, judged, bne_iff_ne.2 hst]
    rfl
  rw [exec_close, execClose]
  exact onUnits_download_answered hctx hserved hact

theorem exec_close_spec (hwf : Store.wf none s.contexts = true) (hused : x.hostUsed = []) (hawaits : s.awaits ctx = false)
    (hdraining : (s.suite x.suite).draining = false) (hidle : (s.suite x.suite).step.map (·.ctx) ≠ some ctx) :
    ∃ t, exec (.close q ctx) s = .next t ∧ t.ctx? ctx = none ∧ t.suites = s.suites ∧ t.rooms = s.rooms := by
  obtain ⟨hfreed, hends⟩ := State.closeContext_spec hx hidle hwf hused hawaits hdraining
  obtain ⟨_, _, _, hanswered⟩ := answered_frame s (s.closeContext ctx) q (0x4000 + ctx) 8
  refine ⟨_, exec_close_of hctx hx hserved hst, ?_⟩
  rw [hanswered]
  exact ⟨hfreed, hends.suites, hends.rooms⟩

end

/-! ### KILL (R273, R275) -/

section

variable {s : State} {q : Chan} {suite : Nat} (hsuite : isSuite suite = true) (hserved : Served s q (0x3100 + suite) 0x16 1)
include hsuite hserved

theorem exec_kill_of {t : State} (h : s.killUnlessCommitting suite = t) :
    exec (.kill q suite) s = .next (s.keepQueue (answered s t q (0x3100 + suite) 0x16)) := by
  rw [exec_kill, execKill]
  exact onUnits_download_answered hsuite hserved (by rw [← h]; rfl)

theorem exec_kill_spec {st : Step} (hstep : (s.suite suite).step = some st) (hkill : s.killUnlessCommitting suite = s.killStep suite) :
    ∃ t, exec (.kill q suite) s = .next t ∧ (t.suite suite).step = none ∧
      (t.suite suite).killed = satAdd 64 (s.suite suite).killed 1 := by
  refine ⟨_, exec_kill_of hsuite hserved hkill, ?_⟩
  have hkept := State.suite_congr (answered_suites s (s.killStep suite) q (0x3100 + suite) 0x16) suite
  obtain ⟨hnone, hkilled⟩ := State.killStep_suite hstep
  rw [← hkept] at hnone hkilled
  exact ⟨hnone, hkilled⟩

end

/-! ### The statement -/

/-- Settles O36, by the lemmas about each command, in the order of its clauses. -/
theorem contextCommands : Obligations.ContextCommands := by
  unfold Obligations.ContextCommands
  intro s q hh ctx c k suite w v b x st
  refine ⟨fun hhouse hserved howner hversion hactive hsuite hclosing hmode hfree => ?_,
    fun hctx hx => ⟨fun hst hserved => ⟨?_, fun hcode => ?_⟩, fun hst hserved => ⟨?_, ?_⟩,
      fun hst hserved hsize hk => ?_,
      fun hserved hb hopened => ⟨exec_queueClose_of_idle hctx hx hserved hb hopened,
        exec_queueClose_of_inFlight hctx hx hserved hb hopened, exec_queueClose_spec hctx hx hserved hb hopened⟩,
      fun hserved hst => ⟨exec_close_of hctx hx hserved hst, fun hwf hused hawaits _ =>
        exec_close_spec hctx hx hserved hst hwf hused hawaits⟩⟩,
    fun hsuite hserved => ⟨fun hstep => ?_, fun hstep hcommit => ?_, fun hstep hcommit => ?_⟩⟩
  · rw [exec_ctxRequest, execCtxRequest]
    exact onUnits_download_answered hhouse (by rw [leBytes_length]; exact hserved)
      (actCtxRequest_eq howner hversion hactive hsuite hclosing hmode hfree)
  · rw [exec_retry, execRetry]
    exact onUnits_download_answered hctx hserved (actClearFault_retry hx hst)
  · rw [exec_skip, execSkip]
    exact onUnits_download_answered hctx hserved (actClearFault_skip hx hst hcode)
  · rw [exec_retry, execRetry]
    exact onUnits_download_refused hctx hserved (actClearFault_of_not_faulted hx hst (by decide) (by decide))
  · rw [exec_skip, execSkip]
    exact onUnits_download_refused hctx hserved (actClearFault_of_not_faulted hx hst (by decide) (by decide))
  · rw [exec_queueOpen, execQueueOpen]
    exact onUnits_download_answered hctx (by rw [leBytes_length]; exact hserved) (actQueueOpen_eq hx hst hsize hk)
  · exact exec_kill_of hsuite hserved (by simp only [State.killUnlessCommitting, hstep])
  · exact exec_kill_of hsuite hserved (by simp only [State.killUnlessCommitting, hstep, hcommit, if_true])
  · have hkill : s.killUnlessCommitting suite = s.killStep suite := by
      simp only [State.killUnlessCommitting, hstep, hcommit, Bool.false_eq_true, if_false]
    exact ⟨exec_kill_of hsuite hserved hkill, exec_kill_spec hsuite hserved hstep hkill⟩

end Sys2Proof.Machine
end

section
/-! PROOF. The commands of page-table roots, TLBs, fault queues and Windows: PT_ROOT (R226), TLB_INVAL (R235), FAULTQ_BASE
(R236), WINDOW_ADD and WINDOW_REMOVE (R245). -/

namespace Sys2Proof.Machine

open Sys2Proof.Safety

/-! ### Checks that pass -/

theorem judged_of {checks : List (Option Nat)} (h : firstFault checks = none) (s : State) (now : Bool) :
    judged checks s now = .ok (s, now) := by rw [judged, h]

theorem State.awake_of {s : State} {hh : Nat} (h : s.houseActive hh = true) : s.awake hh = none := must_of h

theorem versionAt_of {w lo : Nat} (h : bitsOf w (lo + 7) lo = 1) : versionAt w lo = none := must_of (decide_eq_true h)

/-! ### PT_ROOT and TLB_INVAL: a word that names a context of the household (R226, R235) -/

/-- What TLB_INVAL drops of context c: everything in scope 3, else the aligned page of its scope's size that the word's address
lies in (R235). -/
def State.tlbInvalidated (s : State) (c w : Nat) : State :=
  let size := if bitsOf w 43 42 = 0 then 4096 else if bitsOf w 43 42 = 1 then 2 ^ 21 else 2 ^ 30
  if bitsOf w 43 42 = 3 then s.tlbDrop (·.ctx == c) else s.tlbDropRange c (bitsOf w 35 0 * 4096 / size * size) size

section

variable {w : Nat} (s : State) (c : Nat)

theorem State.tlbInvalidated_4KiB (h : bitsOf w 43 42 = 0) :
    s.tlbInvalidated c w = s.tlbDropRange c (bitsOf w 35 0 * 4096) 4096 := by
  simp [State.tlbInvalidated, h]

theorem State.tlbInvalidated_2MiB (h : bitsOf w 43 42 = 1) :
    s.tlbInvalidated c w = s.tlbDropRange c (bitsOf w 35 0 * 4096 / 2 ^ 21 * 2 ^ 21) (2 ^ 21) := by
  simp only [State.tlbInvalidated, h, one_ne_zero, OfNat.one_ne_ofNat, if_false, if_true]

theorem State.tlbInvalidated_1GiB (h : bitsOf w 43 42 = 2) :
    s.tlbInvalidated c w = s.tlbDropRange c (bitsOf w 35 0 * 4096 / 2 ^ 30 * 2 ^ 30) (2 ^ 30) := by
  simp only [State.tlbInvalidated, h, OfNat.ofNat_ne_zero, OfNat.ofNat_ne_one, Nat.reduceEqDiff, if_false]

theorem State.tlbInvalidated_of_context (h : bitsOf w 43 42 = 3) : s.tlbInvalidated c w = s.tlbDrop (·.ctx == c) := by
  simp only [State.tlbInvalidated, h, if_true]

end

section

variable {s : State} {q : Chan} {hh c : Nat} {w : W64} (hhouse : isHousehold hh = true) (hactive : s.houseActive hh = true)
  (howns : s.ownsCtx hh c = none) (hc : c = bitsOf w.toNat 55 44) (hversion : bitsOf w.toNat 63 56 = 1)

include hactive howns hversion

theorem firstFault_contextWord : firstFault [s.ownsCtx hh c, versionAt w.toNat 56, s.awake hh] = none := by
  rw [howns, versionAt_of hversion, State.awake_of hactive]
  rfl

include hc

theorem actPtRoot_of_dispatched (h : (List.range 16).any (s.inFlight c) = true) : actPtRoot hh w s =
    .ok (s.modCtx c ({ · with nextRoot := some (bitsOf w.toNat 37 12 * 4096) }), true) := by
  simp only [actPtRoot, judged_of (firstFault_contextWord hactive howns hversion), ← hc, h, if_true]

theorem actPtRoot_of_idle (h : (List.range 16).any (s.inFlight c) = false) : actPtRoot hh w s =
    .ok ((s.modCtx c ({ · with root := bitsOf w.toNat 37 12 * 4096, nextRoot := none })).tlbDrop (·.ctx == c), true) := by
  simp only [actPtRoot, judged_of (firstFault_contextWord hactive howns hversion), ← hc, h, Bool.false_eq_true, if_false]

theorem actTlbInval_eq : actTlbInval hh w s = .ok (s.tlbInvalidated c w.toNat, true) := by
  simp only [actTlbInval, ← hc, judged_of (firstFault_contextWord hactive howns hversion)]
  rfl

include hhouse

theorem exec_tlbInval_of (hserved : Served s q (0x3000 + hh) 0x46 8) {t : State} (h : s.tlbInvalidated c w.toNat = t) :
    exec (.tlbInval q hh w) s = .next (s.keepQueue (answered s t q (0x3000 + hh) 0x46)) := by
  rw [exec_tlbInval, execTlbInval, ← h]
  exact onUnits_download_answered hhouse (by rwa [leBytes_length]) (actTlbInval_eq hactive howns hc hversion)

end

/-! ### FAULTQ_BASE (R236) -/

section

variable {s : State} {hh : Nat} (hactive : s.houseActive hh = true)
include hactive

theorem actFaultqBase_eq {w : W64} (hsize : w.toNat % 16 < 12) (hstalls : ∀ y ∈ s.stalls, s.houseOf y.ctx ≠ hh) :
    actFaultqBase hh w s = .ok (s.modHouse hh ({ · with
      faultqBase := BitVec.ofNat 64 (w.toNat / 4096 * 4096 + bitsOf w.toNat 4 0), faultqHead := 0, faultqTail := 0 }), true) := by
  have hnone : (!s.stalls.any fun y => s.houseOf y.ctx == hh) = true := by simpa using hstalls
  refine judged_of ?_ _ _
  rw [must_of (decide_eq_true hsize), State.awake_of hactive, must_of hnone]
  rfl

/-! ### WINDOW_ADD and WINDOW_REMOVE (R245) -/

theorem actWindowAdd_eq {x : Window} {data : List Byte} {k : Nat} (hx : x = parseWindow hh data)
    (hholds : s.holds hh x.target x.len = true)
    (hopen : ∀ p ∈ pageStarts x.target x.len, (s.page (p / 4096)).isProtected = false)
    (hclash : ∀ e ∈ s.windows, ∀ y, e.2 = some y → x.clashes y = false) (hversion : fieldOf data 0 1 = 1)
    (hbase : x.base % 64 = 0) (htarget : x.target % 64 = 0) (hlen : x.len % 64 = 0) (hpos : x.len ≠ 0)
    (hend : x.base + x.len ≤ 2 ^ 44) (hroom : s.windowsOf hh < s.envWindows hh)
    (hfree : (List.range 4096).find? (fun k => (Store.get none s.windows k).isNone) = some k) :
    actWindowAdd hh data s = .ok (State.modHouse { s with windows := Store.set none s.windows k (some x) } hh
      ({ · with windowResult := k }), true) := by
  have howned : (decide (x.len = 0) || s.holds hh x.target x.len) = true := by rw [hholds, Bool.or_true]
  have hunprotected : (!(pageStarts x.target x.len).any fun p => (s.page (p / 4096)).isProtected) = true := by simpa using hopen
  have hapart : (!s.windows.any fun e => (e.2.map x.clashes).getD false) = true := by
    rw [Bool.not_eq_true', List.any_eq_false]
    rintro ⟨j, _ | y⟩ he
    · exact Bool.false_ne_true
    · exact Bool.eq_false_iff.1 (hclash _ he y rfl)
  have haligned : (decide (x.base % 64 = 0) && decide (x.target % 64 = 0) && decide (x.len % 64 = 0) && x.len != 0 &&
      decide (x.base + x.len ≤ 2 ^ 44)) = true := by
    simp only [hbase, htarget, hlen, hend, bne_iff_ne.2 hpos, decide_true, Bool.and_self]
  simp only [actWindowAdd, ← hx, must_of howned, must_of hunprotected, must_of hapart, must_of (decide_eq_true hversion),
    must_of haligned, State.awake_of hactive, must_of (decide_eq_true hroom), firstFault_none_cons, firstFault_nil, hfree]

variable {k : Nat} {x : Window} (q : Chan) (hk : k < 4096) (hx : Store.get none s.windows k = some x) (howner : x.owner = hh)
include hk hx howner

theorem firstFault_windowRemove : firstFault
    [must (k < 4096 && ((Store.get none s.windows k).map (·.owner)) == some hh) abNotPermitted, s.awake hh] = none := by
  rw [must_of (by rw [hx, Option.map_some, howner, decide_eq_true hk, beq_self_eq_true]; rfl), State.awake_of hactive]
  rfl

theorem actWindowRemove_of_idle (h : s.admitted [k] = false) :
    actWindowRemove q hh k s = .ok ({ s with windows := Store.set none s.windows k none }, true) := by
  simp only [actWindowRemove, judged_of (firstFault_windowRemove hactive hk hx howner), h, Bool.false_eq_true, if_false,
    Bool.not_false]

/-- While an access that the entry admitted is being performed, the removal waits for it (R245). -/
theorem actWindowRemove_of_admitted (h : s.admitted [k] = true) :
    actWindowRemove q hh k s = .ok ({ s with
      windows := Store.set none s.windows k none
      removals := s.removals ++ [{ chan := q, index := 0x3000 + hh, sub := 0x52, windows := [k] }] }, false) := by
  simp only [actWindowRemove, judged_of (firstFault_windowRemove hactive hk hx howner), h, if_true, Bool.not_true]

end

/-! ### The statement -/

/-- Settles O40, command by command: the checks pass, and a served download whose checks pass has its effect. -/
theorem addressCommands : Obligations.AddressCommands := by
  unfold Obligations.AddressCommands
  intro s q hh c k w data idx x hhouse hactive
  refine ⟨fun howns hc hversion => ⟨fun hserved => ⟨fun hflight => ?rootLater, fun hflight => ?rootNow⟩,
      fun hserved => ⟨fun hscope => ?page4KiB, fun hscope => ?page2MiB, fun hscope => ?page1GiB, fun hscope => ?context⟩⟩,
    fun hserved hsize hstalls => ?faultqBase,
    fun hserved hx hholds hopen hclash hversion hbase htarget hlen hpos hend hroom hfree => ?windowAdd,
    fun hserved hidx hx howner => ⟨fun hadmitted => ?removed, fun hadmitted => ?removing⟩⟩
  case rootLater =>
    rw [exec_ptRoot, execPtRoot]
    exact onUnits_download_answered hhouse (by rwa [leBytes_length]) (actPtRoot_of_dispatched hactive howns hc hversion hflight)
  case rootNow =>
    rw [exec_ptRoot, execPtRoot]
    exact onUnits_download_answered hhouse (by rwa [leBytes_length]) (actPtRoot_of_idle hactive howns hc hversion hflight)
  case page4KiB => exact exec_tlbInval_of hhouse hactive howns hc hversion hserved (s.tlbInvalidated_4KiB c hscope)
  case page2MiB => exact exec_tlbInval_of hhouse hactive howns hc hversion hserved (s.tlbInvalidated_2MiB c hscope)
  case page1GiB => exact exec_tlbInval_of hhouse hactive howns hc hversion hserved (s.tlbInvalidated_1GiB c hscope)
  case context => exact exec_tlbInval_of hhouse hactive howns hc hversion hserved (s.tlbInvalidated_of_context c hscope)
  case faultqBase =>
    rw [exec_faultqBase, execFaultqBase]
    exact onUnits_download_answered hhouse (by rwa [leBytes_length]) (actFaultqBase_eq hactive hsize hstalls)
  case windowAdd =>
    rw [exec_windowAdd, execWindowAdd]
    exact onUnits_download_answered hhouse hserved
      (actWindowAdd_eq hactive hx hholds hopen hclash hversion hbase htarget hlen hpos hend hroom hfree)
  case removed =>
    rw [exec_windowRemove, execWindowRemove]
    exact onUnits_download_answered hhouse (by rwa [leBytes_length]) (actWindowRemove_of_idle hactive q hidx hx howner hadmitted)
  case removing =>
    rw [exec_windowRemove, execWindowRemove]
    exact onUnits_download_noted hhouse (by rwa [leBytes_length]) (actWindowRemove_of_admitted hactive q hidx hx howner hadmitted)

end Sys2Proof.Machine
end

section
/-! PROOF. Pages (R252, R253, R282, R394): what withdrawing a run of pages and washing a page change, and what they leave. -/

namespace Sys2Proof.Machine

/-! ### Listed values of a canonical store -/

theorem Store.get_of_mem_wfFrom {α : Type} [DecidableEq α] {d : α} {m : Store α} {lo a : Nat} {x : α}
    (hm : Store.wfFrom d lo m = true) (h : (a, x) ∈ m) : lo ≤ a ∧ Store.get d m a = x := by
  induction m generalizing lo with
  | nil => exact absurd h List.not_mem_nil
  | cons e m ih =>
    obtain ⟨k, v⟩ := e
    obtain ⟨hlo, -, hrest⟩ := Store.wfFrom_cons_iff.1 hm
    obtain h | h := List.mem_cons.1 h
    · cases h
      exact ⟨hlo, if_pos rfl⟩
    · obtain ⟨hk, hget⟩ := ih hrest h
      exact ⟨by omega, by rw [Store.get, if_neg (by omega), hget]⟩

/-! ### Pages -/

section

variable {s : State} (hwf : Store.wf ({} : Page) s.pages = true)

include hwf in
theorem State.page_modPage_self (p : Nat) (f : Page → Page) : (s.modPage p f).page p = f (s.page p) :=
  Store.get_set_self _ _ _ _ hwf

theorem State.page_modPage_ne (s : State) {p k : Nat} (f : Page → Page) (h : k ≠ p) : (s.modPage p f).page k = s.page k :=
  Store.get_set_ne _ _ _ _ _ h

/-- The pages that a household holds, in ascending order. -/
def State.heldPages (s : State) (hh : Nat) : List Nat := s.pages.filterMap fun e => if e.2.holder == hh then some e.1 else none

include hwf in
theorem State.mem_heldPages {hh : Nat} (hhouse : isHousehold hh = true) (p : Nat) :
    p ∈ s.heldPages hh ↔ (s.page p).holder = hh := by
  constructor
  · intro hp
    obtain ⟨⟨k, x⟩, hx, hkey⟩ := List.mem_filterMap.1 hp
    obtain ⟨hholder, rfl⟩ := by simpa using hkey
    rw [State.page, (Store.get_of_mem_wfFrom hwf hx).right, hholder]
  · intro hp
    have hlisted : s.page p ≠ {} := by
      rintro hdefault
      rw [hdefault] at hp
      subst hp
      exact absurd hhouse (by decide)
    exact List.mem_filterMap.2 ⟨_, Store.mem_of_get rfl hlisted, if_pos (beq_iff_eq.2 hp)⟩

/-! ### Withdrawn pages (R253) -/

/-- A page that its holder has lost: it is washed where its group is usable. -/
def Page.withdrawn (x : Page) (usable : Bool) : Page :=
  { x with holder := 0, isProtected := false, awaited := false, washing := x.washing || usable }

theorem Page.withdrawn_withdrawn (x : Page) (usable : Bool) : (x.withdrawn usable).withdrawn usable = x.withdrawn usable := by
  simp [Page.withdrawn]

/-- The pages of l are withdrawn; beside pages only translations and Windows differ, and the pages stay in canonical form. -/
structure State.GivesUp (s t : State) (l : List Nat) : Prop where
  frame : ∃ pages tlb walks windows, t = { s with pages, tlb, walks, windows }
  wf : Store.wf ({} : Page) t.pages = true
  page (p : Nat) : t.page p = if p ∈ l then (s.page p).withdrawn (s.usableAt (p * 4096)) else s.page p

theorem State.GivesUp.trans {s t u : State} {l l' : List Nat} (h : s.GivesUp t l) (h' : t.GivesUp u l') : s.GivesUp u (l ++ l') where
  frame := by
    obtain ⟨_, _, _, _, rfl⟩ := h.frame
    obtain ⟨_, _, _, _, rfl⟩ := h'.frame
    exact ⟨_, _, _, _, rfl⟩
  wf := h'.wf
  page p := by
    have husable : t.usableAt (p * 4096) = s.usableAt (p * 4096) := by
      obtain ⟨_, _, _, _, rfl⟩ := h.frame
      rfl
    rw [h'.page, h.page, husable]
    by_cases hl : p ∈ l
    · simp [hl, Page.withdrawn_withdrawn]
    · simp [hl]

include hwf

/-- Dropping translations and Windows withdraws no page. -/
theorem State.givesUp_nil (tlb : List TlbEntry) (walks : List WalkEntry) (windows : Store (Option Window)) :
    s.GivesUp { s with tlb, walks, windows } [] := ⟨⟨_, _, _, _, rfl⟩, hwf, fun _ => rfl⟩

theorem State.GivesUp.foldl {f : State → Nat → State} (l : List Nat)
    (h : ∀ {t : State} (p : Nat), Store.wf ({} : Page) t.pages = true → t.GivesUp (f t p) [p]) : s.GivesUp (l.foldl f s) l := by
  induction l generalizing s with
  | nil => exact State.givesUp_nil hwf ..
  | cons p l ih => exact (h p hwf).trans (ih (h p hwf).wf)

theorem State.withdrawPage_givesUp (p : Nat) : s.GivesUp (s.modPage p (·.withdrawn (s.usableAt (p * 4096)))) [p] where
  frame := ⟨_, _, _, _, rfl⟩
  wf := Store.wf_set _ _ _ _ hwf
  page k := by
    obtain rfl | hne := eq_or_ne k p
    · rw [State.page_modPage_self hwf, if_pos (List.mem_singleton_self k)]
    · rw [State.page_modPage_ne _ _ hne, if_neg (by simpa using hne)]

theorem State.withdrawRun_givesUp (frame count : Nat) : s.GivesUp (s.withdrawRun frame count) (span frame count) := by
  unfold State.withdrawRun
  refine (State.givesUp_nil hwf _ _ _).trans (State.GivesUp.foldl ?_ _ fun p hwf => State.withdrawPage_givesUp hwf p)
  exact hwf

/-! ### Washing (R253, R394) -/

theorem State.markWashed_spec (p : Nat) :
    (∃ pages washFrom, s.markWashed p = { s with pages, washFrom }) ∧ ((s.markWashed p).page p).washing = false := by
  have hwashed : ((s.modPage p ({ · with washing := false, awaited := false })).page p).washing = false := by
    rw [State.page_modPage_self hwf]
  have hwf' : Store.wf ({} : Page) (s.modPage p ({ · with washing := false, awaited := false })).pages = true :=
    Store.wf_set _ _ _ _ hwf
  unfold State.markWashed
  dsimp only
  split
  · exact ⟨⟨_, _, rfl⟩, hwashed⟩
  · split
    · exact ⟨⟨_, _, rfl⟩, (congrArg Page.washing (State.page_modPage_self (by exact hwf') p _)).trans hwashed⟩
    · exact ⟨⟨_, _, rfl⟩, (congrArg Page.washing (State.page_modPage_self hwf' p _)).trans hwashed⟩

end

section

variable {s : State} {stack p : Nat}

theorem State.washNext_of_none (h : s.nextWash stack = none) : s.washNext stack = s := by
  simp only [State.washNext, h]

theorem State.washNext_of_skipped (h : s.nextWash stack = some p) (hskip : s.isWashing p = false ∨ s.usableAt (p * 4096) = false) :
    s.washNext stack = s.markWashed p := by
  have hpass : (!s.isWashing p || !s.usableAt (p * 4096)) = true := by
    obtain h | h := hskip <;> simp [h]
  simp only [State.washNext, h, hpass, if_true]

variable (h : s.nextWash stack = some p) (hwashing : s.isWashing p = true) (husable : s.usableAt (p * 4096) = true)
include h hwashing husable

theorem State.washNext_of_washing : s.washNext stack =
    ((s.copyMove (p * 4096) 4096 true).hbmWrite (p * 4096) (List.replicate 4096 0)).1.markWashed p := by
  simp only [State.washNext, h, hwashing, husable, Bool.not_true, Bool.or_self, Bool.false_eq_true, if_false]

/-- A washed page of good units reads zero. -/
theorem State.washNext_spec (hpages : Store.wf ({} : Page) s.pages = true) (hhbm : Memory.wf s.hbm = true)
    (hgood : ∀ x ∈ unitsOf (p * 4096) 4096, s.usableAt (x * 64) = true ∧ s.badUnits.contains x = false) :
    (s.washNext stack).hbmRead (p * 4096) 4096 = List.replicate 4096 0 ∧ ((s.washNext stack).page p).washing = false ∧
      (s.washNext stack).rooms = s.rooms ∧ (s.washNext stack).suites = s.suites := by
  rw [State.washNext_of_washing h hwashing husable]
  obtain ⟨packets, regulators, hmoved⟩ := s.enqueue_frame (copyPort (p * 4096 / 2 ^ 36 / 2)) (p * 4096) 4096 true none .none none false
  rw [State.copyMove, hmoved]
  generalize hzero : List.replicate 4096 (0 : Byte) = zero
  have hlength : zero.length = 4096 := by rw [← hzero, List.length_replicate]
  rw [State.hbmWrite_of_good (s := { s with packets, regulators }) (by rw [hlength]; exact hgood)]
  obtain ⟨⟨_, _, hframe⟩, hwashed⟩ :=
    State.markWashed_spec (s := { s with packets, regulators, hbm := Store.setRange 0 s.hbm (p * 4096) zero }) hpages p
  refine ⟨?_, hwashed, ?_⟩
  · rw [hframe, State.hbmRead, ← hlength]
    exact Store.range_setRange _ _ hhbm
  · rw [hframe]
    exact ⟨rfl, rfl⟩

end

end Sys2Proof.Machine
end

section
/-! PROOF. The commands of households on themselves, their pages and their Suites (R250 to R254, R263, R282), and the page wash
(R253). -/

namespace Sys2Proof.Machine

open Sys2Proof.Safety

/-! ### Households -/

theorem State.house_modHouse_of_ne (s : State) (hh : Nat) (f : Household → Household) (h : f (s.house hh) ≠ {}) :
    (s.modHouse hh f).house hh = f (s.house hh) := Store.get_set_self_of_ne _ _ _ _ h

theorem Household.ne_default_of_st {x : Household} (h : x.st ≠ .inactive) : x ≠ {} := fun hdefault => h (hdefault ▸ rfl)

theorem State.failBlob_of_none {s : State} {hh : Nat} (h : (s.house hh).blob = none) : s.failBlob hh = s := by
  simp only [State.failBlob, h]

theorem State.failBlob_frame (s : State) (hh : Nat) : ∃ households halls out, s.failBlob hh = { s with households, halls, out } := by
  unfold State.failBlob
  split
  · obtain ⟨_, _, hreply⟩ := State.reply_frame (s.modHouse hh _) _ (0x5500 + hh) 0x30 abState []
    exact ⟨_, _, _, hreply⟩
  · exact ⟨_, _, _, rfl⟩

/-- A household that begins to close: a running SAVE or RESTORE has failed (R282). -/
def Household.beginClosing (x : Household) : Household := { x with
  st := .closing, image := none, latch := none
  migration := if x.image.isSome then migrationWord 5 5 0 else x.migration }

theorem Household.beginClosing_st (x : Household) : x.beginClosing.st = .closing := rfl

/-- Household hh begins to close, and its BLOB_DECRYPT fails (R282, R410). -/
def State.beginClosing (s : State) (hh : Nat) : State := (s.modHouse hh Household.beginClosing).failBlob hh

section

variable {s : State} {q : Chan} {hh : Nat} (hhouse : isHousehold hh = true) (hserved : Served s q (0x3000 + hh) 2 1)
include hhouse hserved

/-! ### ACTIVATE (R250) -/

theorem exec_activate_of (hst : (s.house hh).st = .inactive) (henvelope : s.hasEnvelope hh = true)
    (hopen : (s.security.openHouse && s.envFlag hh 0) = false) :
    exec (.activate q hh) s = .next (s.keepQueue (answered s (s.modHouse hh fun _ =>
      { st := .active, programChain := List.replicate 48 0, blobChain := List.replicate 48 0 }) q (0x3000 + hh) 2)) := by
  have hact : actControl hh 1 s = .ok (s.modHouse hh fun _ =>
      { st := .active, programChain := List.replicate 48 0, blobChain := List.replicate 48 0 }, true) := by
    refine judged_of ?_ _ _
    rw [hst, henvelope, hopen]
    rfl
  rw [exec_activate, execActivate]
  exact onUnits_download_answered hhouse hserved hact

theorem exec_activate_of_active (hst : (s.house hh).st ≠ .inactive) :
    exec (.activate q hh) s = .next (s.keepQueue (s.refuse q (0x3000 + hh) 2 0x08000022)) := by
  have hact : actControl hh 1 s = .error 0x08000022 := by
    change activate hh s = _
    rw [activate, judged, beq_eq_false_iff_ne.2 hst]
    rfl
  rw [exec_activate, execActivate]
  exact onUnits_download_refused hhouse hserved hact

/-! ### DEACTIVATE (R275, R282, R410) -/

variable (hactive : s.houseActive hh = true) (hclosing : (s.house hh).st ≠ .closing)
include hactive hclosing

theorem exec_deactivate_of : exec (.deactivate q hh) s = .next (s.keepQueue (answered s
    ((((s.beginClosing hh).contextsHeld hh).foldl State.closeContext (s.beginClosing hh)).progressClosing hh) q (0x3000 + hh) 2)) := by
  have hopen : (s.houseActive hh && (s.house hh).st != .closing) = true := by rw [hactive, bne_iff_ne.2 hclosing]; rfl
  rw [exec_deactivate, execDeactivate]
  exact onUnits_download_answered hhouse hserved (judged_of (by rw [must_of hopen]; rfl) _ _)

end

/-- A household that has closed keeps the outcomes of its last jobs (R282). -/
def Household.closed (x : Household) : Household := { migration := x.migration, blobStatus := x.blobStatus }

theorem State.foldl_clearSlot_frame (l : List Nat) (s : State) : ∃ security, l.foldl State.clearSlot s = { s with security } :=
  List.foldlRecOn (motive := fun t : State => ∃ security, t = { s with security }) l _ ⟨_, rfl⟩ fun _ ht _ _ => by
    obtain ⟨_, rfl⟩ := ht
    exact ⟨_, rfl⟩

/-- Without contexts and Suites a CLOSING household gives up its pages and is INACTIVE (R282). -/
theorem State.progressClosing_of_empty {s : State} {hh : Nat} (hwf : Store.wf ({} : Page) s.pages = true)
    (hst : (s.house hh).st = .closing) (hcontexts : s.contextsHeld hh = []) (hsuites : s.suitesOf hh = []) :
    ∃ t security, s.GivesUp t (s.heldPages hh) ∧ s.progressClosing hh = State.modHouse { t with security } hh Household.closed := by
  have hgo : ((s.house hh).st != .closing || !(s.contextsHeld hh).isEmpty) = false := by rw [hst, hcontexts]; rfl
  simp only [State.progressClosing, hgo, hsuites, Bool.false_eq_true, if_false, List.foldl_nil]
  generalize hgone : List.foldl _ _ (List.filterMap _ _) = t
  have hgives : s.GivesUp t (s.heldPages hh) := by
    subst hgone
    refine (State.givesUp_nil hwf _ _ _).trans (State.GivesUp.foldl ?_ _ fun p hwf => State.withdrawRun_givesUp hwf p 1)
    exact hwf
  obtain ⟨security, hsecurity⟩ := State.foldl_clearSlot_frame (t.slotsOf hh) t
  exact ⟨t, security, hgives, by rw [hsecurity]; rfl⟩

/-- A household without contexts, Suites or a blob command is INACTIVE at once, and its pages are given up (R282). -/
theorem exec_deactivate_spec {s : State} {q : Chan} {hh : Nat} (hhouse : isHousehold hh = true)
    (hserved : Served s q (0x3000 + hh) 2 1) (hactive : s.houseActive hh = true) (hclosing : (s.house hh).st ≠ .closing)
    (hcontexts : s.contextsHeld hh = []) (hsuites : s.suitesOf hh = []) (hblob : (s.house hh).blob = none)
    (hhouses : Store.wf ({} : Household) s.households = true) (hpages : Store.wf ({} : Page) s.pages = true) :
    ∃ u, exec (.deactivate q hh) s = .next u ∧ (u.house hh).st = .inactive ∧
      (∀ p, (s.page p).holder = hh → (u.page p).holder = 0) ∧ (∀ p, (s.page p).holder ≠ hh → u.page p = s.page p) ∧
      u.rooms = s.rooms ∧ u.suites = s.suites ∧ u.hbm = s.hbm := by
  have hlisted : (s.house hh).beginClosing ≠ {} := Household.ne_default_of_st (by rw [Household.beginClosing_st]; decide)
  have hread : (s.modHouse hh Household.beginClosing).house hh = (s.house hh).beginClosing :=
    State.house_modHouse_of_ne _ _ _ hlisted
  have hbegin : s.beginClosing hh = s.modHouse hh Household.beginClosing := State.failBlob_of_none (by rw [hread]; exact hblob)
  obtain ⟨t, security, hgives, hprogress⟩ := State.progressClosing_of_empty (s := s.modHouse hh Household.beginClosing) hpages
    (by rw [hread, Household.beginClosing_st]) hcontexts hsuites
  have hexec := exec_deactivate_of hhouse hserved hactive hclosing
  have hnone : (s.modHouse hh Household.beginClosing).contextsHeld hh = [] := hcontexts
  rw [hbegin, hnone, List.foldl_nil, hprogress] at hexec
  obtain ⟨_, _, _, hanswered⟩ := answered_frame s (State.modHouse { t with security } hh Household.closed) q (0x3000 + hh) 2
  have hmem (p : Nat) : p ∈ (s.modHouse hh Household.beginClosing).heldPages hh ↔ (s.page p).holder = hh :=
    State.mem_heldPages (s := s.modHouse hh Household.beginClosing) hpages hhouse p
  refine ⟨_, hexec, ?_⟩
  rw [hanswered]
  refine ⟨?_, fun p hp => ?_, fun p hp => ?_, ?_⟩
  · have hwf : Store.wf ({} : Household) t.households = true := by
      obtain ⟨_, _, _, _, rfl⟩ := hgives.frame
      exact Store.wf_set _ _ _ _ hhouses
    exact congrArg Household.st (Store.get_set_self _ _ hh (Household.closed (t.house hh)) hwf)
  · exact congrArg Page.holder ((hgives.page p).trans (if_pos ((hmem p).2 hp)))
  · exact (hgives.page p).trans (if_neg fun h => hp ((hmem p).1 h))
  · obtain ⟨_, _, _, _, rfl⟩ := hgives.frame
    exact ⟨rfl, rfl, rfl⟩

/-! ### GRANT and WITHDRAW (R252, R253) -/

/-- What GRANT and WITHDRAW write: the word that they are given, with their own ACTION (R252). -/
theorem bitsOf_action (w : W64) (a : BitVec 2) :
    bitsOf (w &&& ~~~(0x00C0000000000000#64) ||| a.setWidth 64 <<< 54).toNat 55 54 = a.toNat := by
  have haction : (w &&& ~~~(0x00C0000000000000#64) ||| a.setWidth 64 <<< 54).extractLsb' 54 2 = a := by
    ext i hi
    interval_cases i <;> simp
  rw [← toNat_extractLsb'_eq_bitsOf _ 54 1, haction]

/-- The word v names a run of populated pages for the active household hh (R252). -/
structure State.NamesRun (s : State) (hh : Nat) (v : W64) (frame count : Nat) : Prop where
  active : s.houseActive hh = true
  version : bitsOf v.toNat 63 56 = 1
  owner : bitsOf v.toNat 53 48 = hh
  frameField : bitsOf v.toNat 25 0 = frame
  countField : bitsOf v.toNat 47 26 = count
  nonempty : count ≠ 0
  populated : populatedRange (frame * 4096) (count * 4096) = true

/-- The household's state once a BLOB_DECRYPT on the run has failed and the run is withdrawn (R253, R401). -/
def State.withdrawn (s : State) (hh frame count : Nat) : State :=
  (if ((s.house hh).blob.map fun j => j.touches frame count).getD false then s.failBlob hh else s).withdrawRun frame count

section

variable {s : State} {q : Chan} {hh frame count : Nat} {v : W64} (hrun : s.NamesRun hh v frame count)
include hrun

/-- The checks that GRANT and WITHDRAW share pass, and their own follow. -/
theorem firstFault_grantForm (haction : bitsOf v.toNat 55 54 = 1 ∨ bitsOf v.toNat 55 54 = 2) (checks : List (Option Nat)) :
    firstFault ([versionAt v.toNat 56, must (bitsOf v.toNat 55 54 = 1 || bitsOf v.toNat 55 54 = 2) abRange,
      must (bitsOf v.toNat 53 48 = hh) abRange, must (count != 0) abRange,
      must (populatedRange (frame * 4096) (count * 4096)) abRange, s.awake hh] ++ checks) = firstFault checks := by
  have hnamed : (decide (bitsOf v.toNat 55 54 = 1) || decide (bitsOf v.toNat 55 54 = 2)) = true := by simpa using haction
  simp only [versionAt_of hrun.version, must_of hnamed, must_of (decide_eq_true hrun.owner), must_of (bne_iff_ne.2 hrun.nonempty),
    must_of hrun.populated, State.awake_of hrun.active, List.cons_append, List.nil_append, firstFault_none_cons]

theorem actGrant_of_grant (haction : bitsOf v.toNat 55 54 = 1)
    (hfree : ∀ p ∈ span frame count, s.usableAt (p * 4096) = true ∧ (s.page p).holder = 0)
    (hmax : s.pagesHeld hh + count ≤ s.envMaxPages hh) (hpromised : s.pageShortfall hh + count ≤ s.freePages) :
    actGrant q hh v s = .ok ((span frame count).foldl (fun s p => s.modPage p ({ · with holder := hh })) s, true) := by
  have hall : ((span frame count).all fun p => s.usableAt (p * 4096) && (s.page p).holder == 0) = true :=
    List.all_eq_true.2 fun p hp => by simp [hfree p hp]
  rw [actGrant]
  simp only [if_pos haction, hrun.frameField, hrun.countField]
  refine judged_of ?_ _ _
  rw [firstFault_grantForm hrun (.inl haction), must_of hall, must_of (decide_eq_true hmax), must_of (decide_eq_true hpromised)]
  rfl

variable (hheld : ∀ p ∈ span frame count, (s.page p).holder = hh)
include hheld

theorem actGrant_of_withdraw (haction : bitsOf v.toNat 55 54 = 2) :
    actGrant q hh v s = .ok (if s.admitted (s.windowsOn frame count) then
      { s.withdrawn hh frame count with removals := (s.withdrawn hh frame count).removals ++
          [{ chan := q, index := 0x3000 + hh, sub := 0x30, windows := s.windowsOn frame count }] }
      else s.withdrawn hh frame count, !s.admitted (s.windowsOn frame count)) := by
  have hall : ((span frame count).all fun p => (s.page p).holder == hh) = true :=
    List.all_eq_true.2 fun p hp => by simp [hheld p hp]
  have hwithdraw : bitsOf v.toNat 55 54 ≠ 1 := by omega
  rw [actGrant]
  simp only [if_neg hwithdraw, hrun.frameField, hrun.countField]
  refine judged_of ?_ _ _
  rw [firstFault_grantForm hrun (.inr haction), must_of hall]
  rfl

variable {w : W64} (hhouse : isHousehold hh = true) (hserved : Served s q (0x3000 + hh) 0x30 8)
  (hv : v = w &&& ~~~(0x00C0000000000000#64) ||| 0x0080000000000000#64)
include hhouse hserved hv

theorem exec_withdraw_of_idle (hidle : s.admitted (s.windowsOn frame count) = false) : exec (.withdraw q hh w) s =
    .next (s.keepQueue (answered s (s.withdrawn hh frame count) q (0x3000 + hh) 0x30)) := by
  have hact := actGrant_of_withdraw (q := q) hrun hheld (by rw [hv]; exact bitsOf_action w 2)
  simp only [hidle, Bool.false_eq_true, if_false, Bool.not_false] at hact
  rw [exec_withdraw, execWithdraw]
  simp only [← hv]
  exact onUnits_download_answered hhouse (by rwa [leBytes_length]) hact

/-- The answer waits for the accesses that the run's Windows admitted (R245, R253). -/
theorem exec_withdraw_of_admitted (hbusy : s.admitted (s.windowsOn frame count) = true) {t : State}
    (ht : t = s.withdrawn hh frame count) : exec (.withdraw q hh w) s = .next (s.keepQueue (noted s { t with
      removals := t.removals ++ [{ chan := q, index := 0x3000 + hh, sub := 0x30, windows := s.windowsOn frame count }] }
      q (0x3000 + hh) 0x30)) := by
  have hact := actGrant_of_withdraw (q := q) hrun hheld (by rw [hv]; exact bitsOf_action w 2)
  simp only [hbusy, if_true, Bool.not_true, ← ht] at hact
  rw [exec_withdraw, execWithdraw]
  simp only [← hv]
  exact onUnits_download_noted hhouse (by rwa [leBytes_length]) hact

/-- Either way the run is withdrawn at once. -/
theorem exec_withdraw_frame : ∃ splitWrites halls out removals, exec (.withdraw q hh w) s = .next (s.keepQueue
    { s.withdrawn hh frame count with splitWrites, halls, out, removals }) := by
  cases hadmitted : s.admitted (s.windowsOn frame count) with
  | false =>
    obtain ⟨_, _, _, hanswered⟩ := answered_frame s (s.withdrawn hh frame count) q (0x3000 + hh) 0x30
    rw [exec_withdraw_of_idle hrun hheld hhouse hserved hv hadmitted, hanswered]
    exact ⟨_, _, _, _, rfl⟩
  | true =>
    rw [exec_withdraw_of_admitted hrun hheld hhouse hserved hv hadmitted rfl]
    obtain ⟨_, hnoted⟩ := noted_frame s { s.withdrawn hh frame count with
      removals := (s.withdrawn hh frame count).removals ++
        [{ chan := q, index := 0x3000 + hh, sub := 0x30, windows := s.windowsOn frame count }] } q (0x3000 + hh) 0x30
    rw [hnoted]
    exact ⟨_, _, _, _, rfl⟩

end

/-- A withdrawn run is held by nobody and waits for its wash where its group is usable; memory and the other pages stand (R253). -/
theorem State.withdrawn_spec {s : State} (hwf : Store.wf ({} : Page) s.pages = true) (hh frame count : Nat) :
    (s.withdrawn hh frame count).hbm = s.hbm ∧ (s.withdrawn hh frame count).rooms = s.rooms ∧
      (∀ p ∈ span frame count, ((s.withdrawn hh frame count).page p).holder = 0 ∧
        (s.usableAt (p * 4096) = true → ((s.withdrawn hh frame count).page p).washing = true)) ∧
      ∀ p, p ∉ span frame count → (s.withdrawn hh frame count).page p = s.page p := by
  have hblob : ∃ households halls out, (if ((s.house hh).blob.map fun j => j.touches frame count).getD false then s.failBlob hh
      else s) = { s with households, halls, out } := by
    split
    · exact s.failBlob_frame hh
    · exact ⟨_, _, _, rfl⟩
  obtain ⟨households, halls, out, hblob⟩ := hblob
  rw [State.withdrawn, hblob]
  have hgives := State.withdrawRun_givesUp (s := { s with households, halls, out }) hwf frame count
  refine ⟨?_, ?_, fun p hp => ?_, fun p hp => (hgives.page p).trans (if_neg hp)⟩
  · obtain ⟨_, _, _, _, h⟩ := hgives.frame
    rw [h]
  · obtain ⟨_, _, _, _, h⟩ := hgives.frame
    rw [h]
  · rw [hgives.page, if_pos hp]
    exact ⟨rfl, fun husable => (Bool.or_eq_true _ _).mpr (.inr husable)⟩

/-! ### PAGE_WASH (R253) -/

theorem exec_washPage_of {s : State} {stack : Nat} (hstack : isFloor stack = true) :
    exec (.washPage stack) s = .next (s.keepQueue (s.washNext stack)) := by
  rw [exec_washPage, execWashPage, onUnits_of _ _ _ hstack]

/-! ### SUITE_REQUEST and SUITE_RELEASE (R254, R263) -/

theorem actSuiteRequest_eq {s : State} {hh n : Nat} {w : W32} (hversion : bitsOf w.toNat 31 24 = 1)
    (hmode : bitsOf w.toNat 23 22 < 3) (hpair : bitsOf w.toNat 23 22 = 2 → s.pairRole ≠ 0)
    (hallowed : bitOf (s.envModes hh) (bitsOf w.toNat 23 22) = true) (hactive : s.houseActive hh = true)
    (hclosing : (s.house hh).st ≠ .closing) (hmax : (s.suitesOf hh).length < s.envSuites hh)
    (hfree : (List.range 256).find? (fun n => (s.suite n).st == .free) = some n) :
    actSuiteRequest hh w s = .ok ((s.modSuite n fun _ =>
      { st := .empty, owner := hh, mode := modeOf (bitsOf w.toNat 23 22), rent := { created := s.time, upto := s.time } }).modHouse hh
        ({ · with suiteResult := BitVec.ofNat 32 (2 ^ 24 + n * 2 ^ 16 + bitsOf w.toNat 15 0) }), true) := by
  have hknown : (bitsOf w.toNat 23 22 != 3 && bitOf (s.envModes hh) (bitsOf w.toNat 23 22)) = true := by
    rw [hallowed, bne_iff_ne.2 (by omega)]; rfl
  have hpaired : (bitsOf w.toNat 23 22 != 2 || s.pairRole != 0) = true := by
    simpa [Classical.or_iff_not_imp_left] using hpair
  simp only [actSuiteRequest, must_of (decide_eq_true hversion), must_of hknown, State.awake_of hactive,
    must_of (bne_iff_ne.2 hclosing), must_of hpaired, must_of (decide_eq_true hmax), firstFault_none_cons, firstFault_nil, hfree]

theorem actSuiteRelease_eq {s : State} {hh n : Nat} (hactive : s.houseActive hh = true) (howner : s.suiteOwner n = some hh)
    (hcontexts : s.contextsOf n = []) (hst : (s.suite n).st ≠ .releasing) :
    actSuiteRelease hh n s = .ok (s.modSuite n ({ · with st := .releasing }), true) := by
  have hidle : ((s.contextsOf n).isEmpty && (s.suite n).st != .releasing) = true := by rw [hcontexts, bne_iff_ne.2 hst]; rfl
  refine judged_of ?_ _ _
  rw [must_of (beq_iff_eq.2 howner), State.awake_of hactive, must_of hidle]
  rfl

/-! ### The statement -/

/-- Settles O43, command by command: the checks pass, and a served download whose checks pass has its effect. -/
theorem householdCommands : Obligations.HouseholdCommands := by
  unfold Obligations.HouseholdCommands
  intro s t t' q hh n p stack w v u suite hhouse
  refine ⟨fun hserved => ⟨exec_activate_of hhouse hserved, exec_activate_of_active hhouse hserved, fun hactive hclosing ht => ?close,
      exec_deactivate_spec hhouse hserved⟩,
    fun hserved hactive hversion howner hcount hpopulated => ?run,
    fun hstack => ⟨fun hnone => ?clean, fun hnext hwashing husable => ⟨?wash, fun hpages hhbm hgood => ?washed⟩,
      fun hnext hskip => ?skipped⟩,
    fun hserved hversion hmode hpair hallowed hactive hclosing hmax hfree => ?suiteRequest,
    fun hserved hactive howner hcontexts hst => ?suiteRelease⟩
  case close =>
    subst ht
    exact exec_deactivate_of hhouse hserved hactive hclosing
  case run =>
    have hrun : s.NamesRun hh v _ _ := ⟨hactive, hversion, howner, rfl, rfl, hcount, hpopulated⟩
    refine ⟨fun hv hfree hmax hpromised => ?grant, fun hv hheld ht' => ⟨fun hidle => ?withdrawn, fun hbusy ht => ?withdrawing,
      fun hwf => ?pages⟩⟩
    case grant =>
      rw [exec_grant, execGrant]
      simp only [← hv]
      exact onUnits_download_answered hhouse (by rwa [leBytes_length])
        (actGrant_of_grant hrun (by rw [hv]; exact bitsOf_action w 1) hfree hmax hpromised)
    case withdrawn =>
      subst ht'
      exact exec_withdraw_of_idle hrun hheld hhouse hserved hv hidle
    case withdrawing =>
      subst ht'
      exact exec_withdraw_of_admitted hrun hheld hhouse hserved hv hbusy ht
    case pages =>
      obtain ⟨_, _, _, _, hexec⟩ := exec_withdraw_frame hrun hheld hhouse hserved hv
      exact ⟨_, hexec, State.withdrawn_spec hwf hh _ _⟩
  case clean => rw [exec_washPage_of hstack, State.washNext_of_none hnone, State.keepQueue_self]
  case wash => rw [exec_washPage_of hstack, State.washNext_of_washing hnext hwashing husable]
  case washed => exact ⟨_, exec_washPage_of hstack, State.washNext_spec hnext hwashing husable hpages hhbm hgood⟩
  case skipped => rw [exec_washPage_of hstack, State.washNext_of_skipped hnext hskip]
  case suiteRequest =>
    rw [exec_suiteRequest, execSuiteRequest]
    exact onUnits_download_answered hhouse (by rwa [leBytes_length])
      (actSuiteRequest_eq hversion hmode hpair hallowed hactive hclosing hmax hfree)
  case suiteRelease =>
    rw [exec_suiteRelease, execSuiteRelease]
    exact onUnits_download_answered hhouse hserved (actSuiteRelease_eq hactive howner hcontexts hst)

end Sys2Proof.Machine
end

section
/-! PROOF. Freezing (R278), the image of a household (R279, R280, R403), and RELEASE of a HELD Suite (R374). -/

namespace Sys2Proof.Machine

open Sys2Proof.Safety

/-! ### FREEZE (R278) -/

section

variable {s : State} {q : Chan} {hh : Nat}

/-- Without contexts a household that freezes is FROZEN. -/
theorem State.settleFreeze_of_empty (hst : (s.house hh).st = .freezing) (hcontexts : s.contextsHeld hh = []) :
    s.settleFreeze hh = s.modHouse hh ({ · with st := .frozen }) := by
  have hall : ((s.contexts.filterMap fun e => e.2.bind fun c => if c.household = hh then some c else none).all
      (·.st == .frozen)) = true := by
    refine List.all_eq_true.2 fun x hx => ?_
    obtain ⟨⟨c, y⟩, he, hown⟩ := List.mem_filterMap.1 hx
    obtain ⟨z, rfl, hz⟩ := Option.bind_eq_some_iff.1 hown
    have hheld : c ∈ s.contextsHeld hh := List.mem_filterMap.2 ⟨_, he, by
      split at hz
      · next hhouse => simp [hhouse]
      · cases hz⟩
    rw [hcontexts] at hheld
    exact absurd hheld List.not_mem_nil
  simp only [State.settleFreeze, hst, hall, beq_self_eq_true, Bool.and_self, if_true]

/-- A household that begins to freeze, and is FROZEN at once when it has no contexts. -/
def State.frozenAt (s : State) (hh : Nat) (atPoint : Bool) : State :=
  (s.modHouse hh ({ · with st := .freezing, freezeAtPoint := atPoint })).modHouse hh ({ · with st := .frozen })

theorem State.settleFreeze_begun (hcontexts : s.contextsHeld hh = []) (atPoint : Bool) :
    (s.modHouse hh ({ · with st := .freezing, freezeAtPoint := atPoint })).settleFreeze hh = s.frozenAt hh atPoint := by
  refine State.settleFreeze_of_empty ?_ hcontexts
  rw [State.house_modHouse_of_ne _ _ _ (Household.ne_default_of_st (by dsimp only; decide))]

theorem State.freezeAtPoint_of_empty (hcontexts : s.contextsHeld hh = []) : s.freezeAtPoint hh = s.frozenAt hh true := by
  have hnone : (s.modHouse hh ({ · with st := .freezing, freezeAtPoint := true })).contextsHeld hh = [] := hcontexts
  simp only [State.freezeAtPoint, hnone, List.flatMap_nil, List.foldl_nil]
  exact State.settleFreeze_begun hcontexts true

theorem State.freezeNow_of_empty (hcontexts : s.contextsHeld hh = []) (hsuites : s.suitesOf hh = []) :
    s.freezeNow hh = s.frozenAt hh false := by
  have hnone : (s.modHouse hh ({ · with st := .freezing, freezeAtPoint := false })).suitesOf hh = [] := hsuites
  simp only [State.freezeNow, hnone, List.foldl_nil]
  exact State.settleFreeze_begun hcontexts false

theorem State.frozenAt_house (s : State) (hh : Nat) (atPoint : Bool) :
    ((s.frozenAt hh atPoint).house hh).st = .frozen ∧ ((s.frozenAt hh atPoint).house hh).freezeAtPoint = atPoint := by
  rw [State.frozenAt, State.house_modHouse_of_ne _ _ _ (Household.ne_default_of_st (by dsimp only; decide)),
    State.house_modHouse_of_ne _ _ _ (Household.ne_default_of_st (by dsimp only; decide))]
  exact ⟨rfl, rfl⟩

/-- What an answered freeze of a household without contexts leaves. -/
theorem State.frozenAt_answered {o : Host.Outcome State Fault Refusal} {t : State} {atPoint : Bool} (ht : t = s.frozenAt hh atPoint)
    {i sub : Nat} (ho : o = .next (s.keepQueue (answered s t q i sub))) : ∃ t, o = .next t ∧ (t.house hh).st = .frozen ∧
      (t.house hh).freezeAtPoint = atPoint ∧ t.suites = s.suites ∧ t.contexts = s.contexts ∧ t.rooms = s.rooms := by
  subst ht
  obtain ⟨_, _, _, hanswered⟩ := answered_frame s (s.frozenAt hh atPoint) q i sub
  obtain ⟨hst, hpoint⟩ := s.frozenAt_house hh atPoint
  refine ⟨_, ho, ?_⟩
  rw [hanswered]
  exact ⟨hst, hpoint, rfl, rfl, rfl⟩

variable (hhouse : isHousehold hh = true) (hserved : Served s q (0x3000 + hh) 0x60 1)
include hhouse hserved

section

variable (hst : (s.house hh).st = .active ∨ (s.house hh).st = .freezing)
include hst

theorem exec_atFreezePoint_of : exec (.atFreezePoint q hh) s =
    .next (s.keepQueue (answered s (s.freezeAtPoint hh) q (0x3000 + hh) 0x60)) := by
  rw [exec_atFreezePoint, execAtFreezePoint]
  refine onUnits_download_answered hhouse hserved (judged_of ?_ _ _)
  obtain hst | hst := hst <;> rw [hst] <;> rfl

theorem exec_atNextBoundary_of : exec (.atNextBoundary q hh) s =
    .next (s.keepQueue (answered s (s.freezeNow hh) q (0x3000 + hh) 0x60)) := by
  rw [exec_atNextBoundary, execAtNextBoundary]
  refine onUnits_download_answered hhouse hserved (judged_of ?_ _ _)
  obtain hst | hst := hst <;> rw [hst] <;> rfl

end

theorem exec_thaw_of (hst : (s.house hh).st = .active ∨ (s.house hh).st = .freezing ∨ (s.house hh).st = .frozen) :
    exec (.thaw q hh) s = .next (s.keepQueue (answered s (s.thaw hh) q (0x3000 + hh) 0x60)) := by
  rw [exec_thaw, execThaw]
  refine onUnits_download_answered hhouse hserved (judged_of ?_ _ _)
  obtain hst | hst | hst := hst <;> rw [hst] <;> rfl

theorem exec_thaw_of_closed (hst : (s.house hh).st = .inactive ∨ (s.house hh).st = .closing) :
    exec (.thaw q hh) s = .next (s.keepQueue (s.refuse q (0x3000 + hh) 0x60 0x08000022)) := by
  rw [exec_thaw, execThaw]
  refine onUnits_download_refused hhouse hserved ?_
  unfold actFreeze
  obtain hst | hst := hst <;> simp only [hst] <;> rfl

end

/-! ### SAVE and RESTORE (R279, R280, R403) -/

section

variable {s : State} {q : Chan} {hh : Nat} {w : W64} (halarm : s.security.alarm = false) (hkeys : s.keysPermitted = true)
  (himage : (s.house hh).image = none)
include halarm hkeys himage

theorem actSave_eq (hst : (s.house hh).st = .frozen) (hkey : (s.migrationKey hh).isSome = true) : actSave hh w s =
    .ok (s.modHouse hh ({ · with image := some (w, true), migration := migrationWord 1 0 0 }), true) := by
  refine judged_of ?_ _ _
  rw [halarm, hst, himage, hkeys, hkey]
  rfl

theorem actRestore_eq (hst : (s.house hh).st = .active) (hcontexts : s.contextsHeld hh = []) : actRestore hh w s =
    .ok (s.modHouse hh ({ · with image := some (w, false), migration := migrationWord 3 0 0 }), true) := by
  refine judged_of ?_ _ _
  rw [halarm, hst, hcontexts, himage, hkeys]
  rfl

end

section

variable {s : State} {hh cause : Nat} (hhouse : isHousehold hh = true) (hcause : isCause cause = true)
include hhouse hcause

theorem exec_saveDone_of_none (himage : (s.house hh).image = none) : exec (.saveDone hh cause) s = .next s := by
  rw [exec_saveDone, execSaveDone, onUnits_of _ _ _ (by rw [hhouse, hcause]; rfl), himage]
  rfl

theorem exec_restoreDone_of_none (himage : (s.house hh).image = none) : exec (.restoreDone hh cause) s = .next s := by
  rw [exec_restoreDone, execRestoreDone, onUnits_of _ _ _ (by rw [hhouse, hcause]; rfl), himage]
  rfl

variable {w : W64} (hsilent : s.failSilent = false)
include hsilent

theorem exec_saveDone_of (himage : (s.house hh).image = some (w, true)) : exec (.saveDone hh cause) s =
    .next (s.keepQueue (if cause = 0 then s.saveImage hh w else s.migrated hh (migrationWord 5 cause 0))) := by
  rw [exec_saveDone, execSaveDone, onUnits_of _ _ _ (by rw [hhouse, hcause]; rfl), himage, hsilent]
  rfl

theorem exec_restoreDone_of (himage : (s.house hh).image = some (w, false)) : exec (.restoreDone hh cause) s =
    .next (s.keepQueue (if cause = 0 then s.restoreImage hh w else s.migrated hh (migrationWord 5 cause 0))) := by
  rw [exec_restoreDone, execRestoreDone, onUnits_of _ _ _ (by rw [hhouse, hcause]; rfl), himage, hsilent]
  rfl

end

/-! ### The image is written (R279, R280) -/

theorem State.migrated_house_of_ne (s : State) (hh : Nat) (word : W32)
    (h : { s.house hh with image := none, migration := word } ≠ ({} : Household)) :
    (s.migrated hh word).house hh = { s.house hh with image := none, migration := word } := State.house_modHouse_of_ne _ _ _ h

/-- The image that SAVE writes: the header, the ciphertext and the tag (R279). -/
def State.imageOf (s : State) (hh : Nat) (key nonce : List Byte) : List Byte :=
  s.imageHeader hh nonce ++ (Config.gcmSeal key nonce (s.imageHeader hh nonce) (s.imageBody hh)).1 ++
    (Config.gcmSeal key nonce (s.imageHeader hh nonce) (s.imageBody hh)).2

section

variable {s : State} {hh : Nat} {w : W64} {key : List Byte} (hkey : s.migrationKey hh = some key)
  (hst : (s.house hh).st = .frozen) (hlink : s.hostLink (imageHall w) = true)
include hkey hst hlink

theorem State.saveImage_eq : s.saveImage hh w =
    (s.draw.2.emit (.hostWrite (imageHall w) (imageAddr w) none (s.draw.2.imageOf hh key (Config.random s.draw.1 12)))).migrated hh
      (migrationWord 2 0 0) := by
  simp only [State.saveImage, hkey, hst, hlink, bne_self_eq_false, Bool.not_true, Bool.false_eq_true, if_false]
  rfl

/-- The image leaves in one piece, and the job is over (R280). -/
theorem State.saveImage_spec : ∃ nonce, ((s.saveImage hh w).house hh).image = none ∧
    ((s.saveImage hh w).house hh).migration = migrationWord 2 0 0 ∧ (s.saveImage hh w).rooms = s.rooms ∧
    (s.saveImage hh w).contexts = s.contexts ∧
    (s.saveImage hh w).out = s.out ++ [.hostWrite (imageHall w) (imageAddr w) none (s.draw.2.imageOf hh key nonce)] := by
  refine ⟨Config.random s.draw.1 12, ?_⟩
  rw [State.saveImage_eq hkey hst hlink]
  generalize s.draw.2.imageOf hh key _ = image
  have hhouse := State.migrated_house_of_ne (s.draw.2.emit (.hostWrite (imageHall w) (imageAddr w) none image)) hh
    (migrationWord 2 0 0) (Household.ne_default_of_st (hst.symm ▸ HouseState.noConfusion))
  exact ⟨congrArg Household.image hhouse, congrArg Household.migration hhouse, rfl, rfl, rfl⟩

end

/-! ### The household is loaded (R280) -/

/-- STATE of a MIGRATION word is that with which it was made. -/
theorem migrationWord_loaded {first : Nat} (h : first < 4096) :
    bitsOf (migrationWord 4 0 first).toNat 23 20 = 4 ∧ migrationWord 4 0 first ≠ migrationWord 0 0 0 := by
  have hword : (migrationWord 4 0 first).toNat = 0x01400000 + first := by
    rw [migrationWord, BitVec.toNat_ofNat]
    omega
  refine ⟨?_, fun hnone => ?_⟩
  · rw [hword, bitsOf, Nat.shiftRight_eq_div_pow]
    omega
  · have hzero : (migrationWord 0 0 0).toNat = 0x01000000 := by decide
    rw [← hnone, hword] at hzero
    omega

/-- A household that is loaded tells it in MIGRATION, with its first context (R280). -/
theorem State.eq_migrated_of_loadHousehold {s t : State} {hh nctx : Nat} {body : List Byte}
    (h : s.loadHousehold hh nctx body = .ok t) : ∃ u first, first < 4096 ∧ t = State.migrated u hh (migrationWord 4 0 first) := by
  unfold State.loadHousehold at h
  dsimp only at h
  split at h
  · cases h
  · split at h
    · cases h
    · injection h with ht
      refine ⟨_, _, ?_, ht.symm⟩
      split
      · decide
      · have hfree : ∀ l : List Nat, (∀ c ∈ l, c < 4096) → l.getD 0 0 < 4096 := by
          rintro (_ | ⟨c, l⟩) hl
          · decide
          · exact hl c List.mem_cons_self
        exact hfree _ fun c hc => List.mem_range.1 (List.mem_filter.1 hc).1

theorem State.loadHousehold_spec {s t : State} {hh nctx : Nat} {body : List Byte} (h : s.loadHousehold hh nctx body = .ok t) :
    (t.house hh).image = none ∧ bitsOf (t.house hh).migration.toNat 23 20 = 4 := by
  obtain ⟨u, first, hfirst, rfl⟩ := State.eq_migrated_of_loadHousehold h
  obtain ⟨hstate, hword⟩ := migrationWord_loaded hfirst
  rw [State.migrated_house_of_ne u hh (migrationWord 4 0 first) fun hdefault => hword (congrArg Household.migration hdefault)]
  exact ⟨rfl, hstate⟩

/-- A RESTORE whose header and rest have arrived, and whose image opens, loads the household. -/
theorem State.restoreImage_of_ok {s s1 s2 t u : State} {hh : Nat} {w : W64} {key header rest body : List Byte}
    (hheader : s.hostFetch (imageHall w) (imageAddr w) 64 = (.ok header, s1)) (hversion : fieldOf header 0 1 = 1)
    (hform : fieldOf header 1 1 = 1) (hsuites : fieldOf header 2 2 = (s.imageSuites hh).length) (hlen : 80 ≤ fieldOf header 8 8)
    (hrest : s.hostFetch (imageHall w) (imageAddr w + 64) (fieldOf header 8 8 - 64) = (.ok rest, s2))
    (hu : u = { s2 with hostReads := removeFirst (fun x => x.is (imageHall w) (imageAddr w) 64 && x.ctx.isNone) s2.hostReads })
    (hkey : u.migrationKey hh = some key)
    (hopen : Config.gcmOpen key ((header.drop 40).take 12) header (rest.take (fieldOf header 8 8 - 80))
      (rest.drop (fieldOf header 8 8 - 80)) = some body)
    (hload : u.loadHousehold hh (fieldOf header 4 2) body = .ok t) : s.restoreImage hh w = t := by
  simp only [State.restoreImage, hheader, hversion, hform, hsuites, hrest, Nat.not_lt.2 hlen, ← hu, hkey, Option.bind_some, hopen, hload,
    bne_self_eq_false, Bool.or_self, decide_false, Bool.false_eq_true, if_false]

/-! ### RELEASE (R374) -/

theorem actRelease_eq {s : State} {n : Nat} (hactive : s.houseActive (s.suite n).owner = true) (hheld : (s.suite n).held ≠ 0) :
    actRelease n 1 s = .ok (s.modSuite n ({ · with held := 0 }), true) := by
  refine judged_of ?_ _ _
  rw [State.awake_of hactive, must_of (bne_iff_ne.2 hheld)]
  rfl

/-! ### The statement -/

/-- Settles O44: the commands by their checks, the ends of SAVE and RESTORE by what the image and the load come to. -/
theorem freezeAndMigrate : Obligations.FreezeAndMigrate := by
  unfold Obligations.FreezeAndMigrate
  intro s s1 s2 u t' q hh n cause w key header rest body hhouse
  refine ⟨fun hserved => ⟨fun hst => ⟨exec_atFreezePoint_of hhouse hserved hst, exec_atNextBoundary_of hhouse hserved hst,
      fun hcontexts => ⟨?atPoint, fun hsuites => ?atBoundary⟩⟩, exec_thaw_of hhouse hserved, exec_thaw_of_closed hhouse hserved⟩,
    fun halarm hkeys himage => ⟨fun hserved hst hkey => ?save, fun hserved hst hcontexts => ?restore⟩,
    fun hcause hsilent => ⟨fun himage => ⟨exec_saveDone_of_none hhouse hcause himage, exec_restoreDone_of_none hhouse hcause himage⟩,
      fun himage hfailed => ?saveFailed, fun himage hfailed => ?restoreFailed,
      fun himage => ⟨exec_saveDone_of hhouse rfl hsilent himage, fun hkey hst hlink => ?saved⟩,
      fun himage => ⟨exec_restoreDone_of hhouse rfl hsilent himage,
        fun hheader hversion hform hsuites hlen hrest hu hkey hopen hload => ?restored⟩⟩,
    fun hsuite hserved hactive hheld => ?release⟩
  case atPoint => exact State.frozenAt_answered (State.freezeAtPoint_of_empty hcontexts) (exec_atFreezePoint_of hhouse hserved hst)
  case atBoundary =>
    exact State.frozenAt_answered (State.freezeNow_of_empty hcontexts hsuites) (exec_atNextBoundary_of hhouse hserved hst)
  case save =>
    rw [exec_save, execSave]
    exact onUnits_download_answered hhouse (by rwa [leBytes_length]) (actSave_eq halarm hkeys himage hst hkey)
  case restore =>
    rw [exec_restore, execRestore]
    exact onUnits_download_answered hhouse (by rwa [leBytes_length]) (actRestore_eq halarm hkeys himage hst hcontexts)
  case saveFailed => rw [exec_saveDone_of hhouse hcause hsilent himage, if_neg hfailed]
  case restoreFailed => rw [exec_restoreDone_of hhouse hcause hsilent himage, if_neg hfailed]
  case saved =>
    obtain ⟨nonce, hsaved⟩ := State.saveImage_spec hkey hst hlink
    exact ⟨_, nonce, exec_saveDone_of hhouse rfl hsilent himage, hsaved⟩
  case restored =>
    rw [exec_restoreDone_of hhouse rfl hsilent himage, if_pos rfl,
      State.restoreImage_of_ok hheader hversion hform hsuites hlen hrest hu hkey hopen hload]
    exact ⟨rfl, State.loadHousehold_spec hload⟩
  case release =>
    rw [exec_release, execRelease]
    exact onUnits_download_answered hsuite hserved (actRelease_eq hactive hheld)

end Sys2Proof.Machine
end

section
/-! PROOF. Downloads (R289, R290, R293): the order of their checks, and the refusals that are withheld. -/

namespace Sys2Proof.Machine

open Sys2Proof.Safety

section

variable {s : State} {q : Chan} {i sub : Nat} {data : List Byte} {act : Act}

theorem State.download_of_dead (h : s.asleep = true ∨ s.chanDead q = true) : s.download q i sub data act = s :=
  if_pos (Bool.or_eq_true_iff.2 h)

variable (hawake : s.asleep = false) (hlive : s.chanDead q = false)
include hawake hlive

theorem State.download_of_gate {c : Nat} (h : s.gate q i sub true = some c) :
    s.download q i sub data act = s.refuse q i sub c := by
  simp only [State.download, hawake, hlive, h, Bool.or_self, Bool.false_eq_true, if_false]

theorem State.download_of_length (hgate : s.gate q i sub true = none)
    (h : ((object? i sub).map (·.len.accepts data.length)).getD false = false) :
    s.download q i sub data act = s.refuse q i sub abLength := by
  simp only [State.download, hawake, hlive, hgate, h, Bool.or_self, Bool.false_eq_true, if_false, Bool.not_false, if_true]

end

/-! ### Refusals (R290) -/

theorem State.refuse_notPermitted (s : State) (q : Chan) (i sub : Nat) : s.refuse q i sub abNotPermitted =
    { s with withheld := s.withheld ++ [{ chan := q, index := i, sub, arrived := s.time }] } := if_pos rfl

theorem State.refuse_of_ne {c : Nat} (hc : c ≠ abNotPermitted) (s : State) (q : Chan) (i sub : Nat) :
    s.refuse q i sub c = s.reply q i sub c [] := if_neg hc

theorem State.reply_withheld (s : State) (q : Chan) (i sub code : Nat) (data : List Byte) :
    (s.reply q i sub code data).withheld = s.withheld := by
  obtain ⟨_, _, h⟩ := s.reply_frame q i sub code data
  rw [h]

/-- Settles O35: each check by the branch that it takes, and the object's own checks by what a served download answers. -/
theorem downloadOrder : Obligations.DownloadOrder := by
  unfold Obligations.DownloadOrder
  intro s t q i sub c data act now
  refine ⟨State.download_of_dead, fun hawake hlive => ⟨State.download_of_gate hawake hlive,
    State.download_of_length hawake hlive, fun _ hserved => ⟨served_refused s q i sub c data act hserved,
      served_done s t q i sub data act hserved, fun hact => ?later⟩⟩, fun hc => ?answered, ?withheld⟩
  case later => rw [served_download s q i sub data act hserved, hact]; rfl
  case answered => rw [State.refuse_of_ne hc, State.reply_withheld]
  case withheld => exact congrArg State.withheld (s.refuse_notPermitted q i sub)

end Sys2Proof.Machine
end

section
/-! PROOF. The CAN FD device of a Hall (R296, R297, R442). -/

namespace Sys2Proof.Machine

theorem onUnits_of_pending {wf : Bool} {s t : State} (hwf : wf = true) (h : t.pending = s.pending) :
    onUnits wf s t = .next t := by rw [onUnits_of _ _ _ hwf, State.keepQueue_of _ _ h]

section

variable {s : State} {h : Nat} (hhall : isHall h = true)
include hhall

theorem exec_nmtReset_of (hawake : s.asleep = false) (hsilent : s.failSilent = false) (hstage : 2 ≤ (s.hall h).up.stage)
    {i : Instr} (hi : i = .nmtResetApplication h ∨ i = .nmtResetCommunication h) :
    exec i s = .next (s.keepQueue (((s.modHall h fun x => { x with
      can := .active, nmt := .preOperational, sessions := x.sessions.filter fun y => !isCan y.chan }).emit
        (.canBootUp h)).refresh)) := by
  have hreset : exec i s = .next (s.keepQueue (s.resetCan h)) := by
    obtain rfl | rfl := hi
    · rw [exec_nmtResetApplication, execNmtResetApplication, onUnits_of _ _ _ hhall]
    · rw [exec_nmtResetCommunication, execNmtResetCommunication, onUnits_of _ _ _ hhall]
  rw [hreset, State.resetCan, if_neg (by simp only [hawake, hsilent, Nat.not_lt.2 hstage]; decide)]

theorem exec_nmtStateCommand_of (halive : s.canAlive h = true) (hsilent : s.failSilent = false) (st : NmtState) :
    exec (.nmtStateCommand h st) s = .next (s.modHall h ({ · with nmt := st })) := by
  rw [exec_nmtStateCommand, execNmtStateCommand, if_pos (by rw [halive, hsilent]; rfl)]
  exact onUnits_of_pending hhall rfl

theorem exec_heartbeat_of_producing (halive : s.canAlive h = true) (htime : s.dictGet 0x1017 0 ≠ 0) :
    exec (.heartbeat h) s = .next (s.emit (.heartbeat h (s.hall h).nmt)) := by
  rw [exec_heartbeat, execHeartbeat, if_pos (by rw [halive, bne_iff_ne.2 htime]; rfl)]
  exact onUnits_of_pending hhall rfl

theorem exec_heartbeat_of_off (htime : s.dictGet 0x1017 0 = 0) : exec (.heartbeat h) s = .next s := by
  rw [exec_heartbeat, execHeartbeat, if_neg (by simp [htime])]
  exact onUnits_of_pending hhall rfl

theorem exec_canErrorState_of (hawake : s.asleep = false) (e : CanState) :
    exec (.canErrorState h e) s = .next (s.keepQueue ((s.modHall h ({ · with can := e })).refresh)) := by
  rw [exec_canErrorState, execCanErrorState, onUnits_of _ _ _ hhall, if_neg (by rw [hawake]; decide)]

end

/-- Settles O48: what each event of the CAN FD port does once its conditions hold. -/
theorem canDevice : Obligations.CanDevice := by
  unfold Obligations.CanDevice
  intro s h st e hhall hawake
  exact ⟨fun hsilent hstage _ hi => exec_nmtReset_of hhall hawake hsilent hstage hi,
    fun halive hsilent => exec_nmtStateCommand_of hhall halive hsilent st, exec_heartbeat_of_producing hhall,
    exec_heartbeat_of_off hhall, exec_canErrorState_of hhall hawake e⟩

end Sys2Proof.Machine
end

section
/-! PROOF. Uploads (R284, R286), the writes and reads of BAR0 that travel with REGISTER_WRITE (R196, R197, log entry 87), and the
answers that time brings (R290, R298). -/

namespace Sys2Proof.Machine

open Sys2Proof.Safety

/-! ### Uploads (R284, R286) -/

section

variable {s t : State} {q : Chan} {i sub c : Nat} {b : List Byte}

theorem State.readObject_of_unreadable (hsub : sub ≠ 0xFF) (h : s.unreadable q i sub = some c) :
    s.readObject q i sub = (c, [], s) := by
  rw [State.readObject, if_neg (by simp [hsub]), h]

theorem State.readObject_index (hsingle : isSingle i = false) (hgate : s.gate q i 0 false = none) :
    s.readObject q i 0xFF = if ((s.beforeRead q i).wholeIndex q i).length ≤ 8192 then
      (0, (s.beforeRead q i).wholeIndex q i, s.beforeRead q i) else (abMemory, [], s) := by
  rw [State.readObject, if_pos (by rw [hsingle]; rfl), hgate]

theorem State.answer_mem_reply (s : State) (q : Chan) (i sub code : Nat) (data : List Byte) :
    Output.answer q i sub code data ∈ (s.reply q i sub code data).out := by
  have hanswer : Output.answer q i sub code data ∈ (s.emit (.answer q i sub code data)).out := List.mem_concat_self
  cases q with
  | window | own => exact hanswer
  | can | tunnel => exact List.mem_append_left _ hanswer

variable (hawake : s.asleep = false) (hlive : s.chanDead q = false)
include hawake hlive

theorem State.read_of_ok (h : s.readObject q i sub = (0, b, t)) : s.read q i sub = t.reply q i sub 0 b := by
  rw [State.read, if_neg (by rw [hawake, hlive]; decide), h]
  rfl

theorem State.read_of_refused (hc : c ≠ 0) (h : s.readObject q i sub = (c, b, t)) : s.read q i sub = t.refuse q i sub c := by
  rw [State.read, if_neg (by rw [hawake, hlive]; decide), h]
  split
  case h_1 heq => cases heq; exact absurd rfl hc
  case h_2 heq => cases heq; rfl

variable (hchan : isChan q = true)
include hchan

theorem exec_upload_of_ok (h : s.readObject q i sub = (0, b, t)) :
    exec (.upload q i sub) s = .next (s.keepQueue (t.reply q i sub 0 b)) := by
  rw [exec_upload, execUpload, onUnits_of _ _ _ hchan, State.read_of_ok hawake hlive h]

theorem exec_upload_of_unreadable (hsub : sub ≠ 0xFF) (hc : c ≠ 0) (h : s.unreadable q i sub = some c) :
    exec (.upload q i sub) s = .next (s.keepQueue (s.refuse q i sub c)) := by
  rw [exec_upload, execUpload, onUnits_of _ _ _ hchan,
    State.read_of_refused hawake hlive hc (State.readObject_of_unreadable hsub h)]

variable (hsingle : isSingle i = false) (hgate : s.gate q i 0 false = none)
include hsingle hgate

theorem exec_wholeIndexUpload_of_short (hlen : ((s.beforeRead q i).wholeIndex q i).length ≤ 8192) :
    exec (.wholeIndexUpload q i) s = .next (s.keepQueue
      ((s.beforeRead q i).reply q i 0xFF 0 ((s.beforeRead q i).wholeIndex q i))) := by
  rw [exec_wholeIndexUpload, execWholeIndexUpload, onUnits_of _ _ _ hchan,
    State.read_of_ok hawake hlive ((State.readObject_index hsingle hgate).trans (if_pos hlen))]

theorem exec_wholeIndexUpload_of_long (hlen : 8192 < ((s.beforeRead q i).wholeIndex q i).length) :
    exec (.wholeIndexUpload q i) s = .next (s.keepQueue (s.refuse q i 0xFF abMemory)) := by
  rw [exec_wholeIndexUpload, execWholeIndexUpload, onUnits_of _ _ _ hchan,
    State.read_of_refused hawake hlive (by decide) ((State.readObject_index hsingle hgate).trans (if_neg (Nat.not_le.2 hlen)))]

end

/-! ### REGISTER_WRITE (R196, R197, R299) -/

theorem State.writeUnits_nil (s : State) (h fuel off : Nat) : State.writeUnits h fuel off [] s = s := by
  cases fuel <;> rfl

/-- A write that ends within one unit of BAR0 is a write of that unit. -/
theorem State.writeUnits_of_fits (s : State) (h : Nat) {off : Nat} {b : List Byte} (hb : b ≠ [])
    (hfits : b.length ≤ unitEnd off - off) : State.writeUnits h b.length off b s = s.writeUnit h off b := by
  obtain ⟨x, xs, rfl⟩ := List.exists_cons_of_ne_nil hb
  rw [List.length_cons, State.writeUnits, if_neg (by simp)]
  dsimp only
  rw [List.take_of_length_le hfits, List.drop_of_length_le hfits, State.writeUnits_nil]

/-- GLOBAL_DROPS stands at 0x18 of the global registers (R197). -/
theorem State.bar0Byte_drops (s : State) (h : Nat) {k : Nat} (hk : k < 4) :
    s.bar0Byte h (0x18 + k) = (leBytes 4 (s.hall h).drops).getD k 0 := by interval_cases k <;> rfl

theorem State.map_bar0Byte_drops (s : State) (h : Nat) {n : Nat} (hn : n ≤ 4) :
    ((List.range n).map fun k => s.bar0Byte h (0x18 + k)) = (leBytes 4 (s.hall h).drops).take n := by
  refine List.ext_getElem (by simp [hn]) fun k hk hk' => ?_
  have hk4 : k < (leBytes 4 (s.hall h).drops).length := (List.length_take_le' _ _).trans_lt' hk'
  rw [List.getElem_map, List.getElem_range, State.bar0Byte_drops s h (by rwa [leBytes_length] at hk4),
    List.getD_eq_getElem _ _ hk4, List.getElem_take]

section

variable {s : State} {q : Chan} {h n : Nat} (hchan : isChan q = true) (hhall : isHall h = true)
include hchan hhall

theorem exec_registerWrite_frame (hqueue : isQueue n = true) (f : Frame) (data : List Byte) :
    exec (.registerWrite q (.frame h n f) data) s =
      .next (if s.hostServes h then s.modChannel h n ({ · with request := f }) else s) := by
  rw [exec_registerWrite, execRegisterWrite]
  refine onUnits_of_pending (by rw [hchan, isTarget, hhall, hqueue]; rfl) ?_
  split
  · rfl
  · rfl

theorem exec_registerWrite_bar4Base (hserves : s.hostServes h = true) {data : List Byte} (hdata : data ≠ [])
    (hlen : data.length ≤ 8) : exec (.registerWrite q (.bar0 h 0x20) data) s = .next (s.modHall h ({ · with
      bar4Base := patchNat 8 (s.hall h).bar4Base 0 data % 2 ^ 38 / 2 ^ s.bar4Log2 h * 2 ^ s.bar4Log2 h })) := by
  rw [exec_registerWrite, execRegisterWrite, State.writeBar0, if_pos hserves, State.writeUnits_of_fits s h hdata hlen]
  exact onUnits_of_pending (by rw [hchan, isTarget, hhall]; rfl) rfl

theorem exec_registerWrite_drops (hawake : s.asleep = false) (hlink : s.hostLink h = true) (hn : n ≤ 4) (data : List Byte) :
    exec (.registerWrite q (.bar0Read h 0x18 n) data) s = .next (s.emit (.hostAnswer h true false
      ((leBytes 4 (s.hall h).drops).take n))) := by
  rw [exec_registerWrite, execRegisterWrite, State.readBar0, if_neg (by rw [hawake, hlink]; decide), if_neg (by simp; omega),
    State.map_bar0Byte_drops s h hn]
  exact onUnits_of_pending (by rw [hchan, isTarget, hhall]; rfl) rfl

end

theorem exec_registerWrite_object {s t : State} {q : Chan} {i sub : Nat} {data : List Byte} (hserved : Served s q i sub data.length)
    (hact : actFor q i sub data s = .ok (t, true)) :
    exec (.registerWrite q (.object i sub) data) s = .next (s.keepQueue (answered s t q i sub)) := by
  rw [exec_registerWrite, execRegisterWrite]
  exact onUnits_download_answered rfl hserved hact

/-! ### The answers that time brings (R290, R298) -/

section

variable {s : State} {q : Chan} {x : Segments} (hchan : isChan q = true)
include hchan

theorem exec_segmentTimeout_of_none (h : s.session q = none) : exec (.segmentTimeout q) s = .next s := by
  rw [exec_segmentTimeout, execSegmentTimeout, h]
  exact onUnits_of_pending hchan rfl

variable (h : s.session q = some x)
include h

theorem exec_segmentTimeout_of_early (htime : s.time < x.last + 1000000000) : exec (.segmentTimeout q) s = .next s := by
  rw [exec_segmentTimeout, execSegmentTimeout, h]
  dsimp only
  rw [if_pos htime]
  exact onUnits_of_pending hchan rfl

theorem exec_segmentTimeout_of_due (htime : x.last + 1000000000 ≤ s.time) : exec (.segmentTimeout q) s =
    .next (s.keepQueue ((s.endSession q).reply q x.index x.sub abTimeout [])) := by
  rw [exec_segmentTimeout, execSegmentTimeout, h]
  dsimp only
  rw [if_neg (Nat.not_lt.2 htime), onUnits_of _ _ _ hchan]

end

section

variable {s : State} {n : Nat} {w : Withheld}

theorem exec_notPermittedAnswer_of_none (h : s.withheld[n]? = none) : exec (.notPermittedAnswer n) s = .next s := by
  rw [exec_notPermittedAnswer, execNotPermittedAnswer, h]
  exact onUnits_of_pending rfl rfl

variable (h : s.withheld[n]? = some w)
include h

theorem exec_notPermittedAnswer_of_early (htime : s.time < w.arrived + 50000) : exec (.notPermittedAnswer n) s = .next s := by
  rw [exec_notPermittedAnswer, execNotPermittedAnswer, h]
  dsimp only
  rw [if_pos htime]
  exact onUnits_of_pending rfl rfl

theorem exec_notPermittedAnswer_of_due (htime : w.arrived + 50000 ≤ s.time) : exec (.notPermittedAnswer n) s =
    .next (s.keepQueue ((State.reply { s with withheld := s.withheld.take n ++ s.withheld.drop (n + 1) } w.chan w.index w.sub
      abNotPermitted []).bump 0x2900 5 32)) := by
  rw [exec_notPermittedAnswer, execNotPermittedAnswer, h]
  dsimp only
  rw [if_neg (Nat.not_lt.2 htime), onUnits_next]

end

end Sys2Proof.Machine
end

section
/-! PROOF. Frames (R296, R301) of the window, of CAN FD and of tunnels (R299, R300, R302), and the statement on the channels of the
dictionary. -/

namespace Sys2Proof.Machine

open Sys2Proof.Safety

/-! ### Frames that belong to no transfer (R301) -/

/-- A frame that asks for nothing is refused. -/
theorem State.serve_of_no_request (s : State) (q : Chan) {e : Frame} {data : List Byte}
    (he : e ∈ [Frame.empty, .reply data, .broadcast, .routed]) : s.serve q e = s.refuseFrame q abCommand := by
  simp only [List.mem_cons, List.not_mem_nil, or_false] at he
  obtain rfl | rfl | rfl | rfl := he <;> rfl

theorem State.refuseFrame_frame (s : State) (q : Chan) (code : Nat) : (s.refuseFrame q code).rooms = s.rooms ∧
    (s.refuseFrame q code).suites = s.suites ∧ (s.refuseFrame q code).dict = s.dict := by
  obtain ⟨_, _, h⟩ := s.reply_frame q 0 0 code []
  rw [State.refuseFrame, h]
  exact ⟨rfl, rfl, rfl⟩

/-! ### The window of BAR0 (R300 to R302) -/

theorem State.channel_modChannel_of_ne {s : State} {h n : Nat} {f : WindowChannel → WindowChannel}
    (hf : f (Store.get {} (s.hall h).channels n) ≠ {}) :
    Store.get {} ((s.modChannel h n f).hall h).channels n = f (Store.get {} (s.hall h).channels n) := by
  have hchannel := Store.get_set_self_of_ne {} (s.hall h).channels n _ hf
  have hhall : (s.modChannel h n f).hall h =
      { s.hall h with channels := Store.set {} (s.hall h).channels n (f (Store.get {} (s.hall h).channels n)) } :=
    Store.get_set_self_of_ne ({} : Hall) s.halls h _ fun heq =>
      hf (hchannel.symm.trans (congrArg (fun x : Hall => Store.get {} x.channels n) heq))
  rw [hhall, hchannel]

/-- A response ends the request that its channel holds (R301). -/
theorem State.channel_replyFrame_of_busy {s : State} {h n : Nat} (hbusy : (Store.get {} (s.hall h).channels n).busy = true)
    (f : Frame) : Store.get {} ((s.replyFrame (.window h n) f).hall h).channels n = { Store.get {} (s.hall h).channels n with
      response := f, busy := false, done := true, tunnelAt := none, tunnelPort := none } := by
  rw [State.replyFrame, State.channel_modChannel_of_ne, if_pos hbusy]
  rw [if_pos hbusy]
  exact fun heq => Bool.noConfusion (congrArg WindowChannel.done heq)

/-- The channel whose request has been copied at GO (R301). -/
def WindowChannel.going (ch : WindowChannel) : WindowChannel :=
  { ch with copied := ch.request, busy := true, done := false, lost := false }

section

variable {s : State} {h n : Nat} {ch : WindowChannel} (hch : ch = Store.get {} (s.hall h).channels n)
  (hserves : s.hostServes h = true)
include hch hserves

theorem State.windowGo_of_busy (hbusy : ch.busy = true) : s.windowGo h n = s.bump 0x2900 6 32 := by
  subst hch
  rw [State.windowGo, if_neg (by rw [hserves]; decide), if_pos hbusy]

variable (hidle : ch.busy = false)
include hidle

theorem State.windowGo_of_idle : s.windowGo h n =
    if ctlRemote ch.control && !(ctlPlane ch.control == s.plane && ctlNode ch.control == s.node) then
      (if frameInitiates ch.request then (s.modChannel h n fun _ => ch.going).displace (.window h n)
        else s.modChannel h n fun _ => ch.going).tunnelOut h n ch.going
    else (s.modChannel h n fun _ => ch.going).serve (.window h n) ch.request := by
  subst hch
  rw [State.windowGo, if_neg (by rw [hserves]; decide), if_neg (by rw [hidle]; decide)]
  rfl

theorem State.windowGo_of_own (hown : ctlRemote ch.control = false ∨ ctlPlane ch.control = s.plane ∧ ctlNode ch.control = s.node) :
    s.windowGo h n = (s.modChannel h n fun _ => ch.going).serve (.window h n) ch.request := by
  rw [State.windowGo_of_idle hch hserves hidle, if_neg]
  obtain hlocal | ⟨hplane, hnode⟩ := hown
  · simp [hlocal]
  · simp [hplane, hnode]

theorem State.windowGo_of_remote (hremote : ctlRemote ch.control = true)
    (hother : ¬ (ctlPlane ch.control = s.plane ∧ ctlNode ch.control = s.node)) :
    s.windowGo h n = (if frameInitiates ch.request then (s.modChannel h n fun _ => ch.going).displace (.window h n)
      else s.modChannel h n fun _ => ch.going).tunnelOut h n ch.going := by
  rw [State.windowGo_of_idle hch hserves hidle, if_pos]
  simpa [hremote, imp_iff_not_or] using hother

/-- GO of an empty request frame is answered at once (R301). -/
theorem State.windowGo_empty (hown : ctlRemote ch.control = false ∨ ctlPlane ch.control = s.plane ∧ ctlNode ch.control = s.node)
    (hempty : ch.request = .empty) : (s.windowGo h n).rooms = s.rooms ∧ (s.windowGo h n).suites = s.suites ∧
      (s.windowGo h n).dict = s.dict ∧ Store.get {} ((s.windowGo h n).hall h).channels n =
        { ch with copied := .empty, response := .abort abCommand, busy := false, done := true, lost := false
                  tunnelAt := none, tunnelPort := none } := by
  have hgo : s.windowGo h n = (s.modChannel h n fun _ => ch.going).refuseFrame (.window h n) abCommand := by
    rw [State.windowGo_of_own hch hserves hidle hown, hempty]
    rfl
  obtain ⟨hrooms, hsuites, hdict⟩ := State.refuseFrame_frame (s.modChannel h n fun _ => ch.going) (.window h n) abCommand
  have hgoing : Store.get {} (((s.modChannel h n fun _ => ch.going).emit
      (.answer (.window h n) 0 0 abCommand [])).hall h).channels n = ch.going := by
    rw [State.hall_emit]
    exact State.channel_modChannel_of_ne fun heq => Bool.noConfusion (congrArg WindowChannel.busy heq)
  have hanswered := State.channel_replyFrame_of_busy (congrArg WindowChannel.busy hgoing) (.abort abCommand)
  rw [hgoing] at hanswered
  rw [hgo]
  exact ⟨hrooms, hsuites, hdict, hanswered.trans (by rw [← hempty]; rfl)⟩

end

section

variable {s : State} {h n : Nat} (hhall : isHall h = true) (hqueue : isQueue n = true)
include hhall hqueue

theorem exec_windowGo_of : exec (.windowGo h n) s = .next (s.keepQueue (s.windowGo h n)) := by
  rw [exec_windowGo, execWindowGo, onUnits_of _ _ _ (by rw [hhall, hqueue]; rfl)]

theorem exec_windowGo_of_not_served (hserves : s.hostServes h = false) : exec (.windowGo h n) s = .next s := by
  rw [exec_windowGo_of hhall hqueue, State.windowGo, if_pos (by rw [hserves]; rfl), State.keepQueue_self]

theorem exec_tunnelTimeout_of_none (hnone : (Store.get {} (s.hall h).channels n).tunnelAt = none) :
    exec (.tunnelTimeout h n) s = .next s := by
  rw [exec_tunnelTimeout, execTunnelTimeout, hnone]
  exact onUnits_of_pending (by rw [hhall, hqueue]; rfl) rfl

variable {t : Nat} (hsent : (Store.get {} (s.hall h).channels n).tunnelAt = some t)
include hsent

theorem exec_tunnelTimeout_of_early (htime : s.time < t + 10000000) : exec (.tunnelTimeout h n) s = .next s := by
  rw [exec_tunnelTimeout, execTunnelTimeout, hsent]
  dsimp only
  rw [if_pos htime]
  exact onUnits_of_pending (by rw [hhall, hqueue]; rfl) rfl

theorem exec_tunnelTimeout_of_due (htime : t + 10000000 ≤ s.time) :
    exec (.tunnelTimeout h n) s = .next (s.keepQueue (s.reply (.window h n) 0 0 abTimeout [])) := by
  rw [exec_tunnelTimeout, execTunnelTimeout, hsent]
  dsimp only
  rw [if_neg (Nat.not_lt.2 htime), onUnits_of _ _ _ (by rw [hhall, hqueue]; rfl)]

end

/-! ### CAN FD frames (R296, R297) -/

section

variable {s : State} {h node : Nat} {f : Frame} (hhall : isHall h = true) (hnode : isNode node = true)
include hhall hnode

theorem exec_usdoFrame_of_alive (halive : s.canAlive h = true) (hnmt : (s.hall h).nmt ≠ .stopped) :
    exec (.usdoFrame h node f) s = .next (s.keepQueue (s.serve (.can h node) f)) := by
  rw [exec_usdoFrame, execUsdoFrame, onUnits_of _ _ _ (by rw [hhall, hnode]; rfl),
    if_pos (by rw [halive, bne_iff_ne.2 hnmt]; rfl)]

theorem exec_usdoFrame_of_stopped (hnmt : (s.hall h).nmt = .stopped) (hsilent : s.failSilent = false) :
    exec (.usdoFrame h node f) s = .next s := by
  rw [exec_usdoFrame, execUsdoFrame, if_neg (by simp [hnmt, hsilent])]
  exact onUnits_of_pending (by rw [hhall, hnode]; rfl) rfl

theorem exec_usdoFrame_of_dead (halive : s.canAlive h = false) : exec (.usdoFrame h node f) s = .next s := by
  rw [exec_usdoFrame, execUsdoFrame, if_neg (by simp [halive])]
  exact onUnits_of_pending (by rw [hhall, hnode]; rfl) rfl

end

/-! ### Tunnelled requests (R302, R303) -/

section

variable {s : State} {plane node hh : Nat} {f : Frame} (hawake : s.asleep = false) (hsilent : s.failSilent = false)
include hawake hsilent

theorem exec_tunnelRequest_of_version {version : Nat} (hversion : 1 < version) : exec (.tunnelRequest version plane node hh f) s =
    .next (s.keepQueue (s.replyFrame (.tunnel plane node hh) (.abort abRange))) := by
  rw [exec_tunnelRequest, execTunnelRequest, onUnits_next]
  dsimp only
  rw [if_neg (by rw [hawake, hsilent]; decide), if_pos hversion]

theorem exec_tunnelRequest_of_admitted (hadmits : s.tunnelAdmits plane node hh = true) :
    exec (.tunnelRequest 1 plane node hh f) s = .next (s.keepQueue (s.serve (.tunnel plane node hh) f)) := by
  rw [exec_tunnelRequest, execTunnelRequest, onUnits_next]
  dsimp only
  rw [if_neg (by rw [hawake, hsilent]; decide), if_neg (Nat.lt_irrefl 1), if_neg (by rw [hadmits]; decide)]

theorem exec_tunnelRequest_of_kept_out (hadmits : s.tunnelAdmits plane node hh = false) :
    exec (.tunnelRequest 1 plane node hh f) s = .next (s.keepQueue
      (s.refuse (.tunnel plane node hh) (frameNames f).1 (frameNames f).2 abNotPermitted)) := by
  rw [exec_tunnelRequest, execTunnelRequest, onUnits_next]
  dsimp only
  rw [if_neg (by rw [hawake, hsilent]; decide), if_neg (Nat.lt_irrefl 1), if_pos (by rw [hadmits]; rfl)]

end

/-! ### The statement -/

/-- Settles O47: each command by the branch that its state selects, and frames that ask for nothing by their refusal. -/
theorem channelCommands : Obligations.ChannelCommands := by
  unfold Obligations.ChannelCommands
  intro s t q i sub c h n node data b f x ch w plane nd hh
  refine ⟨exec_registerWrite_object, fun hchan hhall hqueue => exec_registerWrite_frame hchan hhall hqueue f data,
    fun hchan hhall hserves hdata hlen => exec_registerWrite_bar4Base hchan hhall hserves hdata hlen,
    fun hchan hhall hawake hlink hn => exec_registerWrite_drops hchan hhall hawake hlink hn data,
    fun hchan hawake hlive => ⟨fun _ hread => ⟨exec_upload_of_ok hawake hlive hchan hread,
        _, exec_upload_of_ok hawake hlive hchan hread, t.answer_mem_reply q i sub 0 b⟩,
      exec_upload_of_unreadable hawake hlive hchan, exec_wholeIndexUpload_of_short hawake hlive hchan,
      exec_wholeIndexUpload_of_long hawake hlive hchan⟩,
    fun hhall hqueue hch => ⟨exec_windowGo_of_not_served hhall hqueue, fun hserves hbusy => ?busy,
      fun hserves hidle hown => ⟨?own, fun hempty => ⟨_, exec_windowGo_of hhall hqueue,
        State.windowGo_empty hch hserves hidle hown hempty⟩⟩,
      fun hserves hidle hremote hother ht => ?remote, ?unsent, ?sent⟩,
    fun hhall hnode => ⟨fun halive hnmt => ⟨exec_usdoFrame_of_alive hhall hnode halive hnmt, fun e he => ?usdo⟩,
      fun _ => exec_usdoFrame_of_stopped hhall hnode, exec_usdoFrame_of_dead hhall hnode⟩,
    fun hawake hsilent => ⟨fun hadmits => ⟨exec_tunnelRequest_of_admitted hawake hsilent hadmits, fun e he => ?tunnel⟩,
      exec_tunnelRequest_of_kept_out hawake hsilent, exec_tunnelRequest_of_version hawake hsilent (by decide)⟩,
    fun hchan => ⟨exec_segmentTimeout_of_none hchan, exec_segmentTimeout_of_early hchan, exec_segmentTimeout_of_due hchan⟩,
    exec_notPermittedAnswer_of_none,
    fun hw => ⟨exec_notPermittedAnswer_of_early hw, exec_notPermittedAnswer_of_due hw⟩⟩
  case busy => rw [exec_windowGo_of hhall hqueue, State.windowGo_of_busy hch hserves hbusy]
  case own =>
    rw [exec_windowGo_of hhall hqueue, State.windowGo_of_own hch hserves hidle hown]
    rfl
  case remote =>
    rw [exec_windowGo_of hhall hqueue, State.windowGo_of_remote hch hserves hidle hremote hother, ht]
    rfl
  case unsent =>
    subst hch
    exact exec_tunnelTimeout_of_none hhall hqueue
  case sent =>
    subst hch
    exact fun t0 hsent => ⟨exec_tunnelTimeout_of_early hhall hqueue hsent, exec_tunnelTimeout_of_due hhall hqueue hsent⟩
  case usdo =>
    refine ⟨_, exec_usdoFrame_of_alive hhall hnode halive hnmt, ?_⟩
    rw [s.serve_of_no_request _ he]
    exact ⟨List.mem_concat_self, s.refuseFrame_frame (.can h node) abCommand⟩
  case tunnel =>
    refine ⟨_, exec_tunnelRequest_of_admitted hawake hsilent hadmits, ?_⟩
    rw [s.serve_of_no_request _ he]
    exact ⟨List.mem_concat_self, s.refuseFrame_frame (.tunnel plane nd hh) abCommand⟩

end Sys2Proof.Machine
end

section
/-! PROOF. SLEEP, the wakes and the thermal shutdown (R307, R310 to R312, R325, R326). -/

namespace Sys2Proof.Machine

open Sys2Proof.Safety

/-! ### Entering SLEEP (R310) -/

/-- The module in SLEEP, before a wake that is pending already: what the Hearths keep, and the wake settings that they watch. -/
def State.laidDown (s : State) (thermal : Bool) : State :=
  let t := State.rebooted { s with power := { s.power with sleepAt := s.time } } 0 1
  { t with dict := s.dict, faultPin := t.faultPin || thermal, power := { t.power with st := .sleep, thermalShutdown := thermal } }

/-- Without a pending wake source the module stays in SLEEP. -/
theorem State.enterSleep_of_quiet {s : State} (hseen : s.power.wakeSeen = 0) (halarm : s.alarmDue = false) (thermal : Bool) :
    s.enterSleep thermal = s.laidDown thermal := by
  have hnone : s.dictGet 0x2401 3 % 8 &&& s.power.wakeSeen = 0 := by rw [hseen, Nat.and_zero]
  have hquiet : (s.laidDown thermal).alarmDue = false := halarm
  unfold State.enterSleep
  simp only [hnone, if_true]
  exact if_pos (by change (0 &&& 0 ||| if (s.laidDown thermal).alarmDue then 8 else 0) = 0; rw [hquiet]; rfl)

section

variable {s : State} {q : Chan}

theorem actSleep_of_idle (hhouses : ∀ e ∈ s.households, e.2.st ≠ .active) (hsuites : ∀ e ∈ s.suites, e.2.st = .free) :
    actSleep q 1 s = .ok ((s.reply q 0x2401 2 0 []).enterSleep false, false) := by
  have hnone : (s.households.any fun e => e.2.st == .active) = false := List.any_eq_false.2 fun e he => by simp [hhouses e he]
  have hfree : (s.suites.all fun e => e.2.st == .free) = true := List.all_eq_true.2 fun e he => by simp [hsuites e he]
  exact judged_of (by rw [hnone, hfree]; rfl) _ _

theorem actSleep_of_suite (h : ∃ e ∈ s.suites, e.2.st ≠ .free) : actSleep q 1 s = .error 0x08000022 := by
  obtain ⟨e, he, hst⟩ := h
  have hbusy : (s.suites.all fun e => e.2.st == .free) = false := List.all_eq_false.2 ⟨e, he, by simpa using hst⟩
  rw [actSleep, hbusy, Bool.and_false]
  rfl

variable (hserved : Served s q 0x2401 2 1)
include hserved

theorem exec_sleepRequest_of_suite (h : ∃ e ∈ s.suites, e.2.st ≠ .free) :
    exec (.sleepRequest q) s = .next (s.keepQueue (s.refuse q 0x2401 2 0x08000022)) := by
  rw [exec_sleepRequest, execSleepRequest, onUnits_of _ _ _ (served_isChan hserved),
    served_refused s q 0x2401 2 _ [1] _ hserved (actSleep_of_suite h)]

variable (hhouses : ∀ e ∈ s.households, e.2.st ≠ .active) (hsuites : ∀ e ∈ s.suites, e.2.st = .free)
include hhouses hsuites

theorem exec_sleepRequest_of_idle : exec (.sleepRequest q) s =
    .next (s.keepQueue (noted s ((s.reply q 0x2401 2 0 []).enterSleep false) q 0x2401 2)) := by
  rw [exec_sleepRequest, execSleepRequest, onUnits_of _ _ _ (served_isChan hserved),
    served_download s q 0x2401 2 [1] _ hserved, actSleep_of_idle hhouses hsuites]
  rfl

theorem exec_sleepRequest_sleeps (hseen : s.power.wakeSeen = 0) (halarm : s.alarmDue = false) :
    ∃ u, exec (.sleepRequest q) s = .next u ∧ u.power.st = .sleep ∧ u.power.sleepAt = s.time ∧
      u.power.thermalShutdown = false ∧ u.rooms = [] ∧ u.suites = [] ∧ u.hbm = [] := by
  refine ⟨_, exec_sleepRequest_of_idle hserved hhouses hsuites, ?_⟩
  obtain ⟨halls, out, hreply⟩ := s.reply_frame q 0x2401 2 0 []
  have hsleep := State.enterSleep_of_quiet (s := { s with halls, out }) hseen halarm false
  obtain ⟨_, hnoted⟩ := noted_frame s (State.laidDown { s with halls, out } false) q 0x2401 2
  rw [hreply, hsleep, hnoted]
  exact ⟨rfl, rfl, rfl, rfl, rfl, rfl⟩

end

/-! ### The wakes (R311, R312) -/

/-- The sources 1 to 3 are seen in one way, whichever pin or frame brings them. -/
theorem exec_wakeSource_of {h : Nat} (hh : isHall h = true) {i : Instr} {n : Nat}
    (hi : (i, n) ∈ [(Instr.wakePin, 1), (.canWakeFrame h, 2), (.pcieWake h, 3)]) :
    ∀ s, exec i s = .next (s.keepQueue (s.seeWake n)) := by
  intro s
  simp only [List.mem_cons, Prod.mk.injEq, List.not_mem_nil, or_false] at hi
  obtain ⟨rfl, rfl⟩ | ⟨rfl, rfl⟩ | ⟨rfl, rfl⟩ := hi
  · rw [exec_wakePin, execWakePin, onUnits_next]
  · rw [exec_canWakeFrame, execCanWakeFrame, onUnits_of _ _ _ hh]
  · rw [exec_pcieWake, execPcieWake, onUnits_of _ _ _ hh]

section

variable {s : State} {n : Nat}

theorem State.seeWake_of_sleep (h : s.power.st = .sleep) : s.seeWake n = if s.wakeEnabled n then s.wake n else s :=
  if_pos (by rw [h]; rfl)

theorem State.seeWake_of_up (h : s.power.st ≠ .sleep) : s.seeWake n = if !s.ready then s.joinWake n
    else { s with power := { s.power with wakeSeen := s.power.wakeSeen ||| 2 ^ (n - 1) } } := if_neg (by simpa using h)

/-- A wake reboots the module with a record of the sources that were pending, and counts itself. -/
theorem State.wake_spec (h : s.power.st = .sleep) (k : Nat) :
    (s.wake k).power.wakes = satAdd 32 s.power.wakes 1 ∧ (s.wake k).power.wakeAt = s.time ∧ (s.wake k).power.st = .powerUp ∧
      (s.alarmDue = false → (s.wake k).power.wakeRecord = wakeWord s.power.thermalShutdown (2 ^ (k - 1))) ∧
      (s.wake k).suites = [] ∧ (s.wake k).rooms = [] ∧ (s.wake k).time = s.time := by
  rw [State.wake, State.wakeWith, if_neg (by rw [h]; decide)]
  refine ⟨rfl, rfl, rfl, fun halarm => ?_, rfl, rfl, rfl⟩
  have hpending : 2 ^ (k - 1) ||| (if s.alarmDue then 8 else 0) = 2 ^ (k - 1) := by rw [halarm]; exact Nat.or_zero _
  exact congrArg (wakeWord s.power.thermalShutdown) hpending

theorem exec_of_hearthAlarm : exec .hearthAlarm s = .next (s.keepQueue (if s.alarmDue then s.wake 4 else s)) := by
  rw [exec_hearthAlarm, execHearthAlarm, onUnits_next]

theorem exec_thermalWake_of_other (h : s.power.thermalShutdown = false) : exec .thermalWake s = .next s := by
  rw [exec_thermalWake, execThermalWake, h]
  rfl

theorem exec_thermalWake_of_cool (h : s.power.thermalShutdown = true) (hdies : ∀ x ∈ s.dieTemps, x < 170)
    (hinlet : s.power.inlet < 120) : exec .thermalWake s = .next (s.keepQueue (s.wake 6)) := by
  have hcool : (s.dieTemps.all fun t => decide (t < 170)) = true := List.all_eq_true.2 fun x hx => decide_eq_true (hdies x hx)
  rw [exec_thermalWake, execThermalWake, onUnits_next, if_pos (by rw [h, hcool, decide_eq_true hinlet]; rfl)]

/-! ### Thermal shutdown (R325, R326) -/

theorem State.tooHot_of_inlet (hhot : s.power.hot = []) (h : 160 ≤ s.power.inlet) : s.tooHot = some (276, s.power.inlet) := by
  rw [State.tooHot, hhot]
  exact if_pos h

/-- The number of a stack's sensor reads the stack (log entry 88). -/
theorem State.reading_stack {f : Nat} (hf : isFloor f = true) : s.reading (272 + f) = (s.floor f).stackTemp := by
  have hlt : f < 4 := of_decide_eq_true hf
  rw [State.reading, if_neg (by omega), if_neg (by omega), if_pos (by omega), Nat.add_sub_cancel_left]

theorem State.tooHot_of_stack {f since : Nat} (hf : isFloor f = true) (hhot : s.power.hot = [(272 + f, some since)])
    (h : since + 10000 ≤ s.time) : s.tooHot = some (272 + f, (s.floor f).stackTemp) := by
  have hlong : s.power.hot.find? (fun e => (e.2.map fun t => decide (t + 10000 ≤ s.time)).getD false) =
      some (272 + f, some since) := by
    rw [hhot]
    exact List.find?_cons_of_pos (decide_eq_true h)
  rw [← State.reading_stack hf, State.tooHot, hlong]
  rfl

theorem exec_thermalShutdown_of_none (h : s.tooHot = none ∨ s.asleep = true) : exec .thermalShutdown s = .next s := by
  rw [exec_thermalShutdown, execThermalShutdown, onUnits_next]
  obtain h | h := h
  · rw [h]
    rfl
  · simp only [h, if_true]
    cases s.tooHot <;> rfl

variable {f : Nat} {temp : Int} {t : State} (hawake : s.asleep = false) (hhot : s.tooHot = some (f, temp))
  (ht : t = s.lastWord s.senior { cls := 5, code := 3, severity := 4, kind := 0, index := 0
                                  detail := Config.detail f temp.toNat, time := s.time })
include hawake hhot ht

theorem exec_thermalShutdown_of_hot : exec .thermalShutdown s = .next (s.keepQueue (t.enterSleep true)) := by
  rw [exec_thermalShutdown, execThermalShutdown, onUnits_next, hhot, ht]
  simp only [hawake, Bool.false_eq_true, if_false]

theorem exec_thermalShutdown_sleeps (hpower : t.power = s.power) (halarm : t.alarmDue = false) (hseen : s.power.wakeSeen = 0) :
    ∃ u, exec .thermalShutdown s = .next u ∧
      u.power.st = .sleep ∧ u.power.thermalShutdown = true ∧ u.faultPin = true ∧ u.suites = [] := by
  refine ⟨_, exec_thermalShutdown_of_hot hawake hhot ht, ?_⟩
  rw [State.enterSleep_of_quiet (hpower ▸ hseen) halarm]
  exact ⟨rfl, rfl, Bool.or_true _, rfl⟩

end

/-- Settles O54: SLEEP by its checks, each wake by the power state that it finds, and the shutdown by what is too hot. -/
theorem sleepAndWake : Obligations.SleepAndWake := by
  unfold Obligations.SleepAndWake
  intro s t q h f since temp hh
  refine ⟨fun hserved hhouses hsuites => ⟨exec_sleepRequest_of_idle hserved hhouses hsuites,
      exec_sleepRequest_sleeps hserved hhouses hsuites⟩, exec_sleepRequest_of_suite,
    fun i n hi => ⟨fun hst hon => ?enabled, fun hst hoff => ?disabled, fun hst hready => ?booting, fun hst hready => ?ready⟩,
    fun halarm => ?alarm, fun halarm => ?noAlarm, exec_thermalWake_of_cool, exec_thermalWake_of_other, State.wake_spec,
    State.tooHot_of_inlet, State.tooHot_of_stack, exec_thermalShutdown_of_none,
    fun hawake hhot ht => ⟨exec_thermalShutdown_of_hot hawake hhot ht, exec_thermalShutdown_sleeps hawake hhot ht⟩⟩
  case enabled => rw [exec_wakeSource_of hh hi, State.seeWake_of_sleep hst, if_pos hon]
  case disabled =>
    rw [exec_wakeSource_of hh hi, State.seeWake_of_sleep hst, if_neg (by rw [hoff]; decide)]
    rfl
  case booting => rw [exec_wakeSource_of hh hi, State.seeWake_of_up hst, if_pos (by rw [hready]; rfl)]
  case ready =>
    rw [exec_wakeSource_of hh hi, State.seeWake_of_up hst, if_neg (by rw [hready]; decide)]
    rfl
  case alarm => rw [exec_of_hearthAlarm, if_pos halarm]
  case noAlarm =>
    rw [exec_of_hearthAlarm, if_neg (by rw [halarm]; decide)]
    rfl

end Sys2Proof.Machine
end

section
/-! PROOF. The power controllers (R319 to R325, R331, R424): samples, the cap, the brakes, and the current and thermal limits. -/

namespace Sys2Proof.Machine

open Sys2Proof.Safety

/-! ### What the refresh leaves of a controller's outcome -/

theorem State.refresh_power (s : State) : s.refresh.power = s.power := by
  obtain ⟨⟨_, _, _, _, h, -⟩, -⟩ := s.refresh_frame
  rw [h]

/-- Where a command ends with the refresh, power, Rooms and memory stand as they stood before it, and the Floors run at their
lowest limits (R331). -/
theorem exists_of_refresh {s t : State} {o : Host.Outcome State Fault Refusal} (h : o = .next (s.keepQueue t.refresh)) :
    ∃ u, o = .next u ∧ u.power = t.power ∧ u.rooms = t.rooms ∧ u.hbm = t.hbm ∧
      (Store.wf ({} : Floor) t.floors = true → ∀ f, f < 4 → u.floor f = { t.floor f with applied := t.lowest f }) := by
  obtain ⟨-, -, -, hrooms, -, hhbm⟩ := t.refresh_fields
  have hpower := t.refresh_power
  have hfloors (hwf : Store.wf ({} : Floor) t.floors = true) (f : Nat) (hf : f < 4) := t.refresh_floor f hf hwf
  generalize t.refresh = v at h hrooms hhbm hpower hfloors
  exact ⟨s.keepQueue v, h, hpower, hrooms, hhbm, hfloors⟩

/-! ### Samples and the cap (R319 to R321) -/

/-- The power controller has taken a measurement. -/
def State.sampled (s : State) (mV mA : Nat) : State :=
  let samples := (mV * mA :: s.power.samples).take 1000
  { s with power := { s.power with
      millivolts := mV, milliamps := mA, samples, energy := s.power.energy + mV * mA
      means10 := meanOf (samples.take 10), means1000 := meanOf samples } }

section

variable {s : State} {h : Nat} (mV mA : Nat) (hh : isHall h = true)
include hh

theorem exec_powerSample_of_junior (hjunior : h ≠ s.senior) : exec (.powerSample h mV mA) s = .next s := by
  rw [exec_powerSample, execPowerSample, onUnits_of _ _ _ hh, if_pos (by simp [hjunior])]
  rfl

theorem exec_powerSample_of_senior (hawake : s.asleep = false) (hsenior : h = s.senior) :
    ∃ u, exec (.powerSample h mV mA) s = .next u ∧ u.power.millivolts = mV ∧ u.power.milliamps = mA ∧
      u.power.energy = s.power.energy + mV * mA ∧ u.power.samples = (mV * mA :: s.power.samples).take 1000 ∧
      u.rooms = s.rooms ∧ u.hbm = s.hbm := by
  have hexec : exec (.powerSample h mV mA) s = .next (s.keepQueue (s.sampled mV mA).refresh) := by
    rw [exec_powerSample, execPowerSample, onUnits_of _ _ _ hh, if_neg (by simp [hawake, hsenior])]
    rfl
  obtain ⟨u, hu, hpower, hrooms, hhbm, -⟩ := exists_of_refresh hexec
  exact ⟨u, hu, congrArg Power.millivolts hpower, congrArg Power.milliamps hpower, congrArg Power.energy hpower,
    congrArg Power.samples hpower, hrooms, hhbm⟩

end

section

variable {s t : State}

theorem State.capDown_of_clock (h : 0 < s.power.clockLimit) :
    s.capDown = { s with power := { s.power with clockLimit := s.power.clockLimit - 1 } } := if_pos h

theorem iterate_four {σ : Type} (f : σ → σ) (x : σ) : iterate (fun _ y => f y) 4 x = f (f (f (f x))) := rfl

/-- While the clock limit lasts, each step down takes one step of it. -/
theorem State.iterate_capDown {n : Nat} (h : n ≤ s.power.clockLimit) : iterate (fun _ s => s.capDown) n s =
    { s with power := { s.power with clockLimit := s.power.clockLimit - n } } := by
  induction n with
  | zero => rfl
  | succ n ih =>
    rw [iterate, ih (by omega), State.capDown_of_clock (Nat.sub_pos_of_lt h)]
    rfl

theorem State.capUp_of_clock (hduty : s.power.duty = 16) (hclock : s.power.clockLimit < 30) : s.capUp =
    { s with power := { s.power with ticksSinceUp := 0, unreachable := false, clockLimit := s.power.clockLimit + 1 } } := by
  rw [State.capUp]
  simp only [hduty, Nat.lt_irrefl, if_false, hclock, if_true]

/-- The tick of the cap controller has been counted. -/
def State.ticked (s : State) : State :=
  { s with power := { s.power with ticksSinceUp := min 10 (s.power.ticksSinceUp + 1) } }

/-- What the cap controller then does (R320). -/
def State.capResponse (s : State) : State :=
  if 5 * s.effectiveCap * 1000000 < 4 * s.power.means10 then iterate (fun _ s => s.capDown) 4 s.ticked
  else if s.effectiveCap * 1000000 < s.power.means1000 then s.ticked.capDown
  else if 50 * s.power.means1000 + max 250 s.effectiveCap * 1000000 < 50 * s.effectiveCap * 1000000 &&
    10 ≤ s.ticked.power.ticksSinceUp then s.ticked.capUp
  else s.ticked

theorem exec_capTick_of (hawake : s.asleep = false) : exec .capTick s = .next (s.keepQueue s.capResponse.refresh) := by
  rw [exec_capTick, execCapTick, onUnits_next, if_neg (by rw [hawake]; decide)]
  rfl

theorem State.capResponse_of_far (h : 5 * s.effectiveCap * 1000000 < 4 * s.power.means10) :
    s.capResponse = iterate (fun _ s => s.capDown) 4 s.ticked := if_pos h

variable (hnear : 4 * s.power.means10 ≤ 5 * s.effectiveCap * 1000000)
include hnear

theorem State.capResponse_of_over (h : s.effectiveCap * 1000000 < s.power.means1000) : s.capResponse = s.ticked.capDown := by
  rw [State.capResponse, if_neg (Nat.not_lt.2 hnear), if_pos h]

theorem State.capResponse_of_early (h : s.power.means1000 ≤ s.effectiveCap * 1000000) (hticks : s.power.ticksSinceUp < 9) :
    s.capResponse = s.ticked := by
  have hearly : ¬ 10 ≤ s.ticked.power.ticksSinceUp := by change ¬ 10 ≤ min 10 (s.power.ticksSinceUp + 1); omega
  rw [State.capResponse, if_neg (Nat.not_lt.2 hnear), if_neg (Nat.not_lt.2 h), if_neg (by simp [hearly])]

theorem State.capResponse_of_under
    (h : 50 * s.power.means1000 + max 250 s.effectiveCap * 1000000 < 50 * s.effectiveCap * 1000000)
    (hticks : 9 ≤ s.power.ticksSinceUp) : s.capResponse = s.ticked.capUp := by
  have hlate : 10 ≤ s.ticked.power.ticksSinceUp := by change 10 ≤ min 10 (s.power.ticksSinceUp + 1); omega
  have hunder : ¬ s.effectiveCap * 1000000 < s.power.means1000 := by omega
  rw [State.capResponse, if_neg (Nat.not_lt.2 hnear), if_neg hunder, if_pos (by simp [h, hlate])]

end

/-! ### The brakes (R322, R331, R424) -/

section

variable {s : State} (hawake : s.asleep = false)
include hawake

theorem exec_powerBrakeAssert_of : exec .powerBrakeAssert s =
    .next (s.keepQueue (State.refresh { s with power := { s.power with brakePin := true } })) := by
  have hstill : State.asleep { s with power := { s.power with brakePin := true } } = false := hawake
  rw [exec_powerBrakeAssert, execPowerBrakeAssert, onUnits_next]
  simp only [hstill, Bool.false_eq_true, if_false]

omit hawake in
/-- Under the brake no Floor runs above BRAKE_CLOCK. -/
theorem State.lowest_of_braked (h : s.braked = true) (f : Nat) : s.lowest f ≤ s.dictGet 0x2401 5 := by
  rw [State.lowest, State.moduleLimit, if_pos h]
  omega

theorem exec_powerBrakeAssert_limits (hwf : Store.wf ({} : Floor) s.floors = true) :
    ∃ u, exec .powerBrakeAssert s = .next u ∧ u.power = { s.power with brakePin := true } ∧
      ∀ f, f < 4 → (u.floor f).applied ≤ s.dictGet 0x2401 5 := by
  obtain ⟨u, hu, hpower, -, -, hfloors⟩ := exists_of_refresh (exec_powerBrakeAssert_of hawake)
  refine ⟨u, hu, hpower, fun f hf => ?_⟩
  rw [hfloors hwf f hf]
  exact State.lowest_of_braked (s := { s with power := { s.power with brakePin := true } }) rfl f

omit hawake in
theorem exec_powerBrakeRelease_of_off (h : s.power.brakePin = false) : exec .powerBrakeRelease s = .next s := by
  rw [exec_powerBrakeRelease, execPowerBrakeRelease, h]
  rfl

theorem exec_powerBrakeRelease_of_on (hon : s.power.brakePin = true) (hband : s.power.brownOut = false) :
    ∃ u, exec .powerBrakeRelease s = .next u ∧
      u.power = { s.power with brakePin := false, clockLimit := min s.power.clockLimit (s.dictGet 0x2401 5) } := by
  have hfree : State.braked { s with power := { s.power with brakePin := false } } = false := hband
  have hexec : exec .powerBrakeRelease s = .next (s.keepQueue (State.refresh { s with power := { s.power with
      brakePin := false, clockLimit := min s.power.clockLimit (s.dictGet 0x2401 5) } })) := by
    rw [exec_powerBrakeRelease, execPowerBrakeRelease, onUnits_next]
    simp only [hon, hawake, State.fromBrake, hfree, Bool.not_true, Bool.false_eq_true, if_false]
    rfl
  obtain ⟨u, hu, hpower, -⟩ := exists_of_refresh hexec
  exact ⟨u, hu, hpower⟩

omit hawake in
theorem exec_brownOut_of_bringUp (h : s.ready = false) (enter : Bool) : exec (.brownOut enter) s = .next s := by
  rw [exec_brownOut, execBrownOut, onUnits_next, if_pos (by simp [h])]
  rfl

theorem exec_brownOut_enter (hready : s.ready = true) (hband : s.power.brownOut = false) :
    ∃ u, exec (.brownOut true) s = .next u ∧ u.power = { s.power with brownOut := true } := by
  have hexec : exec (.brownOut true) s = .next (s.keepQueue
      (State.refresh { s with power := { s.power with brownOut := true } })) := by
    rw [exec_brownOut, execBrownOut, onUnits_next, if_neg (by simp [hawake, hready, hband]), if_pos rfl]
  obtain ⟨u, hu, hpower, -⟩ := exists_of_refresh hexec
  exact ⟨u, hu, hpower⟩

end

/-! ### Current (R323) -/

/-- Whether a Floor draws too much after a measurement of its mean current. -/
def Floor.overAfter (x : Floor) (mean : Nat) : Bool :=
  if (if x.phaseLost then 950 else 1100) < mean then true
  else if mean < (if x.phaseLost then 950 else 1050) then false else x.currentOver

/-- A Floor that has noted a measurement, before its limit moves. -/
def Floor.noteCurrent (x : Floor) (now peak mean : Nat) : Floor :=
  { x with
    railMean := mean, currentOver := x.overAfter mean
    halfDutyUntil := if 1800 < peak then now + 10000 else x.halfDutyUntil }

section

variable (x : Floor) (now peak mean : Nat)

theorem Floor.current_eq : x.current now peak mean =
    if x.overAfter mean && 0 < x.currentLimit && x.currentMoved + 10000 ≤ now then
      { x.noteCurrent now peak mean with currentLimit := x.currentLimit - 1, currentMoved := now }
    else if !x.overAfter mean && x.currentLimit < 30 && x.currentMoved + 100000 ≤ now then
      { x.noteCurrent now peak mean with currentLimit := x.currentLimit + 1, currentMoved := now }
    else x.noteCurrent now peak mean := rfl

theorem Floor.current_noted : (x.current now peak mean).railMean = mean ∧
    (1800 < peak → (x.current now peak mean).halfDutyUntil = now + 10000) := by
  rw [Floor.current_eq]
  split
  · exact ⟨rfl, fun h => if_pos h⟩
  · split
    · exact ⟨rfl, fun h => if_pos h⟩
    · exact ⟨rfl, fun h => if_pos h⟩

variable {x now mean}

theorem Floor.currentLimit_of_high (hphases : x.phaseLost = false) (hmean : 1100 < mean) (hlimit : 0 < x.currentLimit)
    (hmoved : x.currentMoved + 10000 ≤ now) : (x.current now peak mean).currentLimit = x.currentLimit - 1 := by
  have hover : x.overAfter mean = true := by simp [Floor.overAfter, hphases, hmean]
  rw [Floor.current_eq, if_pos (by simp [hover, hlimit, hmoved])]

theorem Floor.currentLimit_of_low (hphases : x.phaseLost = false) (hmean : mean < 1050) (hlimit : x.currentLimit < 30)
    (hmoved : x.currentMoved + 100000 ≤ now) : (x.current now peak mean).currentLimit = x.currentLimit + 1 := by
  have hhigh : ¬ 1100 < mean := by omega
  have hover : x.overAfter mean = false := by simp [Floor.overAfter, hphases, hmean, hhigh]
  rw [Floor.current_eq, if_neg (by simp [hover]), if_pos (by simp [hover, hlimit, hmoved])]

end

/-- A stack that has just reached 115 °C is noted with the moment. -/
theorem Power.hot_noteHot_stack {p : Power} {half : Int} (f now : Nat) (hhalf : 230 ≤ half) (hhot : p.hot = []) :
    (p.noteHot (.stack f) half now).hot = [(272 + f, some now)] := by
  change Store.modify none p.hot (272 + f) (fun x => if 230 ≤ half then some (x.getD now) else none) = _
  rw [hhot, Store.modify, Store.get_nil, if_pos hhalf]
  rfl

section

variable {s : State} {f : Nat} (hawake : s.asleep = false) (hf : isFloor f = true)
include hawake hf

theorem exec_currentSample_of (peak mean : Nat) : exec (.currentSample f peak mean) s =
    .next (s.keepQueue ((s.modFloor f (·.current s.time peak mean)).refresh)) := by
  rw [exec_currentSample, execCurrentSample, onUnits_of _ _ _ hf, if_neg (by rw [hawake]; decide)]

theorem exec_currentSample_floor (peak mean : Nat) (hwf : Store.wf ({} : Floor) s.floors = true) :
    ∃ u, exec (.currentSample f peak mean) s = .next u ∧ u.power = s.power ∧ u.rooms = s.rooms ∧
      (u.floor f).railMean = mean ∧ (u.floor f).currentLimit = ((s.floor f).current s.time peak mean).currentLimit ∧
      (1800 < peak → (u.floor f).halfDutyUntil = s.time + 10000) := by
  obtain ⟨u, hu, hpower, hrooms, -, hfloors⟩ := exists_of_refresh (exec_currentSample_of hawake hf peak mean)
  have hfloor := hfloors (Store.wf_set _ _ _ _ hwf) f (of_decide_eq_true hf)
  rw [State.floor_modFloor _ _ _ hwf] at hfloor
  obtain ⟨hmean, hpeak⟩ := (s.floor f).current_noted s.time peak mean
  refine ⟨u, hu, hpower, hrooms, ?_, ?_, ?_⟩ <;> rw [hfloor]
  · exact hmean
  · exact hpeak

/-! ### Temperatures (R325) -/

theorem exec_thermalSensorChange_stack {half : Int} {t : State}
    (ht : t = { s.modFloor f ({ · with stackTemp := half }) with power := s.power.noteHot (.stack f) half s.time }) :
    exec (.thermalSensorChange (.stack f) half) s = .next (s.keepQueue ((t.modFloor f (·.stack half)).refresh)) := by
  have hstill : t.asleep = false := ht ▸ hawake
  rw [exec_thermalSensorChange, execThermalSensorChange, onUnits_of _ _ _ (show isSensor (.stack f) = true from hf)]
  subst ht
  exact congrArg (fun u => Host.Outcome.next (s.keepQueue u)) (if_neg (Bool.not_eq_true _ ▸ hstill))

theorem exec_thermalSensorChange_stack_floor (half : Int) (hwf : Store.wf ({} : Floor) s.floors = true) :
    ∃ u, exec (.thermalSensorChange (.stack f) half) s = .next u ∧ (u.floor f).stackTemp = half ∧
      (u.floor f).hbmLevel = hbmLevelOf (s.floor f).hbmLevel half ∧ (170 < half → (u.floor f).refresh = 2) ∧
      (230 ≤ half → s.power.hot = [] → u.power.hot = [(272 + f, some s.time)]) ∧ u.rooms = s.rooms := by
  generalize ht : ({ s.modFloor f ({ · with stackTemp := half }) with
    power := s.power.noteHot (.stack f) half s.time } : State) = t
  obtain ⟨u, hu, hpower, hrooms, -, hfloors⟩ := exists_of_refresh (exec_thermalSensorChange_stack hawake hf ht.symm)
  have hwft : Store.wf ({} : Floor) t.floors = true := ht ▸ Store.wf_set _ _ _ _ hwf
  have hread : t.floor f = { s.floor f with stackTemp := half } := by
    rw [← ht]
    exact State.floor_modFloor s f ({ · with stackTemp := half }) hwf
  have hfloor := hfloors (Store.wf_set _ _ _ _ hwft) f (of_decide_eq_true hf)
  rw [State.floor_modFloor _ _ _ hwft, hread] at hfloor
  refine ⟨u, hu, ?_, ?_, fun hhalf => ?_, fun hhalf hhot => ?_, hrooms.trans (ht ▸ rfl)⟩
  · rw [hfloor]
    rfl
  · rw [hfloor]
    rfl
  · rw [hfloor]
    exact if_pos hhalf
  · rw [hpower.trans (ht ▸ rfl : _ = s.power.noteHot (.stack f) half s.time)]
    exact Power.hot_noteHot_stack f s.time hhalf hhot

theorem exec_thermalSensorChange_junction {k : Nat} {half : Int} {t : State} (hk : k < 64)
    (ht : t = { s.modFloor f (fun x => { x with junctions := Store.set 0 x.junctions k half }) with
      power := s.power.noteHot (.junction f k) half s.time }) :
    exec (.thermalSensorChange (.junction f k) half) s =
      .next (s.keepQueue ((t.modFloor f (·.thermal s.time)).refresh)) := by
  have hstill : t.asleep = false := ht ▸ hawake
  have hsensor : isSensor (.junction f k) = true := by rw [isSensor, hf, decide_eq_true hk]; rfl
  rw [exec_thermalSensorChange, execThermalSensorChange, onUnits_of _ _ _ hsensor]
  subst ht
  exact congrArg (fun u => Host.Outcome.next (s.keepQueue u)) (if_neg (Bool.not_eq_true _ ▸ hstill))

omit hf in
theorem exec_thermalSensorChange_inlet (half : Int) : exec (.thermalSensorChange .inlet half) s =
    .next (s.keepQueue (State.refresh { s with power := { s.power with inlet := half } })) := by
  rw [exec_thermalSensorChange, execThermalSensorChange, onUnits_of _ _ _ (show isSensor .inlet = true from rfl)]
  exact congrArg (fun u => Host.Outcome.next (s.keepQueue u)) (if_neg (Bool.not_eq_true _ ▸ hawake))

end

section

variable (x : Floor) (now : Nat)

/-- A measurement moves the thermal limit of a Floor to the lowest clock, or by at most one step. -/
theorem Floor.thermalLimit_thermal : (x.thermal now).thermalLimit = 0 ∨ (x.thermal now).thermalLimit + 1 = x.thermalLimit ∨
    (x.thermal now).thermalLimit = x.thermalLimit ∨ (x.thermal now).thermalLimit = x.thermalLimit + 1 := by
  unfold Floor.thermal
  simp only
  split
  · exact .inl rfl
  · split
    · split
      · next h =>
        have hlimit : 0 < x.thermalLimit := by simp at h; exact h.1
        exact .inr (.inl (Nat.sub_add_cancel hlimit))
      · exact .inr (.inr (.inl rfl))
    · split
      · exact .inr (.inr (.inr rfl))
      · exact .inr (.inr (.inl rfl))

variable {x}

theorem Floor.thermalLimit_of_hot (h : ∃ e ∈ x.junctions, 210 ≤ e.2) : (x.thermal now).thermalLimit = 0 := by
  obtain ⟨e, he, hhot⟩ := h
  have hany : ((x.junctions.map (·.2)).any fun t => decide (210 ≤ t)) = true :=
    List.any_eq_true.2 ⟨e.2, List.mem_map_of_mem he, decide_eq_true hhot⟩
  rw [Floor.thermal]
  simp only [hany, if_true]

end

/-- Settles O55: each controller by the branch that its measurement selects, and the refresh that follows. -/
theorem powerControl : Obligations.PowerControl := by
  unfold Obligations.PowerControl
  intro s t h mV mA f k peak mean half hawake
  refine ⟨exec_powerSample_of_junior mV mA, fun hh => exec_powerSample_of_senior mV mA hh hawake, fun ht => ?cap,
    fun x => State.capDown_of_clock, exec_powerBrakeAssert_limits hawake, exec_powerBrakeRelease_of_on hawake,
    exec_powerBrakeRelease_of_off, exec_brownOut_enter hawake,
    fun hready => ⟨exec_brownOut_of_bringUp hready true, exec_brownOut_of_bringUp hready false⟩,
    fun hf => ⟨exec_currentSample_of hawake hf peak mean, exec_currentSample_floor hawake hf peak mean,
      fun ht => ⟨exec_thermalSensorChange_stack hawake hf ht, exec_thermalSensorChange_stack_floor hawake hf half⟩,
      exec_thermalSensorChange_junction hawake hf, exec_thermalSensorChange_inlet hawake half⟩,
    Floor.thermalLimit_thermal,
    fun x now => ⟨Floor.thermalLimit_of_hot now, Floor.currentLimit_of_high peak, Floor.currentLimit_of_low peak⟩⟩
  have htick : t = s.ticked := ht
  subst htick
  have hexec := exec_capTick_of hawake
  refine ⟨fun hfar => ?far, fun hnear hover => ?above, fun hnear hunder hticks => ?early,
    fun hnear hunder hticks hduty hclock => ?below⟩
  case far =>
    rw [State.capResponse_of_far hfar] at hexec
    refine ⟨hexec.trans (by rw [iterate_four]), fun hclock => ?_⟩
    rw [State.iterate_capDown (s := s.ticked) hclock] at hexec
    obtain ⟨u, hu, hpower, hrooms, -⟩ := exists_of_refresh hexec
    exact ⟨u, hu, hpower, hrooms⟩
  case above =>
    rw [State.capResponse_of_over hnear hover] at hexec
    refine ⟨hexec, fun hclock => ?_⟩
    rw [State.capDown_of_clock (s := s.ticked) hclock] at hexec
    obtain ⟨u, hu, hpower, hrooms, -⟩ := exists_of_refresh hexec
    exact ⟨u, hu, hpower, hrooms⟩
  case early =>
    rw [State.capResponse_of_early hnear hunder hticks] at hexec
    obtain ⟨u, hu, hpower, hrooms, -⟩ := exists_of_refresh hexec
    exact ⟨u, hu, hpower, hrooms⟩
  case below =>
    rw [State.capResponse_of_under hnear hunder hticks, State.capUp_of_clock (s := s.ticked) hduty hclock] at hexec
    obtain ⟨u, hu, hpower, hrooms, -⟩ := exists_of_refresh hexec
    exact ⟨u, hu, congrArg Power.clockLimit hpower, congrArg Power.ticksSinceUp hpower,
      (congrArg Power.duty hpower).trans hduty, hrooms⟩

end Sys2Proof.Machine
end

section
/-! PROOF. Phases, Settlement and droop (R323, R324, R327), and the DOZE and gated states of a Room (R308, R309). -/

namespace Sys2Proof.Machine

open Sys2Proof.Safety

/-! ### Phases and Settlement (R323, R327) -/

section

variable {s : State} {f : Nat} (hf : isFloor f = true)
include hf

theorem exec_phaseLoss_of_lost (h : (s.floor f).phaseLost = true) : exec (.phaseLoss f) s = .next s := by
  rw [exec_phaseLoss, execPhaseLoss, onUnits_of _ _ _ hf, if_pos (by simp [h])]
  rfl

variable (hawake : s.asleep = false)
include hawake

theorem exec_phaseLoss_of_whole (h : (s.floor f).phaseLost = false) : exec (.phaseLoss f) s = .next (s.keepQueue
    ((s.draw.2.modFloor f ({ · with phaseLost := true })).report 5 4 2 5 f 0 (Config.detail f s.draw.1))) := by
  rw [exec_phaseLoss, execPhaseLoss, onUnits_of _ _ _ hf, if_neg (by simp [h, hawake])]

theorem exec_phaseRestore_of : exec (.phaseRestore f) s = .next (s.modFloor f ({ · with phaseLost := false })) := by
  rw [exec_phaseRestore, execPhaseRestore, if_neg (by rw [hawake]; decide)]
  exact onUnits_of_pending hf rfl

theorem exec_settlementMeasure_of_met (worst : Nat) :
    exec (.settlementMeasure f worst false) s = .next (s.modFloor f ({ · with worstMargin := worst })) := by
  rw [exec_settlementMeasure, execSettlementMeasure]
  exact (congrArg (onUnits _ s) (if_neg (by rw [hawake]; decide))).trans (onUnits_of_pending hf rfl)

/-- A Floor whose margin is short for the first time gets its first 5 mV of offset. -/
theorem exec_settlementMeasure_of_short {worst : Nat} {x : Floor} (hx : x = { s.floor f with worstMargin := worst })
    (hoffset : (s.floor f).offset < 60) (hraised : (s.floor f).offsetRaised = none)
    (hwf : Store.wf ({} : Floor) s.floors = true) : ∃ u, exec (.settlementMeasure f worst true) s = .next u ∧
      u.floor f = { x with offset := min 60 (x.offset + 5), offsetRaised := some s.time } ∧
      (∀ g, g ≠ f → u.floor g = s.floor g) ∧ u.rooms = s.rooms := by
  have hexec : exec (.settlementMeasure f worst true) s = .next ((s.modFloor f ({ · with worstMargin := worst })).modFloor f
      fun x => { x with offset := min 60 (x.offset + 5), offsetRaised := some s.time }) := by
    rw [exec_settlementMeasure, execSettlementMeasure]
    simp only [hawake, hoffset, hraised, Option.map_none, Option.getD_none, Bool.not_true, Bool.false_eq_true, if_false, if_true]
    exact onUnits_of_pending hf rfl
  refine ⟨_, hexec, ?_, fun g hg => ?_, rfl⟩
  · rw [State.floor_modFloor _ _ _ (Store.wf_set _ _ _ _ hwf), State.floor_modFloor _ _ _ hwf, hx]
  · rw [State.floor_modFloor_ne _ _ _ _ hg, State.floor_modFloor_ne _ _ _ _ hg]

end

/-! ### Droop (R324) -/

section

variable {s : State} {r : Nat} (hr : isRoom r = true)
include hr

theorem exec_droopDetect_of_stretched (h : (s.room r).stretched = true) : exec (.droopDetect r) s = .next s := by
  rw [exec_droopDetect, execDroopDetect, onUnits_of _ _ _ hr]
  simp only [h, Bool.or_true, Bool.true_or, if_true]
  rfl

theorem exec_droopDetect_of {t : State} (hawake : s.asleep = false) (h : (s.room r).stretched = false)
    (hdoze : (s.room r).power ≠ .doze) (hfenced : (s.room r).power ≠ .fenced)
    (ht : t = s.modRoom r (fun y => { y with
      stretched := true, marks := if (s.stepOf r).isSome then y.marks ++ [y.course.ordinal] else y.marks })) :
    exec (.droopDetect r) s = .next (s.keepQueue ((t.bump (0x2420 + r / 320) 7 32).refresh)) := by
  rw [exec_droopDetect, execDroopDetect, onUnits_of _ _ _ hr]
  simp only [hawake, h, beq_false_of_ne hdoze, beq_false_of_ne hfenced, Bool.or_self, Bool.false_eq_true, if_false]
  rw [ht]
  rfl

theorem exec_droopRelease_of_stretched (h : (s.room r).stretched = true) :
    exec (.droopRelease r) s = .next (s.keepQueue ((s.modRoom r ({ · with stretched := false })).refresh)) := by
  rw [exec_droopRelease, execDroopRelease, onUnits_of _ _ _ hr, if_pos h]

theorem exec_droopRelease_of_steady (h : (s.room r).stretched = false) : exec (.droopRelease r) s = .next s := by
  rw [exec_droopRelease, execDroopRelease, onUnits_of _ _ _ hr, if_neg (by rw [h]; decide)]
  rfl

/-! ### DOZE and gated clocks (R308, R309) -/

theorem exec_roomDozeEntry_of_held (h : (s.room r).isFree = false) : exec (.roomDozeEntry r) s = .next s := by
  rw [exec_roomDozeEntry, execRoomDozeEntry, onUnits_of _ _ _ hr]
  simp only [h, Bool.not_false, Bool.or_true, Bool.true_or, if_true]
  rfl

theorem exec_roomDozeEntry_early (h : s.time < (s.room r).freeSince + 1000 * s.dictGet 0x2401 7) :
    exec (.roomDozeEntry r) s = .next s := by
  rw [exec_roomDozeEntry, execRoomDozeEntry, onUnits_of _ _ _ hr]
  simp only [h, decide_true, Bool.or_true, if_true]
  rfl

theorem exec_roomDozeEntry_due (hawake : s.asleep = false) (hready : s.ready = true) (hfree : (s.room r).isFree = true)
    (hpower : (s.room r).power = .clocked ∨ (s.room r).power = .gated)
    (h : (s.room r).freeSince + 1000 * s.dictGet 0x2401 7 ≤ s.time) :
    exec (.roomDozeEntry r) s = .next (s.modRoom r fun y => { y.cleared with power := .doze }) := by
  have hclocked : ((s.room r).power == .clocked || (s.room r).power == .gated) = true := by simpa using hpower
  rw [exec_roomDozeEntry, execRoomDozeEntry]
  simp only [hawake, hready, hfree, hclocked, Nat.not_lt.2 h, decide_false, Bool.not_true, Bool.or_self, Bool.false_eq_true,
    if_false]
  exact onUnits_of_pending hr rfl

theorem exec_roomClockGate_of_rest (hpower : (s.room r).power = .clocked) (hrest : (s.room r).atRest = true) :
    exec (.roomClockGate r) s = .next (s.modRoom r ({ · with power := .gated })) := by
  rw [exec_roomClockGate, execRoomClockGate, if_pos (by rw [hpower, hrest]; rfl)]
  exact onUnits_of_pending hr rfl

theorem exec_roomClockGate_of_busy (h : (s.room r).atRest = false) : exec (.roomClockGate r) s = .next s := by
  rw [exec_roomClockGate, execRoomClockGate, if_neg (by simp [h])]
  exact onUnits_of_pending hr rfl

end

/-- Settles O56: each event by the condition of its Floor or Room. -/
theorem floorAndRoomPower : Obligations.FloorAndRoomPower := by
  unfold Obligations.FloorAndRoomPower
  intro s t f r worst x hawake
  exact ⟨fun hf => ⟨exec_phaseLoss_of_lost hf, exec_phaseLoss_of_whole hf hawake, exec_phaseRestore_of hf hawake,
      exec_settlementMeasure_of_met hf hawake worst, exec_settlementMeasure_of_short hf hawake⟩,
    fun hr => ⟨exec_droopDetect_of hr hawake,
      fun hstretched => ⟨exec_droopDetect_of_stretched hr hstretched, exec_droopRelease_of_stretched hr hstretched⟩,
      exec_droopRelease_of_steady hr,
      fun hready hfree hpower => ⟨exec_roomDozeEntry_due hr hawake hready hfree hpower, exec_roomDozeEntry_early hr⟩,
      exec_roomDozeEntry_of_held hr, exec_roomClockGate_of_rest hr, exec_roomClockGate_of_busy hr⟩⟩

end Sys2Proof.Machine
end

section
/-! PROOF. Ingest frames and their ring slots (R435, R436), and device time (R437, R438). -/

namespace Sys2Proof.Machine

open Sys2Proof.Safety

/-! ### Ingest frames (R435, R436) -/

/-- The requests of a slot's write wait at the ingest port's master port: packets and regulators alone change. -/
theorem State.enqueueSlot_frame (s : State) (p ctx va n : Nat) (deadline : Option Nat) :
    ∃ packets regulators, s.enqueueSlot p ctx va n deadline = { s with packets, regulators } :=
  List.foldlRecOn (motive := fun t : State => ∃ packets regulators, t = { s with packets, regulators }) (piecesOf va n) _
    ⟨_, _, rfl⟩ fun t ht x _ => by
      obtain ⟨packets, regulators, rfl⟩ := ht
      split
      · split
        · obtain ⟨packets', regulators', h⟩ := State.enqueue_frame { s with packets, regulators } (ingestMaster p) _ x.2 true
            deadline .none none false
          exact ⟨packets', regulators', h⟩
        · exact ⟨_, _, rfl⟩
      · exact ⟨_, _, rfl⟩

/-- Where the next slot of a port's ring stands (R436). -/
def IngestPort.nextSlot (x : IngestPort) : Nat := x.ringBase + 2048 * (x.tail.toNat % 2 ^ x.ringLog2)

/-- A frame that waits alone, whose write succeeds, takes its slot of the ring and leaves the buffer. -/
theorem State.drainIngest_one {u w : State} {p now : Nat} {f : AvtpFrame} (hbuffer : (u.feed p).buffer = [(now, f)])
    (hwrite : u.writeVa (ingestMaster p) (u.feed p).ctx (u.feed p).nextSlot (ingestSlot now f) false = (.ok (), w)) :
    State.drainIngest p 1 u = (w.enqueueSlot p (u.feed p).ctx (u.feed p).nextSlot (ingestSlot now f).length
      (u.ingestDeadline p f)).modFeed p fun y => { y with buffer := [], tail := y.tail + 1 } := by
  rw [IngestPort.nextSlot] at hwrite
  simp only [State.drainIngest, hbuffer, hwrite]
  rfl

section

variable {s : State} {p : Nat} (hp : isIngest p = true) (f : AvtpFrame)
include hp

theorem exec_ingestFrame_of_down (h : (s.feed p).up = false) : exec (.ingestFrame p f) s = .next s := by
  rw [exec_ingestFrame, execIngestFrame, onUnits_of _ _ _ hp, if_pos (by simp [h])]
  rfl

variable {f} (hlinked : s.linked = true) (hup : (s.feed p).up = true) (hhall : (s.hall (p / 2)).lost = false)
include hlinked hup hhall

section

variable {t : State} (ht : t = State.drainIngest p (s.feed p).buffer.length s)
include ht

theorem exec_ingestFrame_of_refused (h : t.ingestBound p f = false ∨ 2016 < f.payload.length) :
    exec (.ingestFrame p f) s = .next (s.keepQueue (t.modFeed p fun y => { y with dropped := satAdd 32 y.dropped 1 })) := by
  subst ht
  rw [exec_ingestFrame, execIngestFrame, onUnits_of _ _ _ hp, if_neg (by simp [hlinked, hup, hhall])]
  exact congrArg (fun u => Host.Outcome.next (s.keepQueue u)) (if_pos (by obtain h | h := h <;> simp [h]))

theorem exec_ingestFrame_of_taken (hbound : t.ingestBound p f = true) (hlen : f.payload.length ≤ 2016)
    (hroom : (t.feed p).room f.payload.length = true) : exec (.ingestFrame p f) s = .next (s.keepQueue
      (State.drainIngest p ((t.feed p).buffer.length + 1)
        (t.modFeed p fun y => { y with buffer := y.buffer ++ [(t.time, f)] }))) := by
  subst ht
  rw [exec_ingestFrame, execIngestFrame, onUnits_of _ _ _ hp, if_neg (by simp [hlinked, hup, hhall])]
  exact congrArg (fun u => Host.Outcome.next (s.keepQueue u)) (if_neg (by simp [hbound, hroom, Nat.not_lt.2 hlen]))

end

/-- The frame that finds its port idle and its slot writable is in memory at once. -/
theorem exec_ingestFrame_at_once {u w : State} (hbuffer : (s.feed p).buffer = []) (hbound : s.ingestBound p f = true)
    (hlen : f.payload.length ≤ 2016) (hroom : (s.feed p).room f.payload.length = true)
    (hu : u = s.modFeed p (fun y => { y with buffer := [(s.time, f)] }))
    (hwrite : u.writeVa (ingestMaster p) (s.feed p).ctx (s.feed p).nextSlot (ingestSlot s.time f) false = (.ok (), w))
    (hwf : Store.wf ({} : IngestPort) w.ingest = true) : ∃ v, exec (.ingestFrame p f) s = .next v ∧
      (v.feed p).buffer = [] ∧ (v.feed p).tail = (w.feed p).tail + 1 ∧ v.hbm = w.hbm ∧ v.rooms = w.rooms := by
  have hidle : s = State.drainIngest p (s.feed p).buffer.length s := by rw [hbuffer]; rfl
  have hqueued : (s.modFeed p fun y => { y with buffer := y.buffer ++ [(s.time, f)] }) = u := by
    simp only [hu, State.modFeed, hbuffer, List.nil_append]
  have hfeed : u.feed p = { s.feed p with buffer := [(s.time, f)] } := by
    rw [hu]
    exact State.feed_modFeed (IngestPort.ne_default_of_up hup)
  have hexec := exec_ingestFrame_of_taken hp hlinked hup hhall hidle hbound hlen hroom
  rw [hqueued, hbuffer, List.length_nil, Nat.zero_add,
    State.drainIngest_one (by rw [hfeed]) (by rw [hfeed]; exact hwrite)] at hexec
  obtain ⟨packets, regulators, hframe⟩ := w.enqueueSlot_frame p (u.feed p).ctx (u.feed p).nextSlot
    (ingestSlot s.time f).length (u.ingestDeadline p f)
  rw [hframe] at hexec
  have hdone := State.feed_modFeed_of_wf (s := { w with packets, regulators }) p
    (fun y => { y with buffer := [], tail := y.tail + 1 }) hwf
  exact ⟨_, hexec, congrArg IngestPort.buffer hdone, congrArg IngestPort.tail hdone, rfl, rfl⟩

end

/-! ### Device time (R437, R438) -/

section

variable {s : State}

theorem State.foldl_mortarTime (l : List Nat) (s : State) : l.foldl (fun s p => s.emit (.mortarTime p s.time)) s =
    { s with out := s.out ++ l.map fun p => .mortarTime p s.time } := by
  induction l generalizing s with
  | nil => rw [List.foldl_nil, List.map_nil, List.append_nil]
  | cons p l ih =>
    rw [List.foldl_cons, ih, State.emit, List.append_assoc]
    rfl

theorem exec_timeMessage_of (hlinked : s.linked = true) : exec .timeMessage s =
    .next { s with out := s.out ++ ((List.range 12).filter s.portUp).map fun p => .mortarTime p s.time } := by
  rw [exec_timeMessage, execTimeMessage, if_neg (by simp [hlinked]), State.foldl_mortarTime]
  exact onUnits_of_pending rfl rfl

theorem exec_timePps_of_whole (hawake : s.asleep = false) (h : s.time % 1000000000 = 0) :
    exec .timePps s = .next (s.emit (.pps s.time)) := by
  rw [exec_timePps, execTimePps, if_neg (by simp [hawake, h])]
  exact onUnits_of_pending rfl rfl

theorem exec_timePps_between (h : s.time % 1000000000 ≠ 0) : exec .timePps s = .next s := by
  rw [exec_timePps, execTimePps, if_pos (by simp [h])]
  exact onUnits_of_pending rfl rfl

theorem exec_timeSyncExchange_none (off : Int) : exec (.timeSyncExchange 0 off) s = .next s := by
  rw [exec_timeSyncExchange, execTimeSyncExchange, if_pos (by simp)]
  exact onUnits_of_pending rfl rfl

/-- A source that answers is available (R437). -/
theorem exec_timeSyncExchange_of {k : Nat} (off : Int) (hlinked : s.linked = true) (hk : isSource k = true) (hk0 : k ≠ 0)
    (hpath : s.sourcePath k = true) {t : State}
    (ht : t = { s with clock := { s.clock with available := listSet s.clock.available k true } }) :
    exec (.timeSyncExchange k off) s = .next (s.keepQueue (
      if t.bestSource != k then { t with clock := { t.clock with source := t.bestSource } }
      else if s.ready then { t with clock := { t.clock with source := t.bestSource, offset := off, slew := off } }
      else { t with time := (s.time + off).toNat
                    clock := { t.clock with source := t.bestSource, offset := off, slew := 0 } })) := by
  subst ht
  rw [exec_timeSyncExchange, execTimeSyncExchange, onUnits_of _ _ _ hk, if_neg (by simp [hlinked, hk0, hpath])]

theorem exec_timeSourceLost_of_none (h : s.clock.source = 0) : exec .timeSourceLost s = .next s := by
  rw [exec_timeSourceLost, execTimeSourceLost, if_pos (by simp [h])]
  exact onUnits_of_pending rfl rfl

theorem exec_timeSourceLost_of (hlinked : s.linked = true) (h : s.clock.source ≠ 0) {t : State}
    (ht : t = { s with clock := { s.clock with available := listSet s.clock.available s.clock.source false, slew := 0 } }) :
    exec .timeSourceLost s = .next { t with clock := { t.clock with source := t.bestSource } } := by
  subst ht
  rw [exec_timeSourceLost, execTimeSourceLost, if_neg (by simp [hlinked, h])]
  exact onUnits_of_pending rfl rfl

end

/-- Settles O53: frames by what their port holds and its binding takes, and device time by the source in use. -/
theorem ingestAndTime : Obligations.IngestAndTime := by
  unfold Obligations.IngestAndTime
  intro s t u w p k f off hawake hsilent
  have hlinked : s.linked = true := by rw [State.linked, hawake, hsilent]; rfl
  refine ⟨fun hp => ⟨exec_ingestFrame_of_down hp f, fun hup hhall ht => ⟨exec_ingestFrame_of_refused hp hlinked hup hhall ht,
        exec_ingestFrame_of_taken hp hlinked hup hhall ht⟩, fun hup hhall => exec_ingestFrame_at_once hp hlinked hup hhall⟩,
    ⟨_, exec_timeMessage_of hlinked, rfl, rfl⟩, exec_timePps_of_whole hawake, exec_timePps_between, fun hk hk0 hpath ht => ?sync,
    exec_timeSyncExchange_none off, exec_timeSourceLost_of_none, fun hsource ht => exec_timeSourceLost_of hlinked hsource ht⟩
  have hexec := exec_timeSyncExchange_of off hlinked hk hk0 hpath ht
  subst ht
  refine ⟨fun hbest => ?_, fun hbest hready => ?_, fun hbest hready => ?_⟩
  · rw [hexec, if_pos (bne_iff_ne.2 hbest)]
    rfl
  · rw [hexec, if_neg (by rw [hbest, bne_self_eq_false]; decide), if_neg (by rw [hready]; decide), hbest]
    rfl
  · rw [hexec, if_neg (by rw [hbest, bne_self_eq_false]; decide), if_pos hready, hbest]
    rfl

end Sys2Proof.Machine
end

section
/-! PROOF. Bring-up (R313, R314, R415 to R419, R441): power steps, switch groups, the stages and their limits, and the pins of the
connector (R420, R422, R425, R428, R442). -/

namespace Sys2Proof.Machine

open Sys2Proof.Safety

/-! ### Power steps (R313, R314) -/

theorem exec_powerUpStep_of (s : State) (good : Bool) : exec (.powerUpStep good) s = .next (s.keepQueue (s.powerStep good)) := by
  rw [exec_powerUpStep, execPowerUpStep, onUnits_next]

theorem State.powerStep_of_done {s : State} (h : 10 ≤ s.power.upStep) (good : Bool) : s.powerStep good = s :=
  if_pos (by simp; omega)

section

variable {s : State} {n : Nat} (hn : n = s.power.upStep + 1) (hle : n ≤ 10)
  (hat : s.bringing 0 = true ∧ (s.hall 0).up.stage = stepStage n ∨ s.bringing 1 = true ∧ (s.hall 1).up.stage = stepStage n)
include hn hle hat

/-- A Hall that runs is in the stage of the step. -/
theorem State.powerStep_due : ¬ (10 < s.power.upStep + 1 || !(
    (s.bringing 0 && (s.hall 0).up.stage == stepStage (s.power.upStep + 1)) ||
    (s.bringing 1 && (s.hall 1).up.stage == stepStage (s.power.upStep + 1)))) = true := by
  subst hn
  have hfew : ¬ 10 < s.power.upStep + 1 := by omega
  obtain ⟨hbring, hstage⟩ | ⟨hbring, hstage⟩ := hat <;> simp [hbring, hstage, hfew]

theorem State.powerStep_good : s.powerStep true =
    if 7 ≤ n then State.modFloor { s with power := { s.power with upStep := n } } (stepFloor n) ({ · with powerGood := true })
    else { s with power := { s.power with upStep := n } } := by
  have hdue := State.powerStep_due hn hle hat
  subst hn
  exact if_neg hdue

theorem State.powerStep_failed (hstack : 7 ≤ n) : s.powerStep false = State.stageFail { s.draw.2 with
    faultPin := true, power := { s.power with upStep := n, upFailed := true } } (stepFloor n / 2) 0x0E (stepFloor n) := by
  have hdue := State.powerStep_due hn hle hat
  have hcode : stepFailure n = 0x0E := by
    rw [stepFailure, if_neg (by omega), if_neg (by omega), if_neg (by omega), if_neg (by omega)]
  have hfour : n ≠ 4 := by omega
  have hwing : wingScope 0x0E = true := by decide
  subst hn
  refine (if_neg hdue).trans ?_
  simp only [hcode, hstack, hfour, hwing, if_true, if_false, Bool.false_eq_true]
  rfl

end

/-! ### Switch groups (R313, R441) -/

/-- Changing each of some Rooms, in a way that is the same once and twice. -/
theorem State.foldl_modRoom_of_wf {f : Nat → Room → Room} (hf : ∀ r x, f r (f r x) = f r x) (l : List Nat) {s : State}
    (hwf : Store.wf ({} : Room) s.rooms = true) :
    (∀ r ∈ l, (l.foldl (fun s r => s.modRoom r (f r)) s).room r = f r (s.room r)) ∧
      (∀ r, r ∉ l → (l.foldl (fun s r => s.modRoom r (f r)) s).room r = s.room r) ∧
      (l.foldl (fun s r => s.modRoom r (f r)) s).floors = s.floors := by
  induction l generalizing s with
  | nil => exact ⟨nofun, fun _ _ => rfl, rfl⟩
  | cons a l ih =>
    obtain ⟨hin, hout, hfloors⟩ := ih (s := s.modRoom a (f a)) (Store.wf_set _ _ _ _ hwf)
    have hself : (s.modRoom a (f a)).room a = f a (s.room a) := State.room_modRoom_of_wf hwf a (f a)
    rw [List.foldl_cons]
    refine ⟨fun r hr => ?_, fun r hr => ?_, hfloors⟩
    · by_cases hra : r = a
      · subst hra
        by_cases hl : r ∈ l
        · rw [hin r hl, hself, hf]
        · rw [hout r hl, hself]
      · rw [hin r ((List.mem_cons.1 hr).resolve_left hra), State.modRoom, State.room_setRoom_ne _ _ _ _ hra]
    · obtain ⟨hra, hl⟩ := not_or.1 (mt List.mem_cons.2 hr)
      rw [hout r hl, State.modRoom, State.room_setRoom_ne _ _ _ _ hra]

/-- A Room whose switch has closed, or failed its power-good (R21). -/
def Room.switched (failed : List Nat) (r : Nat) (x : Room) : Room :=
  if failed.contains r then { x with life := .lostAtTest, power := .fenced } else { x with power := .clocked }

theorem Room.switched_switched (failed : List Nat) (r : Nat) (x : Room) :
    (x.switched failed r).switched failed r = x.switched failed r := by
  unfold Room.switched
  split <;> rfl

theorem State.closeSwitches_eq (s : State) (f : Nat) (rooms failed : List Nat) : s.closeSwitches f rooms failed =
    rooms.foldl (fun s r => s.modRoom r (Room.switched failed r)) (s.modFloor f ({ · with switchFrom := s.time + 20000 })) := rfl

section

variable {s : State} {f : Nat} {failed : List Nat}

theorem State.switchGroup_of_waiting (h : s.time < (s.floor f).switchFrom) : s.switchGroup f failed = s := if_pos h

variable (hdue : (s.floor f).switchFrom ≤ s.time)
include hdue

theorem State.switchGroup_of_service (hready : s.ready = true) :
    s.switchGroup f [] = s.closeSwitches f ((s.wakingRooms f).take 16) [] := by
  have hnone : ((s.wakingRooms f).take 16).filter (List.contains []) = [] := List.filter_eq_nil_iff.2 fun _ _ => by simp
  rw [State.switchGroup, if_neg (Nat.not_lt.2 hdue), if_pos hready]
  simp only [hnone, List.foldl_nil]

variable (hready : s.ready = false)
include hready

theorem State.switchGroup_of_done (h : 20 ≤ (s.floor f).switchGroups) : s.switchGroup f failed = s := by
  rw [State.switchGroup, if_neg (Nat.not_lt.2 hdue), if_neg (by rw [hready]; decide), if_pos (by simp [h])]

variable (hbringing : s.bringing (f / 2) = true) (hstage : (s.hall (f / 2)).up.stage = 5) {n : Nat}
  (hn : n = (s.floor f).switchGroups) (hlt : n < 20)
include hbringing hstage hn hlt

theorem State.switchGroup_of_stage : s.switchGroup f failed =
    (s.modFloor f ({ · with switchGroups := n + 1 })).closeSwitches f (span (320 * f + 16 * n) 16) failed := by
  subst hn
  rw [State.switchGroup, if_neg (Nat.not_lt.2 hdue), if_neg (by rw [hready]; decide),
    if_neg (by simp [hbringing, hstage, hlt])]

/-- A group at stage 5 powers its 16 Rooms but for those whose switch fails. -/
theorem State.switchGroup_spec (hrooms : Store.wf ({} : Room) s.rooms = true) (hfloors : Store.wf ({} : Floor) s.floors = true) :
    ((s.switchGroup f failed).floor f).switchGroups = n + 1 ∧
      ((s.switchGroup f failed).floor f).switchFrom = s.time + 20000 ∧
      (∀ r ∈ span (320 * f + 16 * n) 16,
        (failed.contains r = true → ((s.switchGroup f failed).room r).life = .lostAtTest ∧
          ((s.switchGroup f failed).room r).power = .fenced) ∧
        (failed.contains r = false → ((s.switchGroup f failed).room r).power = .clocked ∧
          ((s.switchGroup f failed).room r).life = (s.room r).life)) ∧
      ∀ r, r ∉ span (320 * f + 16 * n) 16 → (s.switchGroup f failed).room r = s.room r := by
  rw [State.switchGroup_of_stage hdue hready hbringing hstage hn hlt, State.closeSwitches_eq]
  generalize hv : (s.modFloor f ({ · with switchGroups := n + 1 })).modFloor f
    ({ · with switchFrom := (s.modFloor f ({ · with switchGroups := n + 1 })).time + 20000 }) = v
  have hvrooms : v.rooms = s.rooms := hv ▸ rfl
  have hvfloor : v.floor f = { s.floor f with switchGroups := n + 1, switchFrom := s.time + 20000 } := by
    rw [← hv, State.floor_modFloor _ _ _ (Store.wf_set _ _ _ _ hfloors), State.floor_modFloor _ _ _ hfloors]
    rfl
  obtain ⟨hin, hout, hkept⟩ := State.foldl_modRoom_of_wf (Room.switched_switched failed) (span (320 * f + 16 * n) 16)
    (s := v) (hvrooms ▸ hrooms)
  rw [State.floor_congr hkept, hvfloor]
  refine ⟨rfl, rfl, fun r hr => ?_, fun r hr => (hout r hr).trans (State.room_congr hvrooms r)⟩
  rw [hin r hr, State.room_congr hvrooms, Room.switched]
  refine ⟨fun hfailed => ?_, fun hfailed => ?_⟩
  · rw [if_pos hfailed]
    exact ⟨rfl, rfl⟩
  · rw [if_neg (by rw [hfailed]; decide)]
    exact ⟨rfl, rfl⟩

end

theorem exec_roomSwitchGroup_of {f : Nat} (hf : isFloor f = true) (failed : List Nat) (s : State) :
    exec (.roomSwitchGroup f failed) s = .next (s.keepQueue (s.switchGroup f failed)) := by
  rw [exec_roomSwitchGroup, execRoomSwitchGroup, onUnits_of _ _ _ hf]

/-! ### The stages of a Hall (R415 to R419) -/

section

variable {s t : State} {h n : Nat} {rep : StageReport}

theorem State.endStage_of_idle (hidle : s.bringing h = false) : s.endStage h rep = s := if_pos (by rw [hidle]; rfl)

variable (hbringing : s.bringing h = true) (hn : n = (s.hall h).up.stage)
include hbringing hn

theorem State.endStage_of_failure (hfailure : rep.failure ≠ 0) (hcode : reportable n rep.failure = true) :
    s.endStage h rep = s.stageFail h rep.failure rep.detail := by
  subst hn
  rw [State.endStage]
  simp only [hbringing, bne_iff_ne.2 hfailure, hcode, Bool.not_true, Bool.false_eq_true, if_false, if_true]

variable (hfailure : rep.failure = 0)
include hfailure

theorem State.endStage_of_early (hdue : s.stageDue h n = false) : s.endStage h rep = s := by
  subst hn
  rw [State.endStage]
  simp only [hbringing, hfailure, hdue, bne_self_eq_false, Bool.not_true, Bool.not_false, Bool.false_eq_true, if_false, if_true]

variable (hdue : s.stageDue h n = true)
include hdue

theorem State.endStage_of_passed (hwork : s.stageWork h n rep = .inl t) :
    s.endStage h rep = if n = 2 then t.passTwo h else t.stagePass h (if n = 8 then t.planDetail else 0) := by
  subst hn
  rw [State.endStage]
  simp only [hbringing, hfailure, hdue, hwork, bne_self_eq_false, Bool.not_true, Bool.false_eq_true, if_false]

theorem State.endStage_of_failed (hwork : s.stageWork h n rep = .inr t) : s.endStage h rep = t := by
  subst hn
  rw [State.endStage]
  simp only [hbringing, hfailure, hdue, hwork, bne_self_eq_false, Bool.not_true, Bool.false_eq_true, if_false]

end

/-- The start of stage 1, whose record runs, is the end of stage 0. -/
theorem State.stagePass_of_zero {s : State} {h : Nat} (hstage : (s.hall h).up.stage = 0) (detail : Nat) :
    ((s.stagePass h detail).hall h).up.stage = 1 ∧ ((s.stagePass h detail).hall h).up.start = s.time ∧
      ((s.stagePass h detail).hall h).up.ended = (s.hall h).up.ended ∧ (s.stagePass h detail).rooms = s.rooms := by
  generalize hu : s.modUp h (fun u => (u.close (if s.alone h then 3 else 1) 0 detail s.time).next s.time) = u
  have hup : (u.hall h).up = ((s.hall h).up.close (if s.alone h then 3 else 1) 0 detail s.time).next s.time := by
    rw [← hu]
    exact congrArg Hall.up (Store.get_set_self_of_ne _ _ _ _ fun e =>
      Nat.succ_ne_zero _ (congrArg (fun x : Hall => x.up.stage) e))
  have hone : (u.hall h).up.stage = 1 := by rw [hup]; exact congrArg (· + 1) hstage
  have hpass : s.stagePass h detail = u := by
    rw [State.stagePass]
    simp only [hu, hone]
    rfl
  rw [hpass, hone, hup]
  exact ⟨rfl, rfl, rfl, hu ▸ rfl⟩

section

variable {s : State} {h : Nat}

theorem State.hall_modHall_ne {k : Nat} (f : Hall → Hall) (hk : k ≠ h) : (s.modHall h f).hall k = s.hall k :=
  Store.get_set_ne _ _ _ _ _ hk

/-- A failure whose scope is a Wing holds that Wing and loses its Hall, while the other has not failed (R419). -/
theorem State.stageFail_of_wing {code : Nat} (detail : Nat) (hh : isHall h = true) (hwing : wingScope code = true)
    (hother : (s.hall (1 - h)).up.held = false) : s.stageFail h code detail = State.refresh (State.loseChannels
      ((s.modUp h fun u => { u.close 2 code detail s.time with ended := true, held := true }).modHall h
        ({ · with lost := true })) h) := by
  have hlt : h < 2 := of_decide_eq_true hh
  have hkept (f : HallBringUp → HallBringUp) : ((s.modUp h f).hall (1 - h)).up.held = false := by
    rw [State.modUp, State.hall_modHall_ne _ (by omega), hother]
  rw [State.stageFail, State.stageFailIn, hwing]
  simp only [hkept, Bool.not_false, Bool.and_self, if_true]

/-- A stage that overruns its limit stops the module, without a lockout (R418, R419). -/
theorem State.stageFail_of_timeout (detail : Nat) : s.stageFail h 0x11 detail = State.refresh (State.goSilent
    (s.modUp h fun u => { u.close 2 0x11 detail s.time with ended := true, held := false })) := by
  have hmodule : wingScope 0x11 = false := by decide
  rw [State.stageFail, State.stageFailIn, hmodule]
  simp only [Bool.false_and, Bool.false_eq_true, if_false]
  generalize State.goSilent _ = g
  exact congrArg State.refresh (by simp)

end

section

variable {s t : State} {h n : Nat} (hh : isHall h = true) {rep : StageReport}
include hh

theorem exec_bringupStage_of : exec (.bringupStage h rep) s = .next (s.keepQueue (s.endStage h rep)) := by
  rw [exec_bringupStage, execBringupStage, onUnits_of _ _ _ hh]

theorem exec_bringupStage_of_idle (hidle : s.bringing h = false) : exec (.bringupStage h rep) s = .next s := by
  rw [exec_bringupStage_of hh, State.endStage_of_idle hidle]
  rfl

theorem exec_stageTimeout_of_idle (hidle : s.bringing h = false) : exec (.stageTimeout h) s = .next s := by
  rw [exec_stageTimeout, execStageTimeout, onUnits_of _ _ _ hh]
  simp only [hidle, Bool.not_false, Bool.true_or, if_true]
  rfl

theorem exec_bringupStage_of_zero (hbringing : s.bringing h = true) (hstage : (s.hall h).up.stage = 0)
    (hfailure : rep.failure = 0) (hpower : 2 ≤ s.power.upStep) : ∃ u, exec (.bringupStage h rep) s = .next u ∧
      (u.hall h).up.stage = 1 ∧ (u.hall h).up.start = s.time ∧ (u.hall h).up.ended = false ∧ u.rooms = s.rooms := by
  have hdue : s.stageDue h 0 = true := by simp [State.stageDue, hpower]
  have hopen : (s.hall h).up.ended = false := by
    simp only [State.bringing, Bool.and_eq_true, Bool.not_eq_true'] at hbringing
    exact hbringing.1.2
  obtain ⟨hone, hstart, hended, hrooms⟩ := State.stagePass_of_zero hstage 0
  refine ⟨_, exec_bringupStage_of hh, ?_⟩
  rw [State.endStage_of_passed hbringing hstage.symm hfailure hdue rfl, if_neg (by decide), if_neg (by decide)]
  generalize s.stagePass h 0 = u at hone hstart hended hrooms ⊢
  exact ⟨hone, hstart, hended.trans hopen, hrooms⟩

variable (hn : n = (s.hall h).up.stage)
include hn

theorem exec_stageTimeout_early (ht : s.stageTime h < stageLimit s n) : exec (.stageTimeout h) s = .next s := by
  subst hn
  rw [exec_stageTimeout, execStageTimeout, onUnits_of _ _ _ hh]
  simp only [ht, decide_true, Bool.or_true, if_true]
  rfl

theorem exec_stageTimeout_due (hbringing : s.bringing h = true) (ht : stageLimit s n ≤ s.stageTime h) :
    exec (.stageTimeout h) s = .next (s.keepQueue (State.refresh (State.goSilent (s.modUp h fun u => {
      u.close 2 0x11 (stageLimit s n / 1000) s.time with ended := true, held := false })))) := by
  subst hn
  rw [exec_stageTimeout, execStageTimeout, onUnits_of _ _ _ hh]
  simp only [hbringing, Nat.not_lt.2 ht, decide_false, Bool.not_true, Bool.or_self, Bool.false_eq_true, if_false]
  rw [State.stageFail_of_timeout]

end

/-! ### SVC_EN#, PERST#, the input and the connector (R420, R422, R425, R428, R441, R442) -/

section

variable {s : State} {h : Nat} (hh : isHall h = true)
include hh

theorem exec_svcEn_of_high (hhigh : (s.hall h).svcLow = false) :
    exec (.svcEn h true) s = .next (s.modHall h ({ · with svcLow := true, svcSince := s.time })) ∧
      exec (.svcEn h false) s = .next s := by
  refine ⟨?_, ?_⟩
  · rw [exec_svcEn, execSvcEn]
    simp only [hhigh]
    exact onUnits_of_pending hh rfl
  · rw [exec_svcEn, execSvcEn]
    simp only [hhigh]
    exact onUnits_of_pending hh rfl

theorem exec_perstDeassert_of :
    exec (.perstDeassert h) s = .next (s.modHall h ({ · with perst := false, wakeOut := false })) := by
  rw [exec_perstDeassert, execPerstDeassert]
  exact onUnits_of_pending hh rfl

theorem exec_perstAssert_of_down (hdown : (s.hall h).hostUp = false) : exec (.perstAssert h) s = .next (s.modHall h
    ({ · with perst := true, hostUp := false, hostRate := 0, hostWidth := 0 })) := by
  rw [exec_perstAssert, execPerstAssert]
  simp only [hdown, Bool.false_eq_true, if_false]
  exact onUnits_of_pending hh rfl

theorem exec_perstAssert_of_up (hup : (s.hall h).hostUp = true) : exec (.perstAssert h) s = .next (s.keepQueue
    ((s.linkDown (24 + h)).modHall h ({ · with perst := true, hostUp := false, hostRate := 0, hostWidth := 0 }))) := by
  rw [exec_perstAssert, execPerstAssert, onUnits_of _ _ _ hh]
  simp only [hup, if_true]

end

/-- Without power each Hall stands at the start of stage 0. -/
theorem State.stage_unpowered (s : State) (now : Nat) (st : PowerState) {h : Nat} (hh : h < 2) :
    ((s.unpowered now st).hall h).up.stage = 0 := by
  obtain rfl | rfl : h = 0 ∨ h = 1 := by omega
  · exact congrArg (fun x : Hall => x.up.stage) (Store.get_setRange ({} : Hall) [_, _] [] 0 0 (by simp) rfl)
  · exact congrArg (fun x : Hall => x.up.stage) (Store.get_setRange ({} : Hall) [_, _] [] 0 1 (by simp) rfl)

section

variable {s : State}

theorem exec_inputSwitchOpen_of : exec .inputSwitchOpen s = .next (s.unpowered 0 .off) := by
  rw [exec_inputSwitchOpen, execInputSwitchOpen]
  exact onUnits_of_pending rfl rfl

theorem exec_inputRestore_of_off (h : s.power.st = .off) : exec .inputRestore s = .next (s.unpowered 0 .powerUp) := by
  rw [exec_inputRestore, execInputRestore, if_pos (by rw [h]; rfl)]
  exact onUnits_of_pending rfl rfl

theorem exec_inputRestore_of_on (h : s.power.st ≠ .off) : exec .inputRestore s = .next s := by
  rw [exec_inputRestore, execInputRestore, if_neg (by simpa using h)]
  exact onUnits_of_pending rfl rfl

/-- Ports that are not up have no driver to stop. -/
theorem State.foldl_portDown_of_down {l : List Nat} (h : ∀ p ∈ l, (s.port p).st ≠ 2) :
    l.foldl (fun s p => if (s.port p).st = 2 then s.linkDown p else s) s = s :=
  List.foldlRecOn (motive := (· = s)) l _ rfl fun t ht p hp => by rw [ht, if_neg (h p hp)]

variable (hports : ∀ p, p < 12 → (s.port p).st ≠ 2)
include hports

theorem exec_presenceLoss_of : exec .presenceLoss s = .next (s.keepQueue
    ([0, 1].foldl (fun s h => if (s.hall h).hostUp then s.linkDown (24 + h) else s) s)) := by
  rw [exec_presenceLoss, execPresenceLoss, onUnits_next, State.foldl_portDown_of_down fun p hp => hports p (List.mem_range.1 hp)]

theorem exec_presenceLoss_of_no_host (h0 : (s.hall 0).hostUp = false) (h1 : (s.hall 1).hostUp = false) :
    exec .presenceLoss s = .next s := by
  rw [exec_presenceLoss_of hports]
  simp only [List.foldl_cons, List.foldl_nil, h0, h1, Bool.false_eq_true, if_false]
  rfl

theorem exec_presenceLoss_of_west (h0 : (s.hall 0).hostUp = true) (h1 : ((s.linkDown 24).hall 1).hostUp = false) :
    exec .presenceLoss s = .next (s.keepQueue (s.linkDown 24)) := by
  rw [exec_presenceLoss_of hports]
  simp only [List.foldl_cons, List.foldl_nil, h0, h1, Nat.add_zero, Bool.false_eq_true, if_false, if_true]

end

/-- Settles O57: steps, groups and stages by what they find due, and the pins by what they find up. -/
theorem bringUpEvents : Obligations.BringUpEvents := by
  unfold Obligations.BringUpEvents
  intro s t h f n failed rep
  refine ⟨fun hn hle hat => ⟨fun hlow => ?rail, fun hstack => ⟨?stack, ?stackFailed⟩⟩, fun hdone => ?stepsDone,
    fun hf => ⟨fun hwait => ?waiting, fun hdue hready => ⟨fun hgroups => ?groupsDone,
        fun hbringing hstage hn hlt => ⟨?group, fun hrooms hfloors => ?groupSpec⟩⟩, fun hdue hready => ?service⟩,
    fun hh => ⟨fun hidle => ⟨exec_bringupStage_of_idle hh hidle, exec_stageTimeout_of_idle hh hidle⟩,
      fun hbringing hn => ⟨fun hfailure hcode => ?failure, fun hfailure hdue => ?early,
        fun hfailure hdue hwork => ⟨fun htwo => ?pass, fun htwo => ?passTwo⟩, fun hfailure hdue hwork => ?stageFails,
        fun hfailure hzero hpower => exec_bringupStage_of_zero hh hbringing (hn.symm.trans hzero) hfailure hpower,
        exec_stageTimeout_early hh hn, exec_stageTimeout_due hh hn hbringing⟩,
      State.stageFail_of_wing f hh, exec_svcEn_of_high hh, exec_perstDeassert_of hh, exec_perstAssert_of_down hh,
      exec_perstAssert_of_up hh⟩,
    ⟨_, exec_inputSwitchOpen_of, rfl, rfl, rfl, rfl, rfl, rfl, rfl, rfl⟩,
    fun hoff => ⟨_, exec_inputRestore_of_off hoff, rfl, rfl, rfl, rfl, fun h hh => s.stage_unpowered 0 .powerUp hh⟩,
    exec_inputRestore_of_on,
    fun hports h1 => ⟨fun h0 => exec_presenceLoss_of_no_host hports h0 h1, exec_presenceLoss_of_west hports⟩⟩
  case rail =>
    rw [exec_powerUpStep_of, State.powerStep_good hn hle hat, if_neg (Nat.not_le.2 hlow)]
    rfl
  case stack =>
    rw [exec_powerUpStep_of, State.powerStep_good hn hle hat, if_pos hstack]
    rfl
  case stackFailed => rw [exec_powerUpStep_of, State.powerStep_failed hn hle hat hstack]
  case stepsDone =>
    rw [exec_powerUpStep_of, State.powerStep_of_done hdone]
    rfl
  case waiting =>
    rw [exec_roomSwitchGroup_of hf, State.switchGroup_of_waiting hwait]
    rfl
  case groupsDone =>
    rw [exec_roomSwitchGroup_of hf, State.switchGroup_of_done hdue hready hgroups]
    rfl
  case group => rw [exec_roomSwitchGroup_of hf, State.switchGroup_of_stage hdue hready hbringing hstage hn hlt]
  case groupSpec =>
    exact ⟨_, exec_roomSwitchGroup_of hf failed s, State.switchGroup_spec hdue hready hbringing hstage hn hlt hrooms hfloors⟩
  case service => rw [exec_roomSwitchGroup_of hf, State.switchGroup_of_service hdue hready]
  case failure => rw [exec_bringupStage_of hh, State.endStage_of_failure hbringing hn hfailure hcode]
  case early =>
    rw [exec_bringupStage_of hh, State.endStage_of_early hbringing hn hfailure hdue]
    rfl
  case pass => rw [exec_bringupStage_of hh, State.endStage_of_passed hbringing hn hfailure hdue hwork, if_neg htwo]
  case passTwo => rw [exec_bringupStage_of hh, State.endStage_of_passed hbringing hn hfailure hdue hwork, if_pos htwo]
  case stageFails => rw [exec_bringupStage_of hh, State.endStage_of_failed hbringing hn hfailure hdue hwork]

end Sys2Proof.Machine
end

section
/-! PROOF. The Ledgers (R359 to R364), the Tallies and the reset ladder (R365 to R374), the Wardens (R375, R376), fail-silent
(R377) and the module reset (R368). -/

namespace Sys2Proof.Machine

open Sys2Proof.Safety

/-! ### The Ledger of a Hall (R359, R360, R362) -/

/-- A change of a Ledger depends on what it makes of the Ledger as it stands. -/
theorem State.modLedger_congr {s : State} {h : Nat} {f g : Ledger → Ledger} (e : f (s.hall h).ledger = g (s.hall h).ledger) :
    s.modLedger h f = s.modLedger h g := by simp only [State.modLedger, State.modHall, e]

/-- A Ledger with one more record, `lost` records lost. -/
def Ledger.append (l : Ledger) (r : Report) (lost : Nat) : Ledger :=
  let x : LedgerRecord := { report := r, seq := l.tail + 1, storm := l.storm }
  Ledger.lastWord { l with
    ring := Store.set none l.ring ((l.tail + 1 - 1) % 1024) (some x), tail := l.tail + 1, lost
    opened := ((l.tail + 1) :: l.opened).take 32 } x

theorem Ledger.lastWord_fields (l : Ledger) (x : LedgerRecord) : (l.lastWord x).tail = l.tail ∧ (l.lastWord x).ring = l.ring ∧
    (l.lastWord x).queue = l.queue := by
  unfold Ledger.lastWord
  split <;> exact ⟨rfl, rfl, rfl⟩

theorem Ledger.append_spec (l : Ledger) (r : Report) (lost : Nat) : (l.append r lost).tail = l.tail + 1 ∧
    (∃ x, (l.append r lost).bySeq (l.append r lost).tail = some x ∧ x.report = r) ∧ (l.append r lost).queue = l.queue := by
  generalize hx : ({ report := r, seq := l.tail + 1, storm := l.storm } : LedgerRecord) = x
  have hseq : x.seq = l.tail + 1 := hx ▸ rfl
  obtain ⟨htail, hring, hqueue⟩ := Ledger.lastWord_fields { l with
    ring := Store.set none l.ring ((l.tail + 1 - 1) % 1024) (some x), tail := l.tail + 1, lost
    opened := ((l.tail + 1) :: l.opened).take 32 } x
  have happend : l.append r lost = Ledger.lastWord { l with
    ring := Store.set none l.ring ((l.tail + 1 - 1) % 1024) (some x), tail := l.tail + 1, lost
    opened := ((l.tail + 1) :: l.opened).take 32 } x := by rw [← hx]; rfl
  rw [happend]
  refine ⟨htail, ⟨x, ?_, hx ▸ rfl⟩, hqueue⟩
  rw [Ledger.bySeq, htail, hring, Store.get_set_self_of_ne _ _ _ _ (Option.some_ne_none x)]
  exact if_pos hseq

section

variable {s : State} {h : Nat}

theorem State.hall_modHall_of_ledger {f : Hall → Hall} (e : (f (s.hall h)).ledger ≠ {}) :
    (s.modHall h f).hall h = f (s.hall h) := Store.get_set_self_of_ne _ _ _ _ fun hall => e (by rw [hall])

/-- Sending a vector leaves a Ledger that has recorded anything. -/
theorem State.ledger_sendVector (v : Nat) (e : (s.hall h).ledger ≠ {}) :
    ((s.sendVector h v).hall h).ledger = (s.hall h).ledger := by
  unfold State.sendVector
  split
  · rfl
  · split
    · rw [State.hall_modHall_of_ledger (f := (·.modVector v ({ · with isPending := true }))) e]
      rfl
    · rfl

/-- Where no record is open to coalescing, the report gets a record of its own (R359). -/
theorem State.writeRecord_of_none (rep : Report) (hopened : (s.hall h).ledger.opened = []) : ∃ lost due v,
    s.writeRecord h rep = if due = true then (s.modLedger h (·.append rep lost)).sendVector h v
      else s.modLedger h (·.append rep lost) := by
  unfold State.writeRecord
  simp only [hopened, List.find?_nil]
  exact ⟨_, _, _, rfl⟩

theorem State.writeRecord_spec (rep : Report) (hopened : (s.hall h).ledger.opened = []) :
    ∃ l, ((s.writeRecord h rep).hall h).ledger = l ∧ l.tail = (s.hall h).ledger.tail + 1 ∧
      (∃ x, l.bySeq l.tail = some x ∧ x.report = rep) ∧ l.queue = (s.hall h).ledger.queue := by
  obtain ⟨lost, due, v, hwrite⟩ := State.writeRecord_of_none rep hopened
  obtain ⟨htail, hrecord, hqueue⟩ := (s.hall h).ledger.append_spec rep lost
  have hne : (s.hall h).ledger.append rep lost ≠ {} := fun e => Nat.succ_ne_zero _ (htail.symm.trans (congrArg Ledger.tail e))
  have hledger : ((s.modLedger h (·.append rep lost)).hall h).ledger = (s.hall h).ledger.append rep lost :=
    congrArg Hall.ledger (State.hall_modHall_of_ledger (f := fun x => { x with ledger := x.ledger.append rep lost }) hne)
  refine ⟨_, ?_, htail, hrecord, hqueue⟩
  rw [hwrite]
  split
  · rw [State.ledger_sendVector v (by rw [hledger]; exact hne), hledger]
  · exact hledger

variable (hh : isHall h = true)
include hh

theorem exec_ledgerRecord_of_empty (hnext : (s.hall h).ledger.next = none) : exec (.ledgerRecord h) s = .next s := by
  rw [exec_ledgerRecord, execLedgerRecord, onUnits_of _ _ _ hh]
  simp only [hnext]
  rfl

theorem exec_ledgerRecord_of {rep : Report} (hnext : (s.hall h).ledger.next = some rep) (hsilent : s.failSilent = false)
    (hcalm : (s.hall h).ledger.storm = false) : exec (.ledgerRecord h) s = .next (s.keepQueue ((s.modLedger h fun l => { l with
      queue := removeFirst (· == rep) l.queue, calmSince := l.calmSince }).writeRecord h rep)) := by
  rw [exec_ledgerRecord, execLedgerRecord, onUnits_of _ _ _ hh]
  simp only [hnext, hsilent, Bool.false_eq_true, if_false]
  rw [State.modLedger_congr]
  simp only [hcalm, Bool.false_and, Bool.false_eq_true, if_false]

theorem exec_stormEnd_of_busy (hcalm : (s.hall h).ledger.calmSince = none) : exec (.stormEnd h) s = .next s := by
  rw [exec_stormEnd, execStormEnd, onUnits_of _ _ _ hh]
  simp only [hcalm]
  rfl

theorem exec_stormEnd_of {t : Nat} (hcalm : (s.hall h).ledger.calmSince = some t) (hstorm : (s.hall h).ledger.storm = true)
    (hsilent : s.failSilent = false) (ht : t + 1000000 ≤ s.time) : exec (.stormEnd h) s = .next (s.keepQueue
      (((s.modLedger h ({ · with storm := false, calmSince := none })).bump (0x5004 + h) 12 32).writeRecord h
        { cls := 11, code := 2, severity := 0, kind := 6, index := h, detail := (s.hall h).ledger.stormLost, time := s.time })) := by
  rw [exec_stormEnd, execStormEnd, onUnits_of _ _ _ hh]
  simp only [hcalm, hstorm, hsilent, Nat.not_lt.2 ht, decide_false, Bool.not_true, Bool.or_self, Bool.false_eq_true, if_false]
  rfl

end

/-! ### Fail-silent (R377) -/

/-- Steps that change only Halls and outputs do so together. -/
theorem State.iterate_halls_out {f : Nat → State → State} (hf : ∀ k s, ∃ halls out, f k s = { s with halls, out }) (n : Nat)
    (s : State) : ∃ halls out, iterate f n s = { s with halls, out } := by
  induction n with
  | zero => exact ⟨s.halls, s.out, rfl⟩
  | succ n ih =>
    obtain ⟨halls, out, h⟩ := ih
    obtain ⟨halls', out', h'⟩ := hf n { s with halls, out }
    exact ⟨halls', out', by rw [iterate, h, h']⟩

theorem State.recordLast_frame (h : Nat) (s : State) : ∃ halls out, s.recordLast h = { s with halls, out } := by
  unfold State.recordLast
  exact List.foldlRecOn (motive := fun t : State => ∃ halls out, t = { s with halls, out }) _ _ ⟨_, _, rfl⟩ fun t ht r _ => by
    obtain ⟨halls, out, rfl⟩ := ht
    obtain ⟨halls', out', hwrite⟩ := State.writeRecord_frame { s with halls, out } h r
    exact ⟨halls', out', hwrite⟩

theorem State.silencePort_spec (p : Nat) (s : State) : ((s.silencePort p).port p).st = 3 ∧
    (∀ o, o ≠ p → (s.silencePort p).port o = s.port o) ∧ ∃ halls mortar out, s.silencePort p = { s with halls, mortar, out } := by
  unfold State.silencePort
  generalize hu : (if (s.port p).st = 0 then s else s.emit (.mortarFault p)) = u
  obtain ⟨out, rfl⟩ : ∃ out, u = { s with out } := by
    rw [← hu]
    split
    · exact ⟨s.out, rfl⟩
    · exact ⟨_, rfl⟩
  obtain ⟨_, htunnels⟩ := (State.modPort { s with out } p ({ · with st := 3 })).loseTunnels_frame (· == p)
  rw [htunnels]
  refine ⟨?_, fun o ho => State.port_modPort_ne { s with out } ({ · with st := 3 }) ho, _, _, out, rfl⟩
  exact congrArg MortarPort.st (State.port_modPort (s := { s with out }) (f := ({ · with st := 3 })) (by simp))

theorem State.iterate_silencePort (n : Nat) (s : State) : (∀ p < n, ((iterate State.silencePort n s).port p).st = 3) ∧
    ∃ halls mortar out, iterate State.silencePort n s = { s with halls, mortar, out } := by
  induction n with
  | zero => exact ⟨nofun, _, _, _, rfl⟩
  | succ n ih =>
    obtain ⟨hports, halls, mortar, out, hframe⟩ := ih
    obtain ⟨hself, hothers, halls', mortar', out', hstep⟩ := State.silencePort_spec n (iterate State.silencePort n s)
    rw [iterate]
    refine ⟨fun p hp => ?_, halls', mortar', out', by rw [hstep, hframe]⟩
    by_cases hpn : p = n
    · rw [hpn, hself]
    · rw [hothers p hpn, hports p (by omega)]

theorem State.iterate_modFeed (f : IngestPort → IngestPort) (n : Nat) (s : State) :
    ∃ ingest, iterate (fun k s => s.modFeed k f) n s = { s with ingest } := by
  induction n with
  | zero => exact ⟨s.ingest, rfl⟩
  | succ n ih =>
    obtain ⟨_, h⟩ := ih
    exact ⟨_, by rw [iterate, h]; rfl⟩

/-- Fail-silent asserts FAULT# and holds every Mortar port down; Rooms and Suites stand. -/
theorem State.goSilent_spec {s : State} (h : s.failSilent = false) : s.goSilent.failSilent = true ∧ s.goSilent.faultPin = true ∧
    (∀ p, p < 12 → (s.goSilent.port p).st = 3) ∧ s.goSilent.rooms = s.rooms ∧ s.goSilent.suites = s.suites := by
  obtain ⟨halls, out, hlast⟩ := State.iterate_halls_out State.recordLast_frame 2 s
  obtain ⟨halls', out', hhalls⟩ := State.iterate_halls_out (f := State.silenceHall) (fun _ _ => ⟨_, _, rfl⟩) 2
    { s with halls, out, failSilent := true, faultPin := true }
  obtain ⟨hports, _, _, _, hframe⟩ := State.iterate_silencePort 12
    { s with halls := halls', out := out', failSilent := true, faultPin := true }
  rw [State.goSilent, if_neg (by rw [h]; decide), hlast]
  simp only [hhalls]
  generalize iterate State.silencePort 12 _ = t at hports hframe ⊢
  obtain ⟨_, hfeeds⟩ := State.iterate_modFeed ({ · with up := false }) 4 t
  rw [hfeeds]
  have hsilent : t.failSilent = true := by rw [hframe]
  have hpin : t.faultPin = true := by rw [hframe]
  have hrooms : t.rooms = s.rooms := by rw [hframe]
  have hsuites : t.suites = s.suites := by rw [hframe]
  exact ⟨hsilent, hpin, hports, hrooms, hsuites⟩

theorem State.failSilent_goSilent (s : State) : s.goSilent.failSilent = true := by
  by_cases h : s.failSilent = true
  · rw [State.goSilent, if_pos h, h]
  · exact (State.goSilent_spec (by simpa using h)).1

section

variable {s : State} {h : Nat} (hh : isHall h = true)
include hh

/-! ### The Wardens (R375, R376) -/

theorem exec_wardenMismatch_of_stopped (hrun : (s.hall h).warden.running = false) : exec (.wardenMismatch h) s = .next s := by
  rw [exec_wardenMismatch, execWardenMismatch, onUnits_of _ _ _ hh, if_pos (by rw [hrun]; rfl)]
  rfl

theorem exec_wardenMismatch_of_running (hrun : (s.hall h).warden.running = true) :
    exec (.wardenMismatch h) s = .next (s.keepQueue ((s.draw.2.lastWord h { cls := 7, code := s.draw.1 % 65536, severity := 4
                                                                            kind := 6, index := h, time := s.draw.2.time }).modWarden h
      fun w => { w with running := false, rungs := [], mismatches := w.mismatches + 1 })) := by
  rw [exec_wardenMismatch, execWardenMismatch, onUnits_of _ _ _ hh, if_neg (by rw [hrun]; decide)]

theorem exec_wardenRungOverdue_of_stopped (hrun : (s.hall h).warden.running = false) :
    exec (.wardenRungOverdue h) s = .next s := by
  rw [exec_wardenRungOverdue, execWardenRungOverdue, onUnits_of _ _ _ hh]
  simp only [hrun, Bool.not_false, Bool.true_or, if_true]
  rfl

theorem exec_wardenRungOverdue_of_overdue (hrun : (s.hall h).warden.running = true)
    (hover : ∃ x ∈ (s.hall (1 - h)).warden.rungs, x.2.2 + 2 * rungTimeout x.1 ≤ s.time) :
    exec (.wardenRungOverdue h) s = .next (s.keepQueue ((s.hallLost (1 - h)).startWing (1 - h))) := by
  have hany : ((s.hall (1 - h)).warden.rungs.any fun x => decide (x.2.2 + 2 * rungTimeout x.1 ≤ s.time)) = true := by
    simpa only [List.any_eq_true, decide_eq_true_eq] using hover
  rw [exec_wardenRungOverdue, execWardenRungOverdue, onUnits_of _ _ _ hh]
  simp only [hrun, hany, Bool.not_true, Bool.or_self, Bool.false_eq_true, if_false]

theorem exec_failSilent_of_running (hrun : (s.hall h).warden.running = true) : exec (.failSilent h) s = .next s := by
  rw [exec_failSilent, execFailSilent, onUnits_of _ _ _ hh]
  simp only [hrun, Bool.true_or, if_true]
  rfl

theorem exec_failSilent_of_stopped (hrun : (s.hall h).warden.running = false)
    (ht : max (s.hall h).warden.lintelLease (s.hall h).warden.lineLease + 150000 ≤ s.time) :
    exec (.failSilent h) s = .next (s.keepQueue s.goSilent) := by
  rw [exec_failSilent, execFailSilent, onUnits_of _ _ _ hh]
  simp only [hrun, Nat.not_lt.2 ht, decide_false, Bool.or_self, Bool.false_eq_true, if_false]

/-! ### The Tally of a copy engine (R365) -/

theorem exec_tallyFire_of_idle (hbusy : s.copyBusy h = false) : exec (.tallyFire 9 (.copyEngine h)) s = .next s := by
  rw [exec_tallyFire, execTallyFire, onUnits_of _ _ _ (by rw [isUnit, hh]; rfl), State.tally]
  simp only [hbusy, Bool.false_eq_true, if_false]
  rfl

theorem exec_tallyFire_of_busy {v : State} (hbusy : s.copyBusy h = true)
    (hv : v = (s.report 6 1 3 8 (2560 + 16 * h + 9) 0 (9 + s.tallyWindow 9 (.copyEngine h) * 16)).bump 0x5021 9 64) :
    exec (.tallyFire 9 (.copyEngine h)) s = .next (s.keepQueue
      ((v.killIn (v.usesSegment (.copyEngine h))).startRung 3 (.copyEngine h))) := by
  rw [exec_tallyFire, execTallyFire, onUnits_of _ _ _ (by rw [isUnit, hh]; rfl), State.tally, hv]
  simp only [hbusy, if_true]
  rfl

end

/-! ### The Tally of a Mortar port (R353, R365) -/

/-- A Mortar port retrains: it is no longer up, and its tunnels are lost. -/
theorem State.retrain_spec (s : State) {p : Nat} (hp : p < 12) : ((s.retrain p).port p).st = 1 ∧
    (p, s.time) ∈ (s.retrain p).retraining ∧ (s.retrain p).rooms = s.rooms ∧ (s.retrain p).suites = s.suites := by
  have hlast : (p, s.time) ∈ (s.retraining.filter fun e => e.1 != p) ++ [(p, s.time)] :=
    List.mem_append_right _ (List.mem_singleton_self _)
  rw [State.retrain]
  simp only [if_pos hp]
  generalize (s.retraining.filter fun e => e.1 != p) ++ [(p, s.time)] = retraining at hlast ⊢
  have hport := State.port_modPort (s := { s with retraining }) (p := p) (f := ({ · with st := 1 })) (by simp)
  obtain ⟨_, htunnels⟩ := (State.modPort { s with retraining } p ({ · with st := 1 })).loseTunnels_frame (· == p)
  rw [htunnels]
  exact ⟨congrArg MortarPort.st hport, hlast, rfl, rfl⟩

section

variable {s : State} {p : Nat} (hp : isMortar p = true)
include hp

theorem isUnit_link_of_isMortar : isUnit (.link p) = true := by
  simp only [isMortar, decide_eq_true_eq] at hp
  simp [isUnit, isLink, hp]

theorem exec_tallyFire_of_suspended (h : s.linkSuspended p = true) : exec (.tallyFire 7 (.link p)) s = .next s := by
  rw [exec_tallyFire, execTallyFire, onUnits_of _ _ _ (by rw [isUnit_link_of_isMortar hp]; rfl), State.tally]
  simp only [h, if_true]
  rfl

theorem exec_tallyFire_of_stuck (h : s.linkSuspended p = false) : ∃ u, exec (.tallyFire 7 (.link p)) s = .next u ∧
    (u.port p).st = 1 ∧ (p, s.time) ∈ u.retraining ∧ u.rooms = s.rooms ∧ u.suites = s.suites := by
  obtain ⟨halls, dict, out, hreport⟩ := s.report_frame 6 1 3 (unitSource (.link p)).1 (unitSource (.link p)).2 0
    (7 + s.tallyWindow 7 (.link p) * 16)
  obtain ⟨hport, hretraining, hrooms, hsuites⟩ :=
    (State.bump { s with halls, dict, out } 0x5021 7 64).retrain_spec (by simpa [isMortar] using hp)
  refine ⟨s.keepQueue _, ?_, hport, hretraining, hrooms, hsuites⟩
  rw [exec_tallyFire, execTallyFire, onUnits_of _ _ _ (by rw [isUnit_link_of_isMortar hp]; rfl), State.tally]
  simp only [h, Bool.false_eq_true, if_false, hreport]

end

/-! ### The reset ladder (R368, R370) -/

section

variable {s : State} {rung : Nat} {u : UnitRef} (hrung : isRung rung = true) (hu : isUnit u = true)
include hrung hu

theorem exec_rungComplete_of_none (hheld : s.heldRung rung u = none) : exec (.rungComplete rung u) s = .next s := by
  rw [exec_rungComplete, execRungComplete, onUnits_of _ _ _ (by rw [hrung, hu]; rfl), hheld]
  rfl

theorem exec_rungTimeout_of_none (hheld : s.heldRung rung u = none) : exec (.rungTimeout rung u) s = .next s := by
  rw [exec_rungTimeout, execRungTimeout, onUnits_of _ _ _ (by rw [hrung, hu]; rfl), hheld]
  rfl

theorem exec_rungTimeout_early {h t : Nat} (hheld : s.heldRung rung u = some (h, t)) (ht : s.time < t + rungTimeout rung) :
    exec (.rungTimeout rung u) s = .next s := by
  rw [exec_rungTimeout, execRungTimeout, onUnits_of _ _ _ (by rw [hrung, hu]; rfl)]
  simp only [hheld, if_pos ht]
  rfl

end

section

variable {s : State} {h t : Nat}

theorem exec_rungComplete_room {r : Nat} (hr : isRoom r = true) (hheld : s.heldRung 2 (.room r) = some (h, t)) :
    exec (.rungComplete 2 (.room r)) s = .next (s.keepQueue (((s.dropRung h 2 (.room r)).report 7 2 3 2 r 0
      (2 + (s.time - t) * 8)).modForeman r fun f => if f.run == .hold then { f with run := .idle } else f)) := by
  rw [exec_rungComplete, execRungComplete, onUnits_of _ _ _ (by rw [isUnit, hr]; rfl)]
  simp only [hheld]
  rfl

theorem exec_rungTimeout_room {r : Nat} (hr : isRoom r = true) (hheld : s.heldRung 2 (.room r) = some (h, t))
    (ht : t + 50000 ≤ s.time) : exec (.rungTimeout 2 (.room r)) s = .next (s.keepQueue
      ((((s.dropRung h 2 (.room r)).report 7 3 3 2 r 0 (2 + (s.time - t) * 8)).bump 0x5032 2 32).loseRoom r)) := by
  rw [exec_rungTimeout, execRungTimeout, onUnits_of _ _ _ (by rw [isUnit, hr]; rfl)]
  simp only [hheld]
  exact congrArg (fun u => Host.Outcome.next (s.keepQueue u)) (if_neg (Nat.not_lt.2 ht))

theorem exec_rungTimeout_brick {g : Nat} (hg : g < 327680) (hheld : s.heldRung 1 (.brick g) = some (h, t))
    (ht : t + 5000 ≤ s.time) : exec (.rungTimeout 1 (.brick g)) s = .next (s.keepQueue
      ((((s.dropRung h 1 (.brick g)).report 7 3 3 1 g 0 (1 + (s.time - t) * 8)).bump 0x5032 1 32).loseBrick g)) := by
  rw [exec_rungTimeout, execRungTimeout, onUnits_of _ _ _ (by rw [isUnit, decide_eq_true hg]; rfl)]
  simp only [hheld]
  exact congrArg (fun u => Host.Outcome.next (s.keepQueue u)) (if_neg (Nat.not_lt.2 ht))

/-- The module rung that times out leaves nothing to reset: the module stops. -/
theorem exec_rungTimeout_module {g : Nat} (hg : isHall g = true) (hheld : s.heldRung 5 (.wing g) = some (h, t))
    (ht : t + 256000000 ≤ s.time) : exec (.rungTimeout 5 (.wing g)) s = .next (s.keepQueue
      ((((s.dropRung h 5 (.wing g)).report 7 3 3 6 g 0 (5 + (s.time - t) * 8)).bump 0x5032 5 32).goSilent)) := by
  rw [exec_rungTimeout, execRungTimeout, onUnits_of _ _ _ (by rw [isUnit, hg]; rfl)]
  simp only [hheld]
  exact congrArg (fun u => Host.Outcome.next (s.keepQueue u)) (if_neg (Nat.not_lt.2 ht))

end

/-! ### The module reset (R294, R368) -/

theorem State.moduleRung_spec (s : State) (cause : Nat) : (s.moduleRung cause).rooms = [] ∧ (s.moduleRung cause).suites = [] ∧
    (s.moduleRung cause).contexts = [] ∧ (s.moduleRung cause).dict = [] ∧ (s.moduleRung cause).ready = false ∧
    (s.moduleRung cause).resetCause = cause ∧ (s.moduleRung cause).time = s.time := by
  obtain ⟨_, _, hword⟩ := s.writeRecord_frame s.senior
    { cls := 7, code := 1, severity := 3, kind := 0, index := 0, detail := 5, time := s.time }
  rw [State.moduleRung, State.lastWord, hword]
  exact ⟨rfl, rfl, rfl, rfl, rfl, rfl, rfl⟩

section

variable {s : State} {q : Chan} (hserved : Served s q 0x5030 1 1)
include hserved

theorem exec_moduleReset_of : exec (.moduleReset q) s =
    .next (s.keepQueue (noted s ((s.reply q 0x5030 1 0 []).moduleRung 2) q 0x5030 1)) := by
  rw [exec_moduleReset, execModuleReset, onUnits_of _ _ _ (served_isChan hserved), served_download s q 0x5030 1 [1] _ hserved]
  rfl

theorem exec_moduleReset_spec : ∃ u, exec (.moduleReset q) s = .next u ∧ u.rooms = [] ∧ u.suites = [] ∧ u.contexts = [] ∧
    u.dict = [] ∧ u.ready = false ∧ u.resetCause = 2 ∧ u.time = s.time := by
  obtain ⟨_, _, hreply⟩ := s.reply_frame q 0x5030 1 0 []
  have htime : (s.reply q 0x5030 1 0 []).time = s.time := by rw [hreply]
  obtain ⟨hrooms, hsuites, hcontexts, hdict, hready, hcause, hnow⟩ := (s.reply q 0x5030 1 0 []).moduleRung_spec 2
  refine ⟨_, exec_moduleReset_of hserved, ?_⟩
  generalize (s.reply q 0x5030 1 0 []).moduleRung 2 = t at hrooms hsuites hcontexts hdict hready hcause hnow ⊢
  obtain ⟨_, hnoted⟩ := noted_frame s t q 0x5030 1
  rw [hnoted]
  exact ⟨hrooms, hsuites, hcontexts, hdict, hready, hcause, hnow.trans htime⟩

end

/-- Settles O58: each event by the lemma on its handler above. What a report's record holds comes from `Ledger.append_spec`, the
fail-silent state from the frames of its loops, and the module reset from the one record update that clears the state. -/
theorem errorEvents : Obligations.ErrorEvents := by
  unfold Obligations.ErrorEvents
  intro s v q h g r t rung p rep u
  refine ⟨fun hh => ⟨exec_ledgerRecord_of_empty hh, exec_ledgerRecord_of hh, State.writeRecord_spec rep, exec_stormEnd_of hh,
    exec_stormEnd_of_busy hh, exec_tallyFire_of_idle hh, exec_tallyFire_of_busy hh,
    fun hrun => ⟨exec_wardenMismatch_of_stopped hh hrun, exec_wardenRungOverdue_of_stopped hh hrun⟩,
    exec_wardenMismatch_of_running hh, exec_wardenRungOverdue_of_overdue hh, exec_failSilent_of_running hh, fun hrun ht => ?_⟩,
    exec_tallyFire_of_stuck, exec_tallyFire_of_suspended,
    fun hrung hu hheld => ⟨exec_rungComplete_of_none hrung hu hheld, exec_rungTimeout_of_none hrung hu hheld⟩,
    fun hr hheld => ⟨exec_rungComplete_room hr hheld,
      exec_rungTimeout_early (by decide) (by rw [isUnit, hr]) hheld, exec_rungTimeout_room hr hheld⟩,
    exec_rungTimeout_brick, exec_rungTimeout_module,
    fun hserved => ⟨exec_moduleReset_of hserved, exec_moduleReset_spec hserved⟩, s.moduleRung_spec t, s.failSilent_goSilent,
    fun hsilent => ?_⟩
  · have hexec := exec_failSilent_of_stopped hh hrun ht
    exact ⟨hexec, fun hsilent => ⟨_, hexec, State.goSilent_spec hsilent⟩⟩
  · obtain ⟨-, hpin, hports, -, -⟩ := State.goSilent_spec hsilent
    exact ⟨hpin, hports p⟩

end Sys2Proof.Machine
end
